-- ==== Sys2Proof/Word.lean ====
section
/-! DEFINITION. The words of the device: bytes, 64-bit register words (R13) and plain helpers over naturals
and bit vectors that every chapter uses. -/

namespace Sys2Proof

/-- A byte of memory. -/
abbrev Byte := BitVec 8

/-- A register word (R13: registers are 64 bits wide). -/
abbrev Word := BitVec 64

end Sys2Proof
end

