-- ==== Sys2Proof/Machine/Num.lean ====
section
/-! DEFINITION. Number formats (chapter Number formats, R109 to R131): exact values, rounding, flags and every
conversion between the stored formats. Values are held exactly as m × 2^e. -/

namespace Sys2Proof.Machine

/-- An exact value: NaN, a signed infinity, a signed zero, or ± m × 2^e with m above 0. -/
inductive Num where
  | nan
  | inf (neg : Bool)
  | zero (neg : Bool)
  | fin (neg : Bool) (m : Nat) (e : Int)
  deriving DecidableEq, Repr

def Num.isNan : Num → Bool
  | .nan => true
  | _ => false

/-- The rounding field (R121); values 5 to 7 are reserved and stand for none of these. -/
inductive Round where
  | rne
  | rtz
  | rup
  | rdn
  | rto
  deriving DecidableEq, Repr

def Round.ofCode : Nat → Option Round
  | 0 => some .rne
  | 1 => some .rtz
  | 2 => some .rup
  | 3 => some .rdn
  | 4 => some .rto
  | _ => none

/-- What lies beyond a truncated significand: nothing, less than half a unit, half, or more. -/
inductive Rem where
  | exact
  | low
  | half
  | high
  deriving DecidableEq, Repr

/-- Flag bits of R125. -/
def flagInexact : Nat := 1
def flagUnderflow : Nat := 2
def flagOverflow : Nat := 4
def flagSaturated : Nat := 8
def flagInvalid : Nat := 16
/-- Bit 5 of CO_VFLAGS (R182). -/
def flagDivZero : Nat := 32

/-- R122: whether the truncated significand t steps up to t + 1. -/
def roundUp (r : Round) (neg : Bool) (t : Nat) (rem : Rem) : Bool :=
  match rem with
  | .exact => false
  | .low =>
    match r with
    | .rne => false
    | .rtz => false
    | .rup => !neg
    | .rdn => neg
    | .rto => t % 2 == 0
  | .half =>
    match r with
    | .rne => t % 2 == 1
    | .rtz => false
    | .rup => !neg
    | .rdn => neg
    | .rto => t % 2 == 0
  | .high =>
    match r with
    | .rne => true
    | .rtz => false
    | .rup => !neg
    | .rdn => neg
    | .rto => t % 2 == 0

/-- A floating-point format: width in bits, significant bits p, bias, the patterns (positive sign) of the largest
finite value, of infinity where there is one, and of the canonical NaN (R110, R112). -/
structure Fmt where
  width : Nat
  p : Nat
  bias : Int
  maxBits : Nat
  infBits : Option Nat
  nanBits : Nat
  subnormals : Bool
  deriving DecidableEq, Repr

def fmtZ4 : Fmt := ⟨4, 2, 1, 0x7, none, 0x8, true⟩
def fmtZ9 : Fmt := ⟨9, 4, 15, 0x0F7, some 0x0F8, 0x0FF, true⟩
def fmtE4M3 : Fmt := ⟨8, 4, 7, 0x7E, none, 0x7F, true⟩
def fmtE5M2 : Fmt := ⟨8, 3, 15, 0x7B, some 0x7C, 0x7F, true⟩
def fmtZ16 : Fmt := ⟨16, 9, 63, 0x7EFF, some 0x7F00, 0x7FFF, true⟩
def fmtZ32 : Fmt := ⟨32, 24, 127, 0x7F7FFFFF, some 0x7F800000, 0x7FFFFFFF, false⟩
def fmtB16 : Fmt := ⟨16, 11, 15, 0x7BFF, some 0x7C00, 0x7E00, true⟩
def fmtB32 : Fmt := ⟨32, 24, 127, 0x7F7FFFFF, some 0x7F800000, 0x7FC00000, true⟩

/-- The smallest normal exponent of a format. -/
def Fmt.emin (f : Fmt) : Int := 1 - f.bias

/-- The stored formats by code (R109). -/
inductive FCode where
  | z4
  | e4m3
  | e5m2
  | z16
  | z32
  | b16
  | b32
  | i8
  | i16
  | i32
  deriving DecidableEq, Repr

def FCode.ofCode : Nat → Option FCode
  | 0 => some .z4
  | 1 => some .e4m3
  | 2 => some .e5m2
  | 3 => some .z16
  | 4 => some .z32
  | 5 => some .b16
  | 6 => some .b32
  | 7 => some .i8
  | 8 => some .i16
  | 9 => some .i32
  | _ => none

/-- The floating-point format of a code; none for the integers. -/
def FCode.fmt : FCode → Option Fmt
  | .z4 => some fmtZ4
  | .e4m3 => some fmtE4M3
  | .e5m2 => some fmtE5M2
  | .z16 => some fmtZ16
  | .z32 => some fmtZ32
  | .b16 => some fmtB16
  | .b32 => some fmtB32
  | .i8 => none
  | .i16 => none
  | .i32 => none

/-- Bits per element (R109). -/
def FCode.bits : FCode → Nat
  | .z4 => 4
  | .e4m3 => 8
  | .e5m2 => 8
  | .z16 => 16
  | .z32 => 32
  | .b16 => 16
  | .b32 => 32
  | .i8 => 8
  | .i16 => 16
  | .i32 => 32

/-- The value of a pattern (R110, R112, R113, R119); a Z4 code reads unscaled. -/
def Fmt.decode (f : Fmt) (bits : Nat) : Num :=
  let mag := bits % 2 ^ (f.width - 1)
  let neg := decide (bits / 2 ^ (f.width - 1) % 2 = 1)
  if f.width = 4 ∧ bits % 16 = 8 then .nan
  else if f.infBits = some mag then .inf neg
  else if f.maxBits < mag then .nan
  else
    let ef := mag / 2 ^ (f.p - 1)
    let mf := mag % 2 ^ (f.p - 1)
    if ef = 0 then
      if mf = 0 ∨ f.subnormals = false then .zero neg
      else .fin neg mf (f.emin - (f.p - 1 : Nat))
    else .fin neg (2 ^ (f.p - 1) + mf) ((ef : Int) - f.bias - (f.p - 1 : Nat))

/-- A signed pattern. -/
def Fmt.signed (f : Fmt) (neg : Bool) (mag : Nat) : Nat := if neg then mag + 2 ^ (f.width - 1) else mag

/-- floor(log2(m × 2^e)) for m above 0. -/
def log2Of (m : Nat) (e : Int) : Int := (Nat.log2 m : Int) + e

/-- m × 2^e in units of 2^u: the truncated count and what is left. -/
def truncAt (m : Nat) (e u : Int) : Nat × Rem :=
  if u ≤ e then (m * 2 ^ (e - u).toNat, .exact)
  else
    let d := (u - e).toNat
    let t := m / 2 ^ d
    let r := m % 2 ^ d
    (t, if r = 0 then .exact
        else if 2 * r < 2 ^ d then .low
        else if 2 * r = 2 ^ d then .half
        else .high)

/-- The positive pattern of t units of a binade whose unit exponent belongs to exponent e (R110): t below 2^(p-1) is
subnormal, t = 2^p has moved to the next binade (from the binade below the least, to the least normal). It grows with the magnitude, beyond maxBits too. -/
def Fmt.pattern (f : Fmt) (e : Int) (t : Nat) : Nat :=
  if t < 2 ^ (f.p - 1) then t
  else ((e + f.bias - 1) * (2 ^ (f.p - 1) : Nat) + t).toNat

/-- What a conversion or an operation answers: the destination pattern and the flags of R125. -/
structure Res where
  bits : Nat
  flags : Nat
  deriving DecidableEq, Repr

/-- R123: the pattern an overflow gives, positive or negative, and whether it is the largest finite value. -/
def Fmt.overflowsToMax (f : Fmt) (r : Round) (satf neg : Bool) : Bool :=
  f.width == 4 || satf ||
  match r with
  | .rne => false
  | .rtz => true
  | .rto => true
  | .rup => neg
  | .rdn => !neg

/-- A finite nonzero exact value of sign neg, of binade e, whose count of units of 2^u and remainder trunc u gives,
rounded to the format under R122 to R125 (DEDUCED, log 20). UNDERFLOW is judged on the delivered result, as R125 words it, for arithmetic too
(DEDUCED, log 20). -/
def Fmt.roundWith (f : Fmt) (r : Round) (satf neg : Bool) (e : Int) (trunc : Int → Nat × Rem) : Res :=
  let e' := if f.subnormals then max e f.emin else e
  let u := e' - (f.p - 1 : Nat)
  let tr := trunc u
  let t := tr.1
  let up := roundUp r neg t tr.2
  let n := if up then t + 1 else t
  if f.subnormals = false ∧ (e' + (if n = 2 ^ f.p then 1 else 0)) < f.emin then
    ⟨f.signed neg 0, flagUnderflow ||| flagInexact⟩
  else
    let pat := f.pattern e' n
    let beyond := decide (f.maxBits < f.pattern e' t) || (decide (f.pattern e' t = f.maxBits) && decide (tr.2 ≠ .exact))
    if f.maxBits < pat then
      if f.overflowsToMax r satf neg then
        ⟨f.signed neg f.maxBits, flagOverflow ||| flagSaturated ||| flagInexact⟩
      else
        match f.infBits with
        | some ib => ⟨f.signed neg ib, flagOverflow ||| flagInexact⟩
        | none => ⟨f.nanBits, flagOverflow ||| flagInvalid⟩
    else
      let tiny := decide (n < 2 ^ (f.p - 1))
      let inexact := decide (tr.2 ≠ .exact)
      let fl := (if inexact then flagInexact else 0)
        ||| (if tiny && inexact then flagUnderflow else 0)
        ||| (if beyond && decide (pat = f.maxBits) then flagSaturated else 0)
      if f.width = 4 ∧ pat = 0 then ⟨0, fl⟩ else ⟨f.signed neg pat, fl⟩

/-- A value rounded to a format (R122 to R125, special inputs by R127). -/
def Fmt.ofNum (f : Fmt) (r : Round) (satf : Bool) : Num → Res
  | .nan => ⟨f.nanBits, 0⟩
  | .inf neg =>
    match f.infBits with
    | some ib => ⟨f.signed neg ib, 0⟩
    | none =>
      if f.width = 4 then ⟨f.nanBits, flagInvalid⟩
      else if satf then ⟨f.signed neg f.maxBits, flagSaturated⟩
      else ⟨f.nanBits, flagInvalid⟩
  | .zero neg => if f.width = 4 then ⟨0, 0⟩ else ⟨f.signed neg 0, 0⟩
  | .fin neg m e => f.roundWith r satf neg (log2Of m e) (truncAt m e)

/-- The bounds of a two's complement integer of w bits. -/
def intMax (w : Nat) : Int := (2 ^ (w - 1) : Nat) - 1
def intMin (w : Nat) : Int := -((2 ^ (w - 1) : Nat) : Int)

/-- A two's complement pattern of w bits. -/
def ofInt (w : Nat) (i : Int) : Nat := (i % ((2 ^ w : Nat) : Int)).toNat

/-- The integer a pattern of w bits stands for. -/
def toInt (w : Nat) (bits : Nat) : Int :=
  let b := bits % 2 ^ w
  if b < 2 ^ (w - 1) then (b : Int) else (b : Int) - ((2 ^ w : Nat) : Int)

/-- The integer i bounded to w bits, with the flags of a value out of range (R125, R128). -/
def intClamp (w : Nat) (i : Int) (fl : Nat) : Res :=
  if intMax w < i then ⟨ofInt w (intMax w), flagSaturated ||| flagInvalid⟩
  else if i < intMin w then ⟨ofInt w (intMin w), flagSaturated ||| flagInvalid⟩
  else ⟨ofInt w i, fl⟩

/-- A floating-point value to an integer of w bits (R127, R128); one beyond a bound that rounds to it saturates (R125). -/
def intOfNum (w : Nat) (r : Round) : Num → Res
  | .nan => ⟨0, flagInvalid⟩
  | .inf neg => ⟨ofInt w (if neg then intMin w else intMax w), flagInvalid ||| flagSaturated⟩
  | .zero _ => ⟨0, 0⟩
  | .fin neg m e =>
    let tr := truncAt m e 0
    let n := if roundUp r neg tr.1 tr.2 then tr.1 + 1 else tr.1
    let beyond := n == tr.1 && (if neg then -(n : Int) == intMin w else (n : Int) == intMax w)
    intClamp w (if neg then -(n : Int) else n) (if tr.2 = .exact then 0 else if beyond then flagInexact ||| flagSaturated else flagInexact)

/-- An integer as an exact value; zero is +0 (R128). -/
def numOfInt (i : Int) : Num :=
  if i = 0 then .zero false else .fin (decide (i < 0)) i.natAbs 0

/-- The value of a Z4 code under a block scale code (R115). -/
def z4Value (c s : Nat) : Num :=
  if s = 255 then .nan
  else if s = 0 then .zero false
  else
    match fmtZ4.decode c with
    | .fin neg m e => .fin neg m (e + (s : Int) - 127)
    | v => v

/-- The exact value of a stored element of a type other than Z4. -/
def FCode.value (c : FCode) (bits : Nat) : Num :=
  match c.fmt with
  | some f => f.decode bits
  | none => numOfInt (toInt c.bits bits)

/-- An exact value converted to an element type other than a Z4 block (R126 to R128). -/
def FCode.ofNum (c : FCode) (r : Round) (satf : Bool) (v : Num) : Res :=
  match c.fmt with
  | some f => f.ofNum r satf v
  | none => intOfNum c.bits r v

/-- The conversion of one element between two types of R126, neither of them Z4. Copies and Z32 to binary32 are
bit-identical; binary32 to Z32 keeps every bit but subnormals (to zero, UNDERFLOW and INEXACT) and NaNs. From Z32 to binary32 a NaN, and a pattern of exponent 0
with a fraction, keep their bits too (DEDUCED, log 20). -/
def convert (src dst : FCode) (r : Round) (satf : Bool) (bits : Nat) : Res :=
  if src = dst then ⟨bits % 2 ^ src.bits, 0⟩
  else if src = .z32 ∧ dst = .b32 then ⟨bits % 2 ^ 32, 0⟩
  else if src.fmt = none ∧ dst.fmt = none then intClamp dst.bits (toInt src.bits bits) 0
  else if src = .b32 ∧ dst = .z32 ∧ bits / 2 ^ 23 % 256 = 0 then
    ⟨bits / 2 ^ 31 % 2 * 2 ^ 31, if bits % 2 ^ 23 = 0 then 0 else flagUnderflow ||| flagInexact⟩
  else dst.ofNum r satf (src.value bits)

/-- The E4M3 or E5M2 byte widened to Z9 by a feeder (R117). -/
def fp8ToZ9 (e4 : Bool) (b : Nat) : Nat :=
  if e4 then
    match fmtE4M3.decode b with
    | .nan => 0x0FF
    | v => (fmtZ9.ofNum .rne false v).bits
  else
    match fmtE5M2.decode b with
    | .nan => 0x0FF
    | _ => b % 256 * 2

/-- floor(log2 m) of the largest finite magnitude of a block, with none where every one is zero or special. -/
def blockExp (w : List Num) : Option Int :=
  w.foldl (fun acc v =>
    match v with
    | .fin _ m e =>
      match acc with
      | none => some (log2Of m e)
      | some b => some (max b (log2Of m e))
    | _ => acc) none

def Num.special : Num → Bool
  | .nan => true
  | .inf _ => true
  | _ => false

/-- The scale code of a block (R129). -/
def z4Scale (w : List Num) : Nat :=
  match blockExp w with
  | some b => (max (b - 2 + 127) 1).toNat
  | none => if w.all Num.special then 255 else if w.any Num.special then 127 else 0

/-- One element of a block under scale s (R129 to R131). -/
def z4Element (r : Round) (s : Nat) (v : Num) : Res :=
  match v with
  | .nan => ⟨8, 0⟩
  | .inf _ => ⟨8, flagInvalid⟩
  | .zero _ => ⟨0, 0⟩
  | .fin neg m e => if s = 0 then ⟨0, 0⟩ else fmtZ4.ofNum r false (.fin neg m (e - ((s : Int) - 127)))

/-- A block of values to Z4: the element codes with their flags, and the scale code (R129). -/
def z4Block (r : Round) (w : List Num) : List Res × Nat :=
  let s := z4Scale w
  (w.map (z4Element r s), s)

/-- W of R132: round to odd to 9 significant bits with an exponent range without bounds. -/
def toW : Num → Num
  | .fin neg m e =>
    let u := log2Of m e - 8
    let tr := truncAt m e u
    let n := if roundUp .rto neg tr.1 tr.2 then tr.1 + 1 else tr.1
    .fin neg n u
  | v => v

end Sys2Proof.Machine
end

