-- ==== Sys2Proof/Machine/AddrMap.lean ====
section
/-! DEFINITION. The physical address map (R37 to R42) and the numbering of units that it rests on (R8). -/

namespace Sys2Proof.Machine

/-- Where a physical address lies (R37, R40), with its offset in the unit. -/
inductive Loc where
  | hubPrivate (off : Nat)
  | reg (off : Nat)
  | sram (core off : Nat)
  | llm (die off : Nat)
  | hbm (stack off : Nat)
  | lpddr (chan off : Nat)
  | host (bus : Nat)
  | remote (window off : Nat)
  | nowhere
  deriving DecidableEq, Repr

def regBase : Nat := 0x400_0000
def regSize : Nat := 0x400_0000
def sramBase : Nat := 0x1_0000_0000
def llmBase : Nat := 0x2_0000_0000
def hbmBase : Nat := 0x1000_0000_0000
def lpddrBase : Nat := 0x2000_0000_0000
def hostBase : Nat := 0x1_0000_0000_0000
def remoteBase : Nat := 0x8_0000_0000_0000
def sramStride : Nat := 0x20_0000
/-- An offset of a core's SRAM as an address (R40). -/
def sramOf (k off : Nat) : Nat := sramBase + k * sramStride + off
def llmStride : Nat := 0x1000_0000
def hbmStride : Nat := 0x20_0000_0000
def lpddrStride : Nat := 0x10_0000_0000
def remoteStride : Nat := 0x80_0000_0000
/-- Usable bytes of an HBM stack (R40). -/
def hbmUsable : Nat := 0x12_A05F_2000
/-- Usable bytes of an LPDDR6 channel (R40). -/
def lpddrUsable : Nat := 0xE_E6B2_8000
/-- Size of the image hold at the start of LPDDR channel 0 (R55). -/
def imageHoldSize : Nat := 0x1000_0000

/-- R37, R40: an address outside every range, or in an unusable tail, lies nowhere. -/
def locate (a : Nat) : Loc :=
  if a < 0x100_0000 then .hubPrivate a
  else if a < regBase then .nowhere
  else if a < 0x800_0000 then .reg (a - regBase)
  else if a < sramBase then .nowhere
  else if a < 0x1_1000_0000 then .sram ((a - sramBase) / sramStride) ((a - sramBase) % sramStride)
  else if a < llmBase then .nowhere
  else if a < 0x2_4000_0000 then .llm ((a - llmBase) / llmStride) ((a - llmBase) % llmStride)
  else if a < hbmBase then .nowhere
  else if a < 0x1100_0000_0000 then
    if (a - hbmBase) % hbmStride < hbmUsable then .hbm ((a - hbmBase) / hbmStride) ((a - hbmBase) % hbmStride) else .nowhere
  else if a < lpddrBase then .nowhere
  else if a < 0x2200_0000_0000 then
    if (a - lpddrBase) % lpddrStride < lpddrUsable
    then .lpddr ((a - lpddrBase) / lpddrStride) ((a - lpddrBase) % lpddrStride) else .nowhere
  else if a < hostBase then .nowhere
  else if a < 0x2_0000_0000_0000 then .host (a - hostBase)
  else if a < remoteBase then .nowhere
  else if a < 2 ^ 52 then .remote ((a - remoteBase) / remoteStride) ((a - remoteBase) % remoteStride)
  else .nowhere

/-- Memory channel numbered as R58: stacks 0 to 7, then LPDDR channels as 8 to 39. -/
def channelBase (c : Nat) : Nat :=
  if c < 8 then hbmBase + c * hbmStride else lpddrBase + (c - 8) * lpddrStride

def channelUsable (c : Nat) : Nat := if c < 8 then hbmUsable else lpddrUsable

/-- Memory channel of an address in HBM or LPDDR, with its offset. -/
def channelOf (a : Nat) : Option (Nat × Nat) :=
  match locate a with
  | .hbm s o => some (s, o)
  | .lpddr c o => some (8 + c, o)
  | _ => none

/-- An address in the image hold (R55). -/
def inImageHold (a : Nat) : Bool := decide (lpddrBase ≤ a) && decide (a < lpddrBase + imageHoldSize)

/-- A CPU-cacheable address (R37, R39). -/
def cacheable (a : Nat) : Bool :=
  match locate a with
  | .hbm _ _ => true
  | .lpddr _ _ => true
  | _ => false

/-- R8: cluster of a core. -/
def clusterOfCore (k : Nat) : Nat := k / 8
/-- R8: core of an engine. -/
def coreOfEngine (e : Nat) : Nat := e / 4
/-- R8: tensor die of a cluster. -/
def dieOfCluster (c : Nat) : Nat := c / 4

/-- Bit i of a mask. -/
def bit (m i : Nat) : Bool := m.testBit i

/-- Address a lies in a memory endpoint (R92): an HBM stack, an LPDDR channel or an LLM slice. -/
def inEndpoint (ep a : Nat) : Bool :=
  match ep / 4096 with
  | 2 => (channelOf a).map (·.1) == some (ep % 4096)
  | 3 => (channelOf a).map (·.1) == some (8 + ep % 4096)
  | 4 => (match locate a with
      | .llm n off => 16 * n + off / 2 ^ 24 == ep % 4096
      | _ => false)
  | _ => false

/-- Number of set bits among the low n. -/
def popcount (n m : Nat) : Nat := ((List.range n).filter (bit m)).length

/-- The set bits among the low n, ascending. -/
def bitsOf (n m : Nat) : List Nat := (List.range n).filter (bit m)

end Sys2Proof.Machine
end

