-- ==== Sys2Proof/Machine/Crypto.lean ====
section
/-! DEFINITION. SHA-512 and pure Ed25519 verification with the decisions of R63: what the security processor
computes over structure images, firmware containers and OTP containers. Byte strings are lists, lowest address
first. -/

namespace Sys2Proof.Machine

/-- The unsigned little-endian value of bytes. -/
def leNat : List Byte → Nat
  | [] => 0
  | b :: rest => b.toNat + 256 * leNat rest

/-- n little-endian bytes of a value. -/
def leBytes : Nat → Nat → List Byte
  | 0, _ => []
  | n + 1, v => BitVec.ofNat 8 v :: leBytes n (v / 256)

/-- The unsigned big-endian value of bytes. -/
def beNat (l : List Byte) : Nat := l.foldl (fun a b => a * 256 + b.toNat) 0

/-- n big-endian bytes of a value. -/
def beBytes (n v : Nat) : List Byte := (leBytes n v).reverse

/-! ### SHA-512 (DEDUCED, log 55)

FIPS 180-4 takes its constants from roots of primes, and gives the compression as eight registers that move by one place in a round. Here the
constants are computed, and the registers are what four newest values of two sequences hold. -/

namespace Sha512

/-- The greatest r below r0 + 2^n whose power e is at most x, found bit by bit from r0. -/
def root (e x : Nat) : Nat → Nat → Nat
  | 0, r0 => r0
  | n + 1, r0 => root e x n (if (r0 + 2 ^ n) ^ e ≤ x then r0 + 2 ^ n else r0)

/-- The primes up to 409, of which there are 80: numbers with no divisor from 2 to 20 but themselves. -/
def primes : List Nat := (List.range 410).filter (fun q => decide (2 ≤ q) && (List.range 21).all (fun d => d < 2 || d == q || q % d != 0))

/-- The first 64 bits of the fraction of the e-th root of q. -/
def fraction (e q : Nat) : BitVec 64 := BitVec.ofNat 64 (root e (q * 2 ^ (64 * e)) 70 0)

/-- x turned right by each amount of a list, and shifted right by one more, summed modulo 2. A shift by 64 leaves nothing. -/
def mix (turns : List Nat) (shift : Nat) (x : BitVec 64) : BitVec 64 := turns.foldl (fun acc n => acc ^^^ x.rotateRight n) (x >>> shift)

/-- The message, a one bit, zeros, and the message's bits in 16 bytes, to a multiple of 128 bytes. -/
def pad (m : List Byte) : List Byte := m ++ 0x80 :: (List.replicate ((239 - m.length % 128) % 128) 0 ++ beBytes 16 (8 * m.length))

/-- The first n words of 8 bytes of a block, last word first. -/
def words (b : List Byte) : Nat → List (BitVec 64)
  | 0 => []
  | n + 1 => BitVec.ofNat 64 (beNat ((b.drop (8 * n)).take 8)) :: words b n

/-- The words of a block's schedule, last first: n further ones. -/
def extend (w : List (BitVec 64)) : Nat → List (BitVec 64)
  | 0 => w
  | n + 1 => extend ((mix [1, 8] 7 (w.getD 14 0) + w.getD 15 0 + mix [19, 61] 6 (w.getD 1 0) + w.getD 6 0) :: w) n

/-- A chaining value: the four newest terms of each sequence, newest first. -/
structure Chain where
  hi : List (BitVec 64)
  lo : List (BitVec 64)
  deriving DecidableEq, Repr

/-- Both sequences take one term, for a round constant and a word. -/
def Chain.round (c : Chain) (kw : BitVec 64 × BitVec 64) : Chain :=
  match c.hi, c.lo with
  | [h1, h2, h3, h4], [l1, l2, l3, l4] =>
    let new := kw.1 + kw.2 + l4 + mix [14, 18, 41] 64 l1 + (l3 ^^^ (l1 &&& (l2 ^^^ l3)))
    let most := h1 &&& (h2 ||| h3) ||| h2 &&& h3
    ⟨[new + mix [28, 34, 39] 64 h1 + most, h1, h2, h3], [h4 + new, l1, l2, l3]⟩
  | _, _ => c

/-- One block: 80 rounds, and the sum with the chaining value before. -/
def Chain.block (c : Chain) (b : List Byte) : Chain :=
  let z := ((primes.map (fraction 3)).zip (extend (words b 16) 64).reverse).foldl Chain.round c
  ⟨List.zipWith (· + ·) c.hi z.hi, List.zipWith (· + ·) c.lo z.lo⟩

/-- n blocks. -/
def Chain.blocks (c : Chain) (l : List Byte) : Nat → Chain
  | 0 => c
  | n + 1 => Chain.blocks (c.block (l.take 128)) (l.drop 128) n

/-- The value before the first block. -/
def Chain.initial : Chain :=
  let h := (primes.take 8).map (fraction 2)
  ⟨h.take 4, h.drop 4⟩

end Sha512

/-- SHA-512 (DEDUCED, log 55). -/
def sha512 (m : List Byte) : List Byte :=
  let l := Sha512.pad m
  let c := Sha512.Chain.initial.blocks l (l.length / 128)
  ((c.hi ++ c.lo).map (fun x => beBytes 8 x.toNat)).flatten

namespace Ed25519

def p : Nat := 2 ^ 255 - 19

/-- The group order L. -/
def order : Nat := 2 ^ 252 + 27742317777372353535851937790883648493

/-- b^e modulo m, e below 2^n. -/
def powMod (m b : Nat) : Nat → Nat → Nat
  | 0, _ => 1 % m
  | n + 1, e =>
    let h := powMod m (b * b % m) n (e / 2)
    if e % 2 = 1 then b * h % m else h

def inv (x : Nat) : Nat := powMod p x 256 (p - 2)

/-- The curve constant d = −121665 / 121666. -/
def d : Nat := (p - 121665) * inv 121666 % p

/-- √−1. -/
def sqrtM1 : Nat := powMod p 2 256 ((p - 1) / 4)

/-- A point in extended coordinates. -/
structure Pt where
  x : Nat
  y : Nat
  z : Nat
  t : Nat
  deriving DecidableEq, Repr

def identity : Pt := ⟨0, 1, 1, 0⟩

def add (a b : Pt) : Pt :=
  let ca := (a.y + (p - a.x)) * (b.y + (p - b.x)) % p
  let cb := (a.y + a.x) * (b.y + b.x) % p
  let cc := a.t * 2 * d % p * b.t % p
  let cd := a.z * 2 * b.z % p
  let e := (cb + (p - ca)) % p
  let f := (cd + (p - cc)) % p
  let g := (cd + cc) % p
  let h := (cb + ca) % p
  ⟨e * f % p, g * h % p, f * g % p, e * h % p⟩

/-- k times a point, k below 2^n. -/
def mul : Nat → Nat → Pt → Pt
  | 0, _, _ => identity
  | n + 1, k, q =>
    let r := mul n (k / 2) (add q q)
    if k % 2 = 1 then add q r else r

/-- Equality of points. -/
def same (a b : Pt) : Bool :=
  decide (a.x * b.z % p = b.x * a.z % p) && decide (a.y * b.z % p = b.y * a.z % p)

/-- Decoding of section 5.1.3 of RFC 8032; a y coordinate not below p fails. -/
def decodePoint (l : List Byte) : Option Pt :=
  let n := leNat l
  let y := n % 2 ^ 255
  let sign := n / 2 ^ 255 % 2
  if p ≤ y then none
  else
    let u := (y * y + (p - 1)) % p
    let v := (d * (y * y % p) + 1) % p
    let v3 := v * v % p * v % p
    let x0 := u * v3 % p * powMod p (u * (v3 * v3 % p * v % p) % p) 256 ((p - 5) / 8) % p
    let vx := v * (x0 * x0 % p) % p
    let x1 := if vx = u then some x0 else if vx = (p - u) % p then some (x0 * sqrtM1 % p) else none
    match x1 with
    | none => none
    | some x =>
      if x = 0 ∧ sign = 1 then none
      else
        let x := if x % 2 = sign then x else p - x
        some ⟨x, y, 1, x * y % p⟩

/-- The base point B. -/
def base : List Byte := leBytes 32 (4 * inv 5 % p)

/-- Step 3 of R63: pure Ed25519 with the cofactored equation [8][S]B = [8]R + [8][k]A. -/
def verify (key msg sig : List Byte) : Bool :=
  let rb := sig.take 32
  let s := leNat ((sig.drop 32).take 32)
  match decodePoint key, decodePoint rb, decodePoint base with
  | some a, some r, some b =>
    let k := leNat (sha512 (rb ++ key ++ msg)) % order
    decide (s < order) && same (mul 256 8 (mul 256 s b)) (add (mul 256 8 r) (mul 256 8 (mul 256 k a)))
  | _, _, _ => false

end Ed25519

end Sys2Proof.Machine
end

