-- ==== Sys2Proof/Machine/Image.lean ====
section
/-! DEFINITION. The structure image (chapter 02): its container, its sections and its validation in the order
of R64. An image is kept as its parsed content, in the order of its entries. -/

namespace Sys2Proof.Machine

/-- A PARTITIONS entry (R53). -/
structure PartEntry where
  id : Nat
  contexts : Nat
  clusters : Nat
  hbms : Nat
  channels : Nat
  windows : Nat
  cpus : Nat
  deriving DecidableEq, Repr

/-- A CIRCUITS entry (R91). -/
structure CircEntry where
  id : Nat
  part : Nat
  k : Nat
  src : Nat
  dst : Nat
  credits : Nat
  flags : Nat
  slipLimit : Nat
  deriving DecidableEq, Repr

/-- FLAGS bit 0: the consumer is a memory-side adder. -/
def CircEntry.reduce (c : CircEntry) : Bool := bit c.flags 0

/-- A SLOTS entry (R93). -/
structure SlotEntry where
  circ : Nat
  kind : Nat
  res : Nat
  start : Nat
  length : Nat
  flags : Nat
  bytes : Nat
  deriving DecidableEq, Repr

def SlotEntry.dir (e : SlotEntry) : Nat := e.flags % 2
def SlotEntry.last (e : SlotEntry) : Bool := bit e.flags 1

/-- A ROUTES entry (R365). -/
structure RouteEntry where
  dest : Nat
  hopLimit : Nat
  cands : List Nat
  deriving DecidableEq, Repr

/-- A WINDOWS entry (R368). -/
structure WinEntry where
  window : Nat
  module : Nat
  srcPart : Nat
  dstPart : Nat
  flags : Nat
  base : Nat
  deriving DecidableEq, Repr

/-- A REGIONS entry (R54). -/
structure RegionEntry where
  base : Nat
  size : Nat
  type : Nat
  deriving DecidableEq, Repr

/-- An LLM_SLICES entry (R56). -/
structure SliceEntry where
  slice : Nat
  mode : Nat
  deriving DecidableEq, Repr

/-- An LLM_WAYS entry (R57). -/
structure WaysEntry where
  die : Nat
  cls : Nat
  mask : Nat
  deriving DecidableEq, Repr

/-- A SHARES entry (R58). -/
structure ShareEntry where
  channel : Nat
  mask : Nat
  deriving DecidableEq, Repr

/-- A RINGS entry (R59). -/
structure RingEntry where
  ring : Nat
  part : Nat
  period : Nat
  phase : Nat
  deriving DecidableEq, Repr

/-- The POWER entry (R60). -/
structure PowerEntry where
  capW : Nat
  autumn : Nat
  spring : Nat
  flags : Nat
  eqxMhz : Nat
  deriving DecidableEq, Repr

/-- A COUNTERS entry (R61). -/
structure CounterEntry where
  kind : Nat
  unit : Nat
  counter : Nat
  event : Nat
  flags : Nat
  deriving DecidableEq, Repr

/-- A TRACE entry (R62). -/
structure TraceEntry where
  kind : Nat
  unit : Nat
  classMask : Nat
  layer : Nat
  op : Nat
  flags : Nat
  deriving DecidableEq, Repr

/-- A section as delivered: its type and its entries. -/
structure Section where
  type : Nat
  entries : List (List Byte)
  deriving DecidableEq, Repr

/-- The header fields that act after validation (R47), with D (R63) and the key slot (R50). -/
structure Header where
  kind : Nat
  personality : Nat
  imageId : Nat
  version : Nat
  secVersion : Nat
  minFirmware : Nat
  generation : Nat
  baseId : Nat
  baseVersion : Nat
  scope : Nat
  required : Nat
  moduleId : Nat
  members : Nat
  groupId : Nat
  groupDigest : List Byte
  digest : List Byte
  keySlot : Nat
  deriving DecidableEq, Repr

/-- A parsed image: its header and its sections. -/
structure Image where
  hdr : Header
  sections : List Section
  deriving DecidableEq, Repr

/-- The little-endian field of n bytes at an offset. -/
def fieldAt (b : List Byte) (off n : Nat) : Nat := leNat ((b.drop off).take n)

def allZero (b : List Byte) : Bool := b.all (fun x => decide (x = 0))

/-- Some byte of the listed (offset, size) places is nonzero. -/
def reservedSet (b : List Byte) (places : List (Nat × Nat)) : Bool :=
  places.any (fun p => !allZero ((b.drop p.1).take p.2))

def noDup (l : List Nat) : Bool := decide (l.eraseDups.length = l.length)

/-- The entries of a section type: R52, a type that is absent is empty. -/
def sectionOf (l : List Section) (t : Nat) : List (List Byte) :=
  match l.find? (fun x => decide (x.type = t)) with
  | some x => x.entries
  | none => []

def hasSection (l : List Section) (t : Nat) : Bool := l.any (fun x => decide (x.type = t))

/-- R52: an update replaces, whole, each section that it carries. -/
def mergeSections (base upd : List Section) : List Section :=
  upd ++ base.filter (fun x => !hasSection upd x.type)

def parts (l : List Section) : List PartEntry :=
  (sectionOf l 1).map (fun b => ⟨fieldAt b 0 1, fieldAt b 1 1, fieldAt b 4 2, fieldAt b 6 1, fieldAt b 8 4, fieldAt b 0xC 4, fieldAt b 0x10 12⟩)

def circuits (l : List Section) : List CircEntry :=
  (sectionOf l 2).map (fun b => ⟨fieldAt b 0 2, fieldAt b 2 1, fieldAt b 3 1, fieldAt b 4 2, fieldAt b 6 2, fieldAt b 8 1, fieldAt b 9 1, fieldAt b 0xA 2⟩)

def slots (l : List Section) : List SlotEntry :=
  (sectionOf l 3).map (fun b => ⟨fieldAt b 0 2, fieldAt b 2 1, fieldAt b 3 1, fieldAt b 4 4, fieldAt b 8 2, fieldAt b 0xA 1, fieldAt b 0xC 4⟩)

def routes (l : List Section) : List RouteEntry :=
  (sectionOf l 4).map (fun b => ⟨fieldAt b 0 2, fieldAt b 2 1, (List.range 8).map (fun i => fieldAt b (4 + i) 1)⟩)

def windows (l : List Section) : List WinEntry :=
  (sectionOf l 5).map (fun b => ⟨fieldAt b 0 2, fieldAt b 2 2, fieldAt b 4 1, fieldAt b 5 1, fieldAt b 6 1, fieldAt b 8 8⟩)

def regions (l : List Section) : List RegionEntry :=
  (sectionOf l 6).map (fun b => ⟨fieldAt b 0 8, fieldAt b 8 4, fieldAt b 0xC 1⟩)

def llmSlices (l : List Section) : List SliceEntry :=
  (sectionOf l 7).map (fun b => ⟨fieldAt b 0 1, fieldAt b 1 1⟩)

def llmWays (l : List Section) : List WaysEntry :=
  (sectionOf l 8).map (fun b => ⟨fieldAt b 0 1, fieldAt b 1 1, fieldAt b 4 2⟩)

def shares (l : List Section) : List ShareEntry :=
  (sectionOf l 9).map (fun b => ⟨fieldAt b 0 1, fieldAt b 8 8⟩)

def rings (l : List Section) : List RingEntry :=
  (sectionOf l 10).map (fun b => ⟨fieldAt b 0 2, fieldAt b 2 1, fieldAt b 4 4, fieldAt b 8 4⟩)

def powers (l : List Section) : List PowerEntry :=
  (sectionOf l 11).map (fun b => ⟨fieldAt b 0 2, fieldAt b 2 2, fieldAt b 4 2, fieldAt b 6 2, fieldAt b 8 2⟩)

def counterEntries (l : List Section) : List CounterEntry :=
  (sectionOf l 12).map (fun b => ⟨fieldAt b 0 1, fieldAt b 1 1, fieldAt b 2 1, fieldAt b 4 2, fieldAt b 6 2⟩)

def traceEntries (l : List Section) : List TraceEntry :=
  (sectionOf l 13).map (fun b => ⟨fieldAt b 0 1, fieldAt b 1 1, fieldAt b 2 2, fieldAt b 4 2, fieldAt b 6 2, fieldAt b 8 4⟩)

/-- R51: class bit (1 schedule), entry size, least and most entries, required in a full image. -/
structure SectionType where
  schedule : Bool
  size : Nat
  least : Nat
  most : Nat
  required : Bool
  deriving DecidableEq, Repr

/-- The table of R51. ROUTES is required only if GROUP_MEMBERS > 1. -/
def sectionType : Nat → Option SectionType
  | 1 => some ⟨false, 32, 2, 18, true⟩
  | 2 => some ⟨true, 16, 0, 65536, true⟩
  | 3 => some ⟨true, 16, 0, 3932160, true⟩
  | 4 => some ⟨true, 32, 0, 4096, false⟩
  | 5 => some ⟨false, 16, 0, 4096, false⟩
  | 6 => some ⟨false, 16, 0, 4096, true⟩
  | 7 => some ⟨false, 8, 64, 64, true⟩
  | 8 => some ⟨false, 8, 0, 64, false⟩
  | 9 => some ⟨true, 16, 40, 40, true⟩
  | 10 => some ⟨true, 16, 0, 256, false⟩
  | 11 => some ⟨false, 16, 1, 1, true⟩
  | 12 => some ⟨false, 8, 0, 1312, false⟩
  | 13 => some ⟨false, 16, 0, 64, false⟩
  | _ => none

/-- What validation is judged against (R64, R66): OTP key hashes that are valid, the anti-rollback counter, the firmware
version, the fenced tensor dies, the image in force (merged sections and headers) and the occasion. -/
structure ImgEnv where
  keyHash0 : Option (List Byte)
  keyHash1 : Option (List Byte)
  rollback : Nat
  firmware : Nat
  fenced : Nat
  full : Option Image
  update : Option Image
  /-- A KIND 2 image may be delivered (not at a cold boot and not in a fetch, check 0x02). -/
  updateAllowed : Bool
  /-- A runtime load: the personality may not change (check 0x13). -/
  runtime : Bool
  /-- A warm start re-validates the copies in force: no generation test (check 0x12). -/
  held : Bool
  deriving DecidableEq, Repr

/-- The content in force: the full image merged with its update (R52). -/
def inForceSections (full update : Option Image) : List Section :=
  match full, update with
  | some f, some u => mergeSections f.sections u.sections
  | some f, none => f.sections
  | none, _ => []

/-- The image last switched in, whether full or update (R47). -/
def lastImage (full update : Option Image) : Option Image :=
  match update with
  | some u => some u
  | none => full

/-- D (R63): SHA-512 of every byte before the signature block. -/
def imageDigest (b : List Byte) : List Byte := sha512 (b.take (b.length - 128))

/-- The signature block: the last 128 bytes delivered. -/
def sigBlock (b : List Byte) : List Byte := b.drop (b.length - 128)

def parseHeader (b : List Byte) : Header :=
  { kind := fieldAt b 8 1, personality := fieldAt b 9 1, imageId := fieldAt b 0x18 8, version := fieldAt b 0x20 4,
    secVersion := fieldAt b 0x24 4, minFirmware := fieldAt b 0x28 4, generation := fieldAt b 0x2C 4,
    baseId := fieldAt b 0x30 8, baseVersion := fieldAt b 0x38 4, scope := fieldAt b 0x3C 2, required := fieldAt b 0x3E 1,
    moduleId := fieldAt b 0x40 2, members := fieldAt b 0x42 2, groupId := fieldAt b 0x44 4,
    groupDigest := (b.drop 0x80).take 64, digest := imageDigest b, keySlot := fieldAt (sigBlock b) 4 1 }

/-- Check 0x01. -/
def chkMagic (b : List Byte) : Bool :=
  decide (b.length < 384) || decide (fieldAt b 0 4 ≠ 0x4D495A54) || decide (fieldAt (sigBlock b) 0 4 ≠ 0x47495354)

/-- Check 0x02. -/
def chkFormat (env : ImgEnv) (b : List Byte) : Bool :=
  let h := parseHeader b
  decide (fieldAt b 4 2 ≠ 1) || decide (fieldAt b 0xC 4 ≠ 0x100) || decide (fieldAt b 0x48 4 ≠ 0x100)
  || !(h.kind == 1 || (h.kind == 2 && env.updateAllowed)) || !(h.personality == 1 || h.personality == 2)
  || decide (h.moduleId > 4095) || h.members == 0 || decide (h.members > 4096) || decide (h.required ≥ 16)
  || (h.kind == 1 && !(h.baseId == 0 && h.baseVersion == 0))
  || reservedSet b [(0x14, 4), (0x3F, 1), (0x50, 48), (0xC0, 64)] || reservedSet (sigBlock b) [(5, 27)]

/-- Check 0x03: b is exactly the delivered bytes, and len their delivered length. -/
def chkLength (b : List Byte) (len : Nat) : Bool :=
  let t := fieldAt b 0x10 4
  decide (t > 64 * 2 ^ 20) || decide (t % 64 ≠ 0) || decide (t ≠ len) || decide (t ≠ fieldAt b 0x4C 4 + 128)

/-- Check 0x04: step 2 of R63. -/
def chkKeySlot (env : ImgEnv) (b : List Byte) : Bool :=
  let sb := sigBlock b
  let h := if fieldAt sb 4 1 = 0 then env.keyHash0 else if fieldAt sb 4 1 = 1 then env.keyHash1 else none
  match h with
  | some k => decide (sha512 ((sb.drop 0x20).take 32) ≠ k)
  | none => true

/-- Check 0x05: step 3 of R63. -/
def chkSignature (b : List Byte) : Bool :=
  let sb := sigBlock b
  !Ed25519.verify ((sb.drop 0x20).take 32) (imageDigest b) ((sb.drop 0x40).take 64)

/-- A directory entry's type, offset and length (R48). -/
def dirEntries (b : List Byte) : List (Nat × Nat × Nat) :=
  (List.range (fieldAt b 0xA 2)).map (fun i =>
    (fieldAt b (0x100 + 16 * i) 2, fieldAt b (0x104 + 16 * i) 4, fieldAt b (0x108 + 16 * i) 4))

/-- Two half-open ranges meet. -/
def overlaps (a la b lb : Nat) : Bool := decide (a < b + lb) && decide (b < a + la)

/-- Every pair of the list satisfies the relation, earlier element first. -/
def anyPair {α : Type} (r : α → α → Bool) : List α → Bool
  | [] => false
  | x :: rest => rest.any (r x) || anyPair r rest

/-- Every byte outside the listed (offset, size) ranges, from position i on, is zero. -/
def gapsZero (ranges : List (Nat × Nat)) : Nat → List Byte → Bool
  | _, [] => true
  | i, x :: rest => (decide (x = 0) || ranges.any (fun r => decide (r.1 ≤ i) && decide (i < r.1 + r.2))) && gapsZero ranges (i + 1) rest

/-- Check 0x08. -/
def chkDirectory (b : List Byte) : Bool :=
  let n := fieldAt b 0xA 2
  let sig := b.length - 128
  let d := dirEntries b
  n == 0 || decide (n > 32) || decide (0x100 + 16 * n > sig)
  || d.any (fun e => decide (e.2.1 % 64 ≠ 0) || decide (e.2.1 < 0x100 + 16 * n) || decide (e.2.1 + e.2.2 > sig))
  || anyPair (fun x y => overlaps x.2.1 x.2.2 y.2.1 y.2.2) d
  || !noDup (d.map (·.1)) || d.any (fun e => (sectionType e.1).isNone)
  || (fieldAt b 8 1 == 2 && d.any (fun e => match sectionType e.1 with | some t => !t.schedule | none => false))
  || (List.range n).any (fun i => reservedSet b [(0x102 + 16 * i, 2), (0x10C + 16 * i, 4)])
  || !gapsZero ([(0, 0x100), (0x100, 16 * n), (sig, 128)] ++ d.map (fun e => (e.2.1, e.2.2))) 0 b

/-- Check 0x09 of one section: header against its directory entry, R49 and R51. -/
def badSection (b : List Byte) (e : Nat × Nat × Nat) : Bool :=
  match sectionType e.1 with
  | none => true
  | some t =>
    let sb := b.drop e.2.1
    let cnt := fieldAt sb 8 4
    decide (fieldAt sb 0 2 ≠ e.1) || decide (fieldAt sb 2 2 ≠ 1) || decide (fieldAt sb 4 2 ≠ t.size)
    || decide (fieldAt sb 6 2 ≠ (if t.schedule then 1 else 0)) || decide (cnt < t.least) || decide (cnt > t.most)
    || reservedSet sb [(0xC, 4)] || decide (e.2.2 ≠ 16 + cnt * t.size)

/-- Cuts n entries of a size. -/
def cutEntries (size : Nat) : Nat → List Byte → List (List Byte)
  | 0, _ => []
  | n + 1, b => b.take size :: cutEntries size n (b.drop size)

/-- The sections that a directory names; an entry that the bytes do not hold whole is none. -/
def parseSections (b : List Byte) : List Section :=
  (dirEntries b).map (fun e =>
    let sb := b.drop e.2.1
    let size := fieldAt sb 4 2
    ⟨e.1, cutEntries size (min (fieldAt sb 8 4) ((sb.length - 16) / size)) (sb.drop 16)⟩)

def parseImage (b : List Byte) : Image := ⟨parseHeader b, parseSections b⟩

/-- Check 0x0A. -/
def chkMissing (im : Image) : Bool :=
  im.hdr.kind == 1 && ((List.range 14).any (fun t =>
    match sectionType t with
    | some st => (st.required || (t == 4 && decide (im.hdr.members > 1))) && !hasSection im.sections t
    | none => false))

/-- Partition p's entry. -/
def partOf (l : List Section) (p : Nat) : Option PartEntry := (parts l).find? (fun e => decide (e.id = p))

/-- Two partitions hold a common unit. -/
def PartEntry.clash (a b : PartEntry) : Bool :=
  decide (a.clusters &&& b.clusters ≠ 0) || decide (a.hbms &&& b.hbms ≠ 0)
  || decide (a.channels &&& b.channels ≠ 0) || decide (a.cpus &&& b.cpus ≠ 0)

def orAll (f : PartEntry → Nat) (l : List PartEntry) : Nat := l.foldl (fun a e => a ||| f e) 0

/-- Check 0x0B: R32, R53, R524 and the partition names of RINGS and CIRCUITS. -/
def chkPartitions (l : List Section) : Bool :=
  let ps := parts l
  let isPart := fun (p : Nat) => decide (p < 16) && ps.any (fun e => decide (e.id = p))
  ps.any (fun e =>
    if e.id < 16 then
      e.contexts == 0 || decide (e.contexts > 64) || e.clusters == 0 || decide (e.windows ≥ 512)
    else if e.id = 0xFE then
      e.contexts != 0 || e.clusters != 0 || decide (e.windows ≥ 512) || !(bit e.cpus 0 && bit e.cpus 1)
    else if e.id = 0xFF then
      e.contexts != 0 || e.clusters != 0 || e.windows != 0 || e.cpus != 0
    else true)
  || !noDup (ps.map (·.id)) || !ps.any (fun e => decide (e.id = 0xFE)) || anyPair PartEntry.clash ps
  || decide (orAll (·.hbms) ps ≠ 2 ^ 8 - 1) || decide (orAll (·.channels) ps ≠ 2 ^ 32 - 1)
  || (rings l).any (fun r => !isPart r.part)
  || (List.range 16).any (fun p => decide (((rings l).filter (fun r => decide (r.part = p))).length > 64))
  || !noDup ((rings l).map (·.ring))
  || (circuits l).any (fun c => !(c.part == 0xFE || isPart c.part))

/-- R92: an endpoint code names an endpoint. -/
def endpointOk (c : Nat) : Bool :=
  let i := c % 4096
  match c / 4096 with
  | 1 => decide (i < 128)
  | 2 => decide (i < 8)
  | 3 => decide (i < 32)
  | 4 => decide (i < 64)
  | 5 => decide (i < 16)
  | 6 => decide (i < 2)
  | 7 => decide (i = 0)
  | _ => false

/-- Bytes per beat and direction of a resource (R94, R187, R382), none where it does not exist (R93). -/
def resourceCap (kind res : Nat) : Option Nat :=
  match kind with
  | 1 => if res < 16 then some 32768 else none
  | 2 => if res < 4 then some 131072 else none
  | 3 => if res < 4 then some 131072 else none
  | 4 => if res < 4 then some 16384 else none
  | 5 => if res < 4 then some 16384 else none
  | 6 => if res < 8 then some 24576 else if res < 40 then some 345 else none
  | 7 => if res < 16 then some 800 else none
  | _ => none

/-- R95: slots of periods 2^ka and 2^kb share a beat, judged modulo the smaller period. -/
def meets (ka sa la kb sb lb : Nat) : Bool :=
  let go := fun (k s ls s2 l2 : Nat) =>   -- s, ls in the smaller period 2^k
    let r := s2 % 2 ^ k
    decide (l2 ≥ 2 ^ k) || overlaps r l2 s ls || overlaps r l2 (s + 2 ^ k) ls
  if ka ≤ kb then go ka sa la sb lb else go kb sb lb sa la

/-- R95: a slot on a channel meets a beat of its coherent share. -/
def meetsShare (k start length mask : Nat) : Bool :=
  (List.range (min length 64)).any (fun i => bit mask ((start + i) % 64)) && decide (k ≥ 6)

/-- R360: in every 64-beat frame of the largest period at least 4 beats of a port and direction are free. -/
def portFree (sl : List (Nat × SlotEntry)) (port dir : Nat) : Bool :=
  let mine := sl.filter (fun e => e.2.kind == 7 && e.2.res == port && e.2.dir == dir)
  let busy := fun (t : Nat) => mine.any (fun e => decide (e.2.start ≤ t % 2 ^ e.1) && decide (t % 2 ^ e.1 < e.2.start + e.2.length))
  (List.range (2 ^ 14)).all (fun f => decide (4 ≤ ((List.range 64).filter (fun i => !busy (64 * f + i))).length))

/-- Check 0x0C: R91 to R95, R183, R249, R360, and reserved bytes of CIRCUITS and SLOTS entries. -/
def chkSlots (members : Nat) (l : List Section) : Bool :=
  let cs := circuits l
  let sl := slots l
  let circ := fun (i : Nat) => cs.find? (fun c => decide (c.id = i))
  let withK := sl.filterMap (fun e => (circ e.circ).map (fun c => (c.k, e)))
  (sectionOf l 2).any (fun b => reservedSet b [(0xC, 4)]) || (sectionOf l 3).any (fun b => reservedSet b [(0xB, 1)])
  || !noDup (cs.map (·.id))
  || cs.any (fun c => decide (c.k < 6) || decide (c.k > 20) || !endpointOk c.src || !endpointOk c.dst
      || c.credits == 0 || decide (c.credits > 64) || decide (c.flags ≥ 2)
      || decide ((sl.filter (fun e => e.circ == c.id && e.last)).length ≠ 1))
  || sl.any (fun e =>
      match circ e.circ, resourceCap e.kind e.res with
      | some c, some cap =>
        decide (e.start ≥ 2 ^ c.k) || e.length == 0 || decide (e.start + e.length > 2 ^ c.k) || decide (e.flags ≥ 4)
        || e.bytes == 0 || decide (e.bytes > e.length * cap)
        || ((c.src / 4096 == 1 || c.dst / 4096 == 1) && decide (e.bytes > 65536))
        || (c.reduce && e.last && e.kind == 6 && decide (2 * e.bytes > e.length * cap))
        || (e.kind == 6 && (shares l).any (fun h => h.channel == e.res && meetsShare c.k e.start e.length h.mask))
      | _, _ => true)
  || anyPair (fun (x y : Nat × SlotEntry) => x.2.kind == y.2.kind && x.2.res == y.2.res && x.2.dir == y.2.dir
      && meets x.1 x.2.start x.2.length y.1 y.2.start y.2.length) withK
  || (decide (members > 1) && (List.range 16).any (fun p => !portFree withK p 0 || !portFree withK p 1))

/-- Check 0x0D: R58. -/
def chkShares (l : List Section) : Bool :=
  let h := shares l
  !noDup (h.map (·.channel)) || h.any (fun e => decide (e.channel ≥ 40) || e.mask == 0 || decide (popcount 64 e.mask > 32))

/-- Check 0x0E: R54, R55. -/
def chkRegions (l : List Section) : Bool :=
  let rs := regions l
  rs.any (fun e =>
    decide (e.base % 8192 ≠ 0) || decide (e.base ≥ 2 ^ 52) || e.size == 0 || e.type == 0 || decide (e.type > 3)
    || (match channelOf e.base with
        | some (c, o) => decide (o + e.size * 8192 > channelUsable c) || (c == 8 && decide (o < imageHoldSize))
        | none => true))
  || anyPair (fun a b => overlaps a.base (a.size * 8192) b.base (b.size * 8192)) rs

/-- Partition that owns all four clusters of base die n's tensor die (R32), if any. -/
def sliceOwner (l : List Section) (die : Nat) : Option Nat :=
  ((parts l).find? (fun e => decide (e.id < 16) && decide ((e.clusters >>> (4 * die)) % 16 = 15))).map (·.id)

/-- MODE of a slice: 0 scratch, 1 cache (R56). -/
def sliceMode (l : List Section) (s : Nat) : Option Nat :=
  ((llmSlices l).find? (fun e => decide (e.slice = s))).map (·.mode)

/-- Check 0x0F: R56, R57, and R234 (an endpoint that names a cache-mode slice). -/
def chkLlm (l : List Section) : Bool :=
  let sl := llmSlices l
  let w := llmWays l
  let cached := fun (c : Nat) => c / 4096 == 4 && sliceMode l (c % 4096) != some 0
  !noDup (sl.map (·.slice))
  || sl.any (fun e => decide (e.slice ≥ 64) || decide (e.mode > 1) || (e.mode == 0 && (sliceOwner l (e.slice / 16)).isNone))
  || w.any (fun e => decide (e.die > 3) || decide (e.cls > 15)) || !noDup (w.map (fun e => e.die * 16 + e.cls))
  || (circuits l).any (fun c => cached c.src || cached c.dst)

/-- R497, R498: highest qualifier of a catalogued event code of a class, none where the base is reserved. -/
def eventQmax (cls base : Nat) : Option Nat :=
  match cls with
  | 1 => if base = 0 then some 0 else if base ≤ 0x0A then some 4 else if base ≤ 0x18 then some 0 else none
  | 2 => if base = 0 then some 0 else if base ≤ 4 then some 8 else if base ≤ 8 then some 0 else none
  | 3 => if base = 0 then some 0 else if base ≤ 5 then some 8 else if base ≤ 8 then some 4
         else if base ≤ 0x0A then some 15 else if base ≤ 0x0D then some 0 else none
  | _ => none

/-- A code that a unit of the class counts: 0, or a catalogued code of its own class (R498). -/
def eventOk (cls code : Nat) : Bool :=
  code == 0 || (code / 4096 == cls &&
    match eventQmax cls (code / 16 % 256) with
    | some q => decide (code % 16 ≤ q)
    | none => false)

/-- R61: units of a kind and counters of each. -/
def counterRange : Nat → Nat × Nat
  | 1 => (128, 8)
  | 2 => (16, 16)
  | 3 => (1, 32)
  | _ => (0, 0)

/-- Check 0x10: RINGS, POWER, COUNTERS, TRACE, and reserved bytes of entries (R64). -/
def chkValues (l : List Section) : Bool :=
  let cn := counterEntries l
  (rings l).any (fun r => decide (r.ring > 255) || decide (r.period < 125) || decide (r.period > 1048576) || decide (r.phase ≥ r.period))
  || (powers l).any (fun p => decide (p.capW < 900) || decide (p.capW > 2400) || decide (p.capW % 10 ≠ 0)
      || p.autumn == 0 || decide (p.autumn > 1000) || p.spring == 0 || decide (p.spring > 1000) || decide (p.flags ≥ 8)
      || decide (p.eqxMhz < 2400) || decide (p.eqxMhz > 3600) || decide (p.eqxMhz % 50 ≠ 0))
  || cn.any (fun c => decide (c.unit ≥ (counterRange c.kind).1) || decide (c.counter ≥ (counterRange c.kind).2) || !eventOk c.kind c.event)
  || !noDup (cn.map (fun c => (c.kind * 256 + c.unit) * 256 + c.counter))
  || (traceEntries l).any (fun t => decide (t.kind > 4) || decide (t.flags ≥ 2)
      || (t.kind == 1 && decide (t.unit ≥ 128)) || ((t.kind == 2 || t.kind == 4) && decide (t.unit ≥ 16)))
  || (sectionOf l 1).any (fun b => reservedSet b [(2, 2), (7, 1), (0x1C, 4)])
  || (sectionOf l 6).any (fun b => reservedSet b [(0xD, 3)]) || (sectionOf l 7).any (fun b => reservedSet b [(2, 6)])
  || (sectionOf l 8).any (fun b => reservedSet b [(2, 2), (6, 2)]) || (sectionOf l 9).any (fun b => reservedSet b [(1, 7)])
  || (sectionOf l 10).any (fun b => reservedSet b [(3, 1), (0xC, 4)]) || (sectionOf l 11).any (fun b => reservedSet b [(0xA, 6)])
  || (sectionOf l 12).any (fun b => reservedSet b [(3, 1)]) || (sectionOf l 13).any (fun b => reservedSet b [(0xC, 4)])

/-- Partition p holds the resource, given by memory channel. -/
def holdsChannel (l : List Section) (p c : Nat) : Bool :=
  match partOf l p with
  | some e => if c < 8 then bit e.hbms c else bit e.channels (c - 8)
  | none => false

/-- Partition p owns or shares memory channel c (R32, R53). -/
def ownsOrShares (l : List Section) (p c : Nat) : Bool := holdsChannel l p c || ((partOf l p).isSome && holdsChannel l 0xFF c)

def holdsCluster (l : List Section) (p c : Nat) : Bool :=
  match partOf l p with
  | some e => bit e.clusters c
  | none => false

/-- Partition that holds cluster c. -/
def partOfCluster (l : List Section) (c : Nat) : Option Nat :=
  ((parts l).find? (fun e => decide (e.id < 16) && bit e.clusters c)).map (·.id)

/-- The endpoint is a resource of partition p. -/
def holdsEndpoint (l : List Section) (p ep : Nat) : Bool :=
  match ep / 4096 with
  | 1 => holdsCluster l p (clusterOfCore (ep % 4096))
  | 2 => holdsChannel l p (ep % 4096)
  | 3 => holdsChannel l p (8 + ep % 4096)
  | 4 => sliceMode l (ep % 4096) == some 0 && sliceOwner l (ep % 4096 / 16) == some p
  | _ => false

/-- A circuit names partition p or its resources (R65). -/
def circNames (l : List Section) (p : Nat) (c : CircEntry) : Bool := c.part == p || holdsEndpoint l p c.src || holdsEndpoint l p c.dst

/-- A slot names partition p or its resources, by its circuit or its resource (R65). -/
def slotNames (l : List Section) (p : Nat) (e : SlotEntry) : Bool :=
  (circuits l).any (fun c => c.id == e.circ && circNames l p c)
  || (e.kind == 1 && holdsCluster l p e.res) || (e.kind == 6 && holdsChannel l p e.res)

/-- Entries of either list that the other lacks. -/
def onlyIn {α : Type} [DecidableEq α] (a b : List α) : List α := a.filter (fun x => !b.contains x)

/-- R65: the content new brings partition p into scope against the content old (DEDUCED, log 15). -/
def inScope (old new : List Section) (p : Nat) : Bool :=
  let changed := fun {α : Type} [DecidableEq α] (f : List Section → List α) (g : List Section → α → Bool) =>
    (onlyIn (f old) (f new)).any (g old) || (onlyIn (f new) (f old)).any (g new)
  let present := (partOf old p).isSome || (partOf new p).isSome
  present &&
  (decide (partOf old p ≠ partOf new p) || decide (partOf old 0xFF ≠ partOf new 0xFF)
  || changed circuits (fun l c => circNames l p c) || changed slots (fun l e => slotNames l p e)
  || changed rings (fun _ r => r.part == p) || changed shares (fun l h => ownsOrShares l p h.channel)
  || changed regions (fun _ r => match channelOf r.base with
      | some (c, _) => ownsOrShares old p c || ownsOrShares new p c
      | none => false)
  || (List.range 64).any (fun s => sliceMode old s != sliceMode new s
      && ((sliceMode old s == some 0 && sliceOwner old (s / 16) == some p) || (sliceMode new s == some 0 && sliceOwner new (s / 16) == some p)))
  || changed windows (fun _ w => w.srcPart == p || w.srcPart == 0xFF)
  || (decide (sectionOf old 4 ≠ sectionOf new 4)
      && ((slots old).any (fun e => e.kind == 7 && (circuits old).any (fun c => c.id == e.circ && c.part == p))
        || (slots new).any (fun e => e.kind == 7 && (circuits new).any (fun c => c.id == e.circ && c.part == p)))))

/-- The partitions 0 to 15 of a content, as a mask. -/
def partMask (l : List Section) : Nat := (parts l).foldl (fun a e => if e.id < 16 then a ||| 2 ^ e.id else a) 0

/-- R65: SCOPE that an image needs. -/
def scopeNeeded (old new : List Section) (kind : Nat) : Nat :=
  (if kind = 1 then partMask old ||| partMask new else 0)
  ||| ((List.range 16).foldl (fun a p => if inScope old new p then a ||| 2 ^ p else a) 0)

/-- Check 0x12. -/
def chkBase (env : ImgEnv) (im : Image) : Bool :=
  (im.hdr.kind == 2 && (match env.full with
    | some f => decide (im.hdr.baseId ≠ f.hdr.imageId) || decide (im.hdr.baseVersion ≠ f.hdr.version) || decide (im.hdr.personality ≠ f.hdr.personality)
    | none => true))
  || (!env.held && (match lastImage env.full env.update with
    | some f => decide (im.hdr.generation % 256 = f.hdr.generation % 256)
    | none => false))

/-- Check 0x13. -/
def chkPersonality (env : ImgEnv) (im : Image) : Bool :=
  env.runtime && (match env.full with
    | some f => decide (im.hdr.personality ≠ f.hdr.personality)
    | none => false)

/-- The content that takes effect: a schedule update is merged with its base image (R52, R64). -/
def contentOf (env : ImgEnv) (im : Image) : List Section :=
  if im.hdr.kind = 2 then
    match env.full with
    | some f => mergeSections f.sections im.sections
    | none => im.sections
  else im.sections

/-- The first failing check's code, 0x00 where every check passes. -/
def firstFail : List (Nat × Bool) → Nat
  | [] => 0
  | (c, bad) :: rest => if bad then c else firstFail rest

/-- Checks 0x01 to 0x07, which judge the container and its signature. -/
def validateOuter (env : ImgEnv) (b : List Byte) (len : Nat) : Nat :=
  firstFail [(1, chkMagic b), (2, chkFormat env b), (3, chkLength b len), (4, chkKeySlot env b), (5, chkSignature b),
    (6, decide ((parseHeader b).secVersion < env.rollback)), (7, decide (env.firmware < (parseHeader b).minFirmware))]

/-- Checks 0x08 to 0x14, which judge the content. -/
def validateInner (env : ImgEnv) (b : List Byte) : Nat :=
  let im := parseImage b
  let l := contentOf env im
  let old := inForceSections env.full env.update
  firstFail [(8, chkDirectory b), (9, (dirEntries b).any (badSection b)), (0xA, chkMissing im), (0xB, chkPartitions l),
    (0xC, chkSlots im.hdr.members l), (0xD, chkShares l), (0xE, chkRegions l), (0xF, chkLlm l), (0x10, chkValues l),
    (0x11, decide (im.hdr.required &&& env.fenced ≠ 0)), (0x12, chkBase env im), (0x13, chkPersonality env im),
    (0x14, decide ((scopeNeeded old l im.hdr.kind) &&& im.hdr.scope ≠ scopeNeeded old l im.hdr.kind))]

/-- R64: every check in order, the code of the first that fails. -/
def validateImage (env : ImgEnv) (b : List Byte) (len : Nat) : Nat :=
  let c := validateOuter env b len
  if c ≠ 0 then c else validateInner env b

/-- R365: a ROUTES entry within its ranges, its reserved bytes zero. -/
def routeOk (self : Nat) (b : List Byte) : Bool :=
  decide (fieldAt b 0 2 ≤ 4095) && decide (fieldAt b 0 2 ≠ self) && decide (1 ≤ fieldAt b 2 1) && decide (fieldAt b 2 1 ≤ 63)
  && !reservedSet b [(3, 1), (0xC, 20)] && (List.range 8).all (fun i => fieldAt b (4 + i) 1 / 16 % 8 == 0)

/-- R368: a WINDOWS entry within its ranges, its reserved byte zero. -/
def windowOk (b : List Byte) : Bool :=
  decide (fieldAt b 0 2 ≤ 4095) && decide (fieldAt b 2 2 ≤ 4095)
  && (decide (fieldAt b 4 1 < 16) || fieldAt b 4 1 == 0xFE || fieldAt b 4 1 == 0xFF)
  && (decide (fieldAt b 5 1 < 16) || fieldAt b 5 1 == 0xFE) && decide (fieldAt b 6 1 < 2) && !reservedSet b [(7, 1)]
  && decide (fieldAt b 8 8 % 2 ^ 39 = 0) && decide (fieldAt b 8 8 < hostBase)

/-- R365, R368: the entries that load, each key once (the earlier entry of a repeated key stands), and how many were ignored. -/
def loadEntries (ok : List Byte → Bool) : List Nat → List (List Byte) → List (List Byte) × Nat
  | _, [] => ([], 0)
  | seen, b :: rest =>
    let k := fieldAt b 0 2
    if ok b && !seen.contains k then
      let r := loadEntries ok (k :: seen) rest
      (b :: r.1, r.2)
    else
      let r := loadEntries ok (k :: seen) rest
      (r.1, r.2 + 1)

/-- The effective ROUTES and WINDOWS sections replace the delivered ones when an image takes effect. -/
def loadTables (self : Nat) (l : List Section) : List Section × Nat :=
  let r := loadEntries (routeOk self) [] (sectionOf l 4)
  let w := loadEntries windowOk [] (sectionOf l 5)
  ([⟨4, r.1⟩, ⟨5, w.1⟩] ++ l.filter (fun x => x.type != 4 && x.type != 5), r.2 + w.2)

/-- A copy of the image hold, parsed. -/
def heldImage (h : Option (List Byte × Nat)) : Option Image := h.map (fun x => parseImage x.1)

end Sys2Proof.Machine
end

