-- ==== Sys2Proof/Machine/Regs.lean ====
section
/-! DEFINITION. The registers of the device: every register of R520 to R523, its place in the
register range (R518, R519) and its fields, with the access types of R14 and the reset values of the
chapters' field tables. -/

namespace Sys2Proof.Machine

/-- Access types of register fields (R14). -/
inductive Access where
  | ro
  | rw
  | w1c
  | w1s
  | st
  deriving DecidableEq, Repr

/-- The registers by name (R520 to R523). An indexed name such as HUB_FW_DIGEST0 to 7 is one name with instances. -/
inductive Reg where
  | HUB_DIE_ID
  | HUB_REV_EFFECTIVE
  | HUB_SERIAL
  | HUB_STICKY
  | HUB_ISO_REC
  | HUB_ISO_SRC
  | HUB_BOOT
  | HUB_BOOT_CTL
  | HUB_BOOT_SRC
  | HUB_FW_VER
  | HUB_FW_DIGEST
  | HUB_SIMG_CTL
  | HUB_SIMG_SRC
  | HUB_SIMG_STATUS
  | HUB_SOLSTICE
  | HUB_SIMG_ID
  | HUB_SIMG_BASE
  | HUB_SIMG_VER
  | HUB_SIMG_GEN
  | HUB_SIMG_DIGEST
  | HUB_CHIP_RESET
  | HUB_RECOV_CFG
  | HUB_AUDIT_SNAP
  | HUB_FT
  | HUB_FT_CTL
  | HUB_FT_LOAD
  | HUB_FT_PTP_BASE
  | HUB_FT_STATUS
  | HUB_DIE_FENCE
  | HUB_CLK_STATUS
  | HUB_COH_ERR
  | HUB_LINK_STATUS
  | HUB_LINK_ERR
  | HUB_CNT_SEL
  | HUB_CNT
  | HUB_SMP_CFG
  | HUB_SMP_RING
  | HUB_SMP_PTR
  | HUB_SMP_MSI
  | HUB_SLIP_COUNT
  | HUB_SLIP_MAX
  | HUB_AUDIT_A
  | HUB_AUDIT_B
  | HUB_AUDIT_C
  | HUB_AUDIT_D
  | HUB_AUDIT_E
  | HUB_TT_CFG
  | HUB_TT_NRING
  | HUB_TT_NPTR
  | HUB_TT_NMSI
  | HUB_TT_CTL
  | HUB_FLT_RING
  | HUB_FLT_PTR
  | HUB_FLT_MSI
  | HUB_FLT_CTL
  | HUB_TLBI
  | HUB_TLBI_VA
  | HUB_PART_RESET
  | HUB_RECOV_STATUS
  | HUB_RECOV_CTL
  | HUB_RECOV_SUSPECTS
  | HUB_CTX_CTL
  | HUB_CTX_STATUS
  | HUB_CTX_RING
  | HUB_CTX_CPL
  | HUB_CTX_SAVE
  | HUB_CTX_ATP
  | HUB_CTX_CORES0
  | HUB_CTX_CORES1
  | HUB_CTX_MSI
  | HUB_CTX_SEQ
  | HUB_CTX_FAULT
  | CPU_COH_ERR
  | CPU_COH_ERR_CNT
  | BD_COH_ERR
  | CL_CNT_SEL
  | CL_CNT
  | CL_EVT_PTR
  | CL_EVT_CTL
  | CL_EVT_MSI
  | CL_EVT_REC
  | CO_QCFG
  | CO_QSTAT
  | CO_DESC_ERR
  | CO_VFLAGS
  | CO_SAVE_CFG
  | CO_CNT_SEL
  | CO_CNT
  | CO_EVT_PTR
  | CO_EVT_REC
  | EN_EXC
  | EN_EXC_COORD
  | EN_EXC_TAG
  | EN_EXC_BEAT
  | EN_HANG
  | EN_EVT_PTR
  | EN_EVT_REC
  | MEM_ERR_CNT
  | MEM_ERR_REC
  | MEM_ERR_BEAT
  | MEM_REFRESH
  | MEM_SCRUB
  | MEM_ADD_FLAGS
  | LLM_SLICE
  | LLM_WAYS
  | LLM_WAY_REC
  | LLM_ZERO
  | LLM_ERR_REC
  | LLM_ERR_BEAT
  | FAB_PORT_STATUS
  | FAB_PORT_CTL
  | FAB_PORT_TIME
  | FAB_PORT_ERR
  | FAB_GEN_MISMATCH
  | FAB_SLOT_MISMATCH
  | FAB_STATUS
  | FAB_FM
  | FAB_NSEND
  | FAB_NRING
  | FAB_NPTR
  | FAB_NMSI
  | FAB_REMOVED
  | HOST_BAR2
  | HOST_ATTACH
  | HOST_ATTACH_GEN
  | HOST_STATUS
  | HOST_MSIX_ADDR
  | HOST_MSIX_DATA
  | HOST_PBA
  | ETH_STEER_MATCH
  | ETH_STEER_ACT
  | ETH_STEER_CTL
  | ETH_HASH_KEY
  | ETH_STATUS
  | ETH_RXQ
  | ETH_RXQ_PTR
  | ETH_RXQ_MSI
  | ETH_TXQ
  | ETH_TXQ_PTR
  | ETH_TXQ_MSI
  | ETH_RWIN_BASE
  | ETH_RWIN_CTL
  | PWR_CAP
  | PWR_MODE
  | PWR_RAMP
  | PWR_STATUS
  | PWR_EST
  | PWR_FAULT
  | PWR_POLICY_CLAMP
  | PWR_CLK
  | PWR_COOLANT
  | PWR_TEMP
  | SEC_OTP
  | SEC_OTP_PROG
  | SEC_DEVKEY
  | DBG_DUMP_CTL
  | DBG_DUMP_STATUS
  | DBG_DUMP_DEST
  | TRC_CTL
  | TRC_STATUS
  deriving DecidableEq, Repr

/-- One field of a register: bits lo to lo + width - 1, its access type and its reset value. -/
structure Field where
  reg : Reg
  lo : Nat
  width : Nat
  acc : Access
  rst : Nat
  deriving DecidableEq, Repr

/-- Place of a register in the register range: base offset, and (instances, stride) outermost first (R519). -/
structure Place where
  base : Nat
  dims : List (Nat × Nat)
  deriving DecidableEq, Repr

/-- A field from its bit range [hi:lo], as the field tables write it. -/
abbrev mkF (r : Reg) (hi lo : Nat) (a : Access) (rst : Nat) : Field := ⟨r, lo, hi + 1 - lo, a, rst⟩

namespace Fld
def HUB_DIE_ID_KIND : Field := mkF .HUB_DIE_ID 31 24 .ro 0
def HUB_DIE_ID_MAJOR : Field := mkF .HUB_DIE_ID 23 16 .ro 0x41
def HUB_DIE_ID_MINOR : Field := mkF .HUB_DIE_ID 15 8 .ro 1
def HUB_DIE_ID_PRESENT : Field := mkF .HUB_DIE_ID 0 0 .ro 1
def HUB_REV_EFFECTIVE_TD_MINOR : Field := mkF .HUB_REV_EFFECTIVE 15 8 .ro 1
def HUB_REV_EFFECTIVE_BD_MINOR : Field := mkF .HUB_REV_EFFECTIVE 7 0 .ro 1
def HUB_SERIAL_SERIAL : Field := mkF .HUB_SERIAL 63 0 .ro 0
def HUB_STICKY_FABRIC_LOSS : Field := mkF .HUB_STICKY 10 10 .st 0
def HUB_STICKY_LLM_WAY : Field := mkF .HUB_STICKY 9 9 .st 0
def HUB_STICKY_MEM_UNCORRECTED : Field := mkF .HUB_STICKY 8 8 .st 0
def HUB_STICKY_HANG : Field := mkF .HUB_STICKY 7 7 .st 0
def HUB_STICKY_HOST_LOST : Field := mkF .HUB_STICKY 6 6 .st 0
def HUB_STICKY_DIE_FENCED : Field := mkF .HUB_STICKY 5 5 .st 0
def HUB_STICKY_COH_PROTOCOL : Field := mkF .HUB_STICKY 4 4 .st 0
def HUB_STICKY_CREDIT_IMBALANCE : Field := mkF .HUB_STICKY 3 3 .st 0
def HUB_STICKY_SIMG_REJECT : Field := mkF .HUB_STICKY 2 2 .st 0
def HUB_STICKY_ISOLATION : Field := mkF .HUB_STICKY 1 1 .st 0
def HUB_ISO_REC_VALID : Field := mkF .HUB_ISO_REC 63 63 .st 0
def HUB_ISO_REC_KIND : Field := mkF .HUB_ISO_REC 62 60 .ro 0
def HUB_ISO_REC_ACCESS : Field := mkF .HUB_ISO_REC 59 58 .ro 0
def HUB_ISO_REC_ADDR : Field := mkF .HUB_ISO_REC 51 0 .ro 0
def HUB_ISO_SRC_PARTITION : Field := mkF .HUB_ISO_SRC 63 56 .ro 0
def HUB_ISO_SRC_UNIT : Field := mkF .HUB_ISO_SRC 11 0 .ro 0
def HUB_BOOT_REASON : Field := mkF .HUB_BOOT 63 56 .ro 1
def HUB_BOOT_LAST_FAIL : Field := mkF .HUB_BOOT 55 48 .ro 0
def HUB_BOOT_STAGE : Field := mkF .HUB_BOOT 47 44 .ro 1
def HUB_BOOT_START_COUNT : Field := mkF .HUB_BOOT 43 42 .ro 0
def HUB_BOOT_WINTER : Field := mkF .HUB_BOOT 41 41 .ro 0
def HUB_BOOT_FAILED : Field := mkF .HUB_BOOT 40 40 .st 0
def HUB_BOOT_CTL_RESULT : Field := mkF .HUB_BOOT_CTL 63 56 .ro 0
def HUB_BOOT_CTL_LENGTH : Field := mkF .HUB_BOOT_CTL 50 24 .rw 0
def HUB_BOOT_CTL_OBJECT : Field := mkF .HUB_BOOT_CTL 3 2 .rw 0
def HUB_BOOT_CTL_LEAVE_WINTER : Field := mkF .HUB_BOOT_CTL 1 1 .w1s 0
def HUB_BOOT_CTL_FETCH : Field := mkF .HUB_BOOT_CTL 0 0 .w1s 0
def HUB_BOOT_SRC_KIND : Field := mkF .HUB_BOOT_SRC 63 63 .rw 0
def HUB_BOOT_SRC_ADDR : Field := mkF .HUB_BOOT_SRC 51 6 .rw 0
def HUB_FW_VER_FW_VERSION : Field := mkF .HUB_FW_VER 63 32 .ro 0
def HUB_FW_VER_SECURITY_VERSION : Field := mkF .HUB_FW_VER 31 0 .ro 0
def HUB_FW_DIGEST_DIGEST : Field := mkF .HUB_FW_DIGEST 63 0 .ro 0
def HUB_SIMG_CTL_LENGTH : Field := mkF .HUB_SIMG_CTL 63 32 .rw 0
def HUB_SIMG_CTL_PROPOSE : Field := mkF .HUB_SIMG_CTL 2 2 .w1s 0
def HUB_SIMG_CTL_ABORT : Field := mkF .HUB_SIMG_CTL 1 1 .w1s 0
def HUB_SIMG_CTL_LOAD : Field := mkF .HUB_SIMG_CTL 0 0 .w1s 0
def HUB_SIMG_SRC_ADDR : Field := mkF .HUB_SIMG_SRC 51 6 .rw 0
def HUB_SIMG_STATUS_RESULT : Field := mkF .HUB_SIMG_STATUS 63 56 .ro 0
def HUB_SIMG_STATUS_PHASE : Field := mkF .HUB_SIMG_STATUS 55 48 .ro 0
def HUB_SIMG_STATUS_SCOPE : Field := mkF .HUB_SIMG_STATUS 47 32 .ro 0
def HUB_SIMG_STATUS_QUIESCED : Field := mkF .HUB_SIMG_STATUS 31 16 .ro 0
def HUB_SIMG_STATUS_NEXT_PENDING : Field := mkF .HUB_SIMG_STATUS 4 4 .ro 0
def HUB_SIMG_STATUS_PERSONALITY : Field := mkF .HUB_SIMG_STATUS 3 2 .ro 0
def HUB_SIMG_STATUS_KEY_SLOT : Field := mkF .HUB_SIMG_STATUS 1 1 .ro 0
def HUB_SIMG_STATUS_STAGED_VALID : Field := mkF .HUB_SIMG_STATUS 0 0 .ro 0
def HUB_SOLSTICE_TARGET : Field := mkF .HUB_SOLSTICE 63 0 .rw 0
def HUB_SIMG_ID_IMAGE_ID : Field := mkF .HUB_SIMG_ID 63 0 .ro 0
def HUB_SIMG_BASE_BASE_IMAGE_ID : Field := mkF .HUB_SIMG_BASE 63 0 .ro 0
def HUB_SIMG_VER_IMAGE_VERSION : Field := mkF .HUB_SIMG_VER 63 32 .ro 0
def HUB_SIMG_VER_SECURITY_VERSION : Field := mkF .HUB_SIMG_VER 31 0 .ro 0
def HUB_SIMG_GEN_MODULE_ID : Field := mkF .HUB_SIMG_GEN 43 32 .ro 0
def HUB_SIMG_GEN_GENERATION : Field := mkF .HUB_SIMG_GEN 31 0 .ro 0
def HUB_SIMG_DIGEST_DIGEST : Field := mkF .HUB_SIMG_DIGEST 63 0 .ro 0
def HUB_CHIP_RESET_GO : Field := mkF .HUB_CHIP_RESET 1 1 .w1s 0
def HUB_CHIP_RESET_ARM : Field := mkF .HUB_CHIP_RESET 0 0 .rw 0
def HUB_RECOV_CFG_AUTO_REPLAY : Field := mkF .HUB_RECOV_CFG 0 0 .rw 1
def HUB_AUDIT_SNAP_SNAP : Field := mkF .HUB_AUDIT_SNAP 15 0 .w1s 0
def HUB_FT_BEAT : Field := mkF .HUB_FT 63 0 .ro 0
def HUB_FT_CTL_PORT : Field := mkF .HUB_FT_CTL 11 8 .rw 0
def HUB_FT_CTL_SOURCE : Field := mkF .HUB_FT_CTL 5 4 .rw 1
def HUB_FT_CTL_ETH_PORT : Field := mkF .HUB_FT_CTL 3 3 .rw 0
def HUB_FT_CTL_ARM_EPOCH : Field := mkF .HUB_FT_CTL 1 1 .w1s 0
def HUB_FT_LOAD_VALUE : Field := mkF .HUB_FT_LOAD 63 0 .rw 0
def HUB_FT_PTP_BASE_BASE_NS : Field := mkF .HUB_FT_PTP_BASE 63 0 .rw 0
def HUB_FT_STATUS_PHASE_ERR : Field := mkF .HUB_FT_STATUS 63 32 .ro 0
def HUB_FT_STATUS_SOURCE_IN_USE : Field := mkF .HUB_FT_STATUS 7 6 .ro 0
def HUB_FT_STATUS_EPOCH_MISS : Field := mkF .HUB_FT_STATUS 5 5 .st 0
def HUB_FT_STATUS_REF_LOST : Field := mkF .HUB_FT_STATUS 4 4 .st 0
def HUB_FT_STATUS_STEPPED : Field := mkF .HUB_FT_STATUS 3 3 .st 0
def HUB_FT_STATUS_STATE : Field := mkF .HUB_FT_STATUS 2 0 .ro 0
def HUB_DIE_FENCE_CAUSE : Field := mkF .HUB_DIE_FENCE 47 32 .ro 0
def HUB_DIE_FENCE_HBM_HELD : Field := mkF .HUB_DIE_FENCE 19 16 .ro 0
def HUB_DIE_FENCE_FENCED : Field := mkF .HUB_DIE_FENCE 3 0 .ro 0
def HUB_CLK_STATUS_REF_PRESENT : Field := mkF .HUB_CLK_STATUS 8 8 .ro 1
def HUB_CLK_STATUS_ARITH_LOCK : Field := mkF .HUB_CLK_STATUS 7 4 .ro 0xf
def HUB_CLK_STATUS_CPU_LOCK : Field := mkF .HUB_CLK_STATUS 3 3 .ro 1
def HUB_CLK_STATUS_NET_LOCK : Field := mkF .HUB_CLK_STATUS 2 2 .ro 1
def HUB_CLK_STATUS_BEAT_LOCK : Field := mkF .HUB_CLK_STATUS 1 1 .ro 1
def HUB_CLK_STATUS_UNLOCK_SEEN : Field := mkF .HUB_CLK_STATUS 0 0 .st 0
def HUB_COH_ERR_VALID : Field := mkF .HUB_COH_ERR 63 63 .st 0
def HUB_COH_ERR_AGENT : Field := mkF .HUB_COH_ERR 62 56 .ro 0x7f
def HUB_COH_ERR_MSG : Field := mkF .HUB_COH_ERR 55 51 .ro 0
def HUB_COH_ERR_STATE : Field := mkF .HUB_COH_ERR 50 47 .ro 0
def HUB_COH_ERR_LINE : Field := mkF .HUB_COH_ERR 45 0 .ro 0
def HUB_LINK_STATUS_SPARES_USED : Field := mkF .HUB_LINK_STATUS 47 40 .ro 0
def HUB_LINK_STATUS_BUNDLES : Field := mkF .HUB_LINK_STATUS 39 32 .ro 0
def HUB_LINK_STATUS_BAD_LANES : Field := mkF .HUB_LINK_STATUS 31 24 .ro 0
def HUB_LINK_STATUS_LOSS : Field := mkF .HUB_LINK_STATUS 7 7 .st 0
def HUB_LINK_STATUS_LOSS_CAUSE : Field := mkF .HUB_LINK_STATUS 6 4 .ro 0
def HUB_LINK_STATUS_MAP_CHANGED : Field := mkF .HUB_LINK_STATUS 3 3 .st 0
def HUB_LINK_STATUS_STATE : Field := mkF .HUB_LINK_STATUS 2 0 .ro 2
def HUB_LINK_ERR_OVF : Field := mkF .HUB_LINK_ERR 63 63 .st 0
def HUB_LINK_ERR_CRC_ERRORS : Field := mkF .HUB_LINK_ERR 47 24 .ro 0
def HUB_LINK_ERR_REPLAYS : Field := mkF .HUB_LINK_ERR 23 0 .ro 0
def HUB_CNT_SEL_OVF_EVENT : Field := mkF .HUB_CNT_SEL 16 16 .rw 0
def HUB_CNT_SEL_EVENT : Field := mkF .HUB_CNT_SEL 15 0 .rw 0
def HUB_CNT_OVF : Field := mkF .HUB_CNT 48 48 .st 0
def HUB_CNT_VALUE : Field := mkF .HUB_CNT 47 0 .ro 0
def HUB_SMP_CFG_EN : Field := mkF .HUB_SMP_CFG 63 63 .rw 0
def HUB_SMP_CFG_CLUSTERS : Field := mkF .HUB_SMP_CFG 55 40 .rw 0
def HUB_SMP_CFG_PERIOD_LOG2 : Field := mkF .HUB_SMP_CFG 36 32 .rw 0x14
def HUB_SMP_CFG_DROPS : Field := mkF .HUB_SMP_CFG 31 16 .ro 0
def HUB_SMP_CFG_HUB : Field := mkF .HUB_SMP_CFG 0 0 .rw 1
def HUB_SMP_RING_BASE : Field := mkF .HUB_SMP_RING 51 12 .rw 0
def HUB_SMP_RING_LOG2_RECORDS : Field := mkF .HUB_SMP_RING 4 0 .rw 4
def HUB_SMP_PTR_HEAD : Field := mkF .HUB_SMP_PTR 63 32 .ro 0
def HUB_SMP_PTR_TAIL : Field := mkF .HUB_SMP_PTR 31 0 .rw 0
def HUB_SMP_MSI_FILE : Field := mkF .HUB_SMP_MSI 51 12 .rw 0
def HUB_SMP_MSI_EN : Field := mkF .HUB_SMP_MSI 11 11 .rw 0
def HUB_SMP_MSI_IDENTITY : Field := mkF .HUB_SMP_MSI 10 0 .rw 0
def HUB_SLIP_COUNT_OVF : Field := mkF .HUB_SLIP_COUNT 48 48 .st 0
def HUB_SLIP_COUNT_SLIPS : Field := mkF .HUB_SLIP_COUNT 47 0 .ro 0
def HUB_SLIP_MAX_LIMIT_HIT : Field := mkF .HUB_SLIP_MAX 48 48 .st 0
def HUB_SLIP_MAX_CIRCUIT : Field := mkF .HUB_SLIP_MAX 47 32 .ro 0
def HUB_SLIP_MAX_RUN : Field := mkF .HUB_SLIP_MAX 15 0 .w1c 0
def HUB_AUDIT_A_BALANCED : Field := mkF .HUB_AUDIT_A 63 63 .ro 0
def HUB_AUDIT_A_TRANSIENT : Field := mkF .HUB_AUDIT_A 62 62 .ro 0
def HUB_AUDIT_A_BUDGET : Field := mkF .HUB_AUDIT_A 47 24 .ro 0
def HUB_AUDIT_A_CREDITS_FREE : Field := mkF .HUB_AUDIT_A 23 0 .ro 0
def HUB_AUDIT_B_RETURNING : Field := mkF .HUB_AUDIT_B 47 24 .ro 0
def HUB_AUDIT_B_TOKENS : Field := mkF .HUB_AUDIT_B 23 0 .ro 0
def HUB_AUDIT_C_CONTRIB_SENT : Field := mkF .HUB_AUDIT_C 47 0 .ro 0
def HUB_AUDIT_D_CONTRIB_RETIRED : Field := mkF .HUB_AUDIT_D 47 0 .ro 0
def HUB_AUDIT_E_CONTRIB_HELD : Field := mkF .HUB_AUDIT_E 23 0 .ro 0
def HUB_TT_CFG_EN : Field := mkF .HUB_TT_CFG 63 63 .rw 0
def HUB_TT_CFG_BASE : Field := mkF .HUB_TT_CFG 51 12 .rw 0
def HUB_TT_CFG_LOG2_ENTRIES : Field := mkF .HUB_TT_CFG 4 0 .rw 0xa
def HUB_TT_NRING_BASE : Field := mkF .HUB_TT_NRING 51 12 .rw 0
def HUB_TT_NRING_LOG2_RECORDS : Field := mkF .HUB_TT_NRING 4 0 .rw 4
def HUB_TT_NPTR_HEAD : Field := mkF .HUB_TT_NPTR 63 32 .ro 0
def HUB_TT_NPTR_TAIL : Field := mkF .HUB_TT_NPTR 31 0 .rw 0
def HUB_TT_NMSI_FILE : Field := mkF .HUB_TT_NMSI 51 12 .rw 0
def HUB_TT_NMSI_EN : Field := mkF .HUB_TT_NMSI 11 11 .rw 0
def HUB_TT_NMSI_IDENTITY : Field := mkF .HUB_TT_NMSI 10 0 .rw 0
def HUB_TT_CTL_DROPS : Field := mkF .HUB_TT_CTL 63 48 .ro 0
def HUB_TT_CTL_FENCE : Field := mkF .HUB_TT_CTL 0 0 .w1s 0
def HUB_FLT_RING_BASE : Field := mkF .HUB_FLT_RING 51 12 .rw 0
def HUB_FLT_RING_LOG2_RECORDS : Field := mkF .HUB_FLT_RING 4 0 .rw 4
def HUB_FLT_PTR_HEAD : Field := mkF .HUB_FLT_PTR 63 32 .ro 0
def HUB_FLT_PTR_TAIL : Field := mkF .HUB_FLT_PTR 31 0 .rw 0
def HUB_FLT_MSI_FILE : Field := mkF .HUB_FLT_MSI 51 12 .rw 0
def HUB_FLT_MSI_EN : Field := mkF .HUB_FLT_MSI 11 11 .rw 0
def HUB_FLT_MSI_IDENTITY : Field := mkF .HUB_FLT_MSI 10 0 .rw 0
def HUB_FLT_CTL_DROPS : Field := mkF .HUB_FLT_CTL 63 48 .ro 0
def HUB_TLBI_GO : Field := mkF .HUB_TLBI 63 63 .w1s 0
def HUB_TLBI_ALL_ASID : Field := mkF .HUB_TLBI 62 62 .rw 0
def HUB_TLBI_ALL_VA : Field := mkF .HUB_TLBI 61 61 .rw 0
def HUB_TLBI_ASID : Field := mkF .HUB_TLBI 55 40 .rw 0
def HUB_TLBI_VA_VPN : Field := mkF .HUB_TLBI_VA 56 12 .rw 0
def HUB_TLBI_VA_LOG2_PAGES : Field := mkF .HUB_TLBI_VA 5 0 .rw 0
def HUB_PART_RESET_BUSY : Field := mkF .HUB_PART_RESET 63 63 .ro 0
def HUB_PART_RESET_CAUSE : Field := mkF .HUB_PART_RESET 58 56 .ro 0
def HUB_PART_RESET_COUNT : Field := mkF .HUB_PART_RESET 47 32 .ro 0
def HUB_PART_RESET_RESET : Field := mkF .HUB_PART_RESET 0 0 .w1s 0
def HUB_RECOV_STATUS_STATE : Field := mkF .HUB_RECOV_STATUS 63 61 .ro 0
def HUB_RECOV_STATUS_ENGINE : Field := mkF .HUB_RECOV_STATUS 60 52 .ro 0
def HUB_RECOV_STATUS_CURRENT : Field := mkF .HUB_RECOV_STATUS 51 44 .ro 0
def HUB_RECOV_STATUS_SUSPECTS : Field := mkF .HUB_RECOV_STATUS 43 36 .ro 0
def HUB_RECOV_STATUS_GUILTY : Field := mkF .HUB_RECOV_STATUS 35 28 .ro 0
def HUB_RECOV_STATUS_QUEUED : Field := mkF .HUB_RECOV_STATUS 7 0 .ro 0
def HUB_RECOV_CTL_REPLAY : Field := mkF .HUB_RECOV_CTL 0 0 .w1s 0
def HUB_RECOV_SUSPECTS_SUSPECTS : Field := mkF .HUB_RECOV_SUSPECTS 63 0 .ro 0
def HUB_CTX_CTL_END : Field := mkF .HUB_CTX_CTL 3 3 .w1s 0
def HUB_CTX_CTL_RESUME : Field := mkF .HUB_CTX_CTL 2 2 .w1s 0
def HUB_CTX_CTL_PREEMPT : Field := mkF .HUB_CTX_CTL 1 1 .w1s 0
def HUB_CTX_CTL_CREATE : Field := mkF .HUB_CTX_CTL 0 0 .w1s 0
def HUB_CTX_STATUS_LAST_STATUS : Field := mkF .HUB_CTX_STATUS 63 56 .ro 0
def HUB_CTX_STATUS_OP_ERR : Field := mkF .HUB_CTX_STATUS 55 48 .ro 0
def HUB_CTX_STATUS_HALT_REASON : Field := mkF .HUB_CTX_STATUS 47 44 .ro 0
def HUB_CTX_STATUS_PARTITION : Field := mkF .HUB_CTX_STATUS 43 40 .ro 0
def HUB_CTX_STATUS_POLLS_SKIPPED : Field := mkF .HUB_CTX_STATUS 39 8 .ro 0
def HUB_CTX_STATUS_STATE : Field := mkF .HUB_CTX_STATUS 2 0 .ro 0
def HUB_CTX_RING_BASE : Field := mkF .HUB_CTX_RING 51 9 .rw 0
def HUB_CTX_RING_LOG2_ENTRIES : Field := mkF .HUB_CTX_RING 4 0 .rw 4
def HUB_CTX_CPL_BASE : Field := mkF .HUB_CTX_CPL 51 8 .rw 0
def HUB_CTX_SAVE_BASE : Field := mkF .HUB_CTX_SAVE 51 12 .rw 0
def HUB_CTX_ATP_MODE : Field := mkF .HUB_CTX_ATP 63 60 .rw 0
def HUB_CTX_ATP_ASID : Field := mkF .HUB_CTX_ATP 59 44 .rw 0
def HUB_CTX_ATP_PPN : Field := mkF .HUB_CTX_ATP 43 0 .rw 0
def HUB_CTX_CORES0_CORES : Field := mkF .HUB_CTX_CORES0 63 0 .rw 0
def HUB_CTX_CORES1_CORES : Field := mkF .HUB_CTX_CORES1 63 0 .rw 0
def HUB_CTX_MSI_FILE : Field := mkF .HUB_CTX_MSI 51 12 .rw 0
def HUB_CTX_MSI_EN : Field := mkF .HUB_CTX_MSI 11 11 .rw 0
def HUB_CTX_MSI_IDENTITY : Field := mkF .HUB_CTX_MSI 10 0 .rw 0
def HUB_CTX_SEQ_NEXT : Field := mkF .HUB_CTX_SEQ 63 32 .ro 0
def HUB_CTX_SEQ_INITIAL_SEQ : Field := mkF .HUB_CTX_SEQ 31 0 .rw 0
def HUB_CTX_FAULT_PENDING : Field := mkF .HUB_CTX_FAULT 63 63 .ro 0
def HUB_CTX_FAULT_CAUSE : Field := mkF .HUB_CTX_FAULT 55 48 .ro 0
def HUB_CTX_FAULT_COUNT : Field := mkF .HUB_CTX_FAULT 47 32 .ro 0
def CPU_COH_ERR_VALID : Field := mkF .CPU_COH_ERR 63 63 .st 0
def CPU_COH_ERR_AGENT : Field := mkF .CPU_COH_ERR 62 56 .ro 0x7f
def CPU_COH_ERR_MSG : Field := mkF .CPU_COH_ERR 55 51 .ro 0
def CPU_COH_ERR_STATE : Field := mkF .CPU_COH_ERR 50 47 .ro 0
def CPU_COH_ERR_LINE : Field := mkF .CPU_COH_ERR 45 0 .ro 0
def CPU_COH_ERR_CNT_OVF : Field := mkF .CPU_COH_ERR_CNT 63 63 .st 0
def CPU_COH_ERR_CNT_LOST : Field := mkF .CPU_COH_ERR_CNT 47 24 .ro 0
def CPU_COH_ERR_CNT_ERRORS : Field := mkF .CPU_COH_ERR_CNT 23 0 .ro 0
def BD_COH_ERR_VALID : Field := mkF .BD_COH_ERR 63 63 .st 0
def BD_COH_ERR_AGENT : Field := mkF .BD_COH_ERR 62 56 .ro 0x7f
def BD_COH_ERR_MSG : Field := mkF .BD_COH_ERR 55 51 .ro 0
def BD_COH_ERR_STATE : Field := mkF .BD_COH_ERR 50 47 .ro 0
def BD_COH_ERR_LINE : Field := mkF .BD_COH_ERR 45 0 .ro 0
def CL_CNT_SEL_OVF_EVENT : Field := mkF .CL_CNT_SEL 16 16 .rw 0
def CL_CNT_SEL_EVENT : Field := mkF .CL_CNT_SEL 15 0 .rw 0
def CL_CNT_OVF : Field := mkF .CL_CNT 48 48 .st 0
def CL_CNT_VALUE : Field := mkF .CL_CNT 47 0 .ro 0
def CL_EVT_PTR_FREEZE : Field := mkF .CL_EVT_PTR 63 63 .rw 0
def CL_EVT_PTR_LOST : Field := mkF .CL_EVT_PTR 47 32 .ro 0
def CL_EVT_PTR_WRITES : Field := mkF .CL_EVT_PTR 31 0 .ro 0
def CL_EVT_CTL_IRQ_MASK : Field := mkF .CL_EVT_CTL 47 32 .rw 0
def CL_EVT_CTL_DROPPED : Field := mkF .CL_EVT_CTL 31 16 .ro 0
def CL_EVT_CTL_COPY_MASK : Field := mkF .CL_EVT_CTL 14 0 .rw 0x7fff
def CL_EVT_MSI_FILE : Field := mkF .CL_EVT_MSI 51 12 .rw 0
def CL_EVT_MSI_EN : Field := mkF .CL_EVT_MSI 11 11 .rw 0
def CL_EVT_MSI_IDENTITY : Field := mkF .CL_EVT_MSI 10 0 .rw 0
def CL_EVT_REC_WORD : Field := mkF .CL_EVT_REC 63 0 .ro 0
def CO_QCFG_VALID : Field := mkF .CO_QCFG 63 63 .ro 0
def CO_QCFG_DEPTH : Field := mkF .CO_QCFG 62 56 .ro 0
def CO_QCFG_SCALE_UNITS : Field := mkF .CO_QCFG 55 46 .ro 0
def CO_QCFG_SLOT_UNITS : Field := mkF .CO_QCFG 45 36 .ro 0
def CO_QCFG_BASE : Field := mkF .CO_QCFG 20 8 .ro 0
def CO_QSTAT_CONSUMER : Field := mkF .CO_QSTAT 63 56 .ro 0xff
def CO_QSTAT_PRODUCER : Field := mkF .CO_QSTAT 55 48 .ro 0xff
def CO_QSTAT_HELD : Field := mkF .CO_QSTAT 22 16 .ro 0
def CO_QSTAT_TOKENS : Field := mkF .CO_QSTAT 14 8 .ro 0
def CO_QSTAT_CREDITS : Field := mkF .CO_QSTAT 6 0 .ro 0
def CO_DESC_ERR_VALID : Field := mkF .CO_DESC_ERR 63 63 .st 0
def CO_DESC_ERR_CODE : Field := mkF .CO_DESC_ERR 47 40 .ro 0
def CO_DESC_ERR_ENTRY : Field := mkF .CO_DESC_ERR 39 32 .ro 0
def CO_DESC_ERR_OPERATOR : Field := mkF .CO_DESC_ERR 31 16 .ro 0
def CO_DESC_ERR_LAYER : Field := mkF .CO_DESC_ERR 15 0 .ro 0
def CO_VFLAGS_DIVZERO : Field := mkF .CO_VFLAGS 5 5 .st 0
def CO_VFLAGS_INVALID : Field := mkF .CO_VFLAGS 4 4 .st 0
def CO_VFLAGS_SATURATED : Field := mkF .CO_VFLAGS 3 3 .st 0
def CO_VFLAGS_OVERFLOW : Field := mkF .CO_VFLAGS 2 2 .st 0
def CO_VFLAGS_UNDERFLOW : Field := mkF .CO_VFLAGS 1 1 .st 0
def CO_VFLAGS_INEXACT : Field := mkF .CO_VFLAGS 0 0 .st 0
def CO_SAVE_CFG_SLOTS : Field := mkF .CO_SAVE_CFG 2 0 .rw 2
def CO_CNT_SEL_OVF_EVENT : Field := mkF .CO_CNT_SEL 16 16 .rw 0
def CO_CNT_SEL_EVENT : Field := mkF .CO_CNT_SEL 15 0 .rw 0
def CO_CNT_OVF : Field := mkF .CO_CNT 48 48 .st 0
def CO_CNT_VALUE : Field := mkF .CO_CNT 47 0 .ro 0
def CO_EVT_PTR_FREEZE : Field := mkF .CO_EVT_PTR 63 63 .rw 0
def CO_EVT_PTR_LOST : Field := mkF .CO_EVT_PTR 47 32 .ro 0
def CO_EVT_PTR_WRITES : Field := mkF .CO_EVT_PTR 31 0 .ro 0
def CO_EVT_REC_WORD : Field := mkF .CO_EVT_REC 63 0 .ro 0
def EN_EXC_NAN_IN : Field := mkF .EN_EXC 7 7 .st 0
def EN_EXC_SCALE_UNF : Field := mkF .EN_EXC 6 6 .st 0
def EN_EXC_SCALE_OVF : Field := mkF .EN_EXC 5 5 .st 0
def EN_EXC_INVALID : Field := mkF .EN_EXC 4 4 .st 0
def EN_EXC_SATURATED : Field := mkF .EN_EXC 3 3 .st 0
def EN_EXC_OVERFLOW : Field := mkF .EN_EXC 2 2 .st 0
def EN_EXC_UNDERFLOW : Field := mkF .EN_EXC 1 1 .st 0
def EN_EXC_INEXACT : Field := mkF .EN_EXC 0 0 .st 0
def EN_EXC_COORD_K : Field := mkF .EN_EXC_COORD 63 32 .ro 0
def EN_EXC_COORD_ENGINE : Field := mkF .EN_EXC_COORD 31 23 .ro 0
def EN_EXC_COORD_KIND : Field := mkF .EN_EXC_COORD 22 21 .ro 0
def EN_EXC_COORD_BANK : Field := mkF .EN_EXC_COORD 12 12 .ro 0
def EN_EXC_COORD_ROW : Field := mkF .EN_EXC_COORD 11 6 .ro 0
def EN_EXC_COORD_COL : Field := mkF .EN_EXC_COORD 5 0 .ro 0
def EN_EXC_TAG_VALID : Field := mkF .EN_EXC_TAG 63 63 .st 0
def EN_EXC_TAG_CONTEXT : Field := mkF .EN_EXC_TAG 55 48 .ro 0
def EN_EXC_TAG_OPERATOR : Field := mkF .EN_EXC_TAG 47 32 .ro 0
def EN_EXC_TAG_LAYER : Field := mkF .EN_EXC_TAG 31 16 .ro 0
def EN_EXC_TAG_COUNT : Field := mkF .EN_EXC_TAG 15 0 .ro 0
def EN_EXC_BEAT_BEAT : Field := mkF .EN_EXC_BEAT 63 0 .ro 0
def EN_HANG_HUNG : Field := mkF .EN_HANG 63 63 .st 0
def EN_HANG_RESET : Field := mkF .EN_HANG 62 62 .w1s 0
def EN_HANG_RECOVERIES : Field := mkF .EN_HANG 47 32 .ro 0
def EN_HANG_IDLE : Field := mkF .EN_HANG 20 0 .ro 0
def EN_EVT_PTR_FREEZE : Field := mkF .EN_EVT_PTR 63 63 .rw 0
def EN_EVT_PTR_LOST : Field := mkF .EN_EVT_PTR 47 32 .ro 0
def EN_EVT_PTR_WRITES : Field := mkF .EN_EVT_PTR 31 0 .ro 0
def EN_EVT_REC_WORD : Field := mkF .EN_EVT_REC 63 0 .ro 0
def MEM_ERR_CNT_OVF : Field := mkF .MEM_ERR_CNT 63 63 .st 0
def MEM_ERR_CNT_POISON_READS : Field := mkF .MEM_ERR_CNT 62 48 .ro 0
def MEM_ERR_CNT_UNCORRECTED : Field := mkF .MEM_ERR_CNT 47 24 .ro 0
def MEM_ERR_CNT_CORRECTED : Field := mkF .MEM_ERR_CNT 23 0 .ro 0
def MEM_ERR_REC_VALID : Field := mkF .MEM_ERR_REC 63 63 .st 0
def MEM_ERR_REC_TYPE : Field := mkF .MEM_ERR_REC 62 61 .ro 0
def MEM_ERR_REC_SOURCE : Field := mkF .MEM_ERR_REC 60 59 .ro 0
def MEM_ERR_REC_ADDR : Field := mkF .MEM_ERR_REC 51 5 .ro 0
def MEM_ERR_BEAT_BEAT : Field := mkF .MEM_ERR_BEAT 63 0 .ro 0
def MEM_REFRESH_TEMP : Field := mkF .MEM_REFRESH 23 16 .ro 0
def MEM_REFRESH_FLOOR : Field := mkF .MEM_REFRESH 5 4 .rw 0
def MEM_REFRESH_LEVEL : Field := mkF .MEM_REFRESH 1 0 .ro 0
def MEM_SCRUB_PASSES : Field := mkF .MEM_SCRUB 63 32 .ro 0
def MEM_SCRUB_PERIOD : Field := mkF .MEM_SCRUB 31 0 .rw 0x15180
def MEM_ADD_FLAGS_INVALID : Field := mkF .MEM_ADD_FLAGS 4 4 .st 0
def MEM_ADD_FLAGS_SATURATED : Field := mkF .MEM_ADD_FLAGS 3 3 .st 0
def MEM_ADD_FLAGS_OVERFLOW : Field := mkF .MEM_ADD_FLAGS 2 2 .st 0
def MEM_ADD_FLAGS_UNDERFLOW : Field := mkF .MEM_ADD_FLAGS 1 1 .st 0
def MEM_ADD_FLAGS_INEXACT : Field := mkF .MEM_ADD_FLAGS 0 0 .st 0
def LLM_SLICE_DISABLED : Field := mkF .LLM_SLICE 63 48 .st 0
def LLM_SLICE_CORRECTED : Field := mkF .LLM_SLICE 47 24 .ro 0
def LLM_SLICE_UNCORRECTED : Field := mkF .LLM_SLICE 23 8 .ro 0
def LLM_SLICE_MODE : Field := mkF .LLM_SLICE 0 0 .ro 0
def LLM_WAYS_WAY_MASK : Field := mkF .LLM_WAYS 15 0 .ro 0xffff
def LLM_WAY_REC_VALID : Field := mkF .LLM_WAY_REC 63 63 .st 0
def LLM_WAY_REC_CAUSE : Field := mkF .LLM_WAY_REC 59 58 .ro 0
def LLM_WAY_REC_SLICE : Field := mkF .LLM_WAY_REC 57 52 .ro 0
def LLM_WAY_REC_WAY : Field := mkF .LLM_WAY_REC 51 48 .ro 0
def LLM_WAY_REC_WRITTEN_BACK : Field := mkF .LLM_WAY_REC 47 24 .ro 0
def LLM_WAY_REC_POISONED : Field := mkF .LLM_WAY_REC 23 0 .ro 0
def LLM_ZERO_LINES : Field := mkF .LLM_ZERO 63 52 .rw 0
def LLM_ZERO_ADDR : Field := mkF .LLM_ZERO 51 10 .rw 0
def LLM_ZERO_GO : Field := mkF .LLM_ZERO 0 0 .w1s 0
def LLM_ERR_REC_VALID : Field := mkF .LLM_ERR_REC 63 63 .st 0
def LLM_ERR_REC_SOURCE : Field := mkF .LLM_ERR_REC 60 59 .ro 0
def LLM_ERR_REC_ADDR : Field := mkF .LLM_ERR_REC 51 5 .ro 0
def LLM_ERR_BEAT_BEAT : Field := mkF .LLM_ERR_BEAT 63 0 .ro 0
def FAB_PORT_STATUS_NBR_MODULE : Field := mkF .FAB_PORT_STATUS 51 40 .ro 0
def FAB_PORT_STATUS_NBR_PORT : Field := mkF .FAB_PORT_STATUS 39 36 .ro 0
def FAB_PORT_STATUS_LOSS_CAUSE : Field := mkF .FAB_PORT_STATUS 10 8 .ro 0
def FAB_PORT_STATUS_TIME_WARN : Field := mkF .FAB_PORT_STATUS 7 7 .st 0
def FAB_PORT_STATUS_LOSS : Field := mkF .FAB_PORT_STATUS 6 6 .st 0
def FAB_PORT_STATUS_SLOT_LIVE : Field := mkF .FAB_PORT_STATUS 5 5 .ro 0
def FAB_PORT_STATUS_STATE : Field := mkF .FAB_PORT_STATUS 2 0 .ro 0
def FAB_PORT_CTL_DISABLE : Field := mkF .FAB_PORT_CTL 1 1 .rw 0
def FAB_PORT_CTL_RETRAIN : Field := mkF .FAB_PORT_CTL 0 0 .w1s 0
def FAB_PORT_TIME_DELAY : Field := mkF .FAB_PORT_TIME 63 32 .ro 0
def FAB_PORT_TIME_PHASE_ERR : Field := mkF .FAB_PORT_TIME 31 0 .ro 0
def FAB_PORT_ERR_OVF : Field := mkF .FAB_PORT_ERR 63 63 .st 0
def FAB_PORT_ERR_CORRECTED : Field := mkF .FAB_PORT_ERR 62 40 .ro 0
def FAB_PORT_ERR_BAD : Field := mkF .FAB_PORT_ERR 39 16 .ro 0
def FAB_PORT_ERR_RETRIES : Field := mkF .FAB_PORT_ERR 15 0 .ro 0
def FAB_GEN_MISMATCH_OVF : Field := mkF .FAB_GEN_MISMATCH 48 48 .st 0
def FAB_GEN_MISMATCH_COUNT : Field := mkF .FAB_GEN_MISMATCH 47 0 .ro 0
def FAB_SLOT_MISMATCH_OVF : Field := mkF .FAB_SLOT_MISMATCH 48 48 .st 0
def FAB_SLOT_MISMATCH_COUNT : Field := mkF .FAB_SLOT_MISMATCH 47 0 .ro 0
def FAB_STATUS_BAD_ENTRIES : Field := mkF .FAB_STATUS 63 48 .ro 0
def FAB_STATUS_DISCARDS : Field := mkF .FAB_STATUS 47 32 .ro 0
def FAB_STATUS_NDROPS : Field := mkF .FAB_STATUS 31 16 .ro 0
def FAB_STATUS_ROUTE_LOST : Field := mkF .FAB_STATUS 8 8 .st 0
def FAB_STATUS_EPOCH : Field := mkF .FAB_STATUS 7 0 .ro 0
def FAB_FM_VALID : Field := mkF .FAB_FM 63 63 .rw 0
def FAB_FM_MODULE : Field := mkF .FAB_FM 11 0 .rw 0
def FAB_NSEND_GO : Field := mkF .FAB_NSEND 63 63 .w1s 0
def FAB_NSEND_BROADCAST : Field := mkF .FAB_NSEND 62 62 .rw 0
def FAB_NSEND_RESULT : Field := mkF .FAB_NSEND 61 60 .ro 0
def FAB_NSEND_ADDR : Field := mkF .FAB_NSEND 51 7 .rw 0
def FAB_NRING_BASE : Field := mkF .FAB_NRING 51 12 .rw 0
def FAB_NRING_LOG2_RECORDS : Field := mkF .FAB_NRING 4 0 .rw 4
def FAB_NPTR_HEAD : Field := mkF .FAB_NPTR 63 32 .ro 0
def FAB_NPTR_TAIL : Field := mkF .FAB_NPTR 31 0 .rw 0
def FAB_NMSI_FILE : Field := mkF .FAB_NMSI 51 12 .rw 0
def FAB_NMSI_EN : Field := mkF .FAB_NMSI 11 11 .rw 0
def FAB_NMSI_IDENTITY : Field := mkF .FAB_NMSI 10 0 .rw 0
def FAB_REMOVED_REMOVED : Field := mkF .FAB_REMOVED 63 0 .ro 0
def HOST_BAR2_EN : Field := mkF .HOST_BAR2 63 63 .rw 0
def HOST_BAR2_PART : Field := mkF .HOST_BAR2 59 52 .rw 0xfe
def HOST_BAR2_BASE : Field := mkF .HOST_BAR2 51 28 .rw 0
def HOST_ATTACH_GENERATION : Field := mkF .HOST_ATTACH 63 32 .ro 1
def HOST_ATTACH_CAUSE : Field := mkF .HOST_ATTACH 31 28 .ro 0
def HOST_ATTACH_RESULT : Field := mkF .HOST_ATTACH 27 24 .ro 0
def HOST_ATTACH_STATE : Field := mkF .HOST_ATTACH 16 16 .ro 0
def HOST_ATTACH_DETACH : Field := mkF .HOST_ATTACH 1 1 .w1s 0
def HOST_ATTACH_ATTACH : Field := mkF .HOST_ATTACH 0 0 .w1s 0
def HOST_ATTACH_GEN_ACK_GEN : Field := mkF .HOST_ATTACH_GEN 31 0 .rw 0
def HOST_STATUS_LOST : Field := mkF .HOST_STATUS 63 63 .st 0
def HOST_STATUS_BAD_BASE : Field := mkF .HOST_STATUS 62 62 .st 0
def HOST_STATUS_MSI_DROPS : Field := mkF .HOST_STATUS 47 32 .ro 0
def HOST_STATUS_BAR_ERRORS : Field := mkF .HOST_STATUS 31 16 .ro 0
def HOST_STATUS_SPEED : Field := mkF .HOST_STATUS 15 12 .ro 0
def HOST_STATUS_WIDTH : Field := mkF .HOST_STATUS 11 8 .ro 0
def HOST_STATUS_DL_ACTIVE : Field := mkF .HOST_STATUS 0 0 .ro 0
def HOST_MSIX_ADDR_ADDRESS : Field := mkF .HOST_MSIX_ADDR 63 2 .rw 0
def HOST_MSIX_DATA_MASK : Field := mkF .HOST_MSIX_DATA 32 32 .rw 1
def HOST_MSIX_DATA_DATA : Field := mkF .HOST_MSIX_DATA 31 0 .rw 0
def HOST_PBA_PENDING : Field := mkF .HOST_PBA 63 0 .ro 0
def ETH_STEER_MATCH_VALID : Field := mkF .ETH_STEER_MATCH 63 63 .rw 0
def ETH_STEER_MATCH_IPV : Field := mkF .ETH_STEER_MATCH 62 61 .rw 0
def ETH_STEER_MATCH_PROTO : Field := mkF .ETH_STEER_MATCH 60 53 .rw 0
def ETH_STEER_MATCH_VLAN : Field := mkF .ETH_STEER_MATCH 52 41 .rw 0xfff
def ETH_STEER_MATCH_DPORT_HI : Field := mkF .ETH_STEER_MATCH 31 16 .rw 0xffff
def ETH_STEER_MATCH_DPORT_LO : Field := mkF .ETH_STEER_MATCH 15 0 .rw 0
def ETH_STEER_ACT_HASH_LOG2 : Field := mkF .ETH_STEER_ACT 18 16 .rw 0
def ETH_STEER_ACT_KIND : Field := mkF .ETH_STEER_ACT 9 8 .rw 0
def ETH_STEER_ACT_QUEUE : Field := mkF .ETH_STEER_ACT 7 0 .rw 0
def ETH_STEER_CTL_DEFAULT_EN : Field := mkF .ETH_STEER_CTL 16 16 .rw 0
def ETH_STEER_CTL_DEFAULT : Field := mkF .ETH_STEER_CTL 7 0 .rw 0
def ETH_HASH_KEY_KEY : Field := mkF .ETH_HASH_KEY 63 0 .rw 0
def ETH_STATUS_FCS_DROPS : Field := mkF .ETH_STATUS 63 48 .ro 0
def ETH_STATUS_RX_DROPS : Field := mkF .ETH_STATUS 47 32 .ro 0
def ETH_STATUS_RKEY_ERR : Field := mkF .ETH_STATUS 31 16 .ro 0
def ETH_STATUS_LINK_UP : Field := mkF .ETH_STATUS 0 0 .ro 0
def ETH_RXQ_EN : Field := mkF .ETH_RXQ 63 63 .rw 0
def ETH_RXQ_CORE : Field := mkF .ETH_RXQ 62 56 .rw 0
def ETH_RXQ_BASE : Field := mkF .ETH_RXQ 51 12 .rw 0
def ETH_RXQ_LOG2_ENTRIES : Field := mkF .ETH_RXQ 4 0 .rw 4
def ETH_RXQ_PTR_HEAD : Field := mkF .ETH_RXQ_PTR 63 32 .ro 0
def ETH_RXQ_PTR_TAIL : Field := mkF .ETH_RXQ_PTR 31 0 .rw 0
def ETH_RXQ_MSI_FILE : Field := mkF .ETH_RXQ_MSI 51 12 .rw 0
def ETH_RXQ_MSI_EN : Field := mkF .ETH_RXQ_MSI 11 11 .rw 0
def ETH_RXQ_MSI_IDENTITY : Field := mkF .ETH_RXQ_MSI 10 0 .rw 0
def ETH_TXQ_EN : Field := mkF .ETH_TXQ 63 63 .rw 0
def ETH_TXQ_CORE : Field := mkF .ETH_TXQ 62 56 .rw 0
def ETH_TXQ_BASE : Field := mkF .ETH_TXQ 51 12 .rw 0
def ETH_TXQ_LOG2_ENTRIES : Field := mkF .ETH_TXQ 4 0 .rw 4
def ETH_TXQ_PTR_HEAD : Field := mkF .ETH_TXQ_PTR 63 32 .ro 0
def ETH_TXQ_PTR_TAIL : Field := mkF .ETH_TXQ_PTR 31 0 .rw 0
def ETH_TXQ_MSI_FILE : Field := mkF .ETH_TXQ_MSI 51 12 .rw 0
def ETH_TXQ_MSI_EN : Field := mkF .ETH_TXQ_MSI 11 11 .rw 0
def ETH_TXQ_MSI_IDENTITY : Field := mkF .ETH_TXQ_MSI 10 0 .rw 0
def ETH_RWIN_BASE_ADDR : Field := mkF .ETH_RWIN_BASE 51 12 .rw 0
def ETH_RWIN_CTL_VALID : Field := mkF .ETH_RWIN_CTL 63 63 .rw 0
def ETH_RWIN_CTL_BUSY : Field := mkF .ETH_RWIN_CTL 62 62 .ro 0
def ETH_RWIN_CTL_ATOMIC : Field := mkF .ETH_RWIN_CTL 61 61 .rw 0
def ETH_RWIN_CTL_WRITE : Field := mkF .ETH_RWIN_CTL 60 60 .rw 0
def ETH_RWIN_CTL_READ : Field := mkF .ETH_RWIN_CTL 59 59 .rw 0
def ETH_RWIN_CTL_PORTS : Field := mkF .ETH_RWIN_CTL 58 57 .rw 3
def ETH_RWIN_CTL_PART : Field := mkF .ETH_RWIN_CTL 55 48 .rw 0xfe
def ETH_RWIN_CTL_KEY : Field := mkF .ETH_RWIN_CTL 47 24 .rw 0
def ETH_RWIN_CTL_SIZE : Field := mkF .ETH_RWIN_CTL 23 0 .rw 0
def PWR_CAP_PENDING : Field := mkF .PWR_CAP 63 63 .ro 0
def PWR_CAP_APPLIED_W : Field := mkF .PWR_CAP 59 48 .ro 0x960
def PWR_CAP_EFFECTIVE_W : Field := mkF .PWR_CAP 43 32 .ro 0x960
def PWR_CAP_TRAY_W : Field := mkF .PWR_CAP 27 16 .ro 0x960
def PWR_CAP_SW_W : Field := mkF .PWR_CAP 11 0 .rw 0x960
def PWR_MODE_VOFFSET : Field := mkF .PWR_MODE 27 23 .rw 0
def PWR_MODE_EQX_MHZ : Field := mkF .PWR_MODE 19 8 .rw 0xce4
def PWR_MODE_BOOST_EN : Field := mkF .PWR_MODE 2 2 .rw 0
def PWR_MODE_EQUINOX : Field := mkF .PWR_MODE 1 1 .rw 0
def PWR_MODE_FILLER_EN : Field := mkF .PWR_MODE 0 0 .rw 0
def PWR_RAMP_SPRING_RATE : Field := mkF .PWR_RAMP 25 16 .rw 0x32
def PWR_RAMP_AUTUMN_RATE : Field := mkF .PWR_RAMP 9 0 .rw 0x32
def PWR_STATUS_MEAS_W : Field := mkF .PWR_STATUS 63 52 .ro 0
def PWR_STATUS_EST_W : Field := mkF .PWR_STATUS 51 40 .ro 0
def PWR_STATUS_FILLER_W : Field := mkF .PWR_STATUS 39 28 .ro 0
def PWR_STATUS_DUTY : Field := mkF .PWR_STATUS 27 21 .ro 0x40
def PWR_STATUS_DROOP : Field := mkF .PWR_STATUS 15 0 .ro 0
def PWR_EST_RECALS : Field := mkF .PWR_EST 47 32 .ro 0
def PWR_EST_GAIN : Field := mkF .PWR_EST 15 0 .ro 0x1000
def PWR_FAULT_COOLANT_HIGH : Field := mkF .PWR_FAULT 5 5 .st 0
def PWR_FAULT_THERM_CRIT : Field := mkF .PWR_FAULT 4 4 .st 0
def PWR_FAULT_THERM_THROTTLE : Field := mkF .PWR_FAULT 3 3 .st 0
def PWR_FAULT_EXCURSION : Field := mkF .PWR_FAULT 2 2 .st 0
def PWR_FAULT_INPUT_RANGE : Field := mkF .PWR_FAULT 1 1 .st 0
def PWR_FAULT_POWER_MODEL : Field := mkF .PWR_FAULT 0 0 .st 0
def PWR_POLICY_CLAMP_COUNT : Field := mkF .PWR_POLICY_CLAMP 63 48 .ro 0
def PWR_POLICY_CLAMP_CAP : Field := mkF .PWR_POLICY_CLAMP 4 4 .st 0
def PWR_POLICY_CLAMP_CLOCK : Field := mkF .PWR_POLICY_CLAMP 3 3 .st 0
def PWR_POLICY_CLAMP_BOOST : Field := mkF .PWR_POLICY_CLAMP 2 2 .st 0
def PWR_POLICY_CLAMP_VOLTAGE : Field := mkF .PWR_POLICY_CLAMP 1 1 .st 0
def PWR_POLICY_CLAMP_REFRESH : Field := mkF .PWR_POLICY_CLAMP 0 0 .st 0
def PWR_CLK_T3_MHZ : Field := mkF .PWR_CLK 59 48 .ro 0xe10
def PWR_CLK_T2_MHZ : Field := mkF .PWR_CLK 47 36 .ro 0xe10
def PWR_CLK_T1_MHZ : Field := mkF .PWR_CLK 35 24 .ro 0xe10
def PWR_CLK_T0_MHZ : Field := mkF .PWR_CLK 23 12 .ro 0xe10
def PWR_CLK_CPU_MHZ : Field := mkF .PWR_CLK 11 0 .ro 0xd48
def PWR_COOLANT_INLET : Field := mkF .PWR_COOLANT 63 48 .ro 0
def PWR_COOLANT_RATING_W : Field := mkF .PWR_COOLANT 43 32 .ro 0x960
def PWR_TEMP_JUNCTION : Field := mkF .PWR_TEMP 63 56 .ro 0
def PWR_TEMP_LEVEL : Field := mkF .PWR_TEMP 2 0 .ro 0
def SEC_OTP_ANTI_ROLLBACK : Field := mkF .SEC_OTP 63 32 .ro 0
def SEC_OTP_PROG_RESULT : Field := mkF .SEC_OTP 31 24 .ro 0
def SEC_OTP_KEY_VALID : Field := mkF .SEC_OTP 9 8 .ro 0
def SEC_OTP_GEN_VALID : Field := mkF .SEC_OTP 7 4 .ro 0
def SEC_OTP_PROGRAMMING : Field := mkF .SEC_OTP 3 3 .ro 0
def SEC_OTP_IN_FORCE : Field := mkF .SEC_OTP 1 0 .ro 0
def SEC_OTP_PROG_GO : Field := mkF .SEC_OTP_PROG 63 63 .w1s 0
def SEC_OTP_PROG_ADDR : Field := mkF .SEC_OTP_PROG 51 6 .rw 0
def SEC_DEVKEY_KEY : Field := mkF .SEC_DEVKEY 63 0 .ro 0
def DBG_DUMP_CTL_GO : Field := mkF .DBG_DUMP_CTL 63 63 .w1s 0
def DBG_DUMP_CTL_ON_HANG : Field := mkF .DBG_DUMP_CTL 62 62 .rw 0
def DBG_DUMP_CTL_LIMIT : Field := mkF .DBG_DUMP_CTL 47 24 .rw 0x10
def DBG_DUMP_CTL_BLOCKS : Field := mkF .DBG_DUMP_CTL 15 0 .rw 0xffff
def DBG_DUMP_STATUS_STATE : Field := mkF .DBG_DUMP_STATUS 63 61 .ro 0
def DBG_DUMP_STATUS_TIMEOUTS : Field := mkF .DBG_DUMP_STATUS 47 24 .ro 0
def DBG_DUMP_STATUS_ENTRIES : Field := mkF .DBG_DUMP_STATUS 23 0 .ro 0
def DBG_DUMP_DEST_ADDR : Field := mkF .DBG_DUMP_DEST 51 16 .rw 0
def TRC_CTL_EN : Field := mkF .TRC_CTL 63 63 .rw 0
def TRC_CTL_LOSSLESS : Field := mkF .TRC_CTL 62 62 .ro 0
def TRC_CTL_HIGH_WATER : Field := mkF .TRC_CTL 7 0 .rw 0x30
def TRC_STATUS_DROPS : Field := mkF .TRC_STATUS 63 32 .ro 0
def TRC_STATUS_OCCUPANCY : Field := mkF .TRC_STATUS 15 8 .ro 0
def TRC_STATUS_LINK_UP : Field := mkF .TRC_STATUS 0 0 .ro 0
end Fld

/-- The fields of each register; bits in none of them are reserved. -/
def Reg.fields : Reg → List Field
  | .HUB_DIE_ID => [Fld.HUB_DIE_ID_KIND, Fld.HUB_DIE_ID_MAJOR, Fld.HUB_DIE_ID_MINOR, Fld.HUB_DIE_ID_PRESENT]
  | .HUB_REV_EFFECTIVE => [Fld.HUB_REV_EFFECTIVE_TD_MINOR, Fld.HUB_REV_EFFECTIVE_BD_MINOR]
  | .HUB_SERIAL => [Fld.HUB_SERIAL_SERIAL]
  | .HUB_STICKY => [Fld.HUB_STICKY_FABRIC_LOSS, Fld.HUB_STICKY_LLM_WAY, Fld.HUB_STICKY_MEM_UNCORRECTED, Fld.HUB_STICKY_HANG, Fld.HUB_STICKY_HOST_LOST, Fld.HUB_STICKY_DIE_FENCED, Fld.HUB_STICKY_COH_PROTOCOL, Fld.HUB_STICKY_CREDIT_IMBALANCE, Fld.HUB_STICKY_SIMG_REJECT, Fld.HUB_STICKY_ISOLATION]
  | .HUB_ISO_REC => [Fld.HUB_ISO_REC_VALID, Fld.HUB_ISO_REC_KIND, Fld.HUB_ISO_REC_ACCESS, Fld.HUB_ISO_REC_ADDR]
  | .HUB_ISO_SRC => [Fld.HUB_ISO_SRC_PARTITION, Fld.HUB_ISO_SRC_UNIT]
  | .HUB_BOOT => [Fld.HUB_BOOT_REASON, Fld.HUB_BOOT_LAST_FAIL, Fld.HUB_BOOT_STAGE, Fld.HUB_BOOT_START_COUNT, Fld.HUB_BOOT_WINTER, Fld.HUB_BOOT_FAILED]
  | .HUB_BOOT_CTL => [Fld.HUB_BOOT_CTL_RESULT, Fld.HUB_BOOT_CTL_LENGTH, Fld.HUB_BOOT_CTL_OBJECT, Fld.HUB_BOOT_CTL_LEAVE_WINTER, Fld.HUB_BOOT_CTL_FETCH]
  | .HUB_BOOT_SRC => [Fld.HUB_BOOT_SRC_KIND, Fld.HUB_BOOT_SRC_ADDR]
  | .HUB_FW_VER => [Fld.HUB_FW_VER_FW_VERSION, Fld.HUB_FW_VER_SECURITY_VERSION]
  | .HUB_FW_DIGEST => [Fld.HUB_FW_DIGEST_DIGEST]
  | .HUB_SIMG_CTL => [Fld.HUB_SIMG_CTL_LENGTH, Fld.HUB_SIMG_CTL_PROPOSE, Fld.HUB_SIMG_CTL_ABORT, Fld.HUB_SIMG_CTL_LOAD]
  | .HUB_SIMG_SRC => [Fld.HUB_SIMG_SRC_ADDR]
  | .HUB_SIMG_STATUS => [Fld.HUB_SIMG_STATUS_RESULT, Fld.HUB_SIMG_STATUS_PHASE, Fld.HUB_SIMG_STATUS_SCOPE, Fld.HUB_SIMG_STATUS_QUIESCED, Fld.HUB_SIMG_STATUS_NEXT_PENDING, Fld.HUB_SIMG_STATUS_PERSONALITY, Fld.HUB_SIMG_STATUS_KEY_SLOT, Fld.HUB_SIMG_STATUS_STAGED_VALID]
  | .HUB_SOLSTICE => [Fld.HUB_SOLSTICE_TARGET]
  | .HUB_SIMG_ID => [Fld.HUB_SIMG_ID_IMAGE_ID]
  | .HUB_SIMG_BASE => [Fld.HUB_SIMG_BASE_BASE_IMAGE_ID]
  | .HUB_SIMG_VER => [Fld.HUB_SIMG_VER_IMAGE_VERSION, Fld.HUB_SIMG_VER_SECURITY_VERSION]
  | .HUB_SIMG_GEN => [Fld.HUB_SIMG_GEN_MODULE_ID, Fld.HUB_SIMG_GEN_GENERATION]
  | .HUB_SIMG_DIGEST => [Fld.HUB_SIMG_DIGEST_DIGEST]
  | .HUB_CHIP_RESET => [Fld.HUB_CHIP_RESET_GO, Fld.HUB_CHIP_RESET_ARM]
  | .HUB_RECOV_CFG => [Fld.HUB_RECOV_CFG_AUTO_REPLAY]
  | .HUB_AUDIT_SNAP => [Fld.HUB_AUDIT_SNAP_SNAP]
  | .HUB_FT => [Fld.HUB_FT_BEAT]
  | .HUB_FT_CTL => [Fld.HUB_FT_CTL_PORT, Fld.HUB_FT_CTL_SOURCE, Fld.HUB_FT_CTL_ETH_PORT, Fld.HUB_FT_CTL_ARM_EPOCH]
  | .HUB_FT_LOAD => [Fld.HUB_FT_LOAD_VALUE]
  | .HUB_FT_PTP_BASE => [Fld.HUB_FT_PTP_BASE_BASE_NS]
  | .HUB_FT_STATUS => [Fld.HUB_FT_STATUS_PHASE_ERR, Fld.HUB_FT_STATUS_SOURCE_IN_USE, Fld.HUB_FT_STATUS_EPOCH_MISS, Fld.HUB_FT_STATUS_REF_LOST, Fld.HUB_FT_STATUS_STEPPED, Fld.HUB_FT_STATUS_STATE]
  | .HUB_DIE_FENCE => [Fld.HUB_DIE_FENCE_CAUSE, Fld.HUB_DIE_FENCE_HBM_HELD, Fld.HUB_DIE_FENCE_FENCED]
  | .HUB_CLK_STATUS => [Fld.HUB_CLK_STATUS_REF_PRESENT, Fld.HUB_CLK_STATUS_ARITH_LOCK, Fld.HUB_CLK_STATUS_CPU_LOCK, Fld.HUB_CLK_STATUS_NET_LOCK, Fld.HUB_CLK_STATUS_BEAT_LOCK, Fld.HUB_CLK_STATUS_UNLOCK_SEEN]
  | .HUB_COH_ERR => [Fld.HUB_COH_ERR_VALID, Fld.HUB_COH_ERR_AGENT, Fld.HUB_COH_ERR_MSG, Fld.HUB_COH_ERR_STATE, Fld.HUB_COH_ERR_LINE]
  | .HUB_LINK_STATUS => [Fld.HUB_LINK_STATUS_SPARES_USED, Fld.HUB_LINK_STATUS_BUNDLES, Fld.HUB_LINK_STATUS_BAD_LANES, Fld.HUB_LINK_STATUS_LOSS, Fld.HUB_LINK_STATUS_LOSS_CAUSE, Fld.HUB_LINK_STATUS_MAP_CHANGED, Fld.HUB_LINK_STATUS_STATE]
  | .HUB_LINK_ERR => [Fld.HUB_LINK_ERR_OVF, Fld.HUB_LINK_ERR_CRC_ERRORS, Fld.HUB_LINK_ERR_REPLAYS]
  | .HUB_CNT_SEL => [Fld.HUB_CNT_SEL_OVF_EVENT, Fld.HUB_CNT_SEL_EVENT]
  | .HUB_CNT => [Fld.HUB_CNT_OVF, Fld.HUB_CNT_VALUE]
  | .HUB_SMP_CFG => [Fld.HUB_SMP_CFG_EN, Fld.HUB_SMP_CFG_CLUSTERS, Fld.HUB_SMP_CFG_PERIOD_LOG2, Fld.HUB_SMP_CFG_DROPS, Fld.HUB_SMP_CFG_HUB]
  | .HUB_SMP_RING => [Fld.HUB_SMP_RING_BASE, Fld.HUB_SMP_RING_LOG2_RECORDS]
  | .HUB_SMP_PTR => [Fld.HUB_SMP_PTR_HEAD, Fld.HUB_SMP_PTR_TAIL]
  | .HUB_SMP_MSI => [Fld.HUB_SMP_MSI_FILE, Fld.HUB_SMP_MSI_EN, Fld.HUB_SMP_MSI_IDENTITY]
  | .HUB_SLIP_COUNT => [Fld.HUB_SLIP_COUNT_OVF, Fld.HUB_SLIP_COUNT_SLIPS]
  | .HUB_SLIP_MAX => [Fld.HUB_SLIP_MAX_LIMIT_HIT, Fld.HUB_SLIP_MAX_CIRCUIT, Fld.HUB_SLIP_MAX_RUN]
  | .HUB_AUDIT_A => [Fld.HUB_AUDIT_A_BALANCED, Fld.HUB_AUDIT_A_TRANSIENT, Fld.HUB_AUDIT_A_BUDGET, Fld.HUB_AUDIT_A_CREDITS_FREE]
  | .HUB_AUDIT_B => [Fld.HUB_AUDIT_B_RETURNING, Fld.HUB_AUDIT_B_TOKENS]
  | .HUB_AUDIT_C => [Fld.HUB_AUDIT_C_CONTRIB_SENT]
  | .HUB_AUDIT_D => [Fld.HUB_AUDIT_D_CONTRIB_RETIRED]
  | .HUB_AUDIT_E => [Fld.HUB_AUDIT_E_CONTRIB_HELD]
  | .HUB_TT_CFG => [Fld.HUB_TT_CFG_EN, Fld.HUB_TT_CFG_BASE, Fld.HUB_TT_CFG_LOG2_ENTRIES]
  | .HUB_TT_NRING => [Fld.HUB_TT_NRING_BASE, Fld.HUB_TT_NRING_LOG2_RECORDS]
  | .HUB_TT_NPTR => [Fld.HUB_TT_NPTR_HEAD, Fld.HUB_TT_NPTR_TAIL]
  | .HUB_TT_NMSI => [Fld.HUB_TT_NMSI_FILE, Fld.HUB_TT_NMSI_EN, Fld.HUB_TT_NMSI_IDENTITY]
  | .HUB_TT_CTL => [Fld.HUB_TT_CTL_DROPS, Fld.HUB_TT_CTL_FENCE]
  | .HUB_FLT_RING => [Fld.HUB_FLT_RING_BASE, Fld.HUB_FLT_RING_LOG2_RECORDS]
  | .HUB_FLT_PTR => [Fld.HUB_FLT_PTR_HEAD, Fld.HUB_FLT_PTR_TAIL]
  | .HUB_FLT_MSI => [Fld.HUB_FLT_MSI_FILE, Fld.HUB_FLT_MSI_EN, Fld.HUB_FLT_MSI_IDENTITY]
  | .HUB_FLT_CTL => [Fld.HUB_FLT_CTL_DROPS]
  | .HUB_TLBI => [Fld.HUB_TLBI_GO, Fld.HUB_TLBI_ALL_ASID, Fld.HUB_TLBI_ALL_VA, Fld.HUB_TLBI_ASID]
  | .HUB_TLBI_VA => [Fld.HUB_TLBI_VA_VPN, Fld.HUB_TLBI_VA_LOG2_PAGES]
  | .HUB_PART_RESET => [Fld.HUB_PART_RESET_BUSY, Fld.HUB_PART_RESET_CAUSE, Fld.HUB_PART_RESET_COUNT, Fld.HUB_PART_RESET_RESET]
  | .HUB_RECOV_STATUS => [Fld.HUB_RECOV_STATUS_STATE, Fld.HUB_RECOV_STATUS_ENGINE, Fld.HUB_RECOV_STATUS_CURRENT, Fld.HUB_RECOV_STATUS_SUSPECTS, Fld.HUB_RECOV_STATUS_GUILTY, Fld.HUB_RECOV_STATUS_QUEUED]
  | .HUB_RECOV_CTL => [Fld.HUB_RECOV_CTL_REPLAY]
  | .HUB_RECOV_SUSPECTS => [Fld.HUB_RECOV_SUSPECTS_SUSPECTS]
  | .HUB_CTX_CTL => [Fld.HUB_CTX_CTL_END, Fld.HUB_CTX_CTL_RESUME, Fld.HUB_CTX_CTL_PREEMPT, Fld.HUB_CTX_CTL_CREATE]
  | .HUB_CTX_STATUS => [Fld.HUB_CTX_STATUS_LAST_STATUS, Fld.HUB_CTX_STATUS_OP_ERR, Fld.HUB_CTX_STATUS_HALT_REASON, Fld.HUB_CTX_STATUS_PARTITION, Fld.HUB_CTX_STATUS_POLLS_SKIPPED, Fld.HUB_CTX_STATUS_STATE]
  | .HUB_CTX_RING => [Fld.HUB_CTX_RING_BASE, Fld.HUB_CTX_RING_LOG2_ENTRIES]
  | .HUB_CTX_CPL => [Fld.HUB_CTX_CPL_BASE]
  | .HUB_CTX_SAVE => [Fld.HUB_CTX_SAVE_BASE]
  | .HUB_CTX_ATP => [Fld.HUB_CTX_ATP_MODE, Fld.HUB_CTX_ATP_ASID, Fld.HUB_CTX_ATP_PPN]
  | .HUB_CTX_CORES0 => [Fld.HUB_CTX_CORES0_CORES]
  | .HUB_CTX_CORES1 => [Fld.HUB_CTX_CORES1_CORES]
  | .HUB_CTX_MSI => [Fld.HUB_CTX_MSI_FILE, Fld.HUB_CTX_MSI_EN, Fld.HUB_CTX_MSI_IDENTITY]
  | .HUB_CTX_SEQ => [Fld.HUB_CTX_SEQ_NEXT, Fld.HUB_CTX_SEQ_INITIAL_SEQ]
  | .HUB_CTX_FAULT => [Fld.HUB_CTX_FAULT_PENDING, Fld.HUB_CTX_FAULT_CAUSE, Fld.HUB_CTX_FAULT_COUNT]
  | .CPU_COH_ERR => [Fld.CPU_COH_ERR_VALID, Fld.CPU_COH_ERR_AGENT, Fld.CPU_COH_ERR_MSG, Fld.CPU_COH_ERR_STATE, Fld.CPU_COH_ERR_LINE]
  | .CPU_COH_ERR_CNT => [Fld.CPU_COH_ERR_CNT_OVF, Fld.CPU_COH_ERR_CNT_LOST, Fld.CPU_COH_ERR_CNT_ERRORS]
  | .BD_COH_ERR => [Fld.BD_COH_ERR_VALID, Fld.BD_COH_ERR_AGENT, Fld.BD_COH_ERR_MSG, Fld.BD_COH_ERR_STATE, Fld.BD_COH_ERR_LINE]
  | .CL_CNT_SEL => [Fld.CL_CNT_SEL_OVF_EVENT, Fld.CL_CNT_SEL_EVENT]
  | .CL_CNT => [Fld.CL_CNT_OVF, Fld.CL_CNT_VALUE]
  | .CL_EVT_PTR => [Fld.CL_EVT_PTR_FREEZE, Fld.CL_EVT_PTR_LOST, Fld.CL_EVT_PTR_WRITES]
  | .CL_EVT_CTL => [Fld.CL_EVT_CTL_IRQ_MASK, Fld.CL_EVT_CTL_DROPPED, Fld.CL_EVT_CTL_COPY_MASK]
  | .CL_EVT_MSI => [Fld.CL_EVT_MSI_FILE, Fld.CL_EVT_MSI_EN, Fld.CL_EVT_MSI_IDENTITY]
  | .CL_EVT_REC => [Fld.CL_EVT_REC_WORD]
  | .CO_QCFG => [Fld.CO_QCFG_VALID, Fld.CO_QCFG_DEPTH, Fld.CO_QCFG_SCALE_UNITS, Fld.CO_QCFG_SLOT_UNITS, Fld.CO_QCFG_BASE]
  | .CO_QSTAT => [Fld.CO_QSTAT_CONSUMER, Fld.CO_QSTAT_PRODUCER, Fld.CO_QSTAT_HELD, Fld.CO_QSTAT_TOKENS, Fld.CO_QSTAT_CREDITS]
  | .CO_DESC_ERR => [Fld.CO_DESC_ERR_VALID, Fld.CO_DESC_ERR_CODE, Fld.CO_DESC_ERR_ENTRY, Fld.CO_DESC_ERR_OPERATOR, Fld.CO_DESC_ERR_LAYER]
  | .CO_VFLAGS => [Fld.CO_VFLAGS_DIVZERO, Fld.CO_VFLAGS_INVALID, Fld.CO_VFLAGS_SATURATED, Fld.CO_VFLAGS_OVERFLOW, Fld.CO_VFLAGS_UNDERFLOW, Fld.CO_VFLAGS_INEXACT]
  | .CO_SAVE_CFG => [Fld.CO_SAVE_CFG_SLOTS]
  | .CO_CNT_SEL => [Fld.CO_CNT_SEL_OVF_EVENT, Fld.CO_CNT_SEL_EVENT]
  | .CO_CNT => [Fld.CO_CNT_OVF, Fld.CO_CNT_VALUE]
  | .CO_EVT_PTR => [Fld.CO_EVT_PTR_FREEZE, Fld.CO_EVT_PTR_LOST, Fld.CO_EVT_PTR_WRITES]
  | .CO_EVT_REC => [Fld.CO_EVT_REC_WORD]
  | .EN_EXC => [Fld.EN_EXC_NAN_IN, Fld.EN_EXC_SCALE_UNF, Fld.EN_EXC_SCALE_OVF, Fld.EN_EXC_INVALID, Fld.EN_EXC_SATURATED, Fld.EN_EXC_OVERFLOW, Fld.EN_EXC_UNDERFLOW, Fld.EN_EXC_INEXACT]
  | .EN_EXC_COORD => [Fld.EN_EXC_COORD_K, Fld.EN_EXC_COORD_ENGINE, Fld.EN_EXC_COORD_KIND, Fld.EN_EXC_COORD_BANK, Fld.EN_EXC_COORD_ROW, Fld.EN_EXC_COORD_COL]
  | .EN_EXC_TAG => [Fld.EN_EXC_TAG_VALID, Fld.EN_EXC_TAG_CONTEXT, Fld.EN_EXC_TAG_OPERATOR, Fld.EN_EXC_TAG_LAYER, Fld.EN_EXC_TAG_COUNT]
  | .EN_EXC_BEAT => [Fld.EN_EXC_BEAT_BEAT]
  | .EN_HANG => [Fld.EN_HANG_HUNG, Fld.EN_HANG_RESET, Fld.EN_HANG_RECOVERIES, Fld.EN_HANG_IDLE]
  | .EN_EVT_PTR => [Fld.EN_EVT_PTR_FREEZE, Fld.EN_EVT_PTR_LOST, Fld.EN_EVT_PTR_WRITES]
  | .EN_EVT_REC => [Fld.EN_EVT_REC_WORD]
  | .MEM_ERR_CNT => [Fld.MEM_ERR_CNT_OVF, Fld.MEM_ERR_CNT_POISON_READS, Fld.MEM_ERR_CNT_UNCORRECTED, Fld.MEM_ERR_CNT_CORRECTED]
  | .MEM_ERR_REC => [Fld.MEM_ERR_REC_VALID, Fld.MEM_ERR_REC_TYPE, Fld.MEM_ERR_REC_SOURCE, Fld.MEM_ERR_REC_ADDR]
  | .MEM_ERR_BEAT => [Fld.MEM_ERR_BEAT_BEAT]
  | .MEM_REFRESH => [Fld.MEM_REFRESH_TEMP, Fld.MEM_REFRESH_FLOOR, Fld.MEM_REFRESH_LEVEL]
  | .MEM_SCRUB => [Fld.MEM_SCRUB_PASSES, Fld.MEM_SCRUB_PERIOD]
  | .MEM_ADD_FLAGS => [Fld.MEM_ADD_FLAGS_INVALID, Fld.MEM_ADD_FLAGS_SATURATED, Fld.MEM_ADD_FLAGS_OVERFLOW, Fld.MEM_ADD_FLAGS_UNDERFLOW, Fld.MEM_ADD_FLAGS_INEXACT]
  | .LLM_SLICE => [Fld.LLM_SLICE_DISABLED, Fld.LLM_SLICE_CORRECTED, Fld.LLM_SLICE_UNCORRECTED, Fld.LLM_SLICE_MODE]
  | .LLM_WAYS => [Fld.LLM_WAYS_WAY_MASK]
  | .LLM_WAY_REC => [Fld.LLM_WAY_REC_VALID, Fld.LLM_WAY_REC_CAUSE, Fld.LLM_WAY_REC_SLICE, Fld.LLM_WAY_REC_WAY, Fld.LLM_WAY_REC_WRITTEN_BACK, Fld.LLM_WAY_REC_POISONED]
  | .LLM_ZERO => [Fld.LLM_ZERO_LINES, Fld.LLM_ZERO_ADDR, Fld.LLM_ZERO_GO]
  | .LLM_ERR_REC => [Fld.LLM_ERR_REC_VALID, Fld.LLM_ERR_REC_SOURCE, Fld.LLM_ERR_REC_ADDR]
  | .LLM_ERR_BEAT => [Fld.LLM_ERR_BEAT_BEAT]
  | .FAB_PORT_STATUS => [Fld.FAB_PORT_STATUS_NBR_MODULE, Fld.FAB_PORT_STATUS_NBR_PORT, Fld.FAB_PORT_STATUS_LOSS_CAUSE, Fld.FAB_PORT_STATUS_TIME_WARN, Fld.FAB_PORT_STATUS_LOSS, Fld.FAB_PORT_STATUS_SLOT_LIVE, Fld.FAB_PORT_STATUS_STATE]
  | .FAB_PORT_CTL => [Fld.FAB_PORT_CTL_DISABLE, Fld.FAB_PORT_CTL_RETRAIN]
  | .FAB_PORT_TIME => [Fld.FAB_PORT_TIME_DELAY, Fld.FAB_PORT_TIME_PHASE_ERR]
  | .FAB_PORT_ERR => [Fld.FAB_PORT_ERR_OVF, Fld.FAB_PORT_ERR_CORRECTED, Fld.FAB_PORT_ERR_BAD, Fld.FAB_PORT_ERR_RETRIES]
  | .FAB_GEN_MISMATCH => [Fld.FAB_GEN_MISMATCH_OVF, Fld.FAB_GEN_MISMATCH_COUNT]
  | .FAB_SLOT_MISMATCH => [Fld.FAB_SLOT_MISMATCH_OVF, Fld.FAB_SLOT_MISMATCH_COUNT]
  | .FAB_STATUS => [Fld.FAB_STATUS_BAD_ENTRIES, Fld.FAB_STATUS_DISCARDS, Fld.FAB_STATUS_NDROPS, Fld.FAB_STATUS_ROUTE_LOST, Fld.FAB_STATUS_EPOCH]
  | .FAB_FM => [Fld.FAB_FM_VALID, Fld.FAB_FM_MODULE]
  | .FAB_NSEND => [Fld.FAB_NSEND_GO, Fld.FAB_NSEND_BROADCAST, Fld.FAB_NSEND_RESULT, Fld.FAB_NSEND_ADDR]
  | .FAB_NRING => [Fld.FAB_NRING_BASE, Fld.FAB_NRING_LOG2_RECORDS]
  | .FAB_NPTR => [Fld.FAB_NPTR_HEAD, Fld.FAB_NPTR_TAIL]
  | .FAB_NMSI => [Fld.FAB_NMSI_FILE, Fld.FAB_NMSI_EN, Fld.FAB_NMSI_IDENTITY]
  | .FAB_REMOVED => [Fld.FAB_REMOVED_REMOVED]
  | .HOST_BAR2 => [Fld.HOST_BAR2_EN, Fld.HOST_BAR2_PART, Fld.HOST_BAR2_BASE]
  | .HOST_ATTACH => [Fld.HOST_ATTACH_GENERATION, Fld.HOST_ATTACH_CAUSE, Fld.HOST_ATTACH_RESULT, Fld.HOST_ATTACH_STATE, Fld.HOST_ATTACH_DETACH, Fld.HOST_ATTACH_ATTACH]
  | .HOST_ATTACH_GEN => [Fld.HOST_ATTACH_GEN_ACK_GEN]
  | .HOST_STATUS => [Fld.HOST_STATUS_LOST, Fld.HOST_STATUS_BAD_BASE, Fld.HOST_STATUS_MSI_DROPS, Fld.HOST_STATUS_BAR_ERRORS, Fld.HOST_STATUS_SPEED, Fld.HOST_STATUS_WIDTH, Fld.HOST_STATUS_DL_ACTIVE]
  | .HOST_MSIX_ADDR => [Fld.HOST_MSIX_ADDR_ADDRESS]
  | .HOST_MSIX_DATA => [Fld.HOST_MSIX_DATA_MASK, Fld.HOST_MSIX_DATA_DATA]
  | .HOST_PBA => [Fld.HOST_PBA_PENDING]
  | .ETH_STEER_MATCH => [Fld.ETH_STEER_MATCH_VALID, Fld.ETH_STEER_MATCH_IPV, Fld.ETH_STEER_MATCH_PROTO, Fld.ETH_STEER_MATCH_VLAN, Fld.ETH_STEER_MATCH_DPORT_HI, Fld.ETH_STEER_MATCH_DPORT_LO]
  | .ETH_STEER_ACT => [Fld.ETH_STEER_ACT_HASH_LOG2, Fld.ETH_STEER_ACT_KIND, Fld.ETH_STEER_ACT_QUEUE]
  | .ETH_STEER_CTL => [Fld.ETH_STEER_CTL_DEFAULT_EN, Fld.ETH_STEER_CTL_DEFAULT]
  | .ETH_HASH_KEY => [Fld.ETH_HASH_KEY_KEY]
  | .ETH_STATUS => [Fld.ETH_STATUS_FCS_DROPS, Fld.ETH_STATUS_RX_DROPS, Fld.ETH_STATUS_RKEY_ERR, Fld.ETH_STATUS_LINK_UP]
  | .ETH_RXQ => [Fld.ETH_RXQ_EN, Fld.ETH_RXQ_CORE, Fld.ETH_RXQ_BASE, Fld.ETH_RXQ_LOG2_ENTRIES]
  | .ETH_RXQ_PTR => [Fld.ETH_RXQ_PTR_HEAD, Fld.ETH_RXQ_PTR_TAIL]
  | .ETH_RXQ_MSI => [Fld.ETH_RXQ_MSI_FILE, Fld.ETH_RXQ_MSI_EN, Fld.ETH_RXQ_MSI_IDENTITY]
  | .ETH_TXQ => [Fld.ETH_TXQ_EN, Fld.ETH_TXQ_CORE, Fld.ETH_TXQ_BASE, Fld.ETH_TXQ_LOG2_ENTRIES]
  | .ETH_TXQ_PTR => [Fld.ETH_TXQ_PTR_HEAD, Fld.ETH_TXQ_PTR_TAIL]
  | .ETH_TXQ_MSI => [Fld.ETH_TXQ_MSI_FILE, Fld.ETH_TXQ_MSI_EN, Fld.ETH_TXQ_MSI_IDENTITY]
  | .ETH_RWIN_BASE => [Fld.ETH_RWIN_BASE_ADDR]
  | .ETH_RWIN_CTL => [Fld.ETH_RWIN_CTL_VALID, Fld.ETH_RWIN_CTL_BUSY, Fld.ETH_RWIN_CTL_ATOMIC, Fld.ETH_RWIN_CTL_WRITE, Fld.ETH_RWIN_CTL_READ, Fld.ETH_RWIN_CTL_PORTS, Fld.ETH_RWIN_CTL_PART, Fld.ETH_RWIN_CTL_KEY, Fld.ETH_RWIN_CTL_SIZE]
  | .PWR_CAP => [Fld.PWR_CAP_PENDING, Fld.PWR_CAP_APPLIED_W, Fld.PWR_CAP_EFFECTIVE_W, Fld.PWR_CAP_TRAY_W, Fld.PWR_CAP_SW_W]
  | .PWR_MODE => [Fld.PWR_MODE_VOFFSET, Fld.PWR_MODE_EQX_MHZ, Fld.PWR_MODE_BOOST_EN, Fld.PWR_MODE_EQUINOX, Fld.PWR_MODE_FILLER_EN]
  | .PWR_RAMP => [Fld.PWR_RAMP_SPRING_RATE, Fld.PWR_RAMP_AUTUMN_RATE]
  | .PWR_STATUS => [Fld.PWR_STATUS_MEAS_W, Fld.PWR_STATUS_EST_W, Fld.PWR_STATUS_FILLER_W, Fld.PWR_STATUS_DUTY, Fld.PWR_STATUS_DROOP]
  | .PWR_EST => [Fld.PWR_EST_RECALS, Fld.PWR_EST_GAIN]
  | .PWR_FAULT => [Fld.PWR_FAULT_COOLANT_HIGH, Fld.PWR_FAULT_THERM_CRIT, Fld.PWR_FAULT_THERM_THROTTLE, Fld.PWR_FAULT_EXCURSION, Fld.PWR_FAULT_INPUT_RANGE, Fld.PWR_FAULT_POWER_MODEL]
  | .PWR_POLICY_CLAMP => [Fld.PWR_POLICY_CLAMP_COUNT, Fld.PWR_POLICY_CLAMP_CAP, Fld.PWR_POLICY_CLAMP_CLOCK, Fld.PWR_POLICY_CLAMP_BOOST, Fld.PWR_POLICY_CLAMP_VOLTAGE, Fld.PWR_POLICY_CLAMP_REFRESH]
  | .PWR_CLK => [Fld.PWR_CLK_T3_MHZ, Fld.PWR_CLK_T2_MHZ, Fld.PWR_CLK_T1_MHZ, Fld.PWR_CLK_T0_MHZ, Fld.PWR_CLK_CPU_MHZ]
  | .PWR_COOLANT => [Fld.PWR_COOLANT_INLET, Fld.PWR_COOLANT_RATING_W]
  | .PWR_TEMP => [Fld.PWR_TEMP_JUNCTION, Fld.PWR_TEMP_LEVEL]
  | .SEC_OTP => [Fld.SEC_OTP_ANTI_ROLLBACK, Fld.SEC_OTP_PROG_RESULT, Fld.SEC_OTP_KEY_VALID, Fld.SEC_OTP_GEN_VALID, Fld.SEC_OTP_PROGRAMMING, Fld.SEC_OTP_IN_FORCE]
  | .SEC_OTP_PROG => [Fld.SEC_OTP_PROG_GO, Fld.SEC_OTP_PROG_ADDR]
  | .SEC_DEVKEY => [Fld.SEC_DEVKEY_KEY]
  | .DBG_DUMP_CTL => [Fld.DBG_DUMP_CTL_GO, Fld.DBG_DUMP_CTL_ON_HANG, Fld.DBG_DUMP_CTL_LIMIT, Fld.DBG_DUMP_CTL_BLOCKS]
  | .DBG_DUMP_STATUS => [Fld.DBG_DUMP_STATUS_STATE, Fld.DBG_DUMP_STATUS_TIMEOUTS, Fld.DBG_DUMP_STATUS_ENTRIES]
  | .DBG_DUMP_DEST => [Fld.DBG_DUMP_DEST_ADDR]
  | .TRC_CTL => [Fld.TRC_CTL_EN, Fld.TRC_CTL_LOSSLESS, Fld.TRC_CTL_HIGH_WATER]
  | .TRC_STATUS => [Fld.TRC_STATUS_DROPS, Fld.TRC_STATUS_OCCUPANCY, Fld.TRC_STATUS_LINK_UP]

/-- Where each register lies (R518 to R523). -/
def Reg.place : Reg → Place
  | .HUB_DIE_ID => ⟨0x0, [(10, 0x8)]⟩
  | .HUB_REV_EFFECTIVE => ⟨0x50, []⟩
  | .HUB_SERIAL => ⟨0x58, []⟩
  | .HUB_STICKY => ⟨0x100, []⟩
  | .HUB_ISO_REC => ⟨0x108, []⟩
  | .HUB_ISO_SRC => ⟨0x110, []⟩
  | .HUB_BOOT => ⟨0x1000, []⟩
  | .HUB_BOOT_CTL => ⟨0x1008, []⟩
  | .HUB_BOOT_SRC => ⟨0x1010, []⟩
  | .HUB_FW_VER => ⟨0x1018, []⟩
  | .HUB_FW_DIGEST => ⟨0x1040, [(8, 0x8)]⟩
  | .HUB_SIMG_CTL => ⟨0x1100, []⟩
  | .HUB_SIMG_SRC => ⟨0x1108, []⟩
  | .HUB_SIMG_STATUS => ⟨0x1110, []⟩
  | .HUB_SOLSTICE => ⟨0x1118, []⟩
  | .HUB_SIMG_ID => ⟨0x1120, []⟩
  | .HUB_SIMG_BASE => ⟨0x1128, []⟩
  | .HUB_SIMG_VER => ⟨0x1130, []⟩
  | .HUB_SIMG_GEN => ⟨0x1138, []⟩
  | .HUB_SIMG_DIGEST => ⟨0x1140, [(8, 0x8)]⟩
  | .HUB_CHIP_RESET => ⟨0x1200, []⟩
  | .HUB_RECOV_CFG => ⟨0x1208, []⟩
  | .HUB_AUDIT_SNAP => ⟨0x1210, []⟩
  | .HUB_FT => ⟨0x2000, []⟩
  | .HUB_FT_CTL => ⟨0x2008, []⟩
  | .HUB_FT_LOAD => ⟨0x2010, []⟩
  | .HUB_FT_PTP_BASE => ⟨0x2018, []⟩
  | .HUB_FT_STATUS => ⟨0x2020, []⟩
  | .HUB_DIE_FENCE => ⟨0x3000, []⟩
  | .HUB_CLK_STATUS => ⟨0x3008, []⟩
  | .HUB_COH_ERR => ⟨0x3200, [(8, 0x8)]⟩
  | .HUB_LINK_STATUS => ⟨0x3100, [(17, 0x10)]⟩
  | .HUB_LINK_ERR => ⟨0x3108, [(17, 0x10)]⟩
  | .HUB_CNT_SEL => ⟨0x4000, [(32, 0x8)]⟩
  | .HUB_CNT => ⟨0x4100, [(32, 0x8)]⟩
  | .HUB_SMP_CFG => ⟨0x4200, []⟩
  | .HUB_SMP_RING => ⟨0x4208, []⟩
  | .HUB_SMP_PTR => ⟨0x4210, []⟩
  | .HUB_SMP_MSI => ⟨0x4218, []⟩
  | .HUB_SLIP_COUNT => ⟨0x10000, [(16, 0x1000)]⟩
  | .HUB_SLIP_MAX => ⟨0x10008, [(16, 0x1000)]⟩
  | .HUB_AUDIT_A => ⟨0x10010, [(16, 0x1000)]⟩
  | .HUB_AUDIT_B => ⟨0x10018, [(16, 0x1000)]⟩
  | .HUB_AUDIT_C => ⟨0x10020, [(16, 0x1000)]⟩
  | .HUB_AUDIT_D => ⟨0x10028, [(16, 0x1000)]⟩
  | .HUB_AUDIT_E => ⟨0x10030, [(16, 0x1000)]⟩
  | .HUB_TT_CFG => ⟨0x10040, [(16, 0x1000)]⟩
  | .HUB_TT_NRING => ⟨0x10048, [(16, 0x1000)]⟩
  | .HUB_TT_NPTR => ⟨0x10050, [(16, 0x1000)]⟩
  | .HUB_TT_NMSI => ⟨0x10058, [(16, 0x1000)]⟩
  | .HUB_TT_CTL => ⟨0x10060, [(16, 0x1000)]⟩
  | .HUB_FLT_RING => ⟨0x10080, [(16, 0x1000)]⟩
  | .HUB_FLT_PTR => ⟨0x10088, [(16, 0x1000)]⟩
  | .HUB_FLT_MSI => ⟨0x10090, [(16, 0x1000)]⟩
  | .HUB_FLT_CTL => ⟨0x10098, [(16, 0x1000)]⟩
  | .HUB_TLBI => ⟨0x100a0, [(16, 0x1000)]⟩
  | .HUB_TLBI_VA => ⟨0x100a8, [(16, 0x1000)]⟩
  | .HUB_PART_RESET => ⟨0x100c0, [(16, 0x1000)]⟩
  | .HUB_RECOV_STATUS => ⟨0x100c8, [(16, 0x1000)]⟩
  | .HUB_RECOV_CTL => ⟨0x100d0, [(16, 0x1000)]⟩
  | .HUB_RECOV_SUSPECTS => ⟨0x100e0, [(16, 0x1000), (4, 0x8)]⟩
  | .HUB_CTX_CTL => ⟨0x20000, [(256, 0x100)]⟩
  | .HUB_CTX_STATUS => ⟨0x20008, [(256, 0x100)]⟩
  | .HUB_CTX_RING => ⟨0x20010, [(256, 0x100)]⟩
  | .HUB_CTX_CPL => ⟨0x20018, [(256, 0x100)]⟩
  | .HUB_CTX_SAVE => ⟨0x20020, [(256, 0x100)]⟩
  | .HUB_CTX_ATP => ⟨0x20028, [(256, 0x100)]⟩
  | .HUB_CTX_CORES0 => ⟨0x20030, [(256, 0x100)]⟩
  | .HUB_CTX_CORES1 => ⟨0x20038, [(256, 0x100)]⟩
  | .HUB_CTX_MSI => ⟨0x20040, [(256, 0x100)]⟩
  | .HUB_CTX_SEQ => ⟨0x20048, [(256, 0x100)]⟩
  | .HUB_CTX_FAULT => ⟨0x20050, [(256, 0x100)]⟩
  | .CPU_COH_ERR => ⟨0x400000, [(96, 0x1000)]⟩
  | .CPU_COH_ERR_CNT => ⟨0x400008, [(96, 0x1000)]⟩
  | .BD_COH_ERR => ⟨0x600000, [(4, 0x40000), (2, 0x8)]⟩
  | .CL_CNT_SEL => ⟨0x800000, [(16, 0x10000), (16, 0x8)]⟩
  | .CL_CNT => ⟨0x800080, [(16, 0x10000), (16, 0x8)]⟩
  | .CL_EVT_PTR => ⟨0x800100, [(16, 0x10000)]⟩
  | .CL_EVT_CTL => ⟨0x800108, [(16, 0x10000)]⟩
  | .CL_EVT_MSI => ⟨0x800110, [(16, 0x10000)]⟩
  | .CL_EVT_REC => ⟨0x808000, [(16, 0x10000), (1024, 0x20), (4, 0x8)]⟩
  | .CO_QCFG => ⟨0x1000000, [(128, 0x10000), (64, 0x8)]⟩
  | .CO_QSTAT => ⟨0x1000200, [(128, 0x10000), (64, 0x8)]⟩
  | .CO_DESC_ERR => ⟨0x1000400, [(128, 0x10000)]⟩
  | .CO_VFLAGS => ⟨0x1000408, [(128, 0x10000)]⟩
  | .CO_SAVE_CFG => ⟨0x1000410, [(128, 0x10000)]⟩
  | .CO_CNT_SEL => ⟨0x1000500, [(128, 0x10000), (8, 0x8)]⟩
  | .CO_CNT => ⟨0x1000540, [(128, 0x10000), (8, 0x8)]⟩
  | .CO_EVT_PTR => ⟨0x1000600, [(128, 0x10000)]⟩
  | .CO_EVT_REC => ⟨0x1002000, [(128, 0x10000), (256, 0x20), (4, 0x8)]⟩
  | .EN_EXC => ⟨0x1800000, [(512, 0x2000)]⟩
  | .EN_EXC_COORD => ⟨0x1800008, [(512, 0x2000)]⟩
  | .EN_EXC_TAG => ⟨0x1800010, [(512, 0x2000)]⟩
  | .EN_EXC_BEAT => ⟨0x1800018, [(512, 0x2000)]⟩
  | .EN_HANG => ⟨0x1800020, [(512, 0x2000)]⟩
  | .EN_EVT_PTR => ⟨0x1800040, [(512, 0x2000)]⟩
  | .EN_EVT_REC => ⟨0x1800800, [(512, 0x2000), (64, 0x20), (4, 0x8)]⟩
  | .MEM_ERR_CNT => ⟨0x1c00000, [(40, 0x1000)]⟩
  | .MEM_ERR_REC => ⟨0x1c00008, [(40, 0x1000)]⟩
  | .MEM_ERR_BEAT => ⟨0x1c00010, [(40, 0x1000)]⟩
  | .MEM_REFRESH => ⟨0x1c00018, [(40, 0x1000)]⟩
  | .MEM_SCRUB => ⟨0x1c00020, [(40, 0x1000)]⟩
  | .MEM_ADD_FLAGS => ⟨0x1c00028, [(40, 0x1000)]⟩
  | .LLM_SLICE => ⟨0x1d00000, [(64, 0x8)]⟩
  | .LLM_WAYS => ⟨0x1d00200, [(4, 0x80), (16, 0x8)]⟩
  | .LLM_WAY_REC => ⟨0x1d00400, [(4, 0x8)]⟩
  | .LLM_ZERO => ⟨0x1d00420, [(4, 0x8)]⟩
  | .LLM_ERR_REC => ⟨0x1d00440, [(4, 0x8)]⟩
  | .LLM_ERR_BEAT => ⟨0x1d00460, [(4, 0x8)]⟩
  | .FAB_PORT_STATUS => ⟨0x1e00000, [(16, 0x100)]⟩
  | .FAB_PORT_CTL => ⟨0x1e00008, [(16, 0x100)]⟩
  | .FAB_PORT_TIME => ⟨0x1e00010, [(16, 0x100)]⟩
  | .FAB_PORT_ERR => ⟨0x1e00018, [(16, 0x100)]⟩
  | .FAB_GEN_MISMATCH => ⟨0x1e00020, [(16, 0x100)]⟩
  | .FAB_SLOT_MISMATCH => ⟨0x1e00028, [(16, 0x100)]⟩
  | .FAB_STATUS => ⟨0x1e01000, []⟩
  | .FAB_FM => ⟨0x1e01008, []⟩
  | .FAB_NSEND => ⟨0x1e01010, []⟩
  | .FAB_NRING => ⟨0x1e01018, []⟩
  | .FAB_NPTR => ⟨0x1e01020, []⟩
  | .FAB_NMSI => ⟨0x1e01028, []⟩
  | .FAB_REMOVED => ⟨0x1e01200, [(64, 0x8)]⟩
  | .HOST_BAR2 => ⟨0x1f00000, []⟩
  | .HOST_ATTACH => ⟨0x1f00008, []⟩
  | .HOST_ATTACH_GEN => ⟨0x1f00010, []⟩
  | .HOST_STATUS => ⟨0x1f00018, []⟩
  | .HOST_MSIX_ADDR => ⟨0x1f08000, [(64, 0x10)]⟩
  | .HOST_MSIX_DATA => ⟨0x1f08008, [(64, 0x10)]⟩
  | .HOST_PBA => ⟨0x1f09000, []⟩
  | .ETH_STEER_MATCH => ⟨0x2000000, [(2, 0x200000), (512, 0x10)]⟩
  | .ETH_STEER_ACT => ⟨0x2000008, [(2, 0x200000), (512, 0x10)]⟩
  | .ETH_STEER_CTL => ⟨0x2002000, [(2, 0x200000)]⟩
  | .ETH_HASH_KEY => ⟨0x2002008, [(2, 0x200000), (5, 0x8)]⟩
  | .ETH_STATUS => ⟨0x2002030, [(2, 0x200000)]⟩
  | .ETH_RXQ => ⟨0x2010000, [(2, 0x200000), (256, 0x20)]⟩
  | .ETH_RXQ_PTR => ⟨0x2010008, [(2, 0x200000), (256, 0x20)]⟩
  | .ETH_RXQ_MSI => ⟨0x2010010, [(2, 0x200000), (256, 0x20)]⟩
  | .ETH_TXQ => ⟨0x2014000, [(2, 0x200000), (256, 0x20)]⟩
  | .ETH_TXQ_PTR => ⟨0x2014008, [(2, 0x200000), (256, 0x20)]⟩
  | .ETH_TXQ_MSI => ⟨0x2014010, [(2, 0x200000), (256, 0x20)]⟩
  | .ETH_RWIN_BASE => ⟨0x2400000, [(256, 0x10)]⟩
  | .ETH_RWIN_CTL => ⟨0x2400008, [(256, 0x10)]⟩
  | .PWR_CAP => ⟨0x2800000, []⟩
  | .PWR_MODE => ⟨0x2800008, []⟩
  | .PWR_RAMP => ⟨0x2800010, []⟩
  | .PWR_STATUS => ⟨0x2800018, []⟩
  | .PWR_EST => ⟨0x2800020, []⟩
  | .PWR_FAULT => ⟨0x2800028, []⟩
  | .PWR_POLICY_CLAMP => ⟨0x2800030, []⟩
  | .PWR_CLK => ⟨0x2800038, []⟩
  | .PWR_COOLANT => ⟨0x2800040, []⟩
  | .PWR_TEMP => ⟨0x2800100, [(10, 0x8)]⟩
  | .SEC_OTP => ⟨0x2900000, []⟩
  | .SEC_OTP_PROG => ⟨0x2900008, []⟩
  | .SEC_DEVKEY => ⟨0x2900040, [(4, 0x8)]⟩
  | .DBG_DUMP_CTL => ⟨0x2a00000, []⟩
  | .DBG_DUMP_STATUS => ⟨0x2a00008, []⟩
  | .DBG_DUMP_DEST => ⟨0x2a00010, []⟩
  | .TRC_CTL => ⟨0x2b00000, []⟩
  | .TRC_STATUS => ⟨0x2b00008, []⟩

/-- The number that stands for a register name in the key of the register store. -/
def Reg.num : Reg → Nat
  | .HUB_DIE_ID => 0
  | .HUB_REV_EFFECTIVE => 1
  | .HUB_SERIAL => 2
  | .HUB_STICKY => 3
  | .HUB_ISO_REC => 4
  | .HUB_ISO_SRC => 5
  | .HUB_BOOT => 6
  | .HUB_BOOT_CTL => 7
  | .HUB_BOOT_SRC => 8
  | .HUB_FW_VER => 9
  | .HUB_FW_DIGEST => 10
  | .HUB_SIMG_CTL => 11
  | .HUB_SIMG_SRC => 12
  | .HUB_SIMG_STATUS => 13
  | .HUB_SOLSTICE => 14
  | .HUB_SIMG_ID => 15
  | .HUB_SIMG_BASE => 16
  | .HUB_SIMG_VER => 17
  | .HUB_SIMG_GEN => 18
  | .HUB_SIMG_DIGEST => 19
  | .HUB_CHIP_RESET => 20
  | .HUB_RECOV_CFG => 21
  | .HUB_AUDIT_SNAP => 22
  | .HUB_FT => 23
  | .HUB_FT_CTL => 24
  | .HUB_FT_LOAD => 25
  | .HUB_FT_PTP_BASE => 26
  | .HUB_FT_STATUS => 27
  | .HUB_DIE_FENCE => 28
  | .HUB_CLK_STATUS => 29
  | .HUB_COH_ERR => 30
  | .HUB_LINK_STATUS => 31
  | .HUB_LINK_ERR => 32
  | .HUB_CNT_SEL => 33
  | .HUB_CNT => 34
  | .HUB_SMP_CFG => 35
  | .HUB_SMP_RING => 36
  | .HUB_SMP_PTR => 37
  | .HUB_SMP_MSI => 38
  | .HUB_SLIP_COUNT => 39
  | .HUB_SLIP_MAX => 40
  | .HUB_AUDIT_A => 41
  | .HUB_AUDIT_B => 42
  | .HUB_AUDIT_C => 43
  | .HUB_AUDIT_D => 44
  | .HUB_AUDIT_E => 45
  | .HUB_TT_CFG => 46
  | .HUB_TT_NRING => 47
  | .HUB_TT_NPTR => 48
  | .HUB_TT_NMSI => 49
  | .HUB_TT_CTL => 50
  | .HUB_FLT_RING => 51
  | .HUB_FLT_PTR => 52
  | .HUB_FLT_MSI => 53
  | .HUB_FLT_CTL => 54
  | .HUB_TLBI => 55
  | .HUB_TLBI_VA => 56
  | .HUB_PART_RESET => 57
  | .HUB_RECOV_STATUS => 58
  | .HUB_RECOV_CTL => 59
  | .HUB_RECOV_SUSPECTS => 60
  | .HUB_CTX_CTL => 61
  | .HUB_CTX_STATUS => 62
  | .HUB_CTX_RING => 63
  | .HUB_CTX_CPL => 64
  | .HUB_CTX_SAVE => 65
  | .HUB_CTX_ATP => 66
  | .HUB_CTX_CORES0 => 67
  | .HUB_CTX_CORES1 => 68
  | .HUB_CTX_MSI => 69
  | .HUB_CTX_SEQ => 70
  | .HUB_CTX_FAULT => 71
  | .CPU_COH_ERR => 72
  | .CPU_COH_ERR_CNT => 73
  | .BD_COH_ERR => 74
  | .CL_CNT_SEL => 75
  | .CL_CNT => 76
  | .CL_EVT_PTR => 77
  | .CL_EVT_CTL => 78
  | .CL_EVT_MSI => 79
  | .CL_EVT_REC => 80
  | .CO_QCFG => 81
  | .CO_QSTAT => 82
  | .CO_DESC_ERR => 83
  | .CO_VFLAGS => 84
  | .CO_SAVE_CFG => 85
  | .CO_CNT_SEL => 86
  | .CO_CNT => 87
  | .CO_EVT_PTR => 88
  | .CO_EVT_REC => 89
  | .EN_EXC => 90
  | .EN_EXC_COORD => 91
  | .EN_EXC_TAG => 92
  | .EN_EXC_BEAT => 93
  | .EN_HANG => 94
  | .EN_EVT_PTR => 95
  | .EN_EVT_REC => 96
  | .MEM_ERR_CNT => 97
  | .MEM_ERR_REC => 98
  | .MEM_ERR_BEAT => 99
  | .MEM_REFRESH => 100
  | .MEM_SCRUB => 101
  | .MEM_ADD_FLAGS => 102
  | .LLM_SLICE => 103
  | .LLM_WAYS => 104
  | .LLM_WAY_REC => 105
  | .LLM_ZERO => 106
  | .LLM_ERR_REC => 107
  | .LLM_ERR_BEAT => 108
  | .FAB_PORT_STATUS => 109
  | .FAB_PORT_CTL => 110
  | .FAB_PORT_TIME => 111
  | .FAB_PORT_ERR => 112
  | .FAB_GEN_MISMATCH => 113
  | .FAB_SLOT_MISMATCH => 114
  | .FAB_STATUS => 115
  | .FAB_FM => 116
  | .FAB_NSEND => 117
  | .FAB_NRING => 118
  | .FAB_NPTR => 119
  | .FAB_NMSI => 120
  | .FAB_REMOVED => 121
  | .HOST_BAR2 => 122
  | .HOST_ATTACH => 123
  | .HOST_ATTACH_GEN => 124
  | .HOST_STATUS => 125
  | .HOST_MSIX_ADDR => 126
  | .HOST_MSIX_DATA => 127
  | .HOST_PBA => 128
  | .ETH_STEER_MATCH => 129
  | .ETH_STEER_ACT => 130
  | .ETH_STEER_CTL => 131
  | .ETH_HASH_KEY => 132
  | .ETH_STATUS => 133
  | .ETH_RXQ => 134
  | .ETH_RXQ_PTR => 135
  | .ETH_RXQ_MSI => 136
  | .ETH_TXQ => 137
  | .ETH_TXQ_PTR => 138
  | .ETH_TXQ_MSI => 139
  | .ETH_RWIN_BASE => 140
  | .ETH_RWIN_CTL => 141
  | .PWR_CAP => 142
  | .PWR_MODE => 143
  | .PWR_RAMP => 144
  | .PWR_STATUS => 145
  | .PWR_EST => 146
  | .PWR_FAULT => 147
  | .PWR_POLICY_CLAMP => 148
  | .PWR_CLK => 149
  | .PWR_COOLANT => 150
  | .PWR_TEMP => 151
  | .SEC_OTP => 152
  | .SEC_OTP_PROG => 153
  | .SEC_DEVKEY => 154
  | .DBG_DUMP_CTL => 155
  | .DBG_DUMP_STATUS => 156
  | .DBG_DUMP_DEST => 157
  | .TRC_CTL => 158
  | .TRC_STATUS => 159

/-- Part 0 of the registers, in the order of R520 to R523. -/
def Reg.all0 : List Reg :=
  [.HUB_DIE_ID, .HUB_REV_EFFECTIVE, .HUB_SERIAL, .HUB_STICKY, .HUB_ISO_REC,
   .HUB_ISO_SRC, .HUB_BOOT, .HUB_BOOT_CTL, .HUB_BOOT_SRC, .HUB_FW_VER,
   .HUB_FW_DIGEST, .HUB_SIMG_CTL, .HUB_SIMG_SRC, .HUB_SIMG_STATUS, .HUB_SOLSTICE,
   .HUB_SIMG_ID, .HUB_SIMG_BASE, .HUB_SIMG_VER, .HUB_SIMG_GEN, .HUB_SIMG_DIGEST,
   .HUB_CHIP_RESET, .HUB_RECOV_CFG, .HUB_AUDIT_SNAP, .HUB_FT, .HUB_FT_CTL,
   .HUB_FT_LOAD, .HUB_FT_PTP_BASE, .HUB_FT_STATUS, .HUB_DIE_FENCE, .HUB_CLK_STATUS,
   .HUB_COH_ERR, .HUB_LINK_STATUS, .HUB_LINK_ERR, .HUB_CNT_SEL, .HUB_CNT,
   .HUB_SMP_CFG, .HUB_SMP_RING, .HUB_SMP_PTR, .HUB_SMP_MSI, .HUB_SLIP_COUNT]
/-- Part 1 of the registers, in the order of R520 to R523. -/
def Reg.all1 : List Reg :=
  [.HUB_SLIP_MAX, .HUB_AUDIT_A, .HUB_AUDIT_B, .HUB_AUDIT_C, .HUB_AUDIT_D,
   .HUB_AUDIT_E, .HUB_TT_CFG, .HUB_TT_NRING, .HUB_TT_NPTR, .HUB_TT_NMSI,
   .HUB_TT_CTL, .HUB_FLT_RING, .HUB_FLT_PTR, .HUB_FLT_MSI, .HUB_FLT_CTL,
   .HUB_TLBI, .HUB_TLBI_VA, .HUB_PART_RESET, .HUB_RECOV_STATUS, .HUB_RECOV_CTL,
   .HUB_RECOV_SUSPECTS, .HUB_CTX_CTL, .HUB_CTX_STATUS, .HUB_CTX_RING, .HUB_CTX_CPL,
   .HUB_CTX_SAVE, .HUB_CTX_ATP, .HUB_CTX_CORES0, .HUB_CTX_CORES1, .HUB_CTX_MSI,
   .HUB_CTX_SEQ, .HUB_CTX_FAULT, .CPU_COH_ERR, .CPU_COH_ERR_CNT, .BD_COH_ERR,
   .CL_CNT_SEL, .CL_CNT, .CL_EVT_PTR, .CL_EVT_CTL, .CL_EVT_MSI]
/-- Part 2 of the registers, in the order of R520 to R523. -/
def Reg.all2 : List Reg :=
  [.CL_EVT_REC, .CO_QCFG, .CO_QSTAT, .CO_DESC_ERR, .CO_VFLAGS,
   .CO_SAVE_CFG, .CO_CNT_SEL, .CO_CNT, .CO_EVT_PTR, .CO_EVT_REC,
   .EN_EXC, .EN_EXC_COORD, .EN_EXC_TAG, .EN_EXC_BEAT, .EN_HANG,
   .EN_EVT_PTR, .EN_EVT_REC, .MEM_ERR_CNT, .MEM_ERR_REC, .MEM_ERR_BEAT,
   .MEM_REFRESH, .MEM_SCRUB, .MEM_ADD_FLAGS, .LLM_SLICE, .LLM_WAYS,
   .LLM_WAY_REC, .LLM_ZERO, .LLM_ERR_REC, .LLM_ERR_BEAT, .FAB_PORT_STATUS,
   .FAB_PORT_CTL, .FAB_PORT_TIME, .FAB_PORT_ERR, .FAB_GEN_MISMATCH, .FAB_SLOT_MISMATCH,
   .FAB_STATUS, .FAB_FM, .FAB_NSEND, .FAB_NRING, .FAB_NPTR]
/-- Part 3 of the registers, in the order of R520 to R523. -/
def Reg.all3 : List Reg :=
  [.FAB_NMSI, .FAB_REMOVED, .HOST_BAR2, .HOST_ATTACH, .HOST_ATTACH_GEN,
   .HOST_STATUS, .HOST_MSIX_ADDR, .HOST_MSIX_DATA, .HOST_PBA, .ETH_STEER_MATCH,
   .ETH_STEER_ACT, .ETH_STEER_CTL, .ETH_HASH_KEY, .ETH_STATUS, .ETH_RXQ,
   .ETH_RXQ_PTR, .ETH_RXQ_MSI, .ETH_TXQ, .ETH_TXQ_PTR, .ETH_TXQ_MSI,
   .ETH_RWIN_BASE, .ETH_RWIN_CTL, .PWR_CAP, .PWR_MODE, .PWR_RAMP,
   .PWR_STATUS, .PWR_EST, .PWR_FAULT, .PWR_POLICY_CLAMP, .PWR_CLK,
   .PWR_COOLANT, .PWR_TEMP, .SEC_OTP, .SEC_OTP_PROG, .SEC_DEVKEY,
   .DBG_DUMP_CTL, .DBG_DUMP_STATUS, .DBG_DUMP_DEST, .TRC_CTL, .TRC_STATUS]
/-- Every register name. Where two registers share an offset (0x3200 and 0x3208 by R520), the first in this list answers there. -/
def Reg.all : List Reg := Reg.all0 ++ Reg.all1 ++ Reg.all2 ++ Reg.all3

end Sys2Proof.Machine
end

