-- ==== Sys2Proof/Machine/Store.lean ====
section
/-! DEFINITION. A sparse table kept as a list of (key, value) pairs in one canonical form: keys strictly
rising, and no entry equal to what an unlisted key reads as. Memory, registers and every numbered group of
like things (contexts, circuits, engines) are held this way. -/

namespace Sys2Proof.Machine

/-- What key k reads as: its entry, or the default d k where it is not listed. -/
def Store.get {α : Type} (d : Nat → α) : List (Nat × α) → Nat → α
  | [], k => d k
  | (j, v) :: rest, k => if j = k then v else Store.get d rest k

/-- Removes key k. -/
def Store.del {α : Type} : List (Nat × α) → Nat → List (Nat × α)
  | [], _ => []
  | (j, v) :: rest, k => if j = k then Store.del rest k else (j, v) :: Store.del rest k

/-- Puts v at key k, keeping the keys rising. -/
def Store.put {α : Type} : List (Nat × α) → Nat → α → List (Nat × α)
  | [], k, v => [(k, v)]
  | (j, w) :: rest, k, v =>
    if k < j then (k, v) :: (j, w) :: rest
    else if k = j then (k, v) :: rest
    else (j, w) :: Store.put rest k v

/-- Writes v at key k: writing what an unlisted key reads as removes the entry. -/
def Store.set {α : Type} [DecidableEq α] (d : Nat → α) (l : List (Nat × α)) (k : Nat) (v : α) : List (Nat × α) :=
  if v = d k then Store.del l k else Store.put l k v

/-- Every key of the list lies above k. -/
def Store.above {α : Type} (k : Nat) (l : List (Nat × α)) : Bool := l.all (fun e => decide (k < e.1))

/-- The canonical form: keys strictly rising, no entry equal to the default of its key. -/
def Store.wf {α : Type} [DecidableEq α] (d : Nat → α) : List (Nat × α) → Bool
  | [] => true
  | (k, v) :: rest => Store.above k rest && !decide (v = d k) && Store.wf d rest

/-- The keys listed. -/
def Store.keys {α : Type} (l : List (Nat × α)) : List Nat := l.map (·.1)

end Sys2Proof.Machine
end

