-- ==== Sys2Proof/Machine/Types.lean ====
section
/-! DEFINITION. Requesters, and the pieces of state of the tensor plane, the contexts and the memory tiers
(chapters 03 and 05 to 10). Each is plain data; what moves it is in the family files. -/

namespace Sys2Proof.Machine

/-- Kinds of requester (R34, R529). -/
inductive ReqKind where
  | tensor
  | cpu
  | host
  | eth
  | remote
  | dma
  | security
  deriving DecidableEq, Repr

/-- A requester: its kind, its unit and the partition id it carries (0 to 15, or 0xFE for the module) (DESIGN CHOICE, log 10). -/
structure Requester where
  kind : ReqKind
  unit : Nat
  part : Nat
  deriving DecidableEq, Repr

/-- Status codes (R212). -/
def stOk : Nat := 0
def stPoisoned : Nat := 1
def stDead : Nat := 2
def stHostLost : Nat := 3
def stFenced : Nat := 4
def stPreempted : Nat := 5
def stGuilty : Nat := 6
def stSlipLimit : Nat := 7
def stBadDescriptor : Nat := 8
def stBadCommand : Nat := 9
def stFaulted : Nat := 10
def stAccessError : Nat := 11

/-- A command, by context and sequence number. -/
structure CmdRef where
  ctx : Nat
  seq : Nat
  deriving DecidableEq, Repr

/-- One buffer of data on a circuit (R96): its bytes, whether they are poisoned, the physical pieces (address and length) of the
memory that the mover issued for it, the adder operation (0: none), the contribution's place j (R101), the command that sends it, the context
that owns its descriptor (R209), the descriptor's entry, firing, LAYER and OPERATOR, and the first beat at which it counts where it stands (R97). -/
structure Token where
  data : List Byte
  poison : Bool
  pieces : List (Nat × Nat)
  op : Nat
  j : Nat
  cmd : CmdRef
  ctx : Nat
  entry : Nat
  f : Nat
  ids : Nat × Nat
  since : Nat
  deriving DecidableEq, Repr

/-- A token that another module's command sent: it names no command of this module. -/
def foreignCmd : CmdRef := ⟨256, 0⟩

/-- A circuit's moving parts (R96 to R104): credits at the producer, tokens waiting there, tokens in flight with the number of
hops crossed, tokens that the consumer holds, credits in return, the commands it is pending for, its run of
slips, and the contributions sent since it was built. -/
structure Circ where
  credits : Nat
  ready : List Token
  flight : List (Nat × Token)
  held : Nat
  returning : Nat
  pend : List CmdRef
  run : Nat
  j : Nat
  /-- credits that count only from a beat on, and that beat (R97) -/
  fresh : Nat × Nat
  /-- hops whose instance has been decided, with its beat (R97) -/
  decided : List (Nat × Nat)
  /-- lines whose recall the next instance need not wait for (R322) -/
  cleared : List Nat
  /-- beats of idle instances of the LAST slot while a LAUNCH that has started has yet to be read (R99) -/
  idled : List Nat
  /-- status and flags of the contributions whose credits return to another module, oldest first (R250, R251) -/
  notes : List (Nat × Nat)
  deriving DecidableEq, Repr

def Circ.init : Circ := ⟨0, [], [], 0, 0, [], 0, 0, (0, 0), [], [], [], []⟩

/-- Credits that count at a beat. -/
def Circ.creditsAt (x : Circ) (ft : Nat) : Nat := if ft < x.fresh.1 then x.credits - x.fresh.2 else x.credits

/-- Credits that reach the producer at a beat: they count from the next one (R97). -/
def Circ.addCredits (x : Circ) (ft n : Nat) : Circ :=
  { x with credits := x.credits + n, fresh := (ft + 1, (if x.fresh.1 = ft + 1 then x.fresh.2 else 0) + n) }

/-- The circuit is pending for a command no more; with none left its run of slips ends (R99, R102). -/
def Circ.unpend (x : Circ) (r : CmdRef) : Circ :=
  let p := x.pend.filter (· != r)
  { x with pend := p, run := if p.isEmpty then 0 else x.run }

/-- A contribution in an adder's reorder buffer (R101): its circuit and its token. -/
structure Contribution where
  circ : Nat
  tok : Token
  deriving DecidableEq, Repr

/-- A queue of a core (R166): its configuration, its owner, the circuit it serves (R168), and its slots as a ring that
starts at slot rd: slots held by the consumer, tokens, slots held by the producer, and credits for the rest. own names, for each
token, the command whose descriptor made it (R102) (DEDUCED, log 14). -/
structure Queue where
  valid : Bool
  depth : Nat
  slotUnits : Nat
  scaleUnits : Nat
  base : Nat
  owner : Nat
  circ : Option Nat
  feeds : Option Nat
  producer : Nat
  consumer : Nat
  rd : Nat
  heldIn : Nat
  tokens : Nat
  heldOut : Nat
  own : List CmdRef
  deriving DecidableEq, Repr

/-- A queue that is not configured: no producer and no consumer (R190). -/
def Queue.none : Queue := ⟨false, 0, 0, 0, 0, 0, Option.none, Option.none, 0xFF, 0xFF, 0, 0, 0, 0, []⟩

/-- A descriptor entry (R174): the descriptor's 128 bytes, the installed program of a vector descriptor (R177), the LAUNCH it
counts for (R209), firings started and completed, and whether it is enabled (R215). -/
structure Entry where
  desc : List Byte
  prog : List Word
  cmd : CmdRef
  started : Nat
  done : Nat
  enabled : Bool
  deriving DecidableEq, Repr

/-- Progress of a mover firing (R176, R263, R265). -/
inductive FireStage where
  /-- waits for its access or its data -/
  | active
  /-- a tile reader or stager waits for its circuit's next period (R264, R267) -/
  | waiting
  /-- a stager has claimed the entry with this word 0 (R265 step 2), and NEXT -/
  | claimed (word0 next : Nat)
  /-- its data is where it belongs, and it can complete -/
  | finished
  /-- a tile reader's data returned poisoned (R270) -/
  | poisoned
  deriving DecidableEq, Repr

/-- A tile mover firing in progress: descriptor entry, number f, bytes done before its resume point (R342), those of a read held in
the mover, the physical pieces of the rest of its memory once translated, data of a host read (R403), whether that read is open,
resolved word 0 of a tile, the beat of its resolution, its stage, the status of a failed staging, whether a tile fence waits
for it (R273), the first beat at which the access that it has issued counts (R97), and the NEXT that a stager read at step 1 (R262, R265). -/
structure Firing where
  core : Nat
  entry : Nat
  f : Nat
  b : Nat
  held : List Byte
  pieces : Option (List (Nat × Nat))
  data : Option (List Byte)
  asked : Bool
  word0 : Nat
  resolvedAt : Option Nat
  stage : FireStage
  fail : Nat
  fenced : Bool
  since : Nat
  next : Option Nat
  deriving DecidableEq, Repr

/-- A claim of a stager that ended before its flip, whose revert is due (R266): its firing, the partition and tile, word 0 as
claimed, NEXT, the status, and the ids of its notice. -/
structure Revert where
  core : Nat
  entry : Nat
  f : Nat
  part : Nat
  tile : Nat
  word0 : Nat
  next : Nat
  status : Nat
  ctx : Nat
  layer : Nat
  oper : Nat
  cmd : CmdRef
  deriving DecidableEq, Repr

/-- The vector firing of a core (R179): descriptor entry, firing number, next instruction, whether it ended at VEND. -/
structure VecRun where
  entry : Nat
  f : Nat
  pc : Nat
  ended : Bool
  deriving DecidableEq, Repr

/-- State of an accumulator bank (R185 BANK_STATE). -/
inductive BankState where
  | free
  | accumulating
  | completed
  deriving DecidableEq, Repr

/-- One bank's accumulation: its state, the descriptor entry, the firing number and the k-index of its next step. -/
structure Bank where
  st : BankState
  entry : Nat
  f : Nat
  k : Nat
  deriving DecidableEq, Repr

def Bank.empty : Bank := ⟨.free, 0, 0, 0⟩

/-- One step's operands in the engine's operand queue (R164): k-index, and for each lane of A and of B the element codes and
the scale of its block (Z4 only). -/
structure Operands where
  k : Nat
  a : List (List Nat × Nat)
  b : List (List Nat × Nat)
  deriving DecidableEq, Repr

/-- A drain in progress (R154): bank and descriptor entry. -/
structure DrainRun where
  bank : Nat
  entry : Nat
  deriving DecidableEq, Repr

/-- An engine: its banks, operand queue, drain, and the bank whose accumulation is fed first. -/
structure Engine where
  bank0 : Bank
  bank1 : Bank
  opnd : Option Operands
  drain : Option DrainRun
  feed : Nat
  deriving DecidableEq, Repr

def Engine.idle : Engine := ⟨Bank.empty, Bank.empty, none, none, 0⟩

def Engine.bank (g : Engine) (b : Nat) : Bank := if b = 0 then g.bank0 else g.bank1

/-- The bank whose accumulation is fed: of two that accumulate, the one that began first (DEDUCED, log 39). -/
def Engine.accumulating (g : Engine) : Option Nat :=
  if (g.bank g.feed).st = .accumulating then some g.feed
  else if (g.bank (1 - g.feed)).st = .accumulating then some (1 - g.feed) else none

/-- A save of an engine of a pre-empted context (R158, R185): where it lies (a save slot n, or the HBM save area), and what it
holds: banks' states, descriptor entry contents, cell values of the banks it saves. -/
structure EngineSave where
  engine : Nat
  slot : Option Nat
  bank0 : Bank
  bank1 : Bank
  entry0 : Option Entry
  entry1 : Option Entry
  beat : Nat
  deriving DecidableEq, Repr

/-- What a command has caused on one engine (R148, R152): flags, the first invalid operation in the layout of EN_EXC_COORD (0: none),
and the counts of the histogram not yet delivered: TILES, ZEROS, NANS, INFS, SATURATED, BIN 0 to 63. -/
structure EngSum where
  engine : Nat
  flags : Nat
  coord : Nat
  hist : List Nat
  deriving DecidableEq, Repr

/-- An engine descriptor that names HIST_ADDR: its core, entry, context and ids. -/
structure HistFrom where
  core : Nat
  entry : Nat
  ctx : Nat
  layer : Nat
  oper : Nat
  deriving DecidableEq, Repr

/-- A command fetched into a context's command buffer and not yet complete (R202, R210 to R214). -/
structure Cmd where
  seq : Nat
  /-- the 512 bytes of its slot -/
  slot : List Byte
  /-- reason of a failed header check, 0 for none (R205) -/
  reason : Nat
  started : Bool
  startBeat : Nat
  /-- its effect has happened: it ends once its accesses have completed -/
  finished : Bool
  /-- first ending status (R212), and its beat -/
  status : Nat
  failBeat : Nat
  detail : Nat
  /-- flags of its vector operations (R182) -/
  flags : Nat
  slips : Nat
  /-- latches of the core's counters 0 to 7 (R211, R213, R500): core and words -/
  cntStart : List (Nat × List Nat)
  cntEnd : List (Nat × List Nat)
  /-- the end latches are taken, and the counter records written -/
  latched : Bool
  endBeat : Nat
  /-- HIST_ADDR of the completion record -/
  histAddr : Nat
  sums : List EngSum
  /-- LAUNCH: every descriptor is installed; any other: its effect has begun -/
  installed : Bool
  /-- resume point (R342): bytes copied of a COPY, or install records read -/
  pos : Nat
  /-- LAUNCH: bytes of the install records read from ARG1 -/
  records : List Byte
  /-- completion record: 0 not begun, 1 bytes 8 to 255 written, 2 bytes 0 to 7 written too (R214), and whether a write of it failed -/
  stage : Nat
  recBad : Bool
  /-- on each core, the first engine descriptor that names HIST_ADDR: the requester of the core's delivery (R344) -/
  histFrom : List HistFrom
  deriving DecidableEq, Repr

/-- States of a context (R195). -/
inductive CtxState where
  | free
  | running
  | suspended
  | preempting
  | preempted
  | halted
  | ending
  deriving DecidableEq, Repr

def CtxState.code : CtxState → Nat
  | .free => 0
  | .running => 1
  | .suspended => 2
  | .preempting => 3
  | .preempted => 4
  | .halted => 5
  | .ending => 6

/-- A translation fault held against a context (R341, R342): virtual address, code, and the stopped requester: its command,
its core, descriptor entry and firing, 0xFF, 0xFF and 0 for a command's own access. -/
structure HeldFault where
  va : Nat
  code : Nat
  cmd : CmdRef
  core : Nat
  entry : Nat
  f : Nat
  deriving DecidableEq, Repr

/-- A context's moving parts beside its registers (R195, R202, R203). -/
structure Ctx where
  st : CtxState
  /-- commands fetched and not yet complete, in sequence order -/
  buf : List Cmd
  /-- sequence numbers complete that DONE has not passed -/
  ended : List Nat
  done : Nat
  /-- worst status of accesses that no COMPLETE command of the ring has covered (R210, R293) -/
  covered : Nat
  /-- sequence numbers of the ORDERs and COMPLETEs that have started and may still hold accesses back (R210, R289) -/
  orders : List Nat
  saves : List EngineSave
  /-- suspended while a pre-emption is due, or halted when the pre-emption ends (R219) -/
  haltAfter : Bool
  faults : List HeldFault
  /-- beat at which END's fence began (R443) -/
  fenceBeat : Option Nat
  preemptBeat : Nat
  /-- status that END gives incomplete commands (R198) -/
  endStatus : Nat
  /-- status of a save or restore that an error response ended (R347), 0 for none -/
  saveErr : Nat
  /-- while the context's replay set runs (R451), the sequence number past its last command -/
  replayTo : Option Nat
  /-- commands of the replay set as they stood at the fence, and the sequence numbers complete that DONE had not passed (R451, R452) -/
  kept : List Cmd
  keptEnded : List Nat
  /-- a fetch in progress (R202): HEAD as it was read, the next sequence number, and slots left -/
  fetch : Option (Nat × Nat × Nat)
  deriving DecidableEq, Repr

def Ctx.init : Ctx := ⟨.free, [], [], 0, 0, [], [], false, [], none, 0, 0, 0, none, [], [], none⟩

/-- A ring whose poll schedule counts, as HUB_CTX registers describe it (R200). -/
structure RingCfg where
  base : Nat
  l : Nat
  cpl : Nat
  deriving DecidableEq, Repr

/-- A line of an LLM cache way (R236): tag, valid and dirty bits of its four sectors. -/
structure Way where
  tag : Nat
  valid : Nat
  dirty : Nat
  deriving DecidableEq, Repr

def Way.empty : Way := ⟨0, 0, 0⟩

/-- A way's error history (R243): beats of its last corrected errors, latest first, whether it is being disabled (R244), and then the cause, and
how many dirty sectors have entered the writeback buffer and how many were poisoned. -/
structure WayHealth where
  beats : List Nat
  disabling : Bool
  cause : Nat
  written : Nat
  poisoned : Nat
  deriving DecidableEq, Repr

def WayHealth.init : WayHealth := ⟨[], false, 0, 0, 0⟩

/-- Work of a base die's cache for the coherent share, at rank 4 of R232: a sector of the writeback buffer of a stack (R240), or the fill of a
sector for a requester's class. -/
structure CacheJob where
  stack : Nat
  addr : Nat
  fill : Option Nat
  deriving DecidableEq, Repr

/-- A memory controller's moving parts (R228 to R230): scrub position (granule offset) and the beat at which its pass began, temperature level, a
refresh level that takes effect at the next beat that is a multiple of 64; and refresh: the window of 125,000 beats that the counts are of,
beats it has taken from the share and from the tensor plane, and the last share beat it took. -/
structure MemCtl where
  scrub : Nat
  tempLevel : Nat
  pending : Option Nat
  passStart : Nat
  window : Nat
  shareTaken : Nat
  tensorTaken : Nat
  refBeat : Option Nat
  deriving DecidableEq, Repr

def MemCtl.init : MemCtl := ⟨0, 0, none, 0, 0, 0, 0, none⟩

/-- One translation held by a translation cache (R336): the cache (core 0 to 127, or 128 for the commands' cache), the context's
partition and ASID, the first virtual address, log2 of its size, the first physical address, and its permissions. -/
structure Tlb where
  cache : Nat
  part : Nat
  asid : Nat
  va : Nat
  size : Nat
  pa : Nat
  flags : Nat
  deriving DecidableEq, Repr

/-- What an access outside the core model waits for (R293): its issuer and what its answer does. -/
inductive Waiter where
  /-- nothing but its completion -/
  | plain
  /-- a CPU core's load into a register: size and sign extension -/
  | cpuLoad (cpu rd size : Nat) (signed : Bool)
  /-- a CPU core's instruction fetch -/
  | cpuFetch (cpu : Nat)
  /-- a COPY's source data goes on to its destination -/
  | copy (ref : CmdRef) (dst : Nat)
  /-- install records of a LAUNCH -/
  | launch (ref : CmdRef)
  /-- a WAIT's poll value -/
  | wait (ref : CmdRef)
  /-- a slot that a ring's fetch reads (R202) -/
  | ring (ctx : Nat)
  /-- a part of a command's completion record -/
  | record (ref : CmdRef)
  /-- a record of a ring of instance i: faults (0), tile notices (1) or fabric notices (2) (R271, R345, R377) -/
  | append (kind i : Nat)
  /-- a circuit token's credit returns when the access completes -/
  | circuit (circ : Nat)
  /-- data for a circuit whose far end answers later -/
  | feed (core entry f : Nat)
  /-- an answer to a request of the fabric: requester module, its tag -/
  | packet (src tag : Nat) (acquire : Bool)
  /-- an answer to an Ethernet peer -/
  | rdma (port qp tag win : Nat)
  /-- a host read of BAR0 or BAR2 -/
  | hostRead
  /-- a host write of BAR2, and whether its data is poisoned -/
  | hostWrite (poison : Bool)
  /-- an LLM_ZERO sequence of a base die (R252) -/
  | zero (die : Nat)
  /-- a fetch takes the data, or a runtime load of an image where set -/
  | boot (load : Bool)
  deriving DecidableEq, Repr

/-- A record that waits for the one before it in its ring: the ring's kind and instance, and its bytes. -/
structure RingRec where
  kind : Nat
  i : Nat
  data : List Byte
  deriving DecidableEq, Repr

/-- An access that has been issued and has not completed (R293). -/
structure OpenAccess where
  id : Nat
  who : Requester
  /-- the context whose command made it, or none for a CPU core or a device engine -/
  ctx : Option CmdRef
  addr : Nat
  len : Nat
  /-- 1 read, 2 write, 3 atomic -/
  op : Nat
  waiter : Waiter
  /-- remote: target module, and the port it left through -/
  module : Option Nat
  port : Option Nat
  /-- answers still to come from homes (R321), data by line, and the worst status so far -/
  left : Nat
  got : List (Nat × List Byte)
  worst : Nat
  deriving DecidableEq, Repr

end Sys2Proof.Machine
end

