-- ==== Sys2Proof/Machine/CohTypes.lean ====
section
/-! DEFINITION. The pieces of state of the coherence protocol (chapter 11) and of the CPU cores as issuers
(chapters 10 and 11). -/

namespace Sys2Proof.Machine

/-- State of a line in a caching agent (R316). -/
inductive LineSt where
  | inv
  | shared
  | excl
  | modified
  | owned
  | isD
  | imD
  | smA
  | omA
  | miA
  | oiA
  | iiA
  deriving DecidableEq, Repr

/-- The code of CPU_COH_ERR.STATE (R331). -/
def LineSt.code : LineSt → Nat
  | .inv => 0
  | .shared => 1
  | .excl => 2
  | .modified => 3
  | .owned => 4
  | .isD => 5
  | .imD => 6
  | .smA => 7
  | .omA => 8
  | .miA => 9
  | .oiA => 10
  | .iiA => 11

/-- A line of an agent: its state, 64 bytes, POISON bits of its two granules (R327), and an LR reservation in L1 (R324). -/
structure Line where
  st : LineSt
  data : List Byte
  poison : Nat
  reserved : Bool
  deriving DecidableEq, Repr

def Line.empty : Line := ⟨.inv, [], 0, false⟩

/-- The agent holds the current dirty value in this state. -/
def LineSt.dirty : LineSt → Bool
  | .modified => true
  | .owned => true
  | .omA => true
  | .miA => true
  | .oiA => true
  | _ => false

/-- A coherence message (R313): code, line (address bits [51:6]), the agent it is from or for (0x60 for a non-caching
requester), data, POISON bits, the byte range of a partial request, an atomic operation, and a tag. -/
structure Msg where
  code : Nat
  line : Nat
  agent : Nat
  data : List Byte
  poison : Nat
  off : Nat
  len : Nat
  op : Nat
  tag : Nat
  deriving DecidableEq, Repr

/-- Directory state of a line at its home (R311). -/
inductive DirSt where
  | di
  | ds
  | dx
  | dox
  deriving DecidableEq, Repr

/-- Transient state of a line at its home (R319). -/
inductive TxSt where
  | mem
  | snp
  | ack
  | bi
  deriving DecidableEq, Repr

def DirSt.code : DirSt → Nat
  | .di => 0
  | .ds => 1
  | .dx => 2
  | .dox => 3

def TxSt.code : TxSt → Nat
  | .mem => 4
  | .snp => 5
  | .ack => 6
  | .bi => 7

/-- A transaction in progress on a line (R312, R318): its request, the agents whose answers it awaits, what the first data answer
returned, the answer codes seen from the owner, whether the request is that of a listed
holder (an Upg that needs no data), and its rank and order of arrival at the controller (R232). -/
structure Tx where
  st : TxSt
  req : Msg
  await : Nat
  data : Option (List Byte × Nat)
  ownerRsp : Nat
  listed : Bool
  rank : Nat
  since : Nat
  deriving DecidableEq, Repr

/-- A transaction in a state, for a request, that awaits the answers of the agents of a mask. -/
def Tx.start (st : TxSt) (m : Msg) (await : Nat) (listed : Bool) : Tx := ⟨st, m, await, none, 0, listed, 0, 0⟩

/-- A line at its home: directory state, owner, sharers, transaction, waiting requests in order of arrival (R312), and the answers that an
error of R326 leaves to be discarded: an agent for one to a snoop, 128 + agent for a CmpAck. -/
structure HomeLine where
  st : DirSt
  owner : Nat
  sharers : Nat
  tx : Option Tx
  waiting : List Msg
  owed : List Nat
  deriving DecidableEq, Repr

def HomeLine.init : HomeLine := ⟨.di, 0x7F, 0, none, [], []⟩

/-- What a CPU core does at an address (R315): a load or fetch, a store, an AMO (operation, operand, compare value), LR, SC, CBO.ZERO, or a
cache flush; aq and rl are the marks of R288 (PRESUMED, log 31). -/
inductive CpuOp where
  | load (addr size rd : Nat) (signed fetch : Bool)
  | store (addr size value : Nat)
  | amo (aop addr size value cmp rd : Nat) (aq rl : Bool)
  | lr (addr size rd : Nat) (aq rl : Bool)
  | sc (addr size value rd : Nat) (aq rl : Bool)
  | zero (addr : Nat)
  | flush (addr : Nat)
  deriving DecidableEq, Repr

/-- An operation of a core that waits in its line's miss entry (R316), or behind a barrier or an earlier one that waits: its place in program
order, and whether its page is NC or IO. -/
structure Stall where
  id : Nat
  cpu : Nat
  nc : Bool
  op : CpuOp
  deriving DecidableEq, Repr

/-- A hold of a barrier or mark (R281, R288, R289): the access with this id comes before the core's accesses of the classes (I 8, O 4, R 2, W 1,
and 16 for those of RVWMO alone) whose ids are bound or more, or bound alone where only is set. -/
structure Hold where
  id : Nat
  classes : Nat
  bound : Nat
  only : Bool
  deriving DecidableEq, Repr

/-- A CPU core as an issuer (R293, R297, R298): integer registers stand in the register store; the cause of the exception
it last raised (a RISC-V exception code plus one, 0 for none), the worst status of accesses not yet covered
by a FENCE.COMPLETE, rd of a FENCE.COMPLETE that waits, whether it is in reset, and the holds of its barriers. -/
structure Cpu where
  trap : Nat
  covered : Nat
  fenceRd : Option Nat
  inReset : Bool
  order : List Hold
  deriving DecidableEq, Repr

def Cpu.init : Cpu := ⟨0, 0, none, true, []⟩

/-- A reservation kept at a home or endpoint (R324): the CPU core and the line. -/
structure Resv where
  cpu : Nat
  line : Nat
  deriving DecidableEq, Repr

/-- A page-table walk in flight (R334, R336): who asked (core 0 to 127, or 128 for a command), context, command, descriptor entry and firing, virtual
address, access (1 read, 2 write, 3 reduction or atomic), level to read next, the table it reads, and whether a G bit was met. -/
structure Walk where
  cache : Nat
  ctx : Nat
  seq : Nat
  entry : Nat
  f : Nat
  va : Nat
  access : Nat
  level : Nat
  table : Nat
  g : Bool
  deriving DecidableEq, Repr

/-- A non-leaf entry cached by the walker (R336): partition, ASID (2^16 for a G entry), level it leads to, and the virtual address bits above. -/
structure NonLeaf where
  part : Nat
  asid : Nat
  level : Nat
  va : Nat
  table : Nat
  deriving DecidableEq, Repr

end Sys2Proof.Machine
end

