-- ==== Sys2Proof/Machine/FabTypes.lean ====
section
/-! DEFINITION. The pieces of state of the module fabric (chapter 13): packets, frames, ports and fabric circuits. -/

namespace Sys2Proof.Machine

/-- A packet (R361). -/
structure Packet where
  dest : Nat
  src : Nat
  typ : Nat
  flags : Nat
  hops : Nat
  epoch : Nat
  part : Nat
  status : Nat
  op : Nat
  len : Nat
  tag : Nat
  addr : Nat
  data : List Byte
  deriving DecidableEq, Repr

/-- Packet types (R361). -/
def pkRead : Nat := 1
def pkWrite : Nat := 2
def pkAtomic : Nat := 3
def pkData : Nat := 4
def pkAck : Nat := 5
def pkError : Nat := 6
def pkNotice : Nat := 7

/-- Virtual channel of a type: 0 REQ, 1 RSP, 2 NOTICE. -/
def Packet.vc (p : Packet) : Nat := if p.typ ≤ 3 then 0 else if p.typ ≤ 6 then 1 else 2

/-- Units of 32 bytes that a packet takes. -/
def Packet.units (p : Packet) : Nat := 1 + (p.data.length + 31) / 32

/-- A link message (R351). A CIRCUIT_CREDIT of a contribution also takes the status and the flags that it met back to its command (R250, R251), for
which the spec gives no bits. -/
structure LinkMsg where
  kind : Nat
  arg8 : Nat
  arg16 : Nat
  note : Nat × Nat := (0, 0)
  deriving DecidableEq, Repr

/-- A good frame (R350): its control field, with the two link messages, and its payload. -/
structure Frame where
  typ : Nat
  gen : Nat
  seq : Nat
  circ : Nat
  inst : Nat
  index : Nat
  time : Nat
  msgs : List LinkMsg
  payload : List Byte
  deriving DecidableEq, Repr

/-- What goes with a frame for which the spec gives no bits (DESIGN CHOICE, log 80): of a slot frame the place of its instance among those sent on
the circuit, by which the consumer knows a duplicate and a missing instance (R358), whether the buffer is poisoned, and the target
pieces and operation of a contribution; what the contributions of its messages met (R250, R251); whether TIME is an echo (R370). -/
structure FrameNote where
  ord : Nat
  poison : Bool
  pieces : List (Nat × Nat)
  op : Nat
  met0 : Nat × Nat
  met1 : Nat × Nat
  echo : Bool
  deriving DecidableEq, Repr

def FrameNote.none : FrameNote := ⟨0, false, [], 0, (0, 0), (0, 0), false⟩

/-- A frame as a port receives it: its 896 bytes, the arrival in ps of local time (R370), and its note. -/
structure FrameIn where
  raw : List Byte
  ps : Nat
  note : FrameNote
  deriving DecidableEq, Repr

/-- A flit on a die link (R385): the 272 bytes sent, and the errors met on the way, byte number and flipped bits. -/
structure FlitIn where
  raw : List Byte
  errs : List (Nat × Byte)
  deriving DecidableEq, Repr

/-- A host access in BAR0 (R399): whether it writes, its offset, its size in bytes, and the value written. -/
structure BarAccess where
  write : Bool
  off : Nat
  size : Nat
  value : Nat
  deriving DecidableEq, Repr

/-- A packet frame in the retry buffer (R363): SEQ, payload, and the packets that end in it. -/
structure PktFrame where
  seq : Nat
  payload : List Byte
  ends : List Packet
  deriving DecidableEq, Repr

/-- A fabric port (R349 to R363): packets waiting, a packet begun with its bytes still to be sent, packet frames sent and not acknowledged, those to be
sent again, slot frames of the instance that is leaving, the next sequence number, credits by virtual channel, the sequence number expected,
whether frames are discarded until it comes, bytes of a packet that has yet to end, beats of bad frames, beats of the last good frame
and of the last PKT_ACK, packets that arrived, link messages waiting, the last time value with its arrival in ps, the beat at which training
began, and whether it is the start's training (R354). -/
structure Port where
  egress : List Packet
  begun : Option (Packet × List Byte)
  retry : List PktFrame
  again : List Nat
  slotQ : List (Frame × FrameNote)
  seq : Nat
  req : Nat
  rsp : Nat
  ntc : Nat
  rxSeq : Nat
  discarding : Bool
  rx : List Byte
  bad : List Nat
  lastGood : Nat
  ackBeat : Nat
  arrived : List Packet
  msgs : List LinkMsg
  heard : Option (Nat × Nat)
  trainBeat : Nat
  boot : Bool
  deriving DecidableEq, Repr

def Port.init : Port := ⟨[], none, [], [], [], 0, 2048, 2048, 256, 0, false, [], [], 0, 0, [], [], none, 0, false⟩

/-- Packets that have not left the port whole. -/
def Port.waiting (v : Port) : List Packet := (v.begun.map (·.1)).toList ++ v.egress

/-- An instance sent on a fabric circuit and kept until it is acknowledged (R358): period index, token and beat. -/
structure SentInst where
  inst : Nat
  tok : Token
  beat : Nat
  deriving DecidableEq, Repr

/-- A fabric circuit's segment (R357, R358): instances sent and not acknowledged, instances to send again, the instance being received with
the frames accepted (index and payload), the last instance accepted whole, and whether one is missing. -/
structure Segment where
  sent : List SentInst
  resend : List SentInst
  inst : Nat
  frames : List (Nat × List Byte)
  poison : Bool
  done : Option Nat
  missing : Bool
  /-- an instance that a transit has accepted whole and not yet forwarded -/
  hold : Option (Nat × Token)
  /-- commands of the contributions sent whose credits have not returned, oldest first (R250, R251) -/
  owed : List CmdRef
  /-- the circuit has been aborted (R373, R374): instances discarded keep their places in the count (R101), and the next one names its own -/
  resync : Bool
  deriving DecidableEq, Repr

def Segment.init : Segment := ⟨[], [], 0, [], false, none, false, none, [], false⟩

/-- A PTP message of the selected master as it reaches the time unit (R82), times in ns, each with its correction: a one-step Sync with the time of
its departure, a two-step Sync, the Follow_Up that gives that time, or the Delay_Resp with the time at which the module's Delay_Req reached the
master; the last three name a sequence. -/
inductive PtpMsg where
  | sync (origin : Nat)
  | syncTwoStep (seq : Nat)
  | followUp (seq origin : Nat)
  | delayResp (seq receipt : Nat)
  deriving DecidableEq, Repr

/-- A received Ethernet frame as the classifier reads it (R413): its FCS, a PTP message (the ps into the beat at
which it arrives, and what it says), a RoCEv2 frame to an address of the port, the fields that rules match, the bytes that the hash covers (source and
destination addresses and ports), its L4 checksum, and its bytes. -/
structure EthFrame where
  fcsOk : Bool
  ptp : Option (Nat × PtpMsg)
  roce : Bool
  ipv : Nat
  proto : Nat
  vlan : Nat
  dport : Nat
  flow : List Byte
  csumOk : Bool
  data : List Byte
  deriving DecidableEq, Repr

end Sys2Proof.Machine
end

