-- ==== Sys2Proof/Machine/BootTypes.lean ====
section
/-! DEFINITION. The pieces of state of recovery (chapter 17), die links (chapter 14), starts and the OTP array (chapter 18), power and
thermal control (chapter 16), and the module's electrical side (chapter 21). -/

namespace Sys2Proof.Machine

/-- An engine recovery of a partition (R449 to R452), and the hangs that wait for it (R450): the engine; the beat of the declaration; the
value of HUB_RECOV_STATUS.STATE; suspects not yet settled; innocent suspects that wait; the context being replayed; HEAD of each
suspect at the hang; contexts that this recovery and those queued before it have covered; queued engines with their suspects. -/
structure Recov where
  engine : Nat
  since : Nat
  stage : Nat
  suspects : List Nat
  innocent : List Nat
  current : Option Nat
  heads : List (Nat × Nat)
  covered : List Nat
  queue : List (Nat × List Nat)
  deriving DecidableEq, Repr

def Recov.idle : Recov := ⟨0, 0, 0, [], [], none, [], [], []⟩

/-- A lane of a die-to-die link (R382, R486): link, bundle (0xFE for the credit sub-link), direction and lane. -/
structure Lane where
  link : Nat
  bundle : Nat
  dir : Nat
  lane : Nat
  deriving DecidableEq, Repr

/-- What a die reports of itself at a start (R396), and whether it answers at all (R525). -/
structure DieRev where
  die : Nat
  present : Bool
  major : Nat
  minor : Nat
  deriving DecidableEq, Repr

/-- A good flit of a die link (R385): TYPE, VC, SEQ, ACK, and the VC and number of flits of its credit return. -/
structure Flit where
  typ : Nat
  vc : Nat
  seq : Nat
  ack : Nat
  creditVc : Nat
  credits : Nat
  deriving DecidableEq, Repr

/-- One end of a die link (R386 to R388): coherent flits kept at the sender (SEQ and VC), the next SEQ to send, the highest SEQ acknowledged,
resends in a row of one SEQ, the beat at which ACK last advanced, the SEQ expected from the other end and whether flits are
discarded, credits by VC, tensor instances kept until acknowledged (circuit and period index) with their resends in a row, and the beat of the
last good flit. -/
structure DieLink where
  sent : List (Nat × Nat)
  seq : Nat
  acked : Nat
  retries : Nat
  ackBeat : Nat
  rxSeq : Nat
  discarding : Bool
  credits : List Nat
  insts : List (Nat × Nat)
  instRetries : Nat
  again : List (Nat × Nat)
  lastGood : Nat
  deriving DecidableEq, Repr

def DieLink.init : DieLink := ⟨[], 0, 0xFFFF, 0, 0, 0, false, [0, 0, 0, 0, 0], [], 0, [], 0⟩

/-- A fetch or a load in progress (R68, R468 to R470): its object, the source's address and length, the bytes that were read, and whether
the source failed. -/
structure Fetch where
  object : Nat
  base : Nat
  len : Nat
  data : List Byte
  torn : Bool
  deriving DecidableEq, Repr

/-- The security processor (chapter 18): the OTP array, with bytes not listed blank; whether the start in progress is cold; the number of
the start since power-on; the boot log, oldest first; beats since the stage in progress began and since the start was requested; the
source being tried; the two copies of the firmware hold and its pointer (R467); the object that a source delivered to the stage; a fetch in
progress; an OTP generation being programmed; the beat at which HUB_CHIP_RESET.ARM was written; the reason of a chip reset whose
fence drains; and a copy of the image hold that a start judges, which the pending copy may take the place of (R470). -/
structure Boot where
  otp : List (Nat × Byte)
  cold : Bool
  starts : Nat
  log : List (List Byte)
  stageBeats : Nat
  startBeats : Nat
  source : Nat
  fw0 : Option (List Byte)
  fw1 : Option (List Byte)
  fwPtr : Option Nat
  delivered : Bool
  fetch : Option Fetch
  prog : Option (Nat × List Byte)
  armBeat : Option Nat
  reason : Nat
  tryNext : Bool
  /-- firmware that passed R472 runs in Winter mode (R481) -/
  firmware : Bool
  /-- a runtime load of an image (R68) -/
  load : Option Fetch
  deriving DecidableEq, Repr

def Boot.init : Boot := ⟨[], true, 1, [], 0, 0, 0, none, none, none, false, none, none, none, 0, false, false, none⟩

/-- The module's electrical side (chapter 21): the main regulators are up (PWRGD); the input has risen; the housekeeping supply is up; the trip latch; the
overvoltage latch; a regulator has failed; RESET_N is low; a power-cycle request is pending (R461) (DESIGN CHOICE, log 53). -/
structure Elec where
  powered : Bool
  input : Bool
  housekeeping : Bool
  trip : Bool
  overvoltage : Bool
  regFail : Bool
  resetLow : Bool
  cycleReq : Bool
  deriving DecidableEq, Repr

def Elec.init : Elec := ⟨true, true, true, false, false, false, false, false⟩

/-- What the loops of chapter 16 keep for a die: its clock limit and duty limit from the thermal loop, its clock with boost and the highest
step at which the conditions of R438 held, whether and since when its clock stretches, the beat to which stretching is armed,
the beat to which a droop lowers its duty, one more than the beat of its last droop, and its estimate of the last microsecond in mW. -/
structure DiePwr where
  thMhz : Nat
  thDuty : Nat
  boost : Nat
  boostOk : Nat
  stretch : Option Nat
  armed : Nat
  droopTo : Nat
  lastDroop : Nat
  est : Nat
  deriving DecidableEq, Repr

def DiePwr.init : DiePwr := ⟨3600, 64, 3600, 3600, none, 0, 0, 0, 0⟩

/-- The control loops (chapter 16): the cap loop's clock, duty and CPU clock, the limiter's duty, the thermal loop's CPU clock, the beat of its last
restoring step, pending writes of SW_W, TRAY_W and PWR_MODE with the beats of the writes, and of PWR_RAMP and FILLER_EN, the length of the run of
samples above APPLIED_W, the sum and count of E (mW) since the last sample, E of the last update, the last sample, the floor L (mW), the
runs of R431 with the sum of M/Ē in units of 2^-12, the bits of PWR_POLICY_CLAMP whose override episodes last (R433), and one more than the
period of fabric time of the last step of the activity limiter, the cap loop, the thermal loop and boost (R88, R416). -/
structure Pwr where
  capMhz : Nat
  capDuty : Nat
  capCpu : Nat
  limDuty : Nat
  thCpu : Nat
  restored : Nat
  swNext : Option Nat
  trayNext : Option Nat
  capBeat : Nat
  modeNext : Option Nat
  modeBeat : Nat
  rampNext : Option Nat
  fillNext : Option Bool
  above : Nat
  estSum : Nat
  estCount : Nat
  lastE : Nat
  lastM : Nat
  floor : Nat
  run15 : Nat
  sum15 : Nat
  run40 : Nat
  episodes : Nat
  updated : Nat
  sampled : Nat
  thermal : Nat
  boosted : Nat
  deriving DecidableEq, Repr

def Pwr.init : Pwr :=
  ⟨3600, 64, 3400, 64, 3400, 0, none, none, 0, none, 0, none, none, 0, 0, 0, 0, 0, 0, 0, 0, 0, 0, 0, 0, 0, 0⟩

/-- A crash dump in progress (R509 to R511): the beat at which it began, the ranges of offsets still to be read, first offset and offset past
the last, the count of entries, TIMEOUT entries, those in a row in the unit of the block being read, and that one's key. -/
structure Dump where
  start : Nat
  ranges : List (Nat × Nat)
  entries : Nat
  timeouts : Nat
  inRow : Nat
  unit : Nat
  full : Bool
  deriving DecidableEq, Repr

end Sys2Proof.Machine
end

