-- ==== Sys2Proof/Machine/Operand.lean ====
section
/-! DEFINITION. Operands of commands that are no plain numbers. -/

namespace Sys2Proof.Machine

/-- The 128 bytes of a notice (R376). -/
abbrev Notice := List Byte

/-- A reset domain that a fence covers (chapter 17). -/
inductive Domain where
  | context (c : Nat)
  | engine (e : Nat)
  | partition (p : Nat)
  | diePair (n : Nat)
  | chip
  deriving DecidableEq, Repr

/-- What an endpoint access asks: a read, a write, or an atomic operation (its code, operand, compare value and size). -/
inductive MemOp where
  | read (n : Nat)
  | write (data : List Byte)
  | atomic (code size x cmp : Nat)
  deriving DecidableEq, Repr

end Sys2Proof.Machine
end

