-- ==== Sys2Proof/Syntax.lean ====
section
/-! DEFINITION. The commands of the block: one constructor for each row of the opcode table, in its order. The operands
are the model's own (the table gives none): who sends, which unit, and the values that the outside brings. -/

namespace Sys2Proof

open Sys2Proof.Machine

/-- The commands. -/
inductive Instr where
  /-- BEAT (R80). The 125 MHz beat clock advances fabric time by one beat, driving every beat-scheduled action. -/
  | beat
  /-- EPOCH_PULSE (R83). A rising EPOCH edge arrives; if ARM_EPOCH is set, HUB_FT_LOAD is loaded into fabric time, and otherwise the edge is judged against its expected beat. -/
  | epochPulse (ps : Int)
  /-- ARM_EPOCH (R85). A write of HUB_FT_CTL.ARM_EPOCH arms a load at the next epoch pulse, or is refused as a whole while a partition runs. -/
  | armEpoch (rq : Requester) (w : Nat)
  /-- FT_SOURCE_WRITE (R85). A write to HUB_FT_CTL that changes the source in use, refused as a whole while any partition runs. -/
  | ftSourceWrite (rq : Requester) (w : Nat)
  /-- PTP_MESSAGE (R82). A PTP message on the selected Ethernet port reaches the time unit, which updates the phase measurement. -/
  | ptpMessage (port : Nat) (sub : Nat) (m : PtpMsg)
  /-- REF10M_EDGE_LOSS (R84). The 10 MHz input shows no edge for 1 µs, which moves the time base to HOLDOVER and sets REF_LOST. -/
  | ref10mEdgeLoss
  /-- PTP_SYNC_LOSS (R84). Four PTP sync intervals pass without an accepted Sync, which moves the time base to HOLDOVER. -/
  | ptpSyncLoss
  /-- HOLDOVER_TIMEOUT (R84). HOLDOVER lasts 10 ms, and the time base becomes UNLOCKED. -/
  | holdoverTimeout
  /-- PHASE_ERROR_EXCEEDED (R84). The measured phase error exceeds 64 ns, and the time base becomes UNLOCKED while fabric slots idle. -/
  | phaseErrorExceeded (ps : Int)
  /-- LOCK_ACHIEVED (R84). The phase error stays within ±1 ns for 125,000 consecutive beats, and the time base moves from ACQUIRING to LOCKED. -/
  | lockAchieved
  /-- SOURCE_RETURN (R84). The time source returns with phase error within 64 ns, and the time base moves from HOLDOVER to LOCKED. -/
  | sourceReturn (ps : Int)
  /-- SLEW_CONVERGED (R86). While partitions run, slewing brings the phase error within 64 ns, and the time base moves from UNLOCKED to ACQUIRING. -/
  | slewConverged (ps : Int)
  /-- SLOT_INSTANCE (R98). The first beat of a slot instance arrives; the slot logic transfers one buffer, slips, or discards it with FENCED. -/
  | slotInstance (circ : Nat) (slot : Nat)
  /-- SLIP_LIMIT_REACHED (R102). A circuit slips in SLIP_LIMIT consecutive periods, ending its command with SLIP_LIMIT and reclaiming its tokens. -/
  | slipLimitReached (circ : Nat)
  /-- CREDIT_RETURN (R96). A credit arrives back at a circuit's producer on a credit lane. -/
  | creditReturn (circ : Nat)
  /-- AUDIT_SNAP (R106). A write of HUB_AUDIT_SNAP requests an audit snapshot of the partitions whose bits are set. -/
  | auditSnap (rq : Requester) (w : Nat)
  /-- AUDIT_LATCH (R107). At the next beat that is a multiple of 64, the partition's units latch their counts, and the hub sums them and judges BALANCED. -/
  | auditLatch
  /-- SIMG_LOAD (R68). HUB_SIMG_CTL.LOAD copies an image into the staged copy, validates it and stages its schedule tables. -/
  | simgLoad (rq : Requester)
  /-- SIMG_ABORT (R71). HUB_SIMG_CTL.ABORT aborts a load or a Solstice below PHASE 5, or discards the staged copy at PHASE 2. -/
  | simgAbort (rq : Requester)
  /-- SIMG_PROPOSE (R73). HUB_SIMG_CTL.PROPOSE starts a local Solstice at HUB_SOLSTICE.TARGET for a group of one. -/
  | simgPropose (rq : Requester)
  /-- NOTICE_PROPOSE (R73). A PROPOSE notice from the fabric manager is checked against the staged image and, if accepted, starts quiescing the partitions in SCOPE. -/
  | noticePropose (port : Nat) (n : Notice)
  /-- SOLSTICE_QUIESCED (R73). The partitions in SCOPE become idle, with their audits balanced and their slices written back, and the member sends ACCEPT at PHASE 4. -/
  | solsticeQuiesced
  /-- SOLSTICE_ACCEPT_DEADLINE (R73). At S − 62,500 a member that is not quiesced sends REFUSE with NOT_QUIESCED and resumes ring sampling. -/
  | solsticeAcceptDeadline
  /-- NOTICE_ACCEPT (R377). An ACCEPT notice arrives and is written to the notice ring. -/
  | noticeAccept (port : Nat) (n : Notice)
  /-- NOTICE_REFUSE (R377). A REFUSE notice arrives and is written to the notice ring. -/
  | noticeRefuse (port : Nat) (n : Notice)
  /-- NOTICE_COMMIT (R73). A COMMIT notice from the fabric manager commits the member to the Solstice. -/
  | noticeCommit (port : Nat) (n : Notice)
  /-- NOTICE_ABORT (R74). An ABORT notice at PHASE 3 or 4 returns the member to PHASE 2 and resumes ring sampling. -/
  | noticeAbort (port : Nat) (n : Notice)
  /-- SOLSTICE_CUTOFF (R73). At S − 12,500 the member arms the switch if committed and locked, and otherwise abandons. -/
  | solsticeCutoff
  /-- SOLSTICE_SWITCH (R73). At beat S every unit flips its table banks, and the new image's tables take effect. -/
  | solsticeSwitch
  /-- SOLSTICE_POINTER_STORE (R76). At S + 1 the hold pointer is written, PHASE returns to 0 and the identity registers are updated. -/
  | solsticePointerStore
  /-- RING_POLL (R202). At a ring's poll beat the sampler reads TAIL, DONE and HEAD, checks for overrun and fetches command slots. -/
  | ringPoll (c : Nat)
  /-- COMMAND_START (R210). A fetched command starts once the start-order, WAIT_PREV and barrier rules permit, and counters are latched. -/
  | commandStart (c : Nat)
  /-- NOP (R206). The NOP command completes at its start. -/
  | nop (c : Nat) (seq : Nat)
  /-- QCFG (R207). The QCFG command configures queues all-or-nothing after install checks. -/
  | qcfg (c : Nat) (seq : Nat)
  /-- QFREE (R207). The QFREE command unconfigures queues, discards their tokens and returns their credits. -/
  | qfree (c : Nat) (seq : Nat)
  /-- LAUNCH (R208). The LAUNCH command checks all its install records and installs the descriptors if every one passes. -/
  | launch (c : Nat) (seq : Nat)
  /-- WRITE (R206). The WRITE command writes its payload to ARG0, as a release store if RELEASE is set. -/
  | write (c : Nat) (seq : Nat)
  /-- COPY (R206). The COPY command copies a length of bytes from ARG0 to ARG1 on a hub DMA channel. -/
  | copy (c : Nat) (seq : Nat)
  /-- ORDER (R210). The ORDER command orders earlier commands' accesses before later ones and completes at its start. -/
  | order (c : Nat) (seq : Nat)
  /-- COMPLETE (R210). The COMPLETE command waits until every covered access has completed at its endpoint. -/
  | complete (c : Nat) (seq : Nat)
  /-- WAIT (R206). The WAIT command starts waiting for a 64-bit value to reach its threshold. -/
  | wait (c : Nat) (seq : Nat)
  /-- WAIT_POLL (R206). At a poll beat of the ring, a WAIT makes an acquire read and completes if the value has reached the threshold. -/
  | waitPoll (c : Nat) (seq : Nat)
  /-- TIMESTAMP (R206). The TIMESTAMP command writes fabric time at its start to ARG0. -/
  | timestamp (c : Nat) (seq : Nat)
  /-- ACCESSES_COMPLETED (R293). Every access covered by a pending COMPLETE has completed or received an error, and the COMPLETE returns its status. -/
  | accessesCompleted (c : Nat) (seq : Nat)
  /-- COMMAND_END (R214). A command reaches its end, and the device writes its completion record, advances DONE and sends the MSI. -/
  | commandEnd (c : Nat) (seq : Nat)
  /-- CREATE (R196). HUB_CTX_CTL.CREATE checks a context's ring, limit and configuration and, if they pass, enters RUNNING. -/
  | create (rq : Requester) (c : Nat) (bits : Nat)
  /-- PREEMPT (R215). HUB_CTX_CTL.PREEMPT stops sampling and new firings of a context, which then saves at tile boundaries. -/
  | preempt (rq : Requester) (c : Nat) (bits : Nat)
  /-- ENGINE_SAVE (R215). At its next tile boundary an engine of a pre-empting context saves its banks, position and descriptor into a save slot. -/
  | engineSave (e : Nat)
  /-- PREEMPT_COMPLETE (R215). The last save completes, and the context enters PREEMPTED. -/
  | preemptComplete (c : Nat)
  /-- SAVE_SLOT_COPY_OUT (R217). The token unit copies the earliest-pre-empted context's save slot to its HBM save area and frees the slot. -/
  | saveSlotCopyOut (e : Nat)
  /-- RESUME (R218). HUB_CTX_CTL.RESUME restores a pre-empted context's saves or retries a suspended context's stopped requesters. -/
  | resume (rq : Requester) (c : Nat) (bits : Nat)
  /-- END (R198). HUB_CTX_CTL.END fences a context and completes its incomplete commands with FENCED or PREEMPTED. -/
  | ctxEnd (rq : Requester) (c : Nat) (bits : Nat)
  /-- FENCE_DRAIN_END (R443). A fence's drain ends, when nothing is outstanding or 12,500 beats have passed, and outstanding requests are answered and credits are reclaimed. -/
  | fenceDrainEnd (d : Domain)
  /-- FEEDER_FIRE (R164). A feeder delivers the next step's operands to its engine from a tile present in its bank group. -/
  | feederFire (e : Nat)
  /-- ENGINE_FIRE (R170). An engine descriptor fires once its A and B tokens, optional C token and a free bank are present. -/
  | engineFire (e : Nat)
  /-- ENGINE_STEP (R142). An engine issues one accumulation step on every cell of its bank. -/
  | engineStep (e : Nat)
  /-- DRAIN_FIRE (R151). A completed bank with an output credit drains, converting and histogramming each value. -/
  | drainFire (e : Nat) (b : Nat)
  /-- DRAIN_COMPLETE (R154). At cycle 64 the drained output becomes a token for the consumer. -/
  | drainComplete (e : Nat)
  /-- HISTOGRAM_DELIVERY (R153). After a command's last drain on a core, the core sends its histogram contribution on HIST_CIRCUIT. -/
  | histogramDelivery (k : Nat) (c : Nat) (seq : Nat)
  /-- VECTOR_FIRE (R169). A vector descriptor fires once its IN tokens and OUT credits are present, and runs its program. -/
  | vectorFire (k : Nat)
  /-- VEND (R180). The vector instruction VEND ends the program. -/
  | vend (k : Nat)
  /-- VADD (R180). The vector instruction VADD adds two registers lane by lane. -/
  | vadd (k : Nat)
  /-- VSUB (R180). The vector instruction VSUB subtracts two registers lane by lane. -/
  | vsub (k : Nat)
  /-- VMUL (R180). The vector instruction VMUL multiplies two registers lane by lane. -/
  | vmul (k : Nat)
  /-- VFMA (R180). The vector instruction VFMA performs a fused multiply-add with one rounding. -/
  | vfma (k : Nat)
  /-- VMIN (R180). The vector instruction VMIN takes the minimum lane by lane. -/
  | vmin (k : Nat)
  /-- VMAX (R180). The vector instruction VMAX takes the maximum lane by lane. -/
  | vmax (k : Nat)
  /-- VADDSAT (R180). The vector instruction VADDSAT performs a saturating integer add. -/
  | vaddsat (k : Nat)
  /-- VSHR (R180). The vector instruction VSHR performs an arithmetic right shift. -/
  | vshr (k : Nat)
  /-- VCMPLT (R180). The vector instruction VCMPLT writes a less-than mask. -/
  | vcmplt (k : Nat)
  /-- VCMPEQ (R180). The vector instruction VCMPEQ writes an equality mask. -/
  | vcmpeq (k : Nat)
  /-- VSEL (R180). The vector instruction VSEL selects lanes by mask. -/
  | vsel (k : Nat)
  /-- VCVT (R180). The vector instruction VCVT converts lanes between register types. -/
  | vcvt (k : Nat)
  /-- VRCP (R181). The vector instruction VRCP computes a reciprocal rounded once. -/
  | vrcp (k : Nat)
  /-- VRSQRT (R181). The vector instruction VRSQRT computes a reciprocal square root. -/
  | vrsqrt (k : Nat)
  /-- VEXP2 (R181). The vector instruction VEXP2 computes 2 to the power of each lane. -/
  | vexp2 (k : Nat)
  /-- VLOG2 (R181). The vector instruction VLOG2 computes the base-2 logarithm of each lane. -/
  | vlog2 (k : Nat)
  /-- VREDADD (R181). The vector instruction VREDADD sums all lanes in a fixed tree into lane 0. -/
  | vredadd (k : Nat)
  /-- VREDMAX (R181). The vector instruction VREDMAX reduces the maximum of all lanes into lane 0. -/
  | vredmax (k : Nat)
  /-- VLD (R179). The vector instruction VLD loads 64 elements from a queue slot with conversion. -/
  | vld (k : Nat)
  /-- VLDB (R180). The vector instruction VLDB loads one element and broadcasts it to all lanes. -/
  | vldb (k : Nat)
  /-- VST (R179). The vector instruction VST converts 64 lanes and stores them to an OUT queue slot. -/
  | vst (k : Nat)
  /-- MOVER_FIRE (R176). A tile mover descriptor fires, copying between a queue and a circuit and issuing its memory access. -/
  | moverFire (k : Nat)
  /-- TILE_RESOLVE (R263). A tile reader resolves its tile against the tile table and the memory endpoint of its circuit. -/
  | tileResolve (k : Nat) (entry : Nat) (f : Nat)
  /-- TILE_RESOLVE_RETRY (R264). At the first beat of the circuit's next period, a waiting tile reader resolves its tile again. -/
  | tileResolveRetry (k : Nat) (entry : Nat) (f : Nat)
  /-- TILE_POISONED_READ (R270). A tile reader's data returns poisoned, so it ends with POISONED, marks the entry POISONED and writes a tile notice. -/
  | tilePoisonedRead (k : Nat) (entry : Nat) (f : Nat)
  /-- STAGER_FIRE (R265). A stager claims the tile entry and sends its data to NEXT. -/
  | stagerFire (k : Nat) (entry : Nat) (f : Nat)
  /-- STAGER_FLIP (R265). The stager's COMPLETE returns, and the entry flips to PRESENT at NEXT, or reverts on failure. -/
  | stagerFlip (k : Nat) (entry : Nat) (f : Nat)
  /-- FIRING_COMPLETE (R169). A firing completes, its held IN slots become credits, its held OUT slots become tokens, and it retires after FIRINGS. -/
  | firingComplete (k : Nat) (entry : Nat) (f : Nat)
  /-- CONTRIBUTION_ARRIVE (R101). A contribution reaches a memory-side adder and waits in the reorder buffer until its schedule-order turn. -/
  | contributionArrive (circ : Nat)
  /-- CONTRIBUTION_APPLY (R247). The adder applies the contribution whose turn has come with its ADD_OP and returns its credit with flags. -/
  | contributionApply (ep : Nat)
  /-- SRAM_ENDPOINT_ACCESS (R163). An endpoint access to core SRAM is served in the endpoint bank cycles. -/
  | sramEndpointAccess (rq : Requester) (addr : Nat) (op : MemOp)
  /-- LLM_SCRATCH_ACCESS (R548). An access to an LLM scratch slice is decoded, corrected or poisoned, and recorded. -/
  | llmScratchAccess (rq : Requester) (addr : Nat) (op : MemOp)
  /-- SAVE_CFG_WRITE (R186). A write of CO_SAVE_CFG.SLOTS, ignored if a slot is occupied, a queue would overlap, or the value is out of range. -/
  | saveCfgWrite (rq : Requester) (k : Nat) (v : Nat)
  /-- CPU_LOAD (R315). A CPU core load hits, or on a miss sends RdS or a non-caching read. -/
  | cpuLoad (cpu : Nat) (addr : Nat) (size : Nat) (rd : Nat) (signed : Bool) (fetch : Bool) (nc : Bool)
  /-- CPU_STORE (R315). A CPU core store hits, or sends RdX or Upg. -/
  | cpuStore (cpu : Nat) (addr : Nat) (size : Nat) (value : Nat) (nc : Bool)
  /-- CPU_AMO (R323). A CPU core AMO executes in L1 on a PMA line, or is sent as NCAtom. -/
  | cpuAmo (cpu : Nat) (aop : Nat) (addr : Nat) (size : Nat) (value : Nat) (cmp : Nat) (rd : Nat) (nc : Bool) (aq : Bool) (rl : Bool)
  /-- CPU_LR (R324). A CPU core LR loads and takes a reservation in L1 or at the home or endpoint. -/
  | cpuLr (cpu : Nat) (addr : Nat) (size : Nat) (rd : Nat) (nc : Bool) (aqrl : Bool × Bool)
  /-- CPU_SC (R324). A CPU core SC stores only if its reservation is still present. -/
  | cpuSc (cpu : Nat) (addr : Nat) (size : Nat) (value : Nat) (rd : Nat) (nc : Bool) (aqrl : Bool × Bool)
  /-- CBO_FLUSH (R315). CBO.FLUSH writes back an M or O line with a Put, or silently drops a clean line. -/
  | cboFlush (cpu : Nat) (addr : Nat)
  /-- CBO_CLEAN (R315). CBO.CLEAN acts as CBO.FLUSH. -/
  | cboClean (cpu : Nat) (addr : Nat)
  /-- CBO_INVAL (R315). CBO.INVAL acts as CBO.FLUSH. -/
  | cboInval (cpu : Nat) (addr : Nat)
  /-- CBO_ZERO (R315). CBO.ZERO obtains ownership of a line and zeroes it. -/
  | cboZero (cpu : Nat) (addr : Nat)
  /-- PREFETCH (R315). A prefetch.r, prefetch.i or prefetch.w sends RdS or RdX on a miss. -/
  | prefetch (cpu : Nat) (addr : Nat) (w : Bool)
  /-- FENCE (R281). A RISC-V FENCE orders its predecessor set before its successor set, which acts as ORDER toward package-model observers. -/
  | fence (cpu : Nat) (pred : Nat) (succ : Nat) (tso : Bool)
  /-- FENCE_ORDER (R297). The instruction FENCE.ORDER issues an ORDER over every access of the CPU core. -/
  | fenceOrder (cpu : Nat)
  /-- FENCE_COMPLETE (R297). The instruction FENCE.COMPLETE waits for every covered access and writes the status to rd. -/
  | fenceComplete (cpu : Nat) (rd : Nat)
  /-- XTZFENCE_ILLEGAL (R297). A custom-0 encoding with funct3 0 or 1 that defines no instruction raises an illegal-instruction exception. -/
  | xtzfenceIllegal (cpu : Nat) (word : Nat)
  /-- SFENCE_VMA (R339). The instruction SFENCE.VMA invalidates only the issuing hart's own translations. -/
  | sfenceVma (cpu : Nat)
  /-- RD_S (R317). The home receives RdS and grants S or E from memory, or snoops the owner. -/
  | rdS (m : Msg)
  /-- RD_X (R317). The home receives RdX and grants M after invalidating the other copies. -/
  | rdX (m : Msg)
  /-- UPG (R317). The home receives Upg and grants ownership after invalidating the other holders. -/
  | upg (m : Msg)
  /-- NC_RD (R317). The home receives a non-caching read and serves it from memory or recalls the owner. -/
  | ncRd (m : Msg)
  /-- NC_WR (R317). The home receives a whole-line non-caching write and performs it after invalidating copies. -/
  | ncWr (m : Msg)
  /-- NC_WR_P (R317). The home receives a partial non-caching write and performs it after invalidating copies. -/
  | ncWrP (m : Msg)
  /-- NC_ATOM (R317). The home receives a compare-and-swap, endpoint AMO or adder contribution and performs it. -/
  | ncAtom (m : Msg)
  /-- ZERO_L (R317). The home receives a line's share of a ZERO_LINE and performs it. -/
  | zeroL (m : Msg)
  /-- PUT_M (R317). The home receives PutM and writes the data, or drops it if the sender is not the owner. -/
  | putM (m : Msg)
  /-- PUT_O (R317). The home receives PutO and writes the data, or drops it if the sender is not the owner. -/
  | putO (m : Msg)
  /-- HOME_MEMORY_DATA (R319). Memory data returns to a line in HB_MEM, and the home sends the grant or NCData. -/
  | homeMemoryData (line : Nat)
  /-- RSP_I (R318). The home receives RspI from a snooped agent. -/
  | rspI (m : Msg)
  /-- RSP_S (R318). The home receives RspS, an E owner now in S. -/
  | rspS (m : Msg)
  /-- RSP_V (R318). The home receives RspV, a clean copy with its state unchanged. -/
  | rspV (m : Msg)
  /-- RSP_OD (R318). The home receives RspOD with the owner's data, the owner now in O. -/
  | rspOd (m : Msg)
  /-- RSP_SD (R318). The home receives RspSD with data, the owner now in S. -/
  | rspSd (m : Msg)
  /-- RSP_ID (R318). The home receives RspID with data, the owner now invalid. -/
  | rspId (m : Msg)
  /-- CMP_ACK (R319). The home receives CmpAck, which ends the line's transaction. -/
  | cmpAck (m : Msg)
  /-- SNP_S (R316). An agent receives SnpS and gives up exclusivity. -/
  | snpS (m : Msg)
  /-- SNP_INV (R316). An agent receives SnpInv, invalidates its copy and returns dirty data. -/
  | snpInv (m : Msg)
  /-- SNP_RCL (R316). An agent receives SnpRcl, returns dirty data and keeps a clean copy. -/
  | snpRcl (m : Msg)
  /-- DATA_S (R316). An agent receives DataS, installs the line and sends CmpAck. -/
  | dataS (m : Msg)
  /-- DATA_E (R316). An agent receives DataE, installs the line in E and sends CmpAck. -/
  | dataE (m : Msg)
  /-- DATA_M (R316). An agent receives DataM, installs the line in M and sends CmpAck. -/
  | dataM (m : Msg)
  /-- GNT_M (R316). An agent receives GntM, moves the line to M and sends CmpAck. -/
  | gntM (m : Msg)
  /-- CMP_PUT (R316). An agent receives CmpPut and the evicted line ends in I. -/
  | cmpPut (m : Msg)
  /-- NC_CMP (R313). A non-caching requester receives NCCmp with the status of its write or atomic. -/
  | ncCmp (m : Msg)
  /-- NC_DATA (R313). A non-caching requester receives NCData with read data and poison bits. -/
  | ncData (m : Msg)
  /-- COHERENT_SHARE_BEAT (R232). A beat of a channel's coherent share serves the waiting coherent request of highest rank. -/
  | coherentShareBeat (ch : Nat)
  /-- SCRUB_READ (R228). A controller's scrub reads the next granule and corrects or poisons it. -/
  | scrubRead (ch : Nat)
  /-- MEM_TEMP_SAMPLE (R229). Every 1 ms a controller reads its temperature and chooses the refresh level. -/
  | memTempSample (ch : Nat) (temp : Nat)
  /-- REFRESH_LEVEL_APPLY (R229). A refresh level change takes effect at the next beat that is a multiple of 64. -/
  | refreshLevelApply (ch : Nat)
  /-- REFRESH_FLOOR_WRITE (R231). A write of MEM_REFRESH.FLOOR sets the lowest permitted refresh level, clamped to what temperature requires. -/
  | refreshFloorWrite (rq : Requester) (ch : Nat) (v : Nat)
  /-- LLM_WRITEBACK (R240). A dirty sector in the writeback buffer is written to HBM4 in the coherent share. -/
  | llmWriteback (stack : Nat)
  /-- WAY_DISABLE (R244). An error threshold triggers an LLM way to stop allocating, write back its dirty sectors, invalidate its lines and record itself. -/
  | wayDisable (slice : Nat) (way : Nat) (uncorrectable : Bool) (bad : List Nat)
  /-- WAY_REENABLE (R246). Writing 1 to an LLM_SLICE.DISABLED bit re-enables the way. -/
  | wayReenable (rq : Requester) (slice : Nat) (mask : Nat)
  /-- LLM_ZERO (R241). LLM_ZERO.GO issues ZERO_LINE for each line of its range, in ascending order. -/
  | llmZero (rq : Requester) (die : Nat) (w : Nat)
  /-- TILE_FENCE (R273). HUB_TT_CTL.FENCE waits for earlier tile reader and stager firings, then clears. -/
  | tileFence (rq : Requester) (p : Nat)
  /-- TRANSLATION_MISS (R336). A translation cache miss requests a page-table walk from the hub's walker. -/
  | translationMiss (w : Walk)
  /-- PAGE_WALK (R334). The walker reads the entry at one Sv57 level and continues, or ends with a translation or a fault. -/
  | pageWalk (idx : Nat)
  /-- TLBI (R338). HUB_TLBI.GO drops matching entries from the partition's device translation caches. -/
  | tlbi (rq : Requester) (p : Nat) (w : Nat)
  /-- TLBI_DONE (R338). Every access through a dropped entry has completed, and GO clears. -/
  | tlbiDone (p : Nat)
  /-- FABRIC_FRAME (R357). A port receives a frame, decodes it and accepts or discards its slot or packet content. -/
  | fabricFrame (port : Nat) (f : FrameIn)
  /-- PKT_ACK (R363). The link message PKT_ACK releases packet frames from the retry buffer. -/
  | pktAck (port : Nat) (seq : Nat)
  /-- PKT_RETRY (R363). The link message PKT_RETRY makes the sender resend packet frames from SEQ. -/
  | pktRetry (port : Nat) (seq : Nat)
  /-- PKT_RETRY_TIMEOUT (R363). 2 µs pass without a PKT_ACK, and the sender resends from the oldest unacknowledged frame. -/
  | pktRetryTimeout (port : Nat)
  /-- VC_CREDIT (R362). The link message VC_CREDIT returns packet buffer credits. -/
  | vcCredit (port : Nat) (vc : Nat) (n : Nat)
  /-- CIRCUIT_CREDIT (R358). The link message CIRCUIT_CREDIT returns circuit credits along the reverse path. -/
  | circuitCredit (port : Nat) (circ : Nat) (n : Nat × (Nat × Nat))
  /-- INST_ACK (R358). The link message INST_ACK releases acknowledged instances at the producer. -/
  | instAck (port : Nat) (circ : Nat) (inst : Nat)
  /-- INST_NAK (R358). The link message INST_NAK makes the producer resend from the named instance. -/
  | instNak (port : Nat) (circ : Nat) (inst : Nat)
  /-- INSTANCE_ACK_TIMEOUT (R358). An instance stays unacknowledged for 4 periods, and it and every later instance are resent. -/
  | instanceAckTimeout (circ : Nat)
  /-- PACKET_READ (R361). A READ packet is forwarded, or performed and answered at its destination. -/
  | packetRead (port : Nat) (p : Packet)
  /-- PACKET_WRITE (R361). A WRITE packet is forwarded, or performed and acknowledged at its destination. -/
  | packetWrite (port : Nat) (p : Packet)
  /-- PACKET_ATOMIC (R361). An ATOMIC packet is forwarded, or performed and answered at its destination. -/
  | packetAtomic (port : Nat) (p : Packet)
  /-- PACKET_DATA (R361). A DATA response reaches its requester or is forwarded. -/
  | packetData (port : Nat) (p : Packet)
  /-- PACKET_ACK (R361). An ACK response reaches its requester or is forwarded. -/
  | packetAck (port : Nat) (p : Packet)
  /-- PACKET_ERROR (R361). An ERROR response reaches its requester or is forwarded. -/
  | packetError (port : Nat) (p : Packet)
  /-- NOTICE_LOSS (R377). A LOSS notice arrives and is written to the notice ring. -/
  | noticeLoss (port : Nat) (n : Notice)
  /-- NOTICE_MEMBERSHIP (R375). A MEMBERSHIP notice removes or restores a module in FAB_REMOVED. -/
  | noticeMembership (port : Nat) (n : Notice)
  /-- NOTICE_ABORT_CIRCUITS (R373). An ABORT_CIRCUITS notice ends the commands pending on the named circuit segments with DEAD_ENDPOINT. -/
  | noticeAbortCircuits (port : Nat) (n : Notice)
  /-- NOTICE_RESET (R463). A RESET request resets the named partitions, and a RESET report is written to the notice ring. -/
  | noticeReset (port : Nat) (n : Notice)
  /-- NOTICE_SEND (R378). FAB_NSEND.GO sends a notice to one module, or broadcasts it. -/
  | noticeSend (rq : Requester) (w : Nat)
  /-- RETRAIN (R352). FAB_PORT_CTL.RETRAIN starts training a port from DOWN or MISMATCH. -/
  | retrain (rq : Requester) (port : Nat)
  /-- PORT_DISABLE (R352). A write of FAB_PORT_CTL.DISABLE disables a port, declaring a loss if it was UP, or returns it to DOWN. -/
  | portDisable (rq : Requester) (port : Nat) (on : Bool)
  /-- TRAINING_COMPLETE (R352). Training completes, and the port goes UP or to MISMATCH depending on the neighbour's GROUP_ID. -/
  | trainingComplete (port : Nat) (module : Nat) (nport : Nat) (group : Nat)
  /-- TRAINING_TIMEOUT (R352). Training does not complete within 50 ms, and the port returns to DOWN. -/
  | trainingTimeout (port : Nat)
  /-- PORT_SILENCE_TIMEOUT (R353). 125 beats pass without a good frame, and the port declares a loss. -/
  | portSilenceTimeout (port : Nat)
  /-- PORT_BAD_FRAME_LIMIT (R353). 64 bad frames arrive within 125,000 beats, and the port declares a loss. -/
  | portBadFrameLimit (port : Nat)
  /-- TRAINING_SEQUENCE_RECEIVED (R353). A training sequence from the neighbour on an UP port declares a loss. -/
  | trainingSequenceReceived (port : Nat)
  /-- COHERENT_FLIT (R386). A coherent flit is received on a die link, and accepted in order or retried. -/
  | coherentFlit (link : Nat) (dir : Nat) (f : FlitIn)
  /-- FLIT_RESEND_TIMEOUT (R386). 64 coherent positions pass without ACK advancing, and the sender resends from ACK + 1. -/
  | flitResendTimeout (link : Nat) (dir : Nat)
  /-- TENSOR_INSTANCE_RECEIVE (R387). A die link receives a tensor instance and accepts it whole, or discards it and reports INST_NAK. -/
  | tensorInstanceReceive (link : Nat) (dir : Nat) (circ : Nat) (inst : Nat) (ok : Bool)
  /-- LINK_INST_ACK (R387). An INST_ACK on a die link's credit sub-link releases an instance at the sender. -/
  | linkInstAck (link : Nat) (dir : Nat) (circ : Nat) (inst : Nat)
  /-- LINK_INST_NAK (R387). An INST_NAK on a die link makes the sender resend the instance in the slot's next instance. -/
  | linkInstNak (link : Nat) (dir : Nat) (circ : Nat) (inst : Nat)
  /-- LINK_SILENCE_TIMEOUT (R388). 8 beats pass without a good flit, and the die link declares a loss. -/
  | linkSilenceTimeout (link : Nat) (dir : Nat)
  /-- LINK_RETRY_LIMIT (R388). 32 consecutive retries of one SEQ or instance declare a die link loss. -/
  | linkRetryLimit (link : Nat) (dir : Nat)
  /-- LINK_RESET_INDICATION (R388). A reset indication from the far end declares a die link loss. -/
  | linkResetIndication (link : Nat)
  /-- CLOCK_FAILURE (R381). A clock or PLL-lock failure is detected, which fences a die pair or causes a warm chip reset. -/
  | clockFailure (which : Nat)
  /-- HBM_SELF_REFRESH_CONFIRM (R390). Bn's controllers confirm self-refresh, and HBM_HELD bit n is set. -/
  | hbmSelfRefreshConfirm (n : Nat)
  /-- BAR2_READ (R400). A host BAR2 read is translated through the window and performed as a volatile read. -/
  | bar2Read (off : Nat) (n : Nat)
  /-- BAR2_WRITE (R400). A host BAR2 posted write is performed, poisoning the granules it touches if EP is set. -/
  | bar2Write (off : Nat) (data : List Byte) (ep : Bool)
  /-- BAR0_ACCESS_ERROR (R399). A BAR0 access that is not a naturally aligned 4-byte or 8-byte access is refused and counted. -/
  | bar0AccessError (a : BarAccess)
  /-- HOST_BAR2_WRITE (R401). A write of HOST_BAR2 moves the window, or is refused with BAD_BASE. -/
  | hostBar2Write (rq : Requester) (w : Nat)
  /-- HOST_LINK_DOWN (R404). The PCI Express link leaves DL_Active, a host loss with cause LINK_DOWN. -/
  | hostLinkDown
  /-- PERST (R404). PERST_N or a hot reset resets the endpoint, a host loss with cause RESET. -/
  | perst
  /-- FLR (R404). A Function Level Reset is a host loss with cause FLR. -/
  | flr
  /-- BME_CLEAR (R404). Bus Master Enable is cleared, a host loss with cause BME. -/
  | bmeClear
  /-- D3_ENTRY (R404). Entry to D3hot is a host loss with cause D3. -/
  | d3Entry
  /-- DETACH (R404). HOST_ATTACH.DETACH is a host loss with cause DETACH. -/
  | detach (rq : Requester)
  /-- ATTACH (R406). HOST_ATTACH.ATTACH re-attaches the host if the generation is acknowledged and the link is ready. -/
  | attach (rq : Requester)
  /-- HOST_COMPLETION (R403). A PCI Express completion for a device read of host memory returns. -/
  | hostCompletion (id : Nat) (code : Nat) (data : List Byte)
  /-- HOST_COMPLETION_TIMEOUT (R403). A host read times out, and its command ends with ACCESS_ERROR. -/
  | hostCompletionTimeout (id : Nat)
  /-- ETH_RX_FRAME (R413). An Ethernet frame is received and classified to the time unit, the RDMA engine or a steering queue. -/
  | ethRxFrame (port : Nat) (f : EthFrame)
  /-- RDMA_WRITE (R410). An inbound RDMA WRITE is checked against its window and performed. -/
  | rdmaWrite (port : Nat) (qp : Nat) (tag : Nat × Bool) (rkey : Nat) (va : Nat) (data : List Byte)
  /-- RDMA_READ (R410). An inbound RDMA READ is checked against its window and answered. -/
  | rdmaRead (port : Nat) (qp : Nat) (tag : Nat × Bool) (rkey : Nat) (va : Nat) (n : Nat)
  /-- RDMA_ATOMIC (R409). An inbound 8-byte Compare-and-Swap or Fetch-and-Add is performed at the home or endpoint. -/
  | rdmaAtomic (port : Nat) (qp : Nat) (tag : Nat × Bool) (rkey : Nat) (va : Nat) (cas : Bool) (x : Nat) (cmp : Nat)
  /-- CONGESTION_NOTIFICATION (R409). A congestion notification packet reduces the queue pair's rate. -/
  | congestionNotification (port : Nat) (qp : Nat)
  /-- RDMA_ACK (R411). A peer's acknowledgement returns the credit of a kind 0x6 circuit token. -/
  | rdmaAck (circ : Nat)
  /-- QP_RETRY_EXHAUSTED (R411). A queue pair exhausts its retries, which ends the pending command with DEAD_ENDPOINT. -/
  | qpRetryExhausted (circ : Nat)
  /-- NVMEOF_COMPLETION (R412). An NVMe over Fabrics read completes, or fails only its firmware request. -/
  | nvmeofCompletion (addr : Nat) (data : List Byte) (ok : Bool)
  /-- RWIN_CTL_WRITE (R410). A write of ETH_RWIN_CTL applies to later requests, with BUSY until earlier ones are performed. -/
  | rwinCtlWrite (rq : Requester) (win : Nat) (w : Nat)
  /-- TXQ_TAIL_WRITE (R414). A transmit TAIL write posts descriptors, and their frames are sent in order. -/
  | txqTailWrite (rq : Requester) (port : Nat) (q : Nat) (tail : Nat)
  /-- CAP_LOOP_SAMPLE (R424). The 100 µs cap loop sample adjusts clocks, duty and CPU clock to keep input power within limits. -/
  | capLoopSample (m : Nat) (mv : Nat)
  /-- ACTIVITY_UPDATE (R430). The 1 µs activity limiter update holds E to the budget and applies filler and the ramps. -/
  | activityUpdate (ests : List Nat) (fixed : Nat)
  /-- THERMAL_SAMPLE (R427). The 10 µs thermal sample sets each die's thermal level and adjusts its clock and duty. -/
  | thermalSample (ts : List Nat)
  /-- THERMAL_TRIP (R428). A junction reading of 125 °C asserts THERMTRIP_N and shuts down the main regulators. -/
  | thermalTrip
  /-- COOLANT_SAMPLE (R420). The 1 ms inlet reading sets RATING. -/
  | coolantSample (t : Nat)
  /-- BOOST_UPDATE (R438). Every 100 µs, a tensor die with headroom raises its clock by 50 MHz, or lowers it when headroom is lost. -/
  | boostUpdate
  /-- DROOP_DETECT (R426). A supply detector falls below its threshold, and the die stretches its clock. -/
  | droopDetect (d : Nat)
  /-- DROOP_RECOVER (R426). The supply stays 10 mV above its threshold for 16 cycles, and stretching ends. -/
  | droopRecover (d : Nat)
  /-- DROOP_LONG (R426). Stretching beyond 2 µs lowers the die's duty by 8 for 100 µs. -/
  | droopLong (d : Nat)
  /-- INPUT_RANGE_TIMEOUT (R419). The input lies outside 46 to 58 V for 100 µs, which sets PWR_FAULT.INPUT_RANGE. -/
  | inputRangeTimeout
  /-- CAP_WRITE (R423). A write of PWR_CAP.SW_W is rejected if out of range, or marked PENDING until its boundary. -/
  | capWrite (rq : Requester) (v : Nat)
  /-- PLDM_TRAY_CAP (R422). A PLDM request from the tray controller sets TRAY_W. -/
  | pldmTrayCap (v : Nat)
  /-- CAP_APPLY (R423). A pending cap value takes effect at the first boundary of every schedule period in force. -/
  | capApply
  /-- POWER_MODE_WRITE (R439). A write of PWR_MODE changing EQUINOX, EQX_MHZ or BOOST_EN waits for its boundary, or is ignored if out of range. -/
  | powerModeWrite (rq : Requester) (w : Nat)
  /-- POWER_MODE_APPLY (R439). A pending PWR_MODE change takes effect at its boundary beat. -/
  | powerModeApply
  /-- RAMP_WRITE (R437). A write of PWR_RAMP or FILLER_EN takes effect at the next limiter update. -/
  | rampWrite (rq : Requester) (filler : Bool) (w : Nat)
  /-- POWER_MODEL_CLEAR (R432). Writing 1 to PWR_FAULT.POWER_MODEL ends the fallback and resets GAIN. -/
  | powerModelClear (rq : Requester)
  /-- ENGINE_HANG (R449). An engine makes no progress for 2^20 counted cycles, and a hang is declared and recovery begins. -/
  | engineHang (e : Nat)
  /-- HANG_RESET (R465). EN_HANG.RESET requests an engine recovery as if a hang were declared. -/
  | hangReset (rq : Requester) (e : Nat)
  /-- REPLAY (R451). HUB_RECOV_CTL.REPLAY begins replay while the recovery is AWAITING. -/
  | replay (rq : Requester) (p : Nat)
  /-- SUSPECT_REPLAY_COMPLETE (R452). A suspect's replay set completes, so it is innocent and replay moves on. -/
  | suspectReplayComplete (p : Nat)
  /-- PARTITION_RESET (R454). HUB_PART_RESET.RESET fences and resets a partition and rebuilds its circuits. -/
  | partitionReset (rq : Requester) (p : Nat)
  /-- CONTEXT_END_TIMEOUT (R460). An END does not reach FREE within 5 ms, which escalates to a partition reset. -/
  | contextEndTimeout (c : Nat)
  /-- RECOVERY_TIMEOUT (R460). An engine recovery exceeds 20 ms, which escalates to a partition reset. -/
  | recoveryTimeout (p : Nat)
  /-- PARTITION_RESET_TIMEOUT (R460). A partition reset exceeds 250 ms, which escalates to a warm chip reset. -/
  | partitionResetTimeout (p : Nat)
  /-- CHIP_RESET_TIMEOUT (R460). A warm chip reset exceeds 4 s, and the hub requests a power cycle. -/
  | chipResetTimeout
  /-- CHIP_RESET_ARM (R456). A write of 1 to HUB_CHIP_RESET.ARM arms GO for 125,000 beats. -/
  | chipResetArm (rq : Requester)
  /-- CHIP_RESET_ARM_EXPIRY (R456). 125,000 beats after the write, ARM clears. -/
  | chipResetArmExpiry
  /-- CHIP_RESET_GO (R457). HUB_CHIP_RESET.GO while armed starts a warm chip reset. -/
  | chipResetGo (rq : Requester)
  /-- RESET_N_ASSERT (R539). RESET_N held low for at least 1 µs requests a warm chip reset with reason SIDEBAND. -/
  | resetNAssert
  /-- RESET_N_RELEASE (R539). RESET_N is released, which lets the start proceed past stage ROM. -/
  | resetNRelease
  /-- POWER_GOOD (R543). PWRGD rises after power-up, and a cold start begins. -/
  | powerGood
  /-- INPUT_RISE (R543). The input rises through 44 V, and soft-start and regulator sequencing begin. -/
  | inputRise
  /-- INPUT_UNDERVOLTAGE (R541). The input falls below 42 V, the main regulators turn off and memory is lost. -/
  | inputUndervoltage
  /-- INPUT_OVERVOLTAGE (R541). The input exceeds 60 V, and every regulator shuts down and latches off. -/
  | inputOvervoltage
  /-- REGULATOR_FAIL (R543). A main regulator leaves regulation, every main regulator shuts down and ALERT_N is asserted. -/
  | regulatorFail
  /-- STAGE_ROM (R466). Start stage ROM selects the OTP generation, applies repair, checks clocks and brings up the endpoint and sideband. -/
  | stageRom (ref : Bool)
  /-- STAGE_HOLD (R466). Start stage HOLD trains LPDDR6 channel 0. -/
  | stageHold (ok : Bool)
  /-- STAGE_FIRMWARE (R466). Start stage FIRMWARE fetches or verifies the firmware. -/
  | stageFirmware
  /-- STAGE_IMAGE (R466). Start stage IMAGE fetches or re-checks the images with checks 0x01 to 0x07. -/
  | stageImage
  /-- STAGE_LINKS (R466). Start stage LINKS runs lane self-test and revision checks, and fences die pairs. -/
  | stageLinks (fails : List Lane) (dies : List DieRev)
  /-- STAGE_VALIDATE (R466). Start stage VALIDATE runs checks 0x08 to 0x14. -/
  | stageValidate
  /-- STAGE_MEMORY (R466). Start stage MEMORY trains the remaining memory channels and zeroes them on a cold start. -/
  | stageMemory (ok : Bool)
  /-- STAGE_PORTS (R466). Start stage PORTS sets RETRAIN on the fabric ports and brings up Ethernet. -/
  | stagePorts (eth : Nat)
  /-- STAGE_UP (R474). Start stage UP makes the image take effect, clears START_COUNT and writes a boot log record. -/
  | stageUp
  /-- STAGE_TIMEOUT (R478). The hardware start timer expires on a stage, and the start fails with TIMEOUT. -/
  | stageTimeout
  /-- FETCH_SOURCE_TIMEOUT (R468). A boot source delivers no whole object within FETCH_S, and the next source is tried. -/
  | fetchSourceTimeout
  /-- PLDM_COMPONENT (R468). The tray controller delivers a firmware or image component over PLDM for Firmware Update. -/
  | pldmComponent (comp : Nat) (data : List Byte)
  /-- FETCH_FIRMWARE (R469). HUB_BOOT_CTL.FETCH with OBJECT 1 fetches and verifies firmware into the free firmware copy. -/
  | fetchFirmware (rq : Requester) (len : Nat)
  /-- FETCH_IMAGE (R469). HUB_BOOT_CTL.FETCH with OBJECT 2 fetches a full image into the image hold at boot or in Winter mode. -/
  | fetchImage (rq : Requester) (len : Nat)
  /-- FETCH_NEXT_IMAGE (R470). HUB_BOOT_CTL.FETCH with OBJECT 3 places or discards the pending next image. -/
  | fetchNextImage (rq : Requester) (len : Nat)
  /-- LEAVE_WINTER (R482). HUB_BOOT_CTL.LEAVE_WINTER clears START_COUNT and begins a warm start with reason WINTER_EXIT. -/
  | leaveWinter (rq : Requester)
  /-- OTP_PROGRAM (R488). SEC_OTP_PROG.GO checks an OTP update container and programs a new generation. -/
  | otpProgram (rq : Requester) (w : Nat)
  /-- SPDM_NEGOTIATE (R491). An SPDM version, capabilities or algorithms request is answered. -/
  | spdmNegotiate (what : Nat) (version : Nat)
  /-- SPDM_CHALLENGE (R491). An SPDM CHALLENGE is answered with a signature by the device identity key. -/
  | spdmChallenge (nonce : List Byte)
  /-- SPDM_GET_MEASUREMENTS (R494). An SPDM GET_MEASUREMENTS is answered with values taken at one beat. -/
  | spdmGetMeasurements (idx : Nat) (nonce : List Byte) (signed : Bool)
  /-- PLDM_REQUEST (R538). A PLDM monitoring or control request over MCTP on I3C is answered. -/
  | pldmRequest (what : Nat)
  /-- CNT_SEL_WRITE (R498). A counter selector write is recorded, to take effect at the next command start or 64-beat boundary. -/
  | cntSelWrite (rq : Requester) (kind : Nat) (unit : Nat) (idx : Nat) (w : Nat)
  /-- HUB_CNT_SEL_APPLY (R498). A hub selector write takes effect at the next beat that is a multiple of 64, and resets VALUE. -/
  | hubCntSelApply
  /-- SAMPLE_TICK (R502). At each sample beat the hub latches counters and writes sample records to the sample ring. -/
  | sampleTick
  /-- DUMP (R509). DBG_DUMP_CTL.GO reads every register of the selected blocks over the debug ring into DEST. -/
  | dump (rq : Requester) (w : Nat)
  /-- REGISTER_READ_TIMEOUT (R508). A debug ring register read receives no answer within 10 µs and completes with an error. -/
  | registerReadTimeout (off : Nat)
  /-- TRACE_FRAME_FLUSH (R512). 1 µs after its first packet, a partial trace frame is sent. -/
  | traceFrameFlush
  /-- TRACE_LINK_DOWN (R515). The trace link goes down, and lossless mode holds nothing while packets drop. -/
  | traceLinkDown
  /-- REGISTER_WRITE (R14). A write to a register with no row of its own stores RW fields and clears W1C and ST bits written with 1. -/
  | registerWrite (rq : Requester) (off : Nat) (size : Nat) (value : Nat)
  /-- HOST_LINK_UP (R406). The PCI Express link reaches DL_Active again, setting HOST_STATUS.DL_ACTIVE so that ATTACH can succeed. -/
  | hostLinkUp (speed : Nat) (width : Nat)
  /-- ETH_LINK_UP (R408). An Ethernet port completes auto-negotiation and link training and sets ETH_STATUS.LINK_UP. -/
  | ethLinkUp (port : Nat)
  /-- ETH_LINK_DOWN (R408). An Ethernet port's link drops and ETH_STATUS.LINK_UP clears. -/
  | ethLinkDown (port : Nat)
  /-- TRACE_LINK_UP (R515). The trace port's link comes up, TRC_STATUS.LINK_UP sets and lossless mode may hold producers again. -/
  | traceLinkUp
  /-- INPUT_BELOW_10V (R544). The 52 V input falls below 10 V, the housekeeping supply and trip latch discharge, and the THERMTRIP_N and overvoltage latches release. -/
  | inputBelow10v
  /-- OTP_PROGRAMMING_COMPLETE (R488). OTP programming and its verify read end, PROG_RESULT is written and PROGRAMMING and GO clear. -/
  | otpProgrammingComplete (ok : Bool)
  /-- SIMG_LOAD_COMPLETE (R68). The security processor finishes copying and validating a runtime load, and sets PHASE 2 and STAGED_VALID or records the rejection. -/
  | simgLoadComplete
  /-- FETCH_COMPLETE (R469). A HUB_BOOT_CTL fetch finishes verifying its object, writes RESULT and clears FETCH. -/
  | fetchComplete
  /-- DUMP_COMPLETE (R509). A dump's last register is recorded, the end-beat header word is written and STATE becomes DONE or TRUNCATED while GO clears. -/
  | dumpComplete
  /-- CPU_INTERRUPT (R296). An interrupt arrives at a CPU core, for example during FENCE.COMPLETE, which then does not retire and runs again after the handler. -/
  | cpuInterrupt (cpu : Nat)
  deriving DecidableEq, Repr

end Sys2Proof
end

