-- ==== Sys2Proof/Decode.lean ====
section
/-! DEFINITION. The command that a word spells. No row of the opcode table gives its command any bits: the block takes its commands as such
(a register access, a message, an event), so no word spells one. -/

namespace Sys2Proof

/-- The command of nbits bits w, numbered as the opcode table numbers them: none, for no row gives bits (DESIGN CHOICE, log 4). -/
def decodeTableWord (_nbits _w : Nat) : Option Instr := none

end Sys2Proof
end

