-- ==== Sys2Proof/Config.lean ====
section
/-! DEFINITION. What the spec leaves open: values that nothing constrains. None has a body, so no proof can see one. Each is
applied to the counter State.freeCtr, or to the operands it depends on (assumption log 3). -/

namespace Sys2Proof.Config

/-- A free 64-bit value, by the count of free values taken so far. -/
opaque freeWord : Nat → BitVec 64

/-- A free byte, by the count of free values taken so far. -/
opaque freeByte : Nat → BitVec 8

/-- Whether something that may happen happens, by the count of free values taken so far. -/
opaque freeBool : Nat → Bool

/-- A byte of memory whose contents were lost, by the number of the loss and the address. -/
opaque lostByte : Nat → Nat → BitVec 8

/-- Check bytes of a granule whose contents were lost, XORed with those of its data, by the number of the loss and the address. -/
opaque lostSyn : Nat → Nat → BitVec 32

/-- The public key of the device identity key pair (R492): the same at every start of the module. -/
opaque deviceKey : BitVec 256

/-- A signature by the device identity key over a message (R491). -/
opaque deviceSignature : List (BitVec 8) → List (BitVec 8)

/-- SHA-512 of the boot ROM (R493), whose contents the spec does not give. -/
opaque romDigest : List (BitVec 8)

end Sys2Proof.Config
end

