-- ==== Sys2Proof/Machine/State.lean ====
section
/-! DEFINITION. The state of the block: plain data, holding every piece of state the spec gives it, and its value right after
power-up. Fault and Refusal are the ways in which a step can stop. -/

namespace Sys2Proof.Machine

/-- An event (R503): code, unit kind (0 engine, 1 core, 2 cluster), unit, context (none: NO_CONTEXT), ids, sequence number, DATA. -/
structure EvRec where
  beat : Nat
  code : Nat
  kind : Nat
  unit : Nat
  ctx : Option Nat
  layer : Nat
  op : Nat
  seq : Nat
  data : Nat
  deriving DecidableEq, Repr

/-- A trace packet (R513): a record with its class and subtype, its unit kind numbered as UNIT_KIND of R62. -/
structure TracePkt where
  rec1 : EvRec
  cls : Nat
  sub : Nat
  deriving DecidableEq, Repr

/-- What the block sends out of the module (host interface), oldest first. -/
inductive Out where
  /-- an MSI: a write of an identity to an interrupt file (R220) -/
  | msi (file identity : Nat)
  /-- a posted write to host memory (R44) -/
  | hostWrite (addr : Nat) (data : List Byte)
  /-- a read of host memory, with its tag -/
  | hostRead (id addr len : Nat)
  /-- a buffer sent in a slot of a fabric port, Ethernet MAC or the PCI Express endpoint: circuit and token -/
  | slotData (circ ep : Nat) (tok : Token)
  /-- a frame of a fabric port (R349, R352): its 896 bytes, and what goes with it -/
  | frame (port : Nat) (bytes : List Byte) (note : FrameNote)
  /-- what a port sends as training begins: MODULE_ID, port number, GROUP_ID and SCHED_GENERATION (R352) -/
  | training (port module group generation : Nat)
  /-- the answer to an endpoint access: requester's unit, address, status, data -/
  | endpointAnswer (unit addr status : Nat) (data : List Byte)
  /-- a PTP Delay_Req that an Ethernet port sends, with its sequence (R82) -/
  | ptpDelayReq (port seq : Nat)
  /-- an acknowledgement to an RDMA peer, or a NAK: 0 acknowledged, 1 remote access error, 2 remote operational error -/
  | rdmaAck (port qp tag code : Nat)
  /-- a congestion notification packet, sent on a queue pair for a packet that came marked (R409) -/
  | congestion (port qp : Nat)
  /-- an RDMA WRITE of a circuit's token to A + off, where A is the remote address bound to the circuit's queue pair (R411) -/
  | rdmaToken (circ off : Nat) (data : List Byte)
  /-- data of an RDMA read or atomic, from device address addr on -/
  | rdmaData (port qp tag addr : Nat) (data : List Byte)
  /-- a completion of a host read: 0 successful, 1 Unsupported Request, 2 Completer Abort, 3 successful with EP set -/
  | hostAnswer (code : Nat) (data : List Byte)
  /-- an MSI-X message to the host (R402) -/
  | msix (vector addr data : Nat)
  /-- a frame that an Ethernet port sends, and whether its L4 checksum is inserted (R414) -/
  | ethFrame (port : Nat) (data : List Byte) (csum : Bool)
  /-- an NVMe over Fabrics request of the firmware has ended (R412) -/
  | nvme (ok : Bool)
  /-- a trace frame (R512): FRAME_SEQ, low 32 bits of DROPS, packets -/
  | traceFrame (seq drops : Nat) (packets : List TracePkt)
  /-- a PLDM sensor event (R432, R461): 0 power model, 1 power-cycle request -/
  | pldmEvent (kind : Nat)
  /-- a PLDM answer (R538): completion code and value -/
  | pldm (code value : Nat)
  /-- the boot log, read through PLDM (R479) -/
  | bootLog (records : List Byte)
  /-- an SPDM answer (R491): its code, and what it carries -/
  | spdm (code : Nat) (data signature : List Byte)
  /-- coherent flits that a die link sends again (R386): link, end, SEQ and VC of each -/
  | flits (link dir : Nat) (l : List (Nat × Nat))
  /-- an acknowledgement on a die link's credit sub-link (R387): link, receiving end, whether good, circuit, INST -/
  | instVerdict (link dir : Nat) (ok : Bool) (circ inst : Nat)
  /-- the order of self-refresh to a base die's HBM4 controllers (R390) -/
  | selfRefresh (pair : Nat)
  deriving DecidableEq, Repr

/-- The slave-only PTP clock (R82), stamps in ps of the PTP scale: a two-step Sync that waits for its Follow_Up (sequence, arrival), the last Sync's
departure and arrival, the Delay_Req in flight (sequence, departure), the path delay, and the next Delay_Req's sequence. -/
structure Ptp where
  waiting : Option (Nat × Int)
  last : Option (Int × Int)
  asked : Option (Nat × Int)
  delay : Option Int
  seq : Nat
  deriving DecidableEq, Repr

def Ptp.init : Ptp := ⟨none, none, none, none, 0⟩

/-- Fabric time (R80 to R86): the beat count; the phase error in units of 0.04 ps, of which a beat slews two; beats in a row with an
error within 1 ns; the value last loaded at an epoch pulse; the beat at which HOLDOVER began; and whether the source's
time has been measured since it was selected or lost (DEDUCED, log 13) (DESIGN CHOICE, log 59). -/
structure TimeBase where
  ft : Nat
  phase : Int
  good : Nat
  loaded : Option Nat
  since : Nat
  present : Bool
  /-- the PTP clock (R82) -/
  ptp : Ptp
  deriving DecidableEq, Repr

/-- A Solstice in progress (R73): its beat S, whether it is local, whether COMMIT came, and the beat of the proposal's receipt. -/
structure Solstice where
  s : Nat
  sole : Bool
  committed : Bool
  receipt : Nat
  deriving DecidableEq, Repr

/-- The structure image (chapter 02): the tables in force, parsed; the staged and the pending next image; the image hold with each
copy's recorded length (R55, R76); and the Solstice in progress (DESIGN CHOICE, log 56). -/
structure ImgState where
  full : Option Image
  update : Option Image
  staged : Option Image
  /-- sections in force, with ignored ROUTES and WINDOWS entries removed (R365) -/
  tables : List Section
  holdFull : Option (List Byte × Nat)
  holdUpdate : Option (List Byte × Nat)
  holdStaged : Option (List Byte × Nat)
  holdNext : Option (List Byte × Nat)
  solstice : Option Solstice
  deriving DecidableEq, Repr

/-- A fence in progress (R443): its domain and beat F, and the status that its commands end with. -/
structure Fence where
  dom : Domain
  beat : Nat
  status : Nat
  deriving DecidableEq, Repr

/-- The trace port (R512 to R515): packets waiting in the 1 MiB buffer, the beat of the first of them, the next frame's
sequence number, and whether producers are held; and one more than the beat of the last periodic sample (R502). -/
structure Trace where
  buf : List TracePkt
  first : Nat
  seq : Nat
  holding : Bool
  sampled : Nat
  deriving DecidableEq, Repr

/-- The state of the block. -/
structure State where
  /-- commands waiting, first in first out -/
  pending : List Instr
  out : List Out
  /-- free values taken so far: the model's own counter -/
  freeCtr : Nat
  time : TimeBase
  regs : List (Nat × Word)
  mem : List Host.Cell
  chk : List (Nat × BitVec 32)
  /-- ranges of addresses whose contents a reset or a Solstice lost, latest first: first address, address past the last, and the
  number of the loss -/
  lost : List (Nat × Nat × Nat)
  img : ImgState
  circs : List (Nat × Circ)
  contribs : List Contribution
  retired : List (Nat × (Nat × Nat))
  queues : List (Nat × Queue)
  entries : List (Nat × Option Entry)
  firings : List Firing
  reverts : List Revert
  /-- per core: bytes that its tile mover's ingress buffer holds at most (R183) -/
  ingress : List (Nat × Nat)
  vec : List (Nat × Option VecRun)
  vregs : List (Nat × BitVec 32)
  masks : List (Nat × Word)
  engines : List (Nat × Engine)
  cells : List (Nat × BitVec 32)
  ctxs : List (Nat × Ctx)
  memctl : List (Nat × MemCtl)
  ways : List (Nat × Way)
  /-- work that waits for the coherent share: writebacks and fills of the LLM cache, oldest first (R232, R240) -/
  wbuf : List CacheJob
  /-- pseudo-LRU trees of the LLM cache, by slice × 1,024 + set (R240) -/
  plru : List (Nat × Nat)
  /-- granules whose single-byte error a correction write is still to mend (R226) -/
  corrections : List Nat
  /-- requests that have arrived at the memory controllers so far: the order of R232 -/
  arrivals : Nat
  health : List (Nat × WayHealth)
  /-- slices whose mode the Solstice in progress changes: they take no new line (R73) -/
  closing : Nat
  agents : List (Nat × Line)
  homes : List (Nat × HomeLine)
  net : List Msg
  cpus : List (Nat × Cpu)
  cpuRegs : List (Nat × Word)
  stalls : List Stall
  resvs : List Resv
  tlbs : List Tlb
  nonLeaf : List NonLeaf
  walks : List Walk
  /-- partition that the walker served last (R336) -/
  walkTurn : Nat
  /-- by partition, while GO is 1: physical ranges of the entries that its invalidation dropped, and the first id of accesses issued since (R338) -/
  tlbWait : List (Nat × (List (Nat × Nat) × Nat))
  opens : List OpenAccess
  nextId : Nat
  /-- records that wait to be written to their rings -/
  ringQ : List RingRec
  ports : List (Nat × Port)
  segs : List (Nat × Segment)
  /-- highest route epoch seen from each module (R366) -/
  epochs : List (Nat × Nat)
  /-- issuers and modules whose later requests are answered with an error until the issuer's next COMPLETE (R367) -/
  broken : List ((Nat × Nat) × Nat)
  fences : List Fence
  /-- issue duty of each tensor die (R417) -/
  duty : List (Nat × Nat)
  /-- counter selectors in force (R498), and cores and clusters whose written selectors wait for a command start -/
  sels : List (Nat × Nat)
  selPend : List Nat
  /-- counters that stuck with OVF_EVENT set, whose COUNTER_OVF event is due (R499): kind, unit, counter -/
  ovfs : List (Nat × (Nat × Nat))
  trc : Trace
  /-- Bus Master Enable of the endpoint (R404, R406) -/
  bme : Bool
  /-- rate of each queue pair, by port and number, after congestion notifications (R409); unlisted: the full rate -/
  qpRates : List (Nat × Nat)
  /-- per cluster: beat of the last event MSI, and whether a record waits for the next (R507) -/
  evtMsi : List (Nat × (Nat × Bool))
  /-- engine recoveries, by partition (R450 to R452) -/
  recovs : List (Nat × Recov)
  /-- beats of each engine's recoveries within the last second (R460) -/
  hangBeats : List (Nat × List Nat)
  /-- per engine: counted cycles in a row since its last progress during which a condition of R449 held, at most 2^20 -/
  hangRuns : List (Nat × Nat)
  boot : Boot
  elec : Elec
  /-- die links, by 2 × number + end: end 0 sends with DIR 0 -/
  dlinks : List (Nat × DieLink)
  diePwr : List (Nat × DiePwr)
  pwr : Pwr
  dump : Option Dump
  deriving DecidableEq, Repr

/-- Ways in which a step stops with a fault: none is needed. Safe: an empty type cannot hide an effect. -/
inductive Fault where
  /-- never raised: every command of the block answers a next state -/
  | none
  deriving DecidableEq, Repr

/-- Ways in which a step is refused. -/
inductive Refusal where
  /-- raised by exec for a command that has no meaning yet; safe -/
  | notModelled (mnemonic : String)
  deriving DecidableEq, Repr

def TimeBase.init : TimeBase := ⟨0, 0, 0, none, 0, false, Ptp.init⟩

def ImgState.init : ImgState := ⟨none, none, none, [], none, none, none, none, none⟩

/-- The block right after power-good, before start stage ROM (DESIGN CHOICE, log 2). -/
def State.reset : State :=
  { pending := [], out := [], freeCtr := 0, time := TimeBase.init, regs := [], mem := [], chk := [], lost := [], img := ImgState.init,
    circs := [], contribs := [], retired := [], queues := [], entries := [], firings := [], reverts := [], ingress := [], vec := [], vregs := [], masks := [],
    engines := [], cells := [], ctxs := [], memctl := [], ways := [], wbuf := [], plru := [], corrections := [], arrivals := 0, health := [], closing := 0, agents := [], homes := [],
    net := [], cpus := [], cpuRegs := [], stalls := [], resvs := [], tlbs := [], nonLeaf := [], walks := [], walkTurn := 0, tlbWait := [], opens := [], nextId := 0, ringQ := [], ports := [],
    segs := [], epochs := [], broken := [],
    fences := [], duty := [], bme := false, qpRates := [], sels := [], selPend := [], ovfs := [], trc := ⟨[], 0, 0, false, 0⟩, evtMsi := [],
    recovs := [], hangBeats := [], hangRuns := [], boot := Boot.init, elec := Elec.init, dlinks := [], diePwr := [], pwr := Pwr.init, dump := none }

end Sys2Proof.Machine
end

