-- ==== Sys2Proof/Machine/Ops.lean ====
section
/-! DEFINITION. Named operations over the state: registers and their fields, free values, events and trace packets, MSIs, the
error codes of memory, the right to reach an address, and reads and writes of bytes. -/

namespace Sys2Proof.Machine

/-! ## Registers -/

/-- Key of instance i of a register in the register store. -/
def regKey (r : Reg) (i : Nat) : Nat := r.num * 2 ^ 20 + i

/-- Bundles per direction of die link l (R382), the reset value of HUB_LINK_STATUS.BUNDLES. -/
def linkBundles (l : Nat) : Nat :=
  if l = 0 then 8 else if l ≤ 4 then 20 else if l ≤ 8 then 8 else if l ≤ 12 then 16 else 132

/-- HUB_DIE_ID.KIND of die d (R525): hub, CPU, tensor dies, base dies. -/
def dieKind (d : Nat) : Nat := if d = 0 then 1 else if d = 1 then 2 else if d ≤ 5 then 3 else 4

/-- The whole reset value of a register (R519), from its field map; HUB_DIE_ID and HUB_LINK_STATUS differ by instance. -/
def Reg.resetWord (r : Reg) (i : Nat) : Word :=
  let base := (r.fields.map (fun f => f.rst * 2 ^ f.lo)).sum
  BitVec.ofNat 64 (match r with
    | .HUB_DIE_ID => base + dieKind i * 2 ^ 24
    | .HUB_LINK_STATUS => base + linkBundles i * 2 ^ 32
    | _ => base)

/-- Register of a number. -/
def Reg.ofNum (n : Nat) : Reg := (Reg.all.find? (fun r => r.num == n)).getD .HUB_DIE_ID

/-- What an unlisted key of the register store reads as. -/
def regDefault (key : Nat) : Word := (Reg.ofNum (key / 2 ^ 20)).resetWord (key % 2 ^ 20)

/-- The stored word of a register. -/
def State.reg (s : State) (r : Reg) (i : Nat) : Word := Store.get regDefault s.regs (regKey r i)

def State.setReg (s : State) (r : Reg) (i : Nat) (w : Word) : State :=
  { s with regs := Store.set regDefault s.regs (regKey r i) w }

/-- Bits lo to lo + width - 1 of a number. -/
def getBits (w lo width : Nat) : Nat := w / 2 ^ lo % 2 ^ width

/-- A number with bits lo to lo + width - 1 replaced. -/
def putBits (w lo width v : Nat) : Nat := w / 2 ^ (lo + width) * 2 ^ (lo + width) + v % 2 ^ width * 2 ^ lo + w % 2 ^ lo

/-- A field of instance i. -/
def State.fld (s : State) (f : Field) (i : Nat := 0) : Nat := getBits (s.reg f.reg i).toNat f.lo f.width

def State.setFld (s : State) (f : Field) (i : Nat) (v : Nat) : State :=
  s.setReg f.reg i (BitVec.ofNat 64 (putBits (s.reg f.reg i).toNat f.lo f.width v))

/-- A one-bit field reads 1. -/
def State.flag (s : State) (f : Field) (i : Nat := 0) : Bool := s.fld f i == 1

/-- Sets a bit (an ST, W1C or status bit). -/
def State.raise (s : State) (f : Field) (i : Nat := 0) : State := s.setFld f i 1

/-- Adds n to a counting field, which sticks at its greatest value. -/
def State.bump (s : State) (f : Field) (i : Nat) (n : Nat := 1) : State :=
  s.setFld f i (min (2 ^ f.width - 1) (s.fld f i + n))

/-- Fabric time. -/
def State.ft (s : State) : Nat := s.time.ft

/-! ## Free values -/

/-- A free 64-bit value, each different taking a place of its own. -/
def State.free (s : State) : Nat := (Config.freeWord s.freeCtr).toNat

def State.freeBit (s : State) : Bool := Config.freeBool s.freeCtr

def State.spend (s : State) : State := { s with freeCtr := s.freeCtr + 1 }

/-- n free bytes. -/
def freeBytes (start : Nat) : Nat → List Byte
  | 0 => []
  | n + 1 => Config.freeByte start :: freeBytes (start + 1) n

def State.spendN (s : State) (n : Nat) : State := { s with freeCtr := s.freeCtr + n }

/-! ## Tables by key -/


def State.circ (s : State) (c : Nat) : Circ := Store.get (fun _ => Circ.init) s.circs c
def State.setCirc (s : State) (c : Nat) (v : Circ) : State :=
  { s with circs := Store.set (fun _ => Circ.init) s.circs c v }
def State.queue (s : State) (k q : Nat) : Queue := Store.get (fun _ => Queue.none) s.queues (k * 64 + q)
def State.setQueue (s : State) (k q : Nat) (v : Queue) : State :=
  { s with queues := Store.set (fun _ => Queue.none) s.queues (k * 64 + q) v }
def State.entry (s : State) (k e : Nat) : Option Entry := Store.get (fun _ => none) s.entries (k * 64 + e)
def State.setEntry (s : State) (k e : Nat) (v : Option Entry) : State :=
  { s with entries := Store.set (fun _ => none) s.entries (k * 64 + e) v }
def State.vecRun (s : State) (k : Nat) : Option VecRun := Store.get (fun _ => none) s.vec k
def State.setVecRun (s : State) (k : Nat) (v : Option VecRun) : State := { s with vec := Store.set (fun _ => none) s.vec k v }
def State.engine (s : State) (e : Nat) : Engine := Store.get (fun _ => Engine.idle) s.engines e
def State.setEngine (s : State) (e : Nat) (v : Engine) : State := { s with engines := Store.set (fun _ => Engine.idle) s.engines e v }
def State.ctx (s : State) (c : Nat) : Ctx := Store.get (fun _ => Ctx.init) s.ctxs c
def State.setCtx (s : State) (c : Nat) (v : Ctx) : State := { s with ctxs := Store.set (fun _ => Ctx.init) s.ctxs c v }
def State.memCtl (s : State) (c : Nat) : MemCtl := Store.get (fun _ => MemCtl.init) s.memctl c
def State.setMemCtl (s : State) (c : Nat) (v : MemCtl) : State := { s with memctl := Store.set (fun _ => MemCtl.init) s.memctl c v }
/-- Way w of set t of a slice. -/
def State.way (s : State) (slice t w : Nat) : Way := Store.get (fun _ => Way.empty) s.ways ((slice * 1024 + t) * 16 + w)
def State.setWay (s : State) (slice t w : Nat) (v : Way) : State :=
  { s with ways := Store.set (fun _ => Way.empty) s.ways ((slice * 1024 + t) * 16 + w) v }
def State.wayHealth (s : State) (slice w : Nat) : WayHealth := Store.get (fun _ => WayHealth.init) s.health (slice * 16 + w)
def State.setWayHealth (s : State) (slice w : Nat) (v : WayHealth) : State :=
  { s with health := Store.set (fun _ => WayHealth.init) s.health (slice * 16 + w) v }
/-- A line of an agent, by address bits [51:6]. -/
def State.line (s : State) (a line : Nat) : Line := Store.get (fun _ => Line.empty) s.agents (a * 2 ^ 46 + line)
def State.setLine (s : State) (a line : Nat) (v : Line) : State :=
  { s with agents := Store.set (fun _ => Line.empty) s.agents (a * 2 ^ 46 + line) v }
def State.home (s : State) (line : Nat) : HomeLine := Store.get (fun _ => HomeLine.init) s.homes line
def State.setHome (s : State) (line : Nat) (v : HomeLine) : State := { s with homes := Store.set (fun _ => HomeLine.init) s.homes line v }
def State.cpu (s : State) (c : Nat) : Cpu := Store.get (fun _ => Cpu.init) s.cpus c
def State.setCpu (s : State) (c : Nat) (v : Cpu) : State := { s with cpus := Store.set (fun _ => Cpu.init) s.cpus c v }
/-- Integer register r of a CPU core: x0 reads as zero and discards writes. -/
def State.xreg (s : State) (c r : Nat) : Word := if r % 32 = 0 then 0 else Store.get (fun _ => 0) s.cpuRegs (c * 32 + r % 32)
def State.setXreg (s : State) (c r : Nat) (w : Word) : State :=
  if r % 32 = 0 then s else { s with cpuRegs := Store.set (fun _ => 0) s.cpuRegs (c * 32 + r % 32) w }
def State.cell (s : State) (e b i j : Nat) : Nat := (Store.get (fun _ => 0) s.cells (((e * 2 + b) * 64 + i) * 64 + j)).toNat
def State.setCell (s : State) (e b i j v : Nat) : State :=
  { s with cells := Store.set (fun _ => 0) s.cells (((e * 2 + b) * 64 + i) * 64 + j) (BitVec.ofNat 32 v) }

def State.port (s : State) (p : Nat) : Port := Store.get (fun _ => Port.init) s.ports p
def State.setPort (s : State) (p : Nat) (v : Port) : State := { s with ports := Store.set (fun _ => Port.init) s.ports p v }
def State.seg (s : State) (c : Nat) : Segment := Store.get (fun _ => Segment.init) s.segs c
def State.setSeg (s : State) (c : Nat) (v : Segment) : State := { s with segs := Store.set (fun _ => Segment.init) s.segs c v }

/-- Issue duty of a tensor die, 0 to 64 (R417). -/
def State.dieDuty (s : State) (n : Nat) : Nat := Store.get (fun _ => 64) s.duty n
def State.setDuty (s : State) (n v : Nat) : State := { s with duty := Store.set (fun _ => 64) s.duty n v }
/-- Issue gating holds every start on the tensor die of a core. -/
def State.coreHeld (s : State) (k : Nat) : Bool := s.dieDuty (k / 32) == 0

def State.recov (s : State) (p : Nat) : Recov := Store.get (fun _ => Recov.idle) s.recovs p
def State.dieLink (s : State) (k : Nat) : DieLink := Store.get (fun _ => DieLink.init) s.dlinks k
def State.setDieLink (s : State) (k : Nat) (v : DieLink) : State := { s with dlinks := Store.set (fun _ => DieLink.init) s.dlinks k v }
def State.dpwr (s : State) (n : Nat) : DiePwr := Store.get (fun _ => DiePwr.init) s.diePwr n
def State.setDpwr (s : State) (n : Nat) (v : DiePwr) : State := { s with diePwr := Store.set (fun _ => DiePwr.init) s.diePwr n v }

/-- An engine recovery's state, with the fields of HUB_RECOV_STATUS and HUB_RECOV_SUSPECTS that show it (R465). -/
def State.setRecov (s : State) (p : Nat) (v : Recov) : State :=
  let s := { s with recovs := Store.set (fun _ => Recov.idle) s.recovs p v }
  let s := (s.setFld Fld.HUB_RECOV_STATUS_STATE p v.stage).setFld Fld.HUB_RECOV_STATUS_ENGINE p v.engine
  let s := (s.setFld Fld.HUB_RECOV_STATUS_CURRENT p (v.current.getD 0)).setFld Fld.HUB_RECOV_STATUS_SUSPECTS p v.suspects.length
  let s := s.setFld Fld.HUB_RECOV_STATUS_QUEUED p v.queue.length
  (List.range 4).foldl (fun s n =>
    s.setFld Fld.HUB_RECOV_SUSPECTS_SUSPECTS (p * 4 + n)
      ((v.suspects.filter (fun c => c / 64 == n)).foldl (fun m c => m ||| 2 ^ (c % 64)) 0)) s

/-! ## The image in force -/

/-- Sections in force. -/
def State.tables (s : State) : List Section := s.img.tables

/-- A partition runs: it stands in the image in force and is not lost with a fenced die (R36, R67), nor being reset. -/
def State.dieFenced (s : State) (n : Nat) : Bool := bit (s.fld Fld.HUB_DIE_FENCE_FENCED) n

def State.partLost (s : State) (p : Nat) : Bool :=
  match partOf s.tables p with
  | some e => (List.range 16).any (fun c => bit e.clusters c && s.dieFenced (dieOfCluster c))
  | none => false

def State.fencing (s : State) (d : Domain) : Bool := s.fences.any (fun f => f.dom == d)

def State.partRuns (s : State) (p : Nat) : Bool :=
  decide (p < 16) && (partOf s.tables p).isSome && !s.partLost p && !s.fencing (.partition p) && !s.fencing .chip

def State.anyPartRuns (s : State) : Bool := (List.range 16).any s.partRuns

def State.circEntry (s : State) (c : Nat) : Option CircEntry := (circuits s.tables).find? (fun e => e.id == c)

/-- The slots of a circuit in the order of their START: the hops it crosses. -/
def insertSlot (e : SlotEntry) : List SlotEntry → List SlotEntry
  | [] => [e]
  | x :: rest => if e.start < x.start then e :: x :: rest else x :: insertSlot e rest

def State.hops (s : State) (c : Nat) : List SlotEntry :=
  ((slots s.tables).filter (fun e => e.circ == c)).foldl (fun l e => insertSlot e l) []

def State.lastSlot (s : State) (c : Nat) : Option SlotEntry := (slots s.tables).find? (fun e => e.circ == c && e.last)

/-- Partition of a core, 0xFE where its cluster is in none. -/
def State.partOfCore (s : State) (k : Nat) : Nat := (partOfCluster s.tables (clusterOfCore k)).getD 0xFE

/-- Partition of a CPU core (R32): the partition that lists it, else the module. -/
def State.partOfCpu (s : State) (c : Nat) : Nat :=
  (((parts s.tables).find? (fun e => e.id < 16 && bit e.cpus c)).map (·.id)).getD 0xFE

/-- RINGS entry of a context (R191). -/
def State.ring (s : State) (c : Nat) : Option RingEntry := (rings s.tables).find? (fun r => r.ring == c)

/-- Partition of a context (R191); 0xFE where no ring is granted. -/
def State.partOfCtx (s : State) (c : Nat) : Nat := ((s.ring c).map (·.part)).getD 0xFE

/-- The core mask of a context (R193), and its lead core. -/
def State.coreMask (s : State) (c : Nat) : Nat := s.fld Fld.HUB_CTX_CORES0_CORES c + s.fld Fld.HUB_CTX_CORES1_CORES c * 2 ^ 64
def State.leadCore (s : State) (c : Nat) : Nat := ((bitsOf 128 (s.coreMask c)).head?).getD 0

/-! ## Trace packets and events -/

/-- A packet matches a TRACE entry (R62, R513). -/
def TraceEntry.fits (t : TraceEntry) (cls kind unit layer op : Nat) : Bool :=
  bit t.classMask cls && (t.kind == 0 || (t.kind == kind && (kind == 3 || t.unit == unit)))
  && (t.layer == 0xFFFF || t.layer == layer) && (t.op == 0xFFFF || t.op == op)

/-- Occupancy of the trace buffer in units of 16 KiB (R514): 512 packets of 32 bytes to a unit. -/
def Trace.units (t : Trace) : Nat := t.buf.length / 512

/-- Lossless mode holds producers (R514, R515): with the link up, hysteresis of 64 KiB below HIGH_WATER. -/
def State.traceUpdate (s : State) : State :=
  let hw := s.fld Fld.TRC_CTL_HIGH_WATER * 512
  let n := s.trc.buf.length
  let on := if n ≥ hw then true else if n + 2048 < hw then false else s.trc.holding
  { s with trc := { s.trc with holding := on && s.flag Fld.TRC_STATUS_LINK_UP && s.flag Fld.TRC_CTL_LOSSLESS } }

/-- A unit whose next packet matches a lossless entry is held (R514). -/
def State.traceHolds (s : State) (cls kind unit layer op : Nat) : Bool :=
  s.trc.holding && s.flag Fld.TRC_CTL_EN && (traceEntries s.tables).any (fun t => bit t.flags 0 && t.fits cls kind unit layer op)

/-- Adds n to counter i of a unit if its selector in force names the code (R496, R499): the unit's kind, its selector key, its
register instance. A counter that comes to its greatest value sets OVF and, with OVF_EVENT, leaves a COUNTER_OVF event. -/
def State.count1 (s : State) (kind unit i key inst : Nat) (valF ovfF : Field) (code n : Nat) : State :=
  let sel := Store.get (fun _ => 0) s.sels key
  if getBits sel 0 16 = code ∧ code ≠ 0 ∧ n ≠ 0 then
    let old := s.fld valF inst
    let v := min (2 ^ 48 - 1) (old + n)
    let s := s.setFld valF inst v
    if v = 2 ^ 48 - 1 then
      let s := s.setFld ovfF inst 1
      if bit sel 16 ∧ old ≠ v then { s with ovfs := s.ovfs ++ [(kind, unit, i)] } else s
    else s
  else s

/-- Keys of the selectors in force: core, cluster and hub counters. -/
def selKey (kind unit i : Nat) : Nat := kind * 2 ^ 20 + unit * 64 + i

/-- Hub counters count in every cycle (R496). -/
def State.countHub (s : State) (base q n : Nat) : State :=
  (List.range 32).foldl (fun s i =>
    s.count1 3 0 i (selKey 3 0 i) i Fld.HUB_CNT_VALUE Fld.HUB_CNT_OVF (0x3000 + base * 16 + q) n) s

/-- A trace packet is produced when it matches an entry (R513); a full buffer drops it (R514). -/
def State.packet (s : State) (kind : Nat) (p : TracePkt) : State :=
  if s.flag Fld.TRC_CTL_EN && (traceEntries s.tables).any (fun t => t.fits p.cls kind p.rec1.unit p.rec1.layer p.rec1.op) then
    if s.trc.buf.length ≥ 32768 then (s.bump Fld.TRC_STATUS_DROPS 0).countHub 0x0C 0 1
    else
      let s := s.countHub 0x0B 0 1
      let t := s.trc
      ({ s with trc := { t with buf := t.buf ++ [p], first := if t.buf.isEmpty then s.ft else t.first } }).traceUpdate
  else s

/-- A command is in execution on a core (R496): a LAUNCH on every core of its CORES, any other on its context's lead core. -/
def Cmd.opcode (m : Cmd) : Nat := fieldAt m.slot 0 1
def Cmd.coresField (m : Cmd) : Nat := fieldAt m.slot 0x10 16
def Cmd.layer (m : Cmd) : Nat := fieldAt m.slot 8 2
def Cmd.oper (m : Cmd) : Nat := fieldAt m.slot 0xA 2
def Cmd.hdrFlags (m : Cmd) : Nat := fieldAt m.slot 2 2

def State.runsOn (s : State) (c : Nat) (m : Cmd) (k : Nat) : Bool :=
  m.started && !m.finished && (if m.opcode = 3 then bit m.coresField k else k == s.leadCore c)

def State.coreBusy (s : State) (k : Nat) : Bool := s.ctxs.any (fun e => e.2.buf.any (fun m => s.runsOn e.1 m k))

/-- Core counters (R496): they count only while a command is in execution on the core. -/
def State.countCore (s : State) (k base q n : Nat) : State :=
  if s.coreBusy k then
    (List.range 8).foldl (fun s i =>
      s.count1 1 k i (selKey 1 k i) (k * 8 + i) Fld.CO_CNT_VALUE Fld.CO_CNT_OVF (0x1000 + base * 16 + q) n) s
  else s

/-- An engine's event counts for the engine and for all four (R497). -/
def State.countEngine (s : State) (e base n : Nat) : State :=
  (s.countCore (e / 4) base (e % 4) n).countCore (e / 4) base 4 n

/-- Cluster counters (R496). -/
def State.countCluster (s : State) (c base q n : Nat) : State :=
  if (List.range 8).any (fun i => s.coreBusy (8 * c + i)) then
    (List.range 16).foldl (fun s i =>
      s.count1 2 c i (selKey 2 c i) (c * 16 + i) Fld.CL_CNT_VALUE Fld.CL_CNT_OVF (0x2000 + base * 16 + q) n) s
  else s

/-- The host is attached (R405). -/
def State.hostUp (s : State) : Bool := s.fld Fld.HOST_ATTACH_STATE == 1

/-- R402: an MSI toward the host: MSI-X vector IDENTITY − 1; a masked vector becomes pending; one out of range, or for a detached host, is
dropped and counted. -/
def State.hostMsi (s : State) (ident : Nat) : State :=
  if !s.hostUp ∨ ident = 0 ∨ ident > 64 then s.bump Fld.HOST_STATUS_MSI_DROPS 0
  else
    let v := ident - 1
    if s.flag Fld.HOST_MSIX_DATA_MASK v then s.setFld Fld.HOST_PBA_PENDING 0 (s.fld Fld.HOST_PBA_PENDING ||| 2 ^ v)
    else { s with out := s.out ++ [.msix v (s.fld Fld.HOST_MSIX_ADDR_ADDRESS v * 4) (s.fld Fld.HOST_MSIX_DATA_DATA v)] }

/-- MSI of a register of the layout of HUB_CTX_MSI (R220); a FILE in the host aperture signals the host (R402). -/
def State.msi (s : State) (file en ident : Field) (i : Nat) : State :=
  if !s.flag en i then s
  else match locate (s.fld file i * 4096) with
    | .host _ => s.hostMsi (s.fld ident i)
    | _ => { s with out := s.out ++ [.msi (s.fld file i) (s.fld ident i)] }

/-- The four words of an event record (R503). -/
def EvRec.words (r : EvRec) : List Nat :=
  [r.beat,
   r.code + (r.kind + (if r.ctx.isNone then 128 else 0)) * 2 ^ 16 + (r.ctx.getD 0xFF) * 2 ^ 24 + r.unit * 2 ^ 32 + r.layer * 2 ^ 48,
   r.op + r.seq * 2 ^ 32,
   r.data]

/-- Writes a record into a ring of n slots, or counts it in LOST while frozen (R503, R506). -/
def State.ringRecord (s : State) (freeze lost writes word : Field) (unit n : Nat) (r : EvRec) : State :=
  if s.flag freeze unit then s.bump lost unit
  else
    let w := s.fld writes unit
    let at1 := (unit * n + w % n) * 4
    let s := (List.range 4).foldl (fun s i => s.setFld word (at1 + i) (r.words.getD i 0)) s
    s.setFld writes unit (w + 1)

/-- The collector's MSI: at most one in any 125 beats, a later record waits for the next (R507). -/
def State.collectorMsi (s : State) (c : Nat) : State :=
  let m := Store.get (fun _ => (0, false)) s.evtMsi c
  if m.1 = 0 ∨ s.ft ≥ m.1 - 1 + 125 then
    let s := s.msi Fld.CL_EVT_MSI_FILE Fld.CL_EVT_MSI_EN Fld.CL_EVT_MSI_IDENTITY c
    { s with evtMsi := Store.set (fun _ => (0, false)) s.evtMsi c (s.ft + 1, false) }
  else { s with evtMsi := Store.set (fun _ => (0, false)) s.evtMsi c (m.1, true) }

/-- A record in a cluster's ring (R188, R507). -/
def State.clusterRecord (s : State) (c : Nat) (r : EvRec) : State :=
  let s := (s.ringRecord Fld.CL_EVT_PTR_FREEZE Fld.CL_EVT_PTR_LOST Fld.CL_EVT_PTR_WRITES Fld.CL_EVT_REC_WORD c 1024 r).countCluster c 8 0 1
  if bit (s.fld Fld.CL_EVT_CTL_IRQ_MASK c) (r.code - 0x8001) then s.collectorMsi c else s

/-- A copy finds the collector's input full: it is dropped and counted (R188, R507). -/
def State.copyDropped (s : State) (c : Nat) : State := (s.bump Fld.CL_EVT_CTL_DROPPED c).countCluster c 7 0 1

/-- The collector copies records whose code bit is set in COPY_MASK (R507). Whether its input is full is free: its size and pace are not given
(DESIGN CHOICE, log 78). -/
def State.copyToCluster (s : State) (c : Nat) (r : EvRec) : State :=
  if !bit (s.fld Fld.CL_EVT_CTL_COPY_MASK c) (r.code - 0x8001) then s
  else if s.freeBit then s.spend.copyDropped c
  else s.spend.clusterRecord c r

/-- Class of a ring event's trace packet: the EVENT class, subtype the low byte of the code (R513). -/
def EvRec.trace (r : EvRec) : TracePkt := ⟨r, 3, r.code % 256⟩

/-- An event of an engine, a core or a cluster: its ring record, the cluster's copy and the trace packet (R503, R507, R513). -/
def State.event (s : State) (r : EvRec) : State :=
  if r.kind = 0 then
    let s := s.ringRecord Fld.EN_EVT_PTR_FREEZE Fld.EN_EVT_PTR_LOST Fld.EN_EVT_PTR_WRITES Fld.EN_EVT_REC_WORD r.unit 64 r
    let s := s.copyToCluster (r.unit / 32) r
    s.packet 1 { r.trace with rec1 := { r with kind := 1, unit := r.unit / 4 } }
  else if r.kind = 1 then
    let s := s.ringRecord Fld.CO_EVT_PTR_FREEZE Fld.CO_EVT_PTR_LOST Fld.CO_EVT_PTR_WRITES Fld.CO_EVT_REC_WORD r.unit 256 r
    let s := s.copyToCluster (r.unit / 8) r
    s.packet 1 r.trace
  else (s.clusterRecord r.unit r).packet 2 r.trace

/-! ## Isolation (R34, R38, R55, R529) -/

def ReqKind.isoKind : ReqKind → Nat
  | .tensor => 1
  | .cpu => 2
  | .host => 3
  | .eth => 4
  | .remote => 5
  | .dma => 6
  | .security => 0

/-- Records an isolation error: the sticky bit, and the record while none is held. -/
def State.isolation (s : State) (rq : Requester) (op a : Nat) : State :=
  let s := s.raise Fld.HUB_STICKY_ISOLATION
  if s.flag Fld.HUB_ISO_REC_VALID then s
  else
    let unit := match rq.kind with
      | .tensor => rq.unit
      | .cpu => rq.unit
      | .remote => rq.unit
      | _ => 0
    let s := (((s.setFld Fld.HUB_ISO_REC_KIND 0 rq.kind.isoKind).setFld Fld.HUB_ISO_REC_ACCESS 0 op).setFld Fld.HUB_ISO_REC_ADDR 0 a).raise
      Fld.HUB_ISO_REC_VALID
    (s.setFld Fld.HUB_ISO_SRC_PARTITION 0 rq.part).setFld Fld.HUB_ISO_SRC_UNIT 0 unit

/-- Whether a right is refused silently, refused as an isolation error, or granted. -/
inductive Right where
  | granted
  | refused
  | isolated
  deriving DecidableEq, Repr

/-- The cluster, core or partition that holds a local endpoint is fenced (R443 step 1, R444), or the cluster is held in reset: it is in no
partition (R33), or in one that is lost (R36, R67, R390). -/
def State.clusterFenced (s : State) (c : Nat) : Bool :=
  s.fencing .chip || s.dieFenced (dieOfCluster c) || s.fencing (.diePair (dieOfCluster c))
  || (match partOfCluster s.tables c with
      | some p => s.fencing (.partition p) || s.partLost p
      | none => true)

/-- R480: in Winter mode, memory but stack 0 is held, and only CPU cores 0 to 7 and the host reach that one; the image hold stays isolated (R55).
Memory reached by the security processor alone is judged before. -/
def winterRight (rq : Requester) (a : Nat) : Right :=
  let mine := (rq.kind == .cpu && decide (rq.unit < 8)) || rq.kind == .host
  match locate a with
  | .hbm k _ => if k = 0 ∧ mine then .granted else .refused
  | .hubPrivate _ => .refused
  | .nowhere => .refused
  | .sram _ _ => .refused
  | .llm _ _ => .refused
  | .lpddr k off => if k = 0 ∧ off < imageHoldSize then .isolated else .refused
  | _ => .granted

/-- The security processor reaches every address but those of R42, in a slice that is no scratch slice. -/
def State.securityRight (s : State) (a : Nat) : Right :=
  match locate a with
  | .llm n off => if sliceMode s.tables (16 * n + off / 2 ^ 24) = some 0 then .granted else .refused
  | _ => .granted

/-- R34, R38, R42, R55: the right of a requester at an address. The register range is judged by its own operation. -/
def State.right (s : State) (rq : Requester) (a : Nat) : Right :=
  if rq.kind = .security then s.securityRight a
  else if s.flag Fld.HUB_BOOT_WINTER then winterRight rq a
  else match locate a with
    | .hubPrivate _ => .refused
    | .nowhere => .refused
    | .sram k _ =>
      if rq.part = 0xFE ∨ partOfCluster s.tables (clusterOfCore k) = some rq.part then .granted else .isolated
    | .llm n off =>
      if sliceMode s.tables (16 * n + off / 2 ^ 24) ≠ some 0 then .refused
      else if rq.part = 0xFE ∨ sliceOwner s.tables n = some rq.part then .granted else .isolated
    | .hbm k _ => if rq.part = 0xFE ∨ ownsOrShares s.tables rq.part k then .granted else .isolated
    | .lpddr k off =>
      if k = 0 ∧ off < imageHoldSize then .isolated
      else if rq.part = 0xFE ∨ ownsOrShares s.tables rq.part (8 + k) then .granted else .isolated
    | _ => .granted

/-- A local endpoint that answers with an error because it is fenced (R36, R390, R443). -/
def State.endpointFenced (s : State) (a : Nat) : Bool :=
  match locate a with
  | .sram k _ => s.clusterFenced (clusterOfCore k)
  | .llm n _ => s.fencing .chip || s.dieFenced n
      || (match sliceOwner s.tables n with
          | some p => s.fencing (.partition p)
          | none => false)
  | .hbm k _ => s.fencing .chip || s.dieFenced (k / 2)
  | _ => false

/-! ## Bytes and error codes (R224 to R227, R548) -/

/-- The loss that an unlisted address falls under, if any: the latest first. -/
def State.lossAt (s : State) (a : Nat) : Option (Nat × Nat × Nat) := s.lost.find? (fun r => decide (r.1 ≤ a) && decide (a < r.2.1))

/-- What an unlisted address reads as: 0 (assumption log 5), or after a loss of its contents a free byte (R77, R447). -/
def State.blank (s : State) (a : Nat) : Byte :=
  match s.lossAt a with
  | some r => Config.lostByte r.2.2 a
  | none => 0

/-- What the check bytes of an unlisted granule are, XORed with those of its data: 0, or free after a loss. -/
def State.blankSyn (s : State) (g : Nat) : BitVec 32 :=
  match s.lossAt g with
  | some r => Config.lostSyn r.2.2 g
  | none => 0

def State.byte (s : State) (a : Nat) : Byte := Store.get s.blank s.mem a

def State.setByte (s : State) (a : Nat) (b : Byte) : State := { s with mem := Store.set s.blank s.mem a b }

def State.bytes (s : State) (a : Nat) : Nat → List Byte
  | 0 => []
  | n + 1 => s.byte a :: State.bytes s (a + 1) n

def State.setBytes (s : State) (a : Nat) : List Byte → State
  | [] => s
  | b :: rest => State.setBytes (s.setByte a b) (a + 1) rest

/-- Stored check bytes of a granule, XORed with what the code gives for its data. -/
def State.syn (s : State) (g : Nat) : BitVec 32 := Store.get s.blankSyn s.chk g

def State.setSyn (s : State) (g : Nat) (v : BitVec 32) : State := { s with chk := Store.set s.blankSyn s.chk g v }

/-- The contents of the addresses from lo to hi − 1 are lost: they read as free values until they are written. -/
def State.lose (s : State) (lo hi : Nat) : State :=
  let one : Nat × Nat × Nat := (lo, hi, s.freeCtr)
  let mine := fun (a : Nat) => decide (lo ≤ a) && decide (a < hi)
  { s with mem := s.mem.filter (fun x => !mine x.1), chk := s.chk.filter (fun x => !mine x.1), lost := one :: s.lost
           freeCtr := s.freeCtr + 1 }

/-- Every check byte inverted: the pattern of a poisoned granule (R225). -/
def poisonSyn : BitVec 32 := 0xFFFFFFFF

/-- Product in GF(2^8) with x^8 + x^4 + x^3 + x^2 + 1 (R224). -/
def gfMul (a b : Nat) : Nat :=
  (List.range 8).foldl (fun acc i =>
    let acc := acc * 2
    let acc := if acc ≥ 256 then acc ^^^ 0x11D else acc
    if bit b (7 - i) then acc ^^^ a else acc) 0

def gfPow (a : Nat) : Nat → Nat
  | 0 => 1
  | n + 1 => gfMul a (gfPow a n)

/-- Syndrome S_i: the code word's check bytes occupy degrees 3 (byte 0) to 0 (byte 3) (DEDUCED, log 36). -/
def rsSyndrome (d : Nat) (i : Nat) : Nat :=
  (List.range 4).foldl (fun acc k => acc ^^^ gfMul (d / 2 ^ (8 * k) % 256) (gfPow 2 (i * (3 - k)))) 0

/-- What a W, S or LLM granule decodes to (R224, R225). -/
inductive Decoded where
  | clean
  /-- an error of one byte: the byte's place among 36, data bytes 0 to 31 first, and the error value -/
  | single (pos err : Nat)
  | poisoned
  | bad
  deriving DecidableEq, Repr

/-- The decoder of R224: poison is tested for first (R225). -/
def rsDecode (d : BitVec 32) : Decoded :=
  if d = 0 then .clean
  else if d = poisonSyn then .poisoned
  else
    let s0 := rsSyndrome d.toNat 0
    let s1 := rsSyndrome d.toNat 1
    let s2 := rsSyndrome d.toNat 2
    let s3 := rsSyndrome d.toNat 3
    match (List.range 36).find? (fun p =>
        let x := gfPow 2 (35 - p)
        s0 != 0 && s1 == gfMul s0 x && s2 == gfMul s1 x && s3 == gfMul s2 x) with
    | some p => .single p s0
    | none => .bad

/-- Region type of an address (R54): 1 W, 2 S, 3 A; bytes that no region covers are S. -/
def State.regionType (s : State) (a : Nat) : Nat :=
  match (regions s.tables).find? (fun r => decide (r.base ≤ a) && decide (a < r.base + r.size * 8192)) with
  | some r => r.type
  | none => 2

/-- Error source of MEM_ERR_REC.SOURCE and LLM_ERR_REC.SOURCE (R252). -/
inductive ErrSource where
  | demand
  | scrub
  | rmw
  | adder
  /-- a read on an LLM slice's endpoint port -/
  | endpoint
  deriving DecidableEq, Repr

def ErrSource.code : ErrSource → Nat
  | .demand => 0
  | .scrub => 1
  | .rmw => 2
  | .adder => 3
  | .endpoint => 1

/-- Counts in MEM_ERR_CNT stick and set OVF (R252). -/
def State.errCount (s : State) (f : Field) (c : Nat) : State :=
  let s := s.bump f c
  if s.fld f c = 2 ^ f.width - 1 then s.raise Fld.MEM_ERR_CNT_OVF c else s

/-- Records a corrected error (R226, R548). -/
def State.noteCorrected (s : State) (g : Nat) : State :=
  match locate g with
  | .llm n off => s.bump Fld.LLM_SLICE_CORRECTED (16 * n + off / 2 ^ 24)
  | _ => match channelOf g with
    | some (c, _) => s.errCount Fld.MEM_ERR_CNT_CORRECTED c
    | none => s

/-- Records an uncorrectable or detected error (R226, R528, R548). -/
def State.noteBad (s : State) (g : Nat) (src : ErrSource) : State :=
  match locate g with
  | .llm n off =>
    let s := s.bump Fld.LLM_SLICE_UNCORRECTED (16 * n + off / 2 ^ 24)
    if s.flag Fld.LLM_ERR_REC_VALID n then s
    else
      let s := ((s.setFld Fld.LLM_ERR_REC_SOURCE n src.code).setFld Fld.LLM_ERR_REC_ADDR n (g / 32)).raise Fld.LLM_ERR_REC_VALID n
      (s.setFld Fld.LLM_ERR_BEAT_BEAT n s.ft).raise Fld.HUB_STICKY_MEM_UNCORRECTED
  | _ => match channelOf g with
    | some (c, _) =>
      let s := s.errCount Fld.MEM_ERR_CNT_UNCORRECTED c
      let s := s.packet 3 ⟨⟨s.ft, 0, 3, 0, none, 0xFFFF, 0xFFFF, 0, g⟩, 5, s.regionType g⟩
      if s.flag Fld.MEM_ERR_REC_VALID c then s
      else
        let s := ((s.setFld Fld.MEM_ERR_REC_TYPE c (s.regionType g)).setFld Fld.MEM_ERR_REC_SOURCE c src.code).setFld
          Fld.MEM_ERR_REC_ADDR c (g / 32)
        ((s.raise Fld.MEM_ERR_REC_VALID c).setFld Fld.MEM_ERR_BEAT_BEAT c s.ft).raise Fld.HUB_STICKY_MEM_UNCORRECTED
    | none => s

/-- Records a read of a granule already poisoned (R226, R548). -/
def State.notePoisonRead (s : State) (g : Nat) : State :=
  match locate g with
  | .llm n off => s.bump Fld.LLM_SLICE_UNCORRECTED (16 * n + off / 2 ^ 24)
  | _ => match channelOf g with
    | some (c, _) => s.errCount Fld.MEM_ERR_CNT_POISON_READS c
    | none => s

/-- The address has a code: HBM, LPDDR or LLM scratch. Core SRAM has none. -/
def coded (a : Nat) : Bool :=
  match locate a with
  | .hbm _ _ => true
  | .lpddr _ _ => true
  | .llm _ _ => true
  | _ => false

/-- The granule lies in an A region. -/
def State.isA (s : State) (g : Nat) : Bool := (channelOf g).isSome && s.regionType g == 3

/-- Check byte w of a granule of an A region. -/
def synByte (d : BitVec 32) (w : Nat) : Nat := d.toNat / 2 ^ (8 * w) % 256

/-- A granule with check byte w replaced. -/
def setSynByte (d : BitVec 32) (w v : Nat) : BitVec 32 := BitVec.ofNat 32 (putBits d.toNat (8 * w) 8 v)

/-- A single-byte error of a W, S or LLM granule is mended in memory (R226, R548). -/
def State.correctGranule (s : State) (g : Nat) : State :=
  match rsDecode (s.syn g) with
  | .single p err =>
    let s := s.setSyn g 0
    if p < 32 then s.setByte (g + p) (s.byte (g + p) ^^^ BitVec.ofNat 8 err) else s
  | _ => s

/-- The correction of a channel's granule waits for the coherent share (R226, R232); a scratch slice's is written at once (R548). -/
def State.queueCorrection (s : State) (g : Nat) : State :=
  if (channelOf g).isNone then s.correctGranule g
  else if s.corrections.contains g then s else { s with corrections := s.corrections ++ [g] }

/-- Bytes of a granule with an error value added at a place among its 36. -/
def mended (b : List Byte) (p err : Nat) : List Byte := b.modify p (· ^^^ BitVec.ofNat 8 err)

/-- Reads one aligned granule of 32 bytes (R226): the state after poisoning and recording, whether it reads as
poisoned, and its bytes, corrected. -/
def State.readGranule (s : State) (g : Nat) (src : ErrSource) : State × Bool × List Byte :=
  if !coded g then (s, false, s.bytes g 32)
  else
    let d := s.syn g
    if s.isA g then
      if (List.range 4).any (fun w => synByte d w != 0 && synByte d w != 0xFF) then
        ((s.setSyn g poisonSyn).noteBad g src, true, s.bytes g 32)
      else if d = 0 then (s, false, s.bytes g 32)
      else (s.notePoisonRead g, true, s.bytes g 32)
    else match rsDecode d with
      | .clean => (s, false, s.bytes g 32)
      | .poisoned => (s.notePoisonRead g, true, s.bytes g 32)
      | .single p err => ((s.queueCorrection g).noteCorrected g, false, mended (s.bytes g 32) p err)
      | .bad => ((s.setSyn g poisonSyn).noteBad g src, true, s.bytes g 32)

/-- Reads n granules from g: state, whether any is poisoned, bytes. -/
def State.readGranules (s : State) (g : Nat) (src : ErrSource) : Nat → State × Bool × List Byte
  | 0 => (s, false, [])
  | n + 1 =>
    let r := s.readGranule g src
    let t := State.readGranules r.1 (g + 32) src n
    (t.1, r.2.1 || t.2.1, r.2.2 ++ t.2.2)

/-- Reads n bytes at a, whatever the granules they lie in. -/
def State.readMem (s : State) (a n : Nat) (src : ErrSource := .demand) : State × Bool × List Byte :=
  let g := a / 32 * 32
  let r := s.readGranules g src ((a + n + 31) / 32 - a / 32)
  (r.1, r.2.1, (r.2.2.drop (a - g)).take n)

/-- A granule is written poisoned: every check byte inverted for its data (R225). -/
def State.poisonGranule (s : State) (g : Nat) : State := if coded g then s.setSyn g poisonSyn else s

/-- Writes bytes within one 8-byte word of an A region (R227): a read-modify-write judges and poisons only the word it modifies. -/
def State.writeWordA (s : State) (a : Nat) (b : List Byte) : State × Bool :=
  let g := a / 32 * 32
  let w := a % 32 / 8
  let e := synByte (s.syn g) w
  if b.length = 8 then (((s.setBytes a b).setSyn g (setSynByte (s.syn g) w 0)), false)
  else if e = 0 then (s.setBytes a b, false)
  else if e = 0xFF then (s.notePoisonRead g, true)
  else ((s.setSyn g (setSynByte (s.syn g) w 0xFF)).noteBad g .rmw, true)

/-- Writes bytes of one A granule word by word. -/
def State.writeA (s : State) (a : Nat) (b : List Byte) : Nat → State × Bool
  | 0 => (s, false)
  | n + 1 =>
    if b.isEmpty then (s, false)
    else
      let k := min (8 - a % 8) b.length
      let r := s.writeWordA a (b.take k)
      let t := State.writeA r.1 (a + k) (b.drop k) n
      (t.1, r.2 || t.2)

/-- Writes bytes that lie in one granule (R227): the state, and whether poison refused the write. -/
def State.writeGranule (s : State) (a : Nat) (b : List Byte) : State × Bool :=
  let g := a / 32 * 32
  if !coded g then (s.setBytes a b, false)
  else if b.length = 32 then ((s.setBytes a b).setSyn g 0, false)
  else if s.isA g then s.writeA a b 5
  else
    let r := s.readGranule g .rmw
    if r.2.1 then (r.1, true) else (((r.1.correctGranule g).setBytes a b).setSyn g 0, false)

/-- Writes bytes at a, granule by granule; n bounds the number of granules. -/
def State.writeGranules (s : State) (a : Nat) (b : List Byte) : Nat → State × Bool
  | 0 => (s, false)
  | n + 1 =>
    if b.isEmpty then (s, false)
    else
      let k := min (32 - a % 32) b.length
      let r := s.writeGranule a (b.take k)
      let t := State.writeGranules r.1 (a + k) (b.drop k) n
      (t.1, r.2 || t.2)

def State.writeMem (s : State) (a : Nat) (b : List Byte) : State × Bool := s.writeGranules a b (b.length / 32 + 2)

/-- The aligned granules that n bytes at a touch. -/
def granulesOf (a n : Nat) : List Nat := (List.range ((a + n + 31) / 32 - a / 32)).map (fun i => (a / 32 + i) * 32)

/-- Contexts whose status register may differ from its reset value: those that the state lists, and those whose register is listed. -/
def State.shownCtxs (s : State) : List Nat :=
  (s.ctxs.map (fun e : Nat × Ctx => e.1) ++
    (s.regs.filter (fun e : Nat × Word => e.1 / 2 ^ 20 == Reg.HUB_CTX_STATUS.num)).map (fun e : Nat × Word => e.1 % 2 ^ 20)).filter
      (fun c : Nat => decide (c < 256))

/-- HUB_CTX_STATUS.STATE shows a context's state (R195). -/
def State.showCtx (s : State) (c : Nat) : State := s.setFld Fld.HUB_CTX_STATUS_STATE c (s.ctx c).st.code

/-- The status fields that mirror a unit's state stand as the state has them: HUB_CTX_STATUS.STATE (R195) of each context, and
TRC_STATUS.OCCUPANCY (R514). -/
def State.mirror (s : State) : State :=
  (s.setFld Fld.TRC_STATUS_OCCUPANCY 0 s.trc.units).shownCtxs.foldl State.showCtx (s.setFld Fld.TRC_STATUS_OCCUPANCY 0 s.trc.units)

/-- R433 rule 3: a safety limit overrides a software setting. -/
def State.policyClamp (s : State) (f : Field) : State := (s.raise f).bump Fld.PWR_POLICY_CLAMP_COUNT 0

/-- An override episode of a bit of PWR_POLICY_CLAMP begins, lasts or ends: the bit is set once in it (R433). -/
def State.clampEpisode (s : State) (f : Field) (b : Nat) (on : Bool) : State :=
  if on then
    if bit s.pwr.episodes b then s
    else { s.policyClamp f with pwr := { s.pwr with episodes := s.pwr.episodes ||| 2 ^ b } }
  else if bit s.pwr.episodes b then { s with pwr := { s.pwr with episodes := s.pwr.episodes - 2 ^ b } } else s

/-- Every command's answer: its effect, with the mirrors brought up to date (DESIGN CHOICE, log 8). -/
def answer (s : State) : Host.Outcome State Fault Refusal := .next s.mirror

/-- An emitted item (DESIGN CHOICE, log 57). -/
def State.emit (s : State) (o : Out) : State := { s with out := s.out ++ [o] }

/-- Little-endian bytes of a number. -/
def le (n v : Nat) : List Byte := leBytes n v

end Sys2Proof.Machine
end

