-- ==== Sys2Proof/Machine/RegGate.lean ====
section
/-! DEFINITION. Which register an offset names (R518, R519) and who may reach it (R34, R524, R531); the stores of the plain access
types (R14). -/

namespace Sys2Proof.Machine

/-- Blocks of the register range (R518). -/
inductive Block where
  | hub
  | cpu
  | td
  | bd
  | cl
  | co
  | en
  | mem
  | llm
  | fab
  | host
  | eth
  | pwr
  | sec
  | dbg
  | trc
  deriving DecidableEq, Repr

/-- First offset, offset past the last, and block. -/
def blockTable : List (Nat × Nat × Block) :=
  [(0, 0x40_0000, .hub), (0x40_0000, 0x50_0000, .cpu), (0x50_0000, 0x60_0000, .td), (0x60_0000, 0x70_0000, .bd),
   (0x80_0000, 0x90_0000, .cl), (0x100_0000, 0x180_0000, .co), (0x180_0000, 0x1C0_0000, .en), (0x1C0_0000, 0x1D0_0000, .mem),
   (0x1D0_0000, 0x1D1_0000, .llm), (0x1E0_0000, 0x1E1_0000, .fab), (0x1F0_0000, 0x1F1_0000, .host), (0x200_0000, 0x250_0000, .eth),
   (0x280_0000, 0x281_0000, .pwr), (0x290_0000, 0x291_0000, .sec), (0x2A0_0000, 0x2A1_0000, .dbg), (0x2B0_0000, 0x2B1_0000, .trc)]

def blockAt (off : Nat) : Option Block :=
  (blockTable.find? (fun b => decide (b.1 ≤ off) && decide (off < b.2.1))).map (fun b => b.2.2)

/-- Instance number of an offset from a register's base, outermost dimension first. -/
def matchDims : List (Nat × Nat) → Nat → Nat → Option Nat
  | [], rem, acc => if rem = 0 then some acc else none
  | (n, stride) :: rest, rem, acc => if rem / stride < n then matchDims rest (rem % stride) (acc * n + rem / stride) else none

/-- The register at an offset, of which bits [2:0] are ignored (DESIGN CHOICE, log 12). -/
def regAt (off : Nat) : Option (Reg × Nat) :=
  let a := off / 8 * 8
  Reg.all.findSome? (fun r =>
    let p := r.place
    if p.base ≤ a then (matchDims p.dims (a - p.base) 0).map (fun i => (r, i)) else none)

/-- Offset of instance i. -/
def dimOffset : List (Nat × Nat) → Nat → Nat
  | [], _ => 0
  | (_, stride) :: rest, i =>
    let inner := (rest.map (·.1)).foldl (· * ·) 1
    i / inner * stride + dimOffset rest (i % inner)

def Reg.offset (r : Reg) (i : Nat) : Nat := r.place.base + dimOffset r.place.dims i

/-- R524: the window of an offset, with the instance's belonging to partition p, and whether it grants reads only. -/
def State.windowAt (s : State) (p off : Nat) : Option (Nat × Bool × Bool) :=
  let unitOf := fun (base stride : Nat) => (off - base) / stride
  let inCluster := fun (c : Nat) => partOfCluster s.tables c == some p
  if off < 0x1000 ∨ off = 0x2000 ∨ off = 0x2004 then some (8, true, true)
  else if 0x1_0000 ≤ off ∧ off < 0x2_0000 then
    let o := off % 0x1000
    if o < 0xC0 ∨ (0xD0 ≤ o ∧ o < 0xD8) then some (1, (off - 0x1_0000) / 0x1000 == p, false) else none
  else if 0x2_0000 ≤ off ∧ off < 0x3_0000 then some (0, s.partOfCtx (unitOf 0x2_0000 0x100) == p, false)
  else match blockAt off with
    | some .co => some (2, inCluster (clusterOfCore (unitOf 0x100_0000 0x1_0000)), false)
    | some .cl => some (3, inCluster (unitOf 0x80_0000 0x1_0000), false)
    | some .en => some (4, inCluster (clusterOfCore (coreOfEngine (unitOf 0x180_0000 0x2000))), false)
    | some .mem => some (5, ownsOrShares s.tables p (unitOf 0x1C0_0000 0x1000), false)
    | some .eth => if off < 0x240_0000 then some (6, true, false) else some (7, true, false)
    | some .pwr => some (8, true, true)
    | _ => none

/-- R34, R524: the right of a requester at a register offset. -/
def State.regGranted (s : State) (rq : Requester) (off : Nat) (write : Bool) : Bool :=
  rq.part == 0xFE || rq.kind == .host || rq.kind == .security ||
  (rq.kind == .cpu && match s.windowAt rq.part off, partOf s.tables rq.part with
    | some (w, mine, readOnly), some e => bit e.windows w && mine && !(readOnly && write)
    | _, _ => false)

/-- R480: units held in reset in Winter mode. -/
def winterHeld (off : Nat) : Bool :=
  match blockAt off with
  | some .co => true
  | some .cl => true
  | some .en => true
  | some .td => true
  | some .llm => true
  | some .bd => (off - 0x60_0000) / 0x4_0000 != 0
  | some .mem => (off - 0x1C0_0000) / 0x1000 != 0 && (off - 0x1C0_0000) / 0x1000 != 8
  | _ => false

/-- R531: the domain that holds the register is fenced or in reset. -/
def State.regFenced (s : State) (off : Nat) : Bool :=
  let unitOf := fun (base stride : Nat) => (off - base) / stride
  if s.flag Fld.HUB_BOOT_WINTER then winterHeld off
  else match blockAt off with
  | some .co => s.clusterFenced (clusterOfCore (unitOf 0x100_0000 0x1_0000))
  | some .cl => s.clusterFenced (unitOf 0x80_0000 0x1_0000)
  | some .en => s.clusterFenced (clusterOfCore (coreOfEngine (unitOf 0x180_0000 0x2000)))
      || s.fencing (.engine (unitOf 0x180_0000 0x2000))
  | some .td => s.fencing .chip || s.dieFenced (unitOf 0x50_0000 0x4_0000)
  | some .bd => s.fencing .chip || s.dieFenced (unitOf 0x60_0000 0x4_0000)
  | some .mem => s.fencing .chip || (decide (unitOf 0x1C0_0000 0x1000 < 8) && s.dieFenced (unitOf 0x1C0_0000 0x1000 / 2))
  | some .llm => s.fencing .chip || (match regAt off with
      | some (.LLM_SLICE, i) => s.dieFenced (i / 16)
      | some (.LLM_WAYS, i) => s.dieFenced (i / 16)
      | some (.LLM_WAY_REC, i) => s.dieFenced (i / 16)
      | some (.LLM_ZERO, i) => s.dieFenced i
      | some (.LLM_ERR_REC, i) => s.dieFenced i
      | some (.LLM_ERR_BEAT, i) => s.dieFenced i
      | _ => false)
  | some .cpu => s.fencing .chip || s.fencing (.partition (s.partOfCpu (unitOf 0x40_0000 0x1000)))
  | some .fab => s.fencing .chip
  | some .host => s.fencing .chip
  | some .eth => s.fencing .chip
  | _ => false

/-- Judges a register access: the state, with an isolation error recorded, and the error status, if any (R18, R34, R524, R531). -/
def State.judgeReg (s : State) (rq : Requester) (off : Nat) (write : Bool) : State × Option Nat :=
  if (blockAt off).isNone then (s, some stAccessError)
  else if !s.regGranted rq off write then (s.isolation rq (if write then 2 else 1) (regBase + off), some stAccessError)
  else if s.regFenced off then (s, some stAccessError)
  else (s, none)

/-- A register write at a fixed place by a requester: none where R34 refuses it. -/
def State.gated (s : State) (rq : Requester) (r : Reg) (i : Nat) (act : State → State) : State :=
  match s.judgeReg rq (Reg.offset r i) true with
  | (s, some _) => s
  | (s, none) => act s

/-- Bits of a word that a write of some size at an offset covers: the whole word or a half (R13). -/
def writeMask (off size : Nat) : Nat := if size = 4 then (if off % 8 = 4 then 0xFFFFFFFF_00000000 else 0xFFFFFFFF) else 2 ^ 64 - 1

/-- The value as it stands in the whole word. -/
def writeValue (off size v : Nat) : Nat := if size = 4 ∧ off % 8 = 4 then v % 2 ^ 32 * 2 ^ 32 else v % 2 ^ 64

/-- What the plain access types do with a written field (R14): stores, clears, or sets; a W1S bit's action is its register's own. -/
def Field.store (f : Field) (old w mask : Nat) : Nat :=
  let m := getBits mask f.lo f.width
  let o := getBits old f.lo f.width
  let v := getBits w f.lo f.width
  let new := match f.acc with
    | .ro => o
    | .rw => (v &&& m) ||| (o &&& (2 ^ f.width - 1 - m))
    | .w1c => o &&& (2 ^ f.width - 1 - (v &&& m))
    | .st => o &&& (2 ^ f.width - 1 - (v &&& m))
    | .w1s => o ||| (v &&& m)
  putBits old f.lo f.width new

/-- Every field of a register, as its access type has it (R14, R17). -/
def State.storePlain (s : State) (r : Reg) (i w mask : Nat) : State :=
  s.setReg r i (BitVec.ofNat 64 (r.fields.foldl (fun acc f => f.store acc w mask) (s.reg r i).toNat))

/-- The word that an RW store leaves, for registers whose effect depends on it as a whole. -/
def State.stored (s : State) (r : Reg) (i w mask : Nat) : Nat := ((s.storePlain r i w mask).reg r i).toNat

end Sys2Proof.Machine
end

