-- ==== Sys2Proof/Machine/Lifecycle.lean ====
section
/-! DEFINITION. Commands and descriptors as things that begin and end: descriptor fields (R174 to R177), queues as rings of slots
(R166, R169), discarding descriptors and tokens with their credits (R102, R105, R173), and the first ending status of a command
(R212). -/

namespace Sys2Proof.Machine

/-! ## Descriptors (R174) -/

/-- A valid IN or OUT entry: its queue and N. -/
structure QPort where
  queue : Nat
  n : Nat
  valid : Bool
  deriving DecidableEq, Repr

def portAt (b : List Byte) (off : Nat) : QPort :=
  let w := fieldAt b off 2
  ⟨getBits w 8 6, getBits w 0 8, bit w 15⟩

/-- The four ports from an offset: 0x10 for IN, 0x18 for OUT. -/
def qports (b : List Byte) (off : Nat) : List QPort := (List.range 4).map (fun i => portAt b (off + 2 * i))

def validPorts (b : List Byte) (off : Nat) : List QPort := (qports b off).filter (·.valid)

def descUnit (b : List Byte) : Nat := fieldAt b 0 1
def descTarget (b : List Byte) : Nat := fieldAt b 1 1
def descOper (b : List Byte) : Nat := fieldAt b 2 2
def descLayer (b : List Byte) : Nat := fieldAt b 4 2
def descCtx (b : List Byte) : Nat := fieldAt b 6 1
def descFirings (b : List Byte) : Nat := fieldAt b 8 4
def descIns (b : List Byte) : List QPort := validPorts b 0x10
def descOuts (b : List Byte) : List QPort := validPorts b 0x18
def moverCirc (b : List Byte) : Nat := fieldAt b 0x20 2
def moverFlags (b : List Byte) : Nat := fieldAt b 0x22 1
def moverDir (b : List Byte) : Nat := moverFlags b % 2
def moverPhys (b : List Byte) : Bool := bit (moverFlags b) 1
def moverReduce (b : List Byte) : Bool := bit (moverFlags b) 2
def moverTile (b : List Byte) : Bool := bit (moverFlags b) 3
def moverOp (b : List Byte) : Nat := fieldAt b 0x23 1
def moverBytes (b : List Byte) : Nat := fieldAt b 0x24 4
def moverAddr (b : List Byte) : Nat := fieldAt b 0x28 8
def moverStride (b : List Byte) : Int := toInt 64 (fieldAt b 0x30 8)
def engConv (b : List Byte) : Nat := fieldAt b 0x24 1
def engMode (b : List Byte) : Nat := fieldAt b 0x20 1
def engInitLoad (b : List Byte) : Bool := bit (engConv b) 4
def engK (b : List Byte) : Nat := fieldAt b 0x28 4 + 1
def engHistCirc (b : List Byte) : Nat := fieldAt b 0x2C 2
def engHistAddr (b : List Byte) : Nat := fieldAt b 0x30 8

/-- Context that a descriptor's events carry, and its command's sequence number. -/
def Entry.ctx (e : Entry) : Nat := descCtx e.desc

/-! ## Queues as rings of slots (R166, R169) -/

/-- Credits: slots neither held nor filled. -/
def Queue.credits (q : Queue) : Nat := q.depth - (q.heldIn + q.tokens + q.heldOut)

def Queue.slotBytes (q : Queue) : Nat := q.slotUnits * 256

/-- SRAM offset of slot i of the ring, counted from the first slot that the consumer holds. -/
def Queue.slotAt (q : Queue) (i : Nat) : Nat := q.base + (q.rd + i) % max 1 q.depth * q.slotBytes

/-- A consumer takes n tokens as held slots. -/
def Queue.takeIn (q : Queue) (n : Nat) : Queue := { q with tokens := q.tokens - n, heldIn := q.heldIn + n, own := q.own.drop n }
/-- n held IN slots become credits. -/
def Queue.freeIn (q : Queue) (n : Nat) : Queue := { q with heldIn := q.heldIn - n, rd := (q.rd + n) % max 1 q.depth }
/-- A producer takes n credits as held slots. -/
def Queue.takeOut (q : Queue) (n : Nat) : Queue := { q with heldOut := q.heldOut + n }
/-- n held OUT slots become tokens, made by command r. -/
def Queue.fillOut (q : Queue) (n : Nat) (r : CmdRef) : Queue :=
  { q with heldOut := q.heldOut - n, tokens := q.tokens + n, own := q.own ++ List.replicate n r }
/-- SRAM offset of the first slot the producer holds. -/
def Queue.outAt (q : Queue) : Nat := q.slotAt (q.heldIn + q.tokens)
/-- Back to DEPTH credits (R173). -/
def Queue.clear (q : Queue) : Queue := { q with heldIn := 0, tokens := 0, heldOut := 0, rd := 0, own := [] }

def State.updQueue (s : State) (k q : Nat) (f : Queue → Queue) : State := s.setQueue k q (f (s.queue k q))

/-- Configured queues of a core. -/
def State.coreQueues (s : State) (k : Nat) : List (Nat × Queue) :=
  (s.queues.filter (fun e => e.1 / 64 == k && e.2.valid)).map (fun e => (e.1 % 64, e.2))

/-! ## Lookups -/

def State.cmd (s : State) (r : CmdRef) : Option Cmd := (s.ctx r.ctx).buf.find? (fun m => m.seq == r.seq)

def State.updCmd (s : State) (r : CmdRef) (f : Cmd → Cmd) : State :=
  let x := s.ctx r.ctx
  s.setCtx r.ctx { x with buf := x.buf.map (fun m => if m.seq = r.seq then f m else m) }

def State.updCtx (s : State) (c : Nat) (f : Ctx → Ctx) : State := s.setCtx c (f (s.ctx c))

/-- Lead core of a command (R211). -/
def State.leadOf (s : State) (c : Nat) (m : Cmd) : Nat :=
  if m.opcode = 3 then ((bitsOf 128 m.coresField).head?).getD 0 else s.leadCore c

/-- Enters a state of R195; HUB_CTX_STATUS.STATE follows it. -/
def State.enterCtx (s : State) (c : Nat) (st : CtxState) : State := s.updCtx c (fun x => { x with st := st })

/-- A context halts: HALT_REASON holds the reason of R205 of a halt with BAD_COMMAND, and 0 of any other (R220). -/
def State.halt (s : State) (c reason : Nat) : State := (s.setFld Fld.HUB_CTX_STATUS_HALT_REASON c reason).enterCtx c .halted

/-- Installed descriptors: core, entry number, entry. -/
def State.installed (s : State) : List (Nat × Nat × Entry) :=
  s.entries.filterMap (fun e => e.2.map (fun x => (e.1 / 64, e.1 % 64, x)))

def State.cmdEntries (s : State) (r : CmdRef) : List (Nat × Nat × Entry) := s.installed.filter (fun e => e.2.2.cmd == r)

/-- The queue that a DIR 0 mover joins to a circuit (R168): its core and number. -/
def State.joinedQueue (s : State) (c : Nat) : Option (Nat × Nat) :=
  (s.queues.find? (fun e => e.2.valid && e.2.circ == some c)).map (fun e => (e.1 / 64, e.1 % 64))

/-- The circuit's buffer is a queue whose producer is the circuit (DIR 0); such a circuit's credits are the queue's. -/
def State.queueConsumes (s : State) (c : Nat) : Option (Nat × Nat) :=
  match s.circEntry c with
  | some e => if e.dst / 4096 = 1 then s.joinedQueue c else none
  | none => none

/-- Engine that a descriptor on core k names. -/
def engineOf (k : Nat) (b : List Byte) : Nat := 4 * k + descTarget b

/-! ## Contributions (R104, R105, R107) -/

/-- Partition of a circuit. -/
def State.partOfCirc (s : State) (c : Nat) : Nat := ((s.circEntry c).map (·.part)).getD 0xFE

def State.contribCount (s : State) (p : Nat) : Nat × Nat := Store.get (fun _ => (0, 0)) s.retired p

/-- Counts n contributions sent, or retired, for the circuit's partition, modulo 2^48. -/
def State.countSent (s : State) (c n : Nat) : State :=
  let p := s.partOfCirc c
  let v := s.contribCount p
  { s with retired := Store.set (fun _ => (0, 0)) s.retired p ((v.1 + n) % 2 ^ 48, v.2) }

def State.countRetired (s : State) (c n : Nat) : State :=
  let p := s.partOfCirc c
  let v := s.contribCount p
  { s with retired := Store.set (fun _ => (0, 0)) s.retired p (v.1, (v.2 + n) % 2 ^ 48) }

def State.isReduce (s : State) (c : Nat) : Bool := match s.circEntry c with
  | some e => e.reduce
  | none => false

/-! ## Pending circuits (R99) -/

/-- Key of R148's order: K, engine, row, column. -/
def coordKey (w : Nat) : Nat := w / 2 ^ 23 * 2 ^ 12 + w % 2 ^ 12

/-- The earlier of two invalid operations, 0 standing for none. -/
def firstCoord (a b : Nat) : Nat := if a = 0 then b else if b = 0 then a else if coordKey b < coordKey a then b else a

def Cmd.coord (m : Cmd) : Nat := (m.sums.map (·.coord)).foldl firstCoord 0
def Cmd.allFlags (m : Cmd) : Nat := (m.sums.map (·.flags)).foldl (· ||| ·) m.flags

def EngSum.zero (e : Nat) : EngSum := ⟨e, 0, 0, List.replicate 69 0⟩
def Cmd.sumOf (m : Cmd) (e : Nat) : EngSum := (m.sums.find? (fun x => x.engine == e)).getD (EngSum.zero e)
def Cmd.setSum (m : Cmd) (x : EngSum) : Cmd := { m with sums := x :: m.sums.filter (fun y => y.engine != x.engine) }

/-- One install record (R208): its core, entry and descriptor. -/
def recCore (r : List Byte) : Nat := fieldAt r 0 1
def recEntry (r : List Byte) : Nat := fieldAt r 1 1
def recDesc (r : List Byte) : List Byte := (r.drop 16).take 128

/-- ARG0 and ARG1 of a command (R205). -/
def Cmd.arg0 (m : Cmd) : Nat := fieldAt m.slot 0x20 8
def Cmd.arg1 (m : Cmd) : Nat := fieldAt m.slot 0x28 8

/-- The HIST_CIRCUIT of a command's install records on core k, and HIST_ADDR. -/
def histTarget (records : List (List Byte)) (k : Nat) : Option (Nat × Nat) :=
  (records.find? (fun r => recCore r == k && descUnit (recDesc r) == 1 && engHistAddr (recDesc r) != 0)).map
    (fun r => (engHistCirc (recDesc r), engHistAddr (recDesc r)))

/-- The install records of a LAUNCH (R208). -/
def launchRecords (m : Cmd) : List (List Byte) := cutEntries 144 m.arg0 (if m.arg1 = 0 then m.slot.drop 0x40 else m.records)

/-- Histogram counts wait for their delivery: on a core whose descriptors name a record (R152, R153). -/
def Cmd.histWaits (m : Cmd) : Bool :=
  m.sums.any (fun x => decide (x.hist.sum ≠ 0) && (histTarget (launchRecords m) (x.engine / 4)).isSome)

/-- A save holds a descriptor of the command (R215). -/
def State.savedFor (s : State) (r : CmdRef) : Bool :=
  s.ctxs.any (fun x => x.2.saves.any (fun v => (v.entry0.map (·.cmd)) == some r || (v.entry1.map (·.cmd)) == some r))

/-- A histogram delivery of the command is still to come on a circuit: counts of the core that names it, or a saved descriptor (R153, R215). -/
def State.histDue (s : State) (c : Nat) (r : CmdRef) : Bool :=
  match s.cmd r with
  | none => false
  | some m => !m.finished
      && (m.sums.any (fun y => decide (y.hist.sum ≠ 0) && (histTarget (launchRecords m) (y.engine / 4)).map (·.1) == some c)
        || s.ctxs.any (fun x => x.2.saves.any (fun v => (v.entry0.toList ++ v.entry1.toList).any (fun e =>
            e.cmd == r && engHistAddr e.desc != 0 && engHistCirc e.desc == c))))

/-- A mover's transfers on its circuit are all made: each firing is done, or has its data where it belongs. -/
def State.transfersMade (s : State) (k e : Nat) (x : Entry) : Bool :=
  decide (descFirings x.desc ≤ x.done +
    (s.firings.filter (fun f => f.core == k && f.entry == e && (f.stage == .finished || f.stage == .poisoned))).length)

/-- A command has no transfer left to make on a circuit, no waiting token and no token short of its LAST slot: it is no longer pending there
(R99). -/
def State.pendDone (s : State) (c : Nat) (r : CmdRef) : Bool :=
  let x := s.circ c
  let n := (s.hops c).length
  !x.ready.any (fun t => t.cmd == r) && !x.flight.any (fun t => t.2.cmd == r && decide (t.1 < n))
  && !((s.seg c).sent ++ (s.seg c).resend).any (fun t => t.tok.cmd == r)
  && !s.installed.any (fun e => e.2.2.cmd == r && ((descUnit e.2.2.desc == 3 && moverCirc e.2.2.desc == c && !s.transfersMade e.1 e.2.1 e.2.2)
      || (descUnit e.2.2.desc == 1 && engHistAddr e.2.2.desc != 0 && engHistCirc e.2.2.desc == c)))
  && !s.histDue c r

def State.pendCheck (s : State) (c : Nat) (r : CmdRef) : State :=
  if (s.circ c).pend.contains r && s.pendDone c r then
    s.setCirc c ((s.circ c).unpend r)
  else s

/-! ## Discarding (R102, R105, R173, R443 step 4) -/

/-- A bank in use by a descriptor entry becomes free. -/
def Bank.drop (b : Bank) (e : Nat) : Bank := if b.st ≠ .free ∧ b.entry = e then Bank.empty else b

def Engine.drop (g : Engine) (e : Nat) : Engine :=
  let fed := g.accumulating.any (fun b => (g.bank b).entry == e)
  { g with bank0 := g.bank0.drop e, bank1 := g.bank1.drop e, opnd := (if fed then none else g.opnd),
           drain := if (g.drain.map (·.entry)) = some e then none else g.drain }

/-- A descriptor's hold on its queues ends: held slots become credits, and the queue has no such consumer or producer. -/
def State.releaseQueues (s : State) (k e : Nat) : State :=
  { s with queues := s.queues.map (fun x =>
      if x.1 / 64 ≠ k then x
      else
        let q := x.2
        let q := if q.consumer = e then { q.freeIn q.heldIn with consumer := 0xFF } else q
        (x.1, if q.producer = e then { q with heldOut := 0, producer := 0xFF } else q)) }

/-- Tile id of firing f of a tile reader or stager (R263). -/
def tileId (d : List Byte) (f : Nat) : Nat := (((moverAddr d : Int) + f * moverStride d) % (2 ^ 64 : Nat)).toNat

/-- The reverts that a discarded descriptor's claims need (R266). -/
def State.claimsToRevert (s : State) (k e : Nat) (x : Entry) : List Revert :=
  s.firings.filterMap (fun f =>
    if f.core = k ∧ f.entry = e then
      match f.stage with
      | .claimed w next => some ⟨k, e, f.f, s.partOfCtx (descCtx x.desc), tileId x.desc f.f, w, next, if f.fail = 0 then stFenced else f.fail,
          descCtx x.desc, descLayer x.desc, descOper x.desc, x.cmd⟩
      | _ => none
    else none)

/-- A tile fence ends once no firing that it waits for is left (R273). -/
def State.tileFenceCheck (s : State) (p : Nat) : State :=
  if s.flag Fld.HUB_TT_CTL_FENCE p
    ∧ !s.firings.any (fun f => f.fenced && ((s.entry f.core f.entry).map (fun x => s.partOfCtx x.ctx)) == some p)
  then s.setFld Fld.HUB_TT_CTL_FENCE p 0 else s

/-- A descriptor is discarded: its firings, its accumulations, its vector program and its entry go. A tile fence waits for them no more. -/
def State.dropEntry (s : State) (k e : Nat) : State :=
  match s.entry k e with
  | none => s
  | some x =>
    let s := s.releaseQueues k e
    let s := { s with reverts := s.reverts ++ s.claimsToRevert k e x, firings := s.firings.filter (fun f => !(f.core == k && f.entry == e)) }
    let s := if (s.vecRun k).map (·.entry) = some e then s.setVecRun k none else s
    let s := if descUnit x.desc = 1 then s.setEngine (engineOf k x.desc) ((s.engine (engineOf k x.desc)).drop e) else s
    (s.setEntry k e none).tileFenceCheck (s.partOfCtx x.ctx)

def State.dropEntries (s : State) (l : List (Nat × Nat × Entry)) : State := l.foldl (fun s e => s.dropEntry e.1 e.2.1) s

/-- A command's tokens on one circuit are discarded with their credits returned: waiting ones hold none, those in flight and in the
adder's buffer do. Contributions count as retired. Instances that have left on a fabric port stay: their credits return from the consumer
(R105, R358) (DEDUCED, log 60). mine selects tokens by the context that owns their descriptor. -/
def State.discardOn (s : State) (r : CmdRef) (c : Nat) (mine : Nat → Bool := fun _ => true) : State :=
  let x := s.circ c
  let its := fun (t : Token) => t.cmd == r && mine t.ctx
  let gone := x.flight.filter (fun t => its t.2)
  let held := s.contribs.filter (fun t => t.circ == c && its t.tok)
  let n := gone.length + held.length
  let s := if s.isReduce c then s.countRetired c n else s
  let joined := s.queueConsumes c
  let s := { s with contribs := s.contribs.filter (fun t => !(t.circ == c && its t.tok)) }
  let y : Circ := { x.unpend r with
    ready := x.ready.filter (fun t => !its t)
    flight := x.flight.filter (fun t => !its t.2)
    held := x.held - held.length }
  s.setCirc c (if joined.isSome ∨ n = 0 then y else y.addCredits s.ft n)

def State.discardTokens (s : State) (r : CmdRef) (mine : Nat → Bool := fun _ => true) : State :=
  (s.circs.map (·.1)).foldl (fun s c => s.discardOn r c mine) s

/-- The tokens of a command in one queue become credits; those that stay close up, and with them the slots that the producer holds. -/
def State.dropOwn (s : State) (r : CmdRef) (key : Nat) : State :=
  let v := Store.get (fun _ => Queue.none) s.queues key
  let k := key / 64
  let keep := (List.range v.tokens).filter (fun i => decide (v.own[i]? ≠ some r))
  if keep.length = v.tokens then s
  else
    let src := keep ++ (List.range v.heldOut).map (fun i => v.tokens + i)
    let s := src.zipIdx.foldl (fun s m =>
      if m.1 = m.2 then s
      else s.setBytes (sramOf k (v.slotAt (v.heldIn + m.2))) (s.bytes (sramOf k (v.slotAt (v.heldIn + m.1))) v.slotBytes)) s
    s.setQueue k (key % 64) { v with tokens := keep.length, own := v.own.filter (· != r) }

/-- A command's tokens in the queues that are circuits' buffers are discarded, and their credits return (R102, R168, R373). -/
def State.dropOwnTokens (s : State) (r : CmdRef) : State :=
  ((s.queues.filter (fun x => x.2.valid && (x.2.circ.isSome || x.2.feeds.isSome))).map (·.1)).foldl (fun s key => s.dropOwn r key) s

/-- An ending event that discards the command's tokens on every circuit, delivered ones too (R102, R373, R374, R404). -/
def dropsTokens (status : Nat) : Bool := status == stSlipLimit || status == stDead || status == stHostLost

/-- R212: an ending event. The first status stands, of two in one beat the lower; the command's descriptors and tokens go, those of the contexts that mine
selects, and it ends at its COMMAND_END. -/
def State.endCmd (s : State) (r : CmdRef) (status detail : Nat) (mine : Nat → Bool) : State :=
  match s.cmd r with
  | none => s.dropEntries ((s.cmdEntries r).filter (fun e => mine e.2.2.ctx))
  | some m =>
    if m.status ≠ 0 then
      if m.failBeat = s.ft ∧ status < m.status then s.updCmd r (fun m => { m with status := status, detail := detail }) else s
    else
      let s := s.updCmd r (fun m => { m with status := status, failBeat := s.ft, detail := detail, finished := true })
      let s := s.dropEntries ((s.cmdEntries r).filter (fun e => mine e.2.2.ctx))
      let s := s.discardTokens r mine
      let s := if dropsTokens status then s.dropOwnTokens r else s
      { s with walks := s.walks.filter (fun w => !(w.ctx == r.ctx && w.seq == r.seq)) }

def State.failCmd (s : State) (r : CmdRef) (status : Nat) (detail : Nat := 0) : State := s.endCmd r status detail (fun _ => true)

/-- A fence of context c ends a command: descriptors that it installed with another context's id, and their tokens, are that context's, and stay (R173, R209). -/
def State.fenceCmd (s : State) (r : CmdRef) (status : Nat) : State := s.endCmd r status 0 (fun c => c == r.ctx)

/-- A header check of R205 that only the command's records or queues decide fails: the command completes without having started. -/
def State.failHeader (s : State) (r : CmdRef) (reason : Nat) : State :=
  (s.failCmd r stBadCommand reason).updCmd r (fun m => { m with reason := reason, started := false, startBeat := 0, cntStart := [] })

/-- A command goes on to its end. -/
def State.finishCmd (s : State) (r : CmdRef) : State := s.updCmd r (fun m => { m with finished := true })

/-- The worse of two statuses of accesses: the one with the lowest encoding, OK apart (R293). -/
def worse (a b : Nat) : Nat := if a = 0 then b else if b = 0 then a else min a b

/-- An access of a context's command ended with a status that COMPLETE counts (R210, R293): poisoned data does not count. -/
def State.coverCtx (s : State) (c status : Nat) : State :=
  if status = 0 ∨ status = stPoisoned then s else s.updCtx c (fun x => { x with covered := worse x.covered status })

/-- The ids of an event that a command causes (R503). -/
def cmdEvent (s : State) (code kind unit : Nat) (c : Nat) (m : Cmd) (data : Nat) : EvRec :=
  ⟨s.ft, code, kind, unit, some c, m.layer, m.oper, m.seq, data⟩

/-- The ids of an event that a descriptor causes. -/
def descEvent (s : State) (code kind unit : Nat) (e : Entry) (data : Nat) : EvRec :=
  ⟨s.ft, code, kind, unit, some e.ctx, descLayer e.desc, descOper e.desc, e.cmd.seq, data⟩

/-- A context runs: new firings and commands may start (R195, R215, R341). -/
def State.ctxRuns (s : State) (c : Nat) : Bool := (s.ctx c).st == .running

/-- The command that a descriptor counts for is replayed alone, or no recovery holds it: its context runs. -/
def State.entryRuns (s : State) (e : Entry) : Bool := e.enabled && s.ctxRuns e.ctx

/-! ## Firings of descriptors (R169 to R172) -/

/-- An engine made progress: the count of R449 restarts. -/
def State.progress (s : State) (e : Nat) : State := { s.setFld Fld.EN_HANG_IDLE e 0 with hangRuns := Store.del s.hangRuns e }

/-- A descriptor may start a firing: its context runs, it has firings left, and no gate, fence or lossless trace holds its unit
(R171, R172, R417, R443, R514). -/
def State.mayFire (s : State) (k : Nat) (x : Entry) : Bool :=
  s.entryRuns x && decide (x.started < descFirings x.desc) && !s.coreHeld k && !s.clusterFenced (clusterOfCore k)
  && !s.traceHolds 1 1 k (descLayer x.desc) (descOper x.desc)

/-- A firing starts: its count and trace packet (R497, R513). -/
def State.fireStart (s : State) (k e : Nat) (x : Entry) : State :=
  let s := s.setEntry k e (some { x with started := x.started + 1 })
  (s.countCore k 0x18 0 1).packet 1 ⟨descEvent s 0 1 k x (e + x.started % 2 ^ 32 * 2 ^ 32), 1, descUnit x.desc⟩

/-- A descriptor retires (R172): its entry becomes free, and its circuit is looked at. -/
def State.retireEntry (s : State) (k e : Nat) (x : Entry) : State :=
  let s := ((s.releaseQueues k e).setEntry k e none).event (descEvent s 0x8004 1 k x e)
  let s := if descUnit x.desc = 3 then s.pendCheck (moverCirc x.desc) x.cmd else s
  if descUnit x.desc = 1 ∧ engHistAddr x.desc ≠ 0 then s.pendCheck (engHistCirc x.desc) x.cmd else s

/-- A firing completes (R169, R172). -/
def State.firingDone (s : State) (k e : Nat) (x : Entry) : State :=
  if x.done + 1 ≥ descFirings x.desc then s.retireEntry k e x else s.setEntry k e (some { x with done := x.done + 1 })

/-- The lowest entry of a core that satisfies p (R171). -/
def State.lowestEntry (s : State) (k : Nat) (p : Nat → Entry → Bool) : Option (Nat × Entry) :=
  (List.range 64).findSome? (fun i => match s.entry k i with
    | some x => if p i x then some (i, x) else none
    | none => none)

end Sys2Proof.Machine
end

