-- ==== Sys2Proof/Machine/Counters.lean ====
section
/-! DEFINITION. Counter selectors as they take effect, and the latches of counters (R189, R498, R500). -/

namespace Sys2Proof.Machine

/-- A selector's fields, VALUE's field and instance of counter i of a unit of a kind: 1 core, 2 cluster, 3 hub. -/
structure CounterRegs where
  event : Field
  ovfEvent : Field
  value : Field
  ovf : Field
  per : Nat

def counterRegs : Nat → CounterRegs
  | 1 => ⟨Fld.CO_CNT_SEL_EVENT, Fld.CO_CNT_SEL_OVF_EVENT, Fld.CO_CNT_VALUE, Fld.CO_CNT_OVF, 8⟩
  | 2 => ⟨Fld.CL_CNT_SEL_EVENT, Fld.CL_CNT_SEL_OVF_EVENT, Fld.CL_CNT_VALUE, Fld.CL_CNT_OVF, 16⟩
  | _ => ⟨Fld.HUB_CNT_SEL_EVENT, Fld.HUB_CNT_SEL_OVF_EVENT, Fld.HUB_CNT_VALUE, Fld.HUB_CNT_OVF, 32⟩

/-- A written selector takes effect (R498): VALUE becomes 0; a code that the unit does not count becomes 0. -/
def State.applySel (s : State) (kind unit i : Nat) : State :=
  let g := counterRegs kind
  let n := unit * g.per + i
  let code := s.fld g.event n
  let s := if eventOk kind code then s else s.setFld g.event n 0
  let s := s.setFld g.value n 0
  let key := selKey kind unit i
  { s with sels := Store.set (fun _ => 0) s.sels key (s.fld g.event n + s.fld g.ovfEvent n * 2 ^ 16),
           selPend := s.selPend.filter (· != key) }

/-- Every selector of a unit that waits takes effect. -/
def State.applyUnit (s : State) (kind unit : Nat) : State :=
  (List.range (counterRegs kind).per).foldl (fun s i => if s.selPend.contains (selKey kind unit i) then s.applySel kind unit i else s) s

/-- A command start on a core applies the core's waiting selectors and its cluster's (R189, R498). -/
def State.applyCores (s : State) (cores : List Nat) : State :=
  cores.foldl (fun s k => (s.applyUnit 1 k).applyUnit 2 (clusterOfCore k)) s

/-- Bits of a latched word (R211): VALUE in [47:0], OVF in bit 48. -/
def State.latchWord (s : State) (kind unit i : Nat) : Nat :=
  let g := counterRegs kind
  s.fld g.value (unit * g.per + i) + s.fld g.ovf (unit * g.per + i) * 2 ^ 48

/-- Counters 0 to 7 of each core, latched together (R500). -/
def State.latchCores (s : State) (cores : List Nat) : List (Nat × List Nat) :=
  cores.map (fun k => (k, (List.range 8).map (s.latchWord 1 k)))

/-- Cores on which a command is in execution (R496). -/
def State.coresOf (s : State) (c : Nat) (m : Cmd) : List Nat := if m.opcode = 3 then bitsOf 128 m.coresField else [s.leadCore c]

/-- The 64 bytes of one core's latch; zeros where there is none. -/
def latchBytes (l : List (Nat × List Nat)) (k : Nat) : List Byte :=
  match l.find? (fun e => e.1 == k) with
  | some e => (e.2.map (leBytes 8)).flatten
  | none => List.replicate 64 0

end Sys2Proof.Machine
end

