-- ==== Sys2Proof/Machine/Share.lean ====
section
/-! DEFINITION. The coherent share of a memory channel (R30, R58, R232), and the channel time that refresh takes (R229, R230). -/

namespace Sys2Proof.Machine

/-- A controller that runs: not that of a fenced die's stack. -/
def State.channelRuns (s : State) (ch : Nat) : Bool := decide (ch < 40) && !(decide (ch < 8) && s.dieFenced (ch / 2)) && !s.fencing .chip

/-- COHERENT_MASK of a channel in the image in force; none before an image is in force (DESIGN CHOICE, log 66). -/
def State.shareMask (s : State) (ch : Nat) : Option Nat := ((shares s.tables).find? (fun h => h.channel == ch)).map (·.mask)

/-! ## Refresh -/

/-- Beats of a window of 125,000 that refresh needs at a level: 2.5 % of an HBM4 channel and 2.0 % of an LPDDR6 channel at level 0, twice as
many at each level above (R229). -/
def refreshNeed (ch level : Nat) : Nat := (if ch < 8 then 3125 else 2500) * 2 ^ level

/-- Beats of a window that refresh may take from a share: 75 % of the share's (R230). -/
def refreshCap (mask : Nat) : Nat := popcount 64 mask * 125000 * 3 / 256

/-- Beats that refresh takes from the share, and from the tensor plane, in a window at the level in force. -/
def State.refreshQuota (s : State) (ch : Nat) : Nat × Nat :=
  let need := refreshNeed ch (s.fld Fld.MEM_REFRESH_LEVEL ch)
  let share := min need (refreshCap ((s.shareMask ch).getD 0))
  (share, need - share)

/-- Beats of a quota whose deadline has come by this beat of the window (DESIGN CHOICE, log 67). -/
def State.refreshDueOf (s : State) (quota : Nat) : Nat := quota * (s.ft % 125000) / 125000

/-- A controller's counts of refresh, of the window of this beat. -/
def State.refreshCtl (s : State) (ch : Nat) : MemCtl :=
  let m := s.memCtl ch
  if m.window = s.ft / 125000 then m else { m with window := s.ft / 125000, shareTaken := 0, tensorTaken := 0 }

/-- Refresh of the share has reached its deadline (R232, rank 1). -/
def State.refreshLate (s : State) (ch : Nat) : Bool :=
  s.channelRuns ch && decide ((s.refreshCtl ch).shareTaken < s.refreshDueOf (s.refreshQuota ch).1)

/-- Refresh may take a share beat before its deadline (R232, rank 5). -/
def State.refreshEarly (s : State) (ch : Nat) : Bool :=
  s.channelRuns ch && decide ((s.refreshCtl ch).shareTaken < (s.refreshQuota ch).1)

/-- Refresh takes this beat of the share. -/
def State.takeShareBeat (s : State) (ch : Nat) : State :=
  let m := s.refreshCtl ch
  s.setMemCtl ch { m with shareTaken := m.shareTaken + 1, refBeat := some s.ft }

/-- Refresh that the share does not absorb is due in beats of the tensor plane. -/
def State.refreshTensorLate (s : State) (ch : Nat) : Bool :=
  s.channelRuns ch && (s.shareMask ch).isSome && decide ((s.refreshCtl ch).tensorTaken < s.refreshDueOf (s.refreshQuota ch).2)

/-- R230: a tensor-plane slot at a memory channel, of n beats: whether refresh delays its data. Which of the slots that find refresh due are
delayed is left open: a free value (log 67). -/
def State.refreshDelays (s : State) (ch n : Nat) : State × Bool :=
  if s.refreshTensorLate ch then
    if s.freeBit then
      let m := s.refreshCtl ch
      (s.spend.setMemCtl ch { m with tensorTaken := m.tensorTaken + n }, true)
    else (s.spend, false)
  else (s, false)

/-! ## The share -/

/-- This beat belongs to the share of the address's channel, and refresh neither has it nor is due in it. -/
def State.shareOpen (s : State) (a : Nat) : Bool :=
  match channelOf a with
  | none => true
  | some (ch, _) => match s.shareMask ch with
    | none => true
    | some mask => bit mask (s.ft % 64) && (s.memCtl ch).refBeat != some s.ft && !s.refreshLate ch

/-- Rank of a waiting line's request (R232): 2 for CPU cores and home agents, 3 for every other requester. -/
def Requester.rank (r : Requester) : Nat := if r.kind = .cpu then 2 else 3

/-- Lines of a channel whose homes await the controller (R319), with rank and order of arrival. -/
def State.awaiting (s : State) (ch : Nat) : List (Nat × Tx) :=
  s.homes.filterMap (fun h => match h.2.tx with
    | some t => if t.st = .mem ∧ (channelOf (h.1 * 64)).map (·.1) = some ch then some (h.1, t) else none
    | none => none)

/-- Order of R232: rank, then arrival. -/
def Tx.before (a b : Tx) : Bool := decide (a.rank < b.rank) || (a.rank == b.rank && decide (a.since < b.since))

/-- The request that a channel's share serves next. -/
def State.nextAwaiting (s : State) (ch : Nat) : Option (Nat × Tx) :=
  (s.awaiting ch).foldl (fun (b : Option (Nat × Tx)) x => match b with
    | none => some x
    | some y => if x.2.before y.2 then some x else b) none

/-- A request of a rank is served as it arrives: the share is open and nothing of its rank or a higher one waits for the channel. -/
def State.servedNow (s : State) (rank a : Nat) : Bool :=
  s.shareOpen a && (match channelOf a with
    | some (ch, _) => !(s.awaiting ch).any (fun x => decide (x.2.rank ≤ rank))
    | none => true)

end Sys2Proof.Machine
end

