-- ==== Sys2Proof/Machine/LlmCache.lean ====
section
/-! DEFINITION. The last-level memory in cache mode (R235 to R246): which way holds a sector, allocation and its victims, the
writeback buffer, and ways that fail. Data is held once, in memory; a way holds tag, valid and dirty bits (assumption log 6). -/

namespace Sys2Proof.Machine

/-- Cache-mode slices of base die n, ascending (R236), by the mode in force. -/
def State.cacheSlices (s : State) (n : Nat) : List Nat :=
  ((List.range 16).map (fun i => 16 * n + i)).filter (fun x => s.flag Fld.LLM_SLICE_MODE x)

/-- Where a cached address lies (R236): slice, set, tag and sector. -/
structure CachePlace where
  slice : Nat
  set : Nat
  tag : Nat
  sector : Nat
  deriving DecidableEq, Repr

def State.cachePlace (s : State) (a : Nat) : Option CachePlace :=
  match locate a with
  | .hbm k _ =>
    let sl := s.cacheSlices (k / 2)
    let nc := sl.length
    if nc = 0 then none
    else
      let line := a / 1024
      some ⟨sl.getD (line % nc) 0, line / nc % 1024, line / (nc * 1024), a / 256 % 4⟩
  | _ => none

/-- A way is disabled (R243, R244). -/
def State.wayOff (s : State) (slice w : Nat) : Bool := bit (s.fld Fld.LLM_SLICE_DISABLED slice) w

/-- The way that holds the line, if any: a disabled way is skipped (R244). -/
def State.cacheWay (s : State) (p : CachePlace) : Option Nat :=
  (List.range 16).find? (fun w => !s.wayOff p.slice w && (s.way p.slice p.set w).valid != 0 && (s.way p.slice p.set w).tag == p.tag)

/-- The sector is present, and in which way. -/
def State.cacheHit (s : State) (a : Nat) : Option (CachePlace × Nat) :=
  match s.cachePlace a with
  | some p => match s.cacheWay p with
    | some w => if bit (s.way p.slice p.set w).valid p.sector then some (p, w) else none
    | none => none
  | none => none

/-- Requester class (R238); none where the requester never allocates. -/
def Requester.cls (r : Requester) : Option Nat :=
  match r.kind with
  | .cpu => some 14
  | .tensor => if r.part < 14 then some r.part else none
  | .dma => if r.unit = 1 then some 15 else if r.part < 14 then some r.part else none
  | _ => some 15

/-- Ways in which a class may allocate (R57, R238), those being disabled (R244) and slices that a Solstice changes (R73) apart. -/
def State.allocWays (s : State) (slice : Nat) (cls : Option Nat) : List Nat :=
  match cls with
  | some c => (List.range 16).filter (fun w => !bit s.closing slice && bit (s.fld Fld.LLM_WAYS_WAY_MASK (slice / 16 * 16 + c)) w
      && !s.wayOff slice w && !(s.wayHealth slice w).disabling)
  | none => []

/-- Address of a sector of a line held by a way of a slice: the inverse of R236. -/
def State.sectorAddr (s : State) (slice set tag sector : Nat) : Nat :=
  let sl := s.cacheSlices (slice / 16)
  let nc := sl.length
  ((tag * 1024 + set) * nc + (sl.findIdx? (· == slice)).getD 0) * 1024 + sector * 256

/-- Stack of an HBM address. -/
def stackOf (a : Nat) : Nat := (a - hbmBase) / hbmStride

/-- Free entries of a stack's writeback buffer of 64 sectors (R240). -/
def State.wbufFree (s : State) (stack : Nat) : Nat := 64 - (s.wbuf.filter (fun e => e.stack == stack && e.fill.isNone)).length

/-- Addresses of a line's dirty sectors. -/
def State.dirtySectors (s : State) (slice set : Nat) (v : Way) : List Nat :=
  (bitsOf 4 (v.dirty &&& v.valid)).map (fun x => s.sectorAddr slice set v.tag x)

/-- R240: dirty sectors of a victim enter the writeback buffer. -/
def State.evictWay (s : State) (slice set w : Nat) : State :=
  let dirty := s.dirtySectors slice set (s.way slice set w)
  ({ s with wbuf := s.wbuf ++ dirty.map (fun a => CacheJob.mk (stackOf a) a none) }).setWay slice set w Way.empty

/-! ## The pseudo-LRU tree (R240) (DESIGN CHOICE, log 35)

Node 1 is the root, node n has the children 2n and 2n + 1, and way w is leaf 16 + w. Bit n names the half that a victim comes from. -/

def State.plruOf (s : State) (slice set : Nat) : Nat := Store.get (fun _ => 0) s.plru (slice * 1024 + set)

/-- An access to a way turns each node above it away from the way. -/
def plruTouch (t w : Nat) : Nat :=
  (List.range 4).foldl (fun t k => putBits t ((16 + w) / 2 ^ (4 - k)) 1 (1 - (16 + w) / 2 ^ (3 - k) % 2)) t

/-- The victim below a node, k levels above the ways: the half that the node names, where it holds a permitted way, else the other. -/
def plruVictim (t : Nat) (ok : Nat → Bool) : Nat → Nat → Nat
  | 0, node => node - 16
  | k + 1, node =>
    let c := 2 * node + getBits t node 1
    let c := if (List.range (2 ^ k)).any (fun i => ok (c * 2 ^ k + i - 16)) then c else 4 * node + 1 - c
    plruVictim t ok k c

def State.touchWay (s : State) (slice set w : Nat) : State :=
  { s with plru := Store.set (fun _ => 0) s.plru (slice * 1024 + set) (plruTouch (s.plruOf slice set) w) }

/-! ## Accesses -/

/-- R240: the way that an allocation takes: an invalid permitted way, the lowest-numbered; else the permitted one that the tree names, if its
dirty sectors fit in the buffer. -/
def State.allocate (s : State) (p : CachePlace) (cls : Option Nat) : State × Option Nat :=
  let ways := s.allocWays p.slice cls
  match ways.find? (fun w => (s.way p.slice p.set w).valid == 0) with
  | some w => (s.setWay p.slice p.set w ⟨p.tag, 0, 0⟩, some w)
  | none =>
    if ways.isEmpty then (s, none)
    else
      let w := plruVictim (s.plruOf p.slice p.set) ways.contains 4 1
      let v := s.way p.slice p.set w
      let stack := stackOf (s.sectorAddr p.slice p.set v.tag 0)
      if popcount 4 (v.dirty &&& v.valid) > s.wbufFree stack then (s, none)
      else ((s.evictWay p.slice p.set w).setWay p.slice p.set w ⟨p.tag, 0, 0⟩, some w)

/-- Marks sectors present in a way, dirty or not. -/
def State.markSectors (s : State) (p : CachePlace) (w mask : Nat) (dirty : Bool) : State :=
  let v := s.way p.slice p.set w
  (s.setWay p.slice p.set w { v with valid := v.valid ||| mask, dirty := if dirty then v.dirty ||| mask else v.dirty }).touchWay p.slice p.set w

def State.markSector (s : State) (p : CachePlace) (w : Nat) (dirty : Bool) : State := s.markSectors p w (2 ^ p.sector) dirty

/-- Counts of channel bytes in 64-byte units (R497). -/
def State.countChannel (s : State) (a n : Nat) (write : Bool) : State :=
  match locate a with
  | .hbm k _ => (s.countHub (if write then 2 else 1) k ((n + 63) / 64)).countHub (if write then 2 else 1) 8 ((n + 63) / 64)
  | .lpddr c _ => (s.countHub (if write then 4 else 3) (c / 4) ((n + 63) / 64)).countHub (if write then 4 else 3) 8 ((n + 63) / 64)
  | _ => s

/-- R237: an absent sector is allocated for a class, if its mask and R240 permit: the way that it stands in. -/
def State.allocSector (s : State) (p : CachePlace) (cls : Option Nat) (dirty : Bool) : State × Bool :=
  match s.cacheWay p with
  | some w => if (s.allocWays p.slice cls).contains w then (s.markSector p w dirty, true) else (s, false)
  | none => match s.allocate p cls with
    | (s, some w) => (s.markSector p w dirty, true)
    | (s, none) => (s, false)

/-- A fill of the buffer is made: the whole sector is read from HBM4 (R237), unless it has come meanwhile. -/
def State.fillSector (s : State) (e : CacheJob) : State :=
  let s := { s with wbuf := s.wbuf.erase e }
  match s.cachePlace e.addr, (s.cacheHit e.addr).isSome with
  | some p, false => match s.allocSector p e.fill false with
    | (s, true) => s.countChannel e.addr 256 false
    | (s, false) => s
  | _, _ => s

/-- The fill of a sector that waits for the share. -/
def State.fillOf (s : State) (a : Nat) : Option CacheJob := s.wbuf.find? (fun e => e.fill.isSome && e.addr == a / 256 * 256)

/-- One access of n bytes within a sector (R237, R239): a hit is served from the slice; a tensor-plane read that misses fills in its slot, a
coherent one leaves its fill to the share (R232). A write to a sector whose fill waits comes after the fill (R245). -/
def State.cacheAccess (s : State) (rq : Requester) (a n : Nat) (write : Bool) : State :=
  match s.cachePlace a with
  | none => s.countChannel a n write
  | some p =>
    let s := match s.fillOf a with
      | some e => if write then s.fillSector e else s
      | none => s
    let die := p.slice / 16
    match s.cacheHit a with
    | some (_, w) => (((if write then s.markSector p w true else s.touchWay p.slice p.set w).countHub 6 die 1).countHub 6 4 1)
    | none =>
      let s := (s.countHub 7 die 1).countHub 7 4 1
      if write then
        if n = 256 then (match s.allocSector p rq.cls true with
          | (s, true) => s
          | (s, false) => s.countChannel a n true)
        else s.countChannel a n true
      else if rq.kind = .tensor then
        match s.allocSector p rq.cls false with
        | (s, true) => s.countChannel a 256 false
        | (s, false) => s.countChannel a n false
      else
        let s := s.countChannel a n false
        match rq.cls, (s.fillOf a).isNone && !(s.allocWays p.slice rq.cls).isEmpty with
        | some c, true => { s with wbuf := s.wbuf ++ [⟨stackOf a, a / 256 * 256, some c⟩] }
        | _, _ => s

/-- The sectors that n bytes at a touch: first address and length in each. -/
def sectorsOf (a n : Nat) : List (Nat × Nat) :=
  (List.range ((a + n + 255) / 256 - a / 256)).map (fun i =>
    let lo := max a ((a / 256 + i) * 256)
    let hi := min (a + n) ((a / 256 + i + 1) * 256)
    (lo, hi - lo))

/-- The cache and the channel see an access to memory (R237, R239): whole sectors as such. -/
def State.throughCache (s : State) (rq : Requester) (a n : Nat) (write : Bool) : State :=
  (sectorsOf a n).foldl (fun s x => s.cacheAccess rq x.1 x.2 write) s

/-- R241: ZERO_LINE at the cache. Where the class may allocate the line's way, all four sectors become valid and dirty; otherwise sectors
that are present are overwritten, and the others are written in memory. -/
def State.cacheZero (s : State) (rq : Requester) (a : Nat) : State :=
  let a := a / 1024 * 1024
  match s.cachePlace a with
  | none => s.countChannel a 1024 true
  | some p =>
    let s := { s with wbuf := s.wbuf.filter (fun e => !(e.fill.isSome && e.addr / 1024 == a / 1024)) }
    match s.cacheWay p with
    | some w =>
      if (s.allocWays p.slice rq.cls).contains w then s.markSectors p w 0xF true
      else
        let v := (s.way p.slice p.set w).valid
        (s.markSectors p w v true).countChannel a (1024 - 256 * popcount 4 v) true
    | none => match s.allocate p rq.cls with
      | (s, some w) => s.markSectors p w 0xF true
      | (s, none) => s.countChannel a 1024 true

/-- A read of the address needs no beat of its channel: the sector is present (R239). -/
def State.inCache (s : State) (a : Nat) : Bool := (s.cacheHit a).isSome

/-! ## Ways that fail (R243 to R246) -/

/-- Lines that a way of a slice holds: set and line. -/
def State.wayLines (s : State) (slice w : Nat) : List (Nat × Way) :=
  (s.ways.filter (fun e => e.1 / 16 / 1024 == slice && e.1 % 16 == w)).map (fun e => (e.1 / 16 % 1024, e.2))

/-- R244 steps 2 and 3: lines of a way are settled in order, each once the buffer has room for its dirty sectors. -/
def State.settleLines (s : State) (slice w : Nat) : List (Nat × Way) → State
  | [] => s
  | l :: rest =>
    let dirty := s.dirtySectors slice l.1 l.2
    if dirty.length > s.wbufFree (stackOf (s.sectorAddr slice l.1 l.2.tag 0)) then s
    else
      let h := s.wayHealth slice w
      State.settleLines ((s.evictWay slice l.1 w).setWayHealth slice w { h with written := h.written + dirty.length }) slice w rest

/-- R244 step 4: the way has no line left: its bit is set, and the event recorded. -/
def State.wayDisabled (s : State) (slice w : Nat) : State :=
  let h := s.wayHealth slice w
  let s := s.setWayHealth slice w WayHealth.init
  let s := s.setFld Fld.LLM_SLICE_DISABLED slice (s.fld Fld.LLM_SLICE_DISABLED slice ||| 2 ^ w)
  let s := s.raise Fld.HUB_STICKY_LLM_WAY
  let die := slice / 16
  if s.flag Fld.LLM_WAY_REC_VALID die then s
  else
    let s := ((s.setFld Fld.LLM_WAY_REC_CAUSE die h.cause).setFld Fld.LLM_WAY_REC_SLICE die slice).setFld Fld.LLM_WAY_REC_WAY die w
    ((s.setFld Fld.LLM_WAY_REC_WRITTEN_BACK die h.written).setFld Fld.LLM_WAY_REC_POISONED die h.poisoned).raise Fld.LLM_WAY_REC_VALID die

/-- The disabling of a way goes on as far as the writeback buffers have room. -/
def State.settleWay (s : State) (slice w : Nat) : State :=
  if !(s.wayHealth slice w).disabling then s
  else
    let s := s.settleLines slice w (s.wayLines slice w)
    if (s.wayLines slice w).isEmpty then s.wayDisabled slice w else s

/-- R73: the lines of a slice that a Solstice changes are written back, as far as the buffers have room. -/
def State.closeSlice (s : State) (slice : Nat) : State := (List.range 16).foldl (fun s w => s.settleLines slice w (s.wayLines slice w)) s

/-- The slice holds no line, and none of its sectors waits to be written (R73). -/
def State.sliceClean (s : State) (slice : Nat) : Bool :=
  s.ways.all (fun e => e.1 / 16 / 1024 != slice)
  && s.wbuf.all (fun e => e.fill.isSome || (match s.cachePlace e.addr with
    | some p => p.slice != slice
    | none => true))

/-- Every way of a base die that is being disabled, and its slices that a Solstice changes. -/
def State.settleWays (s : State) (die : Nat) : State :=
  let s := ((List.range 16).filter (fun i => bit s.closing (16 * die + i))).foldl (fun s i => s.closeSlice (16 * die + i)) s
  (s.health.filter (fun e => e.2.disabling && e.1 / 16 / 16 == die)).foldl (fun s e => s.settleWay (e.1 / 16) (e.1 % 16)) s

/-- A dirty sector that reads uncorrectably: its granules are written poisoned, and it is no longer held (R244, R245). -/
def State.badSector (s : State) (slice set w x : Nat) : State :=
  let v := s.way slice set w
  let s := (granulesOf (s.sectorAddr slice set v.tag x) 256).foldl State.poisonGranule s
  s.setWay slice set w { v with valid := v.valid &&& (15 - 2 ^ x), dirty := v.dirty &&& (15 - 2 ^ x) }

/-- R244: a way begins to be disabled. bad: addresses of its dirty sectors that read uncorrectably. -/
def State.disableWay (s : State) (slice w cause : Nat) (bad : List Nat) : State :=
  let lost := ((s.wayLines slice w).map (fun l => ((bitsOf 4 (l.2.dirty &&& l.2.valid)).filter (fun x =>
    bad.contains (s.sectorAddr slice l.1 l.2.tag x))).map (fun x => (l.1, x)))).flatten
  let s := lost.foldl (fun s x => s.badSector slice x.1 w x.2) s
  (s.setWayHealth slice w ⟨[], true, cause, 0, lost.length⟩).settleWay slice w

/-- WAY_DISABLE: an error in a way (R243, R245), and the way's disabling where R243 asks for it. An uncorrectable error in a clean sector only
loses the sector, in a dirty one its granules become poisoned: bad names those dirty sectors. -/
def State.wayError (s : State) (slice w : Nat) (uncorrectable : Bool) (bad : List Nat) : State :=
  if slice ≥ 64 ∨ w ≥ 16 ∨ !s.flag Fld.LLM_SLICE_MODE slice ∨ s.wayOff slice w ∨ (s.wayHealth slice w).disabling then s
  else if uncorrectable then s.disableWay slice w 2 bad
  else
    let h := s.wayHealth slice w
    let s := (s.bump Fld.LLM_SLICE_CORRECTED slice).setWayHealth slice w { h with beats := (s.ft :: h.beats).take 3 }
    if h.beats.length = 3 ∧ s.ft < h.beats.getD 2 0 + 125000000 then s.disableWay slice w 1 bad else s

/-- WAY_REENABLE: bits of DISABLED cleared by writing 1; the ways count afresh (R246). -/
def State.wayReenable (s : State) (slice mask : Nat) : State :=
  let off := s.fld Fld.LLM_SLICE_DISABLED slice
  let s := s.setFld Fld.LLM_SLICE_DISABLED slice (off - (off &&& mask % 2 ^ 16))
  (bitsOf 16 (off &&& mask)).foldl (fun s w => s.setWayHealth slice w WayHealth.init) s

end Sys2Proof.Machine
end

