-- ==== Sys2Proof/Machine/Coherence.lean ====
section
/-! DEFINITION. The coherence protocol (chapter 11): homes (R317 to R320, R326), caching agents (R316, R325), and the messages
between them. A message row delivers the message of its operand: it leaves the network if it is there. -/

namespace Sys2Proof.Machine

/-! ## Messages -/

def mRdS : Nat := 0x01
def mRdX : Nat := 0x02
def mUpg : Nat := 0x03
def mNCRd : Nat := 0x04
def mNCWr : Nat := 0x05
def mNCWrP : Nat := 0x06
def mNCAtom : Nat := 0x07
def mZeroL : Nat := 0x08
def mPutM : Nat := 0x09
def mPutO : Nat := 0x0A
def mSnpS : Nat := 0x0C
def mSnpInv : Nat := 0x0D
def mSnpRcl : Nat := 0x0E
def mRspI : Nat := 0x10
def mRspS : Nat := 0x11
def mRspV : Nat := 0x12
def mCmpAck : Nat := 0x13
def mCmpPut : Nat := 0x14
def mGntM : Nat := 0x15
def mNCCmp : Nat := 0x16
def mRspOD : Nat := 0x18
def mRspSD : Nat := 0x19
def mRspID : Nat := 0x1A
def mDataS : Nat := 0x1C
def mDataE : Nat := 0x1D
def mDataM : Nat := 0x1E
def mNCData : Nat := 0x1F
/-- The home's own request for a victim (R320), no message of R313: line is the victim, tag the line that needs the way. -/
def mVictim : Nat := 0

/-- AGENT of a non-caching requester in the error records (R331). -/
def ncAgent : Nat := 0x60

/-- A message without data. -/
def msg (code line agent : Nat) : Msg := ⟨code, line, agent, [], 0, 0, 0, 0, 0⟩

def State.send (s : State) (m : Msg) : State := { s with net := s.net ++ [m] }

def State.sendAll (s : State) (ms : List Msg) : State := { s with net := s.net ++ ms }

/-- The message leaves the network (DESIGN CHOICE, log 33). -/
def State.deliver (s : State) (m : Msg) : State := { s with net := s.net.erase m }

/-- Home of a line (R310): HBM homes 0 to 7, then LPDDR homes as 8 to 15; none outside HBM and LPDDR. -/
def homeOf (line : Nat) : Option Nat :=
  match locate (line * 64) with
  | .hbm k _ => some k
  | .lpddr c _ => some (8 + c / 4)
  | _ => none

/-- The home stands on a fenced base die (R330). -/
def State.homeFenced (s : State) (line : Nat) : Bool :=
  match homeOf line with
  | some h => decide (h < 8) && s.dieFenced (h / 2)
  | none => false

/-! ## Memory at the home -/

/-- The line's 64 bytes as the controller returns them, with POISON bits (R226). -/
def State.memLine (s : State) (rq : Requester) (line : Nat) : State × List Byte × Nat :=
  let s := s.throughCache rq (line * 64) 64 false
  let a := s.readGranule (line * 64) .demand
  let b := a.1.readGranule (line * 64 + 32) .demand
  (b.1, a.2.2 ++ b.2.2, (if a.2.1 then 1 else 0) + (if b.2.1 then 2 else 0))

/-- The home writes a line's data, its poisoned granules poisoned (R327). -/
def State.writeLine (s : State) (rq : Requester) (line : Nat) (data : List Byte) (poison : Nat) : State :=
  let s := s.throughCache rq (line * 64) 64 true
  let s := (s.writeMem (line * 64) data).1
  let s := if bit poison 0 then s.poisonGranule (line * 64) else s
  if bit poison 1 then s.poisonGranule (line * 64 + 32) else s

/-- The requester for which the home acts: a CPU line (R238), or a non-caching requester. -/
def cpuRq : Requester := ⟨.cpu, 0, 0xFE⟩

/-- Atomic operations (R313, R323): 0 swap, 1 add, 2 xor, 3 and, 4 or, 5 signed min, 6 signed max, 7 unsigned min, 8 unsigned max,
9 compare-and-swap; on the old value, the operand and the value to compare with, of w bits. -/
def atomicResult (op w old x cmp : Nat) : Nat :=
  match op with
  | 0 => x
  | 1 => (old + x) % 2 ^ w
  | 2 => old ^^^ x
  | 3 => old &&& x
  | 4 => old ||| x
  | 5 => if toInt w old ≤ toInt w x then old else x
  | 6 => if toInt w x ≤ toInt w old then old else x
  | 7 => min old x
  | 8 => max old x
  | _ => if old = cmp then x else old

/-- R317: a non-caching write, atomic or ZERO_LINE share is performed at memory: state, status, and the old value of an atomic. The cache has seen
the whole ZERO_LINE (R241). -/
def State.performNc (s : State) (rq : Requester) (m : Msg) : State × Nat × List Byte :=
  let a := m.line * 64 + m.off
  if m.code = mZeroL then ((s.writeMem (m.line * 64) (List.replicate 64 0)).1, stOk, [])
  else if m.code = mNCAtom then
    let r := s.readMem a m.len .rmw
    if r.2.1 then (r.1, stPoisoned, [])
    else
      let old := leNat r.2.2
      let new := atomicResult m.op (8 * m.len) old (leNat (m.data.take m.len)) (leNat (m.data.drop m.len))
      let s := r.1.throughCache rq a m.len true
      let w := s.writeMem a (leBytes m.len new)
      (w.1, if w.2 then stPoisoned else stOk, r.2.2)
  else
    let s := s.throughCache rq a m.data.length true
    let w := s.writeMem a m.data
    (w.1, if w.2 then stPoisoned else stOk, [])

/-- NCCmp or NCData: the answer to a non-caching requester, status in off (R313). -/
def State.answerNc (s : State) (m : Msg) (code status : Nat) (data : List Byte) (poison : Nat) : State :=
  s.send { msg code m.line ncAgent with data := data, poison := poison, off := status, len := m.len, tag := m.tag }

/-- Any write to a line clears reservations kept at its home or endpoint (R324). -/
def State.clearResv (s : State) (line : Nat) : State := { s with resvs := s.resvs.filter (fun r => r.line != line) }

/-! ## Home errors (R326) -/

def State.homeState (s : State) (line : Nat) : Nat :=
  match (s.home line).tx with
  | some t => t.st.code
  | none => (s.home line).st.code

def State.noteHomeErr (s : State) (m : Msg) : State :=
  let s := s.raise Fld.HUB_STICKY_COH_PROTOCOL
  match homeOf m.line with
  | none => s
  | some h =>
    let put := fun (v a g st l : Field) (i : Nat) =>
      if s.flag v i then s
      else ((((s.setFld a i m.agent).setFld g i m.code).setFld st i (s.homeState m.line)).setFld l i m.line).raise v i
    if h < 8 then
      put Fld.BD_COH_ERR_VALID Fld.BD_COH_ERR_AGENT Fld.BD_COH_ERR_MSG Fld.BD_COH_ERR_STATE Fld.BD_COH_ERR_LINE h
    else
      put Fld.HUB_COH_ERR_VALID Fld.HUB_COH_ERR_AGENT Fld.HUB_COH_ERR_MSG Fld.HUB_COH_ERR_STATE Fld.HUB_COH_ERR_LINE (h - 8)

/-- Agents that an entry lists: the owner and the sharers. -/
def HomeLine.listed (h : HomeLine) : Nat :=
  match h.st with
  | .di => 0
  | .ds => h.sharers
  | .dx => 2 ^ h.owner
  | .dox => h.sharers ||| 2 ^ h.owner

/-- Snoops of a code to every agent of a mask, with their count (SNOOPS_SENT, R497). -/
def State.snoop (s : State) (code line mask : Nat) : State :=
  let s := s.sendAll ((bitsOf 96 mask).map (fun a => msg code line a))
  match homeOf line with
  | some h => s.countHub 9 h (popcount 96 mask)
  | none => s

/-- The home's grant of a request: DataS, DataE, DataM or GntM to its requester. -/
def grantMsg (code line agent : Nat) (data : List Byte) (poison : Nat) : Msg :=
  { msg code line agent with data := data, poison := poison }

/-- Answers still to come that the home discards after an error: those of agents snooped before it and by it, and the CmpAck of a grant that
was sent before it or answers the requester now. -/
def HomeLine.owing (h : HomeLine) (snooped : Nat) (req : Option Msg) : List Nat :=
  let before := match h.tx with
    | some t => bitsOf 96 t.await
    | none => []
  let ack := match req with
    | some q => if q.code ≤ mUpg then [128 + q.agent] else []
    | none => []
  h.owed ++ before ++ bitsOf 96 snooped ++ ack

/-- R326: an unexpected event at a home. -/
def State.homeError (s : State) (m : Msg) : State :=
  let h := s.home m.line
  let s := s.noteHomeErr m
  let s := (s.poisonGranule (m.line * 64)).poisonGranule (m.line * 64 + 32)
  let snooped := h.listed ||| (if m.agent < 96 then 2 ^ m.agent else 0)
  let s := s.snoop mSnpInv m.line snooped
  let req := match h.tx with
    | some (t : Tx) => if t.st = TxSt.bi then none else some t.req
    | none => if m.code ≤ mZeroL then some m else none
  let zero := List.replicate 64 (0 : Byte)
  let s := match req with
    | none => s
    | some q =>
      if q.code = mRdS then s.send (grantMsg mDataS m.line q.agent zero 3)
      else if q.code = mRdX ∨ q.code = mUpg then s.send (grantMsg mDataM m.line q.agent zero 3)
      else if q.code = mNCRd then s.answerNc q mNCData stPoisoned zero 3
      else if q.code ≤ mZeroL ∧ q.code ≥ mNCWr then s.answerNc q mNCCmp stPoisoned [] 0
      else if q.code = mPutM ∨ q.code = mPutO then s.send (msg mCmpPut m.line q.agent)
      else s
  s.setHome m.line { HomeLine.init with waiting := h.waiting, owed := h.owing snooped req }

/-! ## Home transactions (R312, R317, R318) -/

def State.setTx (s : State) (line : Nat) (t : Option Tx) : State := s.setHome line { s.home line with tx := t }

/-- The directory forgets a copy; an entry without copies is DI. -/
def HomeLine.drop (h : HomeLine) (a : Nat) : HomeLine :=
  let sh := if bit h.sharers a then h.sharers - 2 ^ a else h.sharers
  if h.st = .ds ∧ sh = 0 then { h with st := .di, sharers := 0 } else { h with sharers := sh }

/-- Sharers without one agent. -/
def without (mask a : Nat) : Nat := if bit mask a then mask - 2 ^ a else mask

/-- Number of directory entries in the line's set (R310), the line itself apart. -/
def lineNumber (line : Nat) : Nat :=
  match locate (line * 64) with
  | .hbm _ off => off / 64
  | .lpddr c off => ((c % 4) * lpddrStride + off) / 64
  | _ => 0

/-- The line takes a way of its directory: it has copies, or an agent's request for it is in progress. -/
def HomeLine.entry (h : HomeLine) : Bool :=
  h.st != .di || (match h.tx with
    | some t => decide (t.req.code ≤ mUpg)
    | none => false)

def State.dirSet (s : State) (line : Nat) : List (Nat × HomeLine) :=
  s.homes.filter (fun e => e.1 != line && homeOf e.1 == homeOf line && lineNumber e.1 % 131072 == lineNumber line % 131072 && e.2.entry)

/-- The requester of a message, as the home sees it: a caching agent's request is a CPU line's. -/
def State.msgRq (s : State) (m : Msg) : Requester :=
  if m.agent < 96 then ⟨.cpu, m.agent, 0xFE⟩
  else match s.opens.find? (fun o => o.id == m.tag) with
    | some o => o.who
    | none => cpuRq

/-- The line's transaction awaits the controller (HB_MEM), with its rank and order of arrival there (R232). -/
def State.awaitCtl (s : State) (line : Nat) (h : HomeLine) (t : Tx) : State :=
  ({ s with arrivals := s.arrivals + 1 }).setHome line { h with
    tx := some { t with st := .mem, rank := (s.msgRq t.req).rank, since := s.arrivals } }

def State.awaitMemory (s : State) (m : Msg) : State := s.awaitCtl m.line (s.home m.line) (Tx.start .mem m 0 false)

/-- A request that writes is served as it arrives: the sector is cached, or a beat of the channel's share is there for it (R30). -/
def State.lineServed (s : State) (m : Msg) : Bool :=
  s.inCache (m.line * 64) || s.servedNow (s.msgRq m).rank (m.line * 64)

/-- A line in HB_MEM may be served: its sector is cached, or the share is open and no request precedes it (R30, R232). -/
def State.mayServe (s : State) (line : Nat) : Bool :=
  s.inCache (line * 64) || (s.shareOpen (line * 64) && (match channelOf (line * 64) with
    | some (ch, _) => (s.nextAwaiting ch).map (·.1) == some line
    | none => true))

/-- The home snoops the agents of a mask with a code and awaits their answers (HB_SNP). -/
def State.awaitSnoops (s : State) (m : Msg) (code mask : Nat) (listed : Bool) : State :=
  (s.snoop code m.line mask).setTx m.line (some (Tx.start .snp m mask listed))

/-- A grant awaits the requester's CmpAck (HB_ACK). -/
def State.grant (s : State) (m : Msg) (h : HomeLine) (code : Nat) (data : List Byte) (poison : Nat) : State :=
  (s.send (grantMsg code m.line m.agent data poison)).setHome m.line { h with tx := some (Tx.start .ack m 0 false) }

/-- R317, R318: the request that moves a listed holder to M without data. -/
def State.grantOwner (s : State) (m : Msg) : State :=
  s.grant m { s.home m.line with st := .dx, owner := m.agent, sharers := 0 } mGntM [] 0

/-- The directory after the owner's Put (R317). -/
def HomeLine.putDone (h : HomeLine) : HomeLine :=
  if h.st = .dox ∧ h.sharers ≠ 0 then { h with st := .ds, owner := 0x7F } else { h with st := .di, owner := 0x7F, sharers := 0 }

/-- The owner's Put is written, and accepted. -/
def State.putWrite (s : State) (m : Msg) : State := (s.writeLine cpuRq m.line m.data m.poison).send (msg mCmpPut m.line m.agent)

/-- A non-caching write in DI, or in DS, where the sharers are then invalidated (R317): performed at memory, with what ends it. The answer's
status and data stand in the request while the sharers answer. -/
def State.ncWriteDs (s : State) (m : Msg) : State :=
  let p := s.performNc (s.msgRq m) m
  p.1.awaitSnoops { m with data := p.2.2, op := p.2.1 } mSnpInv (s.home m.line).sharers true

def State.ncWriteDi (s : State) (m : Msg) : State :=
  let p := s.performNc (s.msgRq m) m
  p.1.answerNc m mNCCmp p.2.1 p.2.2 0

/-- R317: the requests of the table for a line in a stable state. -/
def State.homeStart (s : State) (m : Msg) : State :=
  let h := s.home m.line
  let r := m.agent
  let o := h.owner
  let others := without h.sharers r
  if m.code = mRdS then
    match h.st with
    | .di => s.awaitMemory m
    | .ds => s.awaitMemory m
    | .dx => if r = o then s.awaitMemory m else s.awaitSnoops m mSnpS (2 ^ o) false
    | .dox => s.awaitSnoops m mSnpS (2 ^ o) false
  else if m.code = mRdX ∨ (m.code = mUpg ∧ !bit h.listed r) then
    match h.st with
    | .di => s.awaitMemory m
    | .ds => if others = 0 then s.awaitMemory m else s.awaitSnoops m mSnpInv others false
    | .dx => if r = o then s.awaitMemory m else s.awaitSnoops m mSnpInv (2 ^ o) false
    | .dox =>
      let mask := without (others ||| 2 ^ o) r
      if mask = 0 then s.awaitMemory m else s.awaitSnoops m mSnpInv mask false
  else if m.code = mUpg then
    match h.st with
    | .dx => s.homeError m
    | _ =>
      let mask := without h.listed r
      if mask = 0 then s.grantOwner m else s.awaitSnoops m mSnpInv mask true
  else if m.code = mPutM ∨ m.code = mPutO then
    if (h.st = .dx ∨ h.st = .dox) ∧ r = o then
      if s.lineServed m then (s.putWrite m).setHome m.line h.putDone else s.awaitMemory m
    else (s.setHome m.line (h.drop r)).send (msg mCmpPut m.line r)
  else if m.code = mNCRd then
    match h.st with
    | .di => s.awaitMemory m
    | .ds => s.awaitMemory m
    | _ => s.awaitSnoops m mSnpRcl (2 ^ o) false
  else
    let s := s.clearResv m.line
    match h.st with
    | .di => if s.lineServed m then s.ncWriteDi m else s.awaitMemory m
    | .ds => if s.lineServed m then s.ncWriteDs m else s.awaitMemory m
    | .dx => s.awaitSnoops m mSnpInv (2 ^ o) false
    | .dox => s.awaitSnoops m mSnpInv (h.sharers ||| 2 ^ o) false

/-- The victim's copies are invalidated (HB_BI); where none is left the way is free (R320). -/
def State.startVictim (s : State) (m : Msg) : State :=
  let h := s.home m.line
  if h.st = .di then s else (s.snoop mSnpInv m.line h.listed).setTx m.line (some (Tx.start .bi m h.listed false))

/-- A victim for a line has been chosen, and its way is not free yet. -/
def victimDue (set : List (Nat × HomeLine)) (line : Nat) : Bool :=
  set.any (fun e => e.2.waiting.any (fun x => x.code == mVictim && x.tag == line) || (match e.2.tx with
    | some t => t.st == .bi && t.req.tag == line
    | none => false))

/-- Ways from which a victim may be chosen: in neither HB_SNP, HB_ACK nor HB_BI, and not chosen yet (R320). -/
def victims (set : List (Nat × HomeLine)) : List (Nat × HomeLine) :=
  set.filter (fun e => !e.2.waiting.any (fun x => x.code == mVictim) && (match e.2.tx with
    | some t => t.st == .mem
    | none => true))

/-- R320: an RdS, RdX or Upg that needs a way of a full set waits first in its line's queue, and a victim is chosen for it, by a free value; with
no way to choose it waits for one. A victim in HB_MEM is invalidated when its transaction ends (DEDUCED, log 34). -/
def State.homeAdmit (s : State) (m : Msg) : State :=
  if m.code = mVictim then s.startVictim m
  else
    let set := s.dirSet m.line
    if m.code ≤ mUpg ∧ (s.home m.line).st = .di ∧ set.length ≥ 16 then
      let s := s.setHome m.line { s.home m.line with waiting := m :: (s.home m.line).waiting }
      let free := victims set
      if victimDue set m.line ∨ free.isEmpty then s
      else
        let v := (free.getD (s.free % free.length) (0, HomeLine.init)).1
        let s := s.spend
        let one : Msg := { msg mVictim v ncAgent with tag := m.line }
        let h := s.home v
        if h.tx.isNone then s.startVictim one else s.setHome v { h with waiting := one :: h.waiting }
    else s.homeStart m

/-- The next waiting requests start in order of arrival, up to the first that makes the line busy again. -/
def State.homeNext (s : State) (line : Nat) : Nat → State
  | 0 => s
  | n + 1 =>
    let h := s.home line
    match h.tx, h.waiting with
    | none, m :: rest => State.homeNext ((s.setHome line { h with waiting := rest }).homeAdmit m) line n
    | _, _ => s

def State.wakeLine (s : State) (line : Nat) : State := s.homeNext line ((s.home line).waiting.length + 1)

/-- Requests that wait for a way of the line's set try again (R320). -/
def State.wakeSet (s : State) (line : Nat) : State :=
  (s.homes.filter (fun e => homeOf e.1 == homeOf line && lineNumber e.1 % 131072 == lineNumber line % 131072
    && e.2.tx.isNone && !e.2.waiting.isEmpty)).foldl (fun s e => s.wakeLine e.1) s

/-- Lines of the line's home with a transaction in progress are 512 (R310). -/
def State.tableFull (s : State) (line : Nat) : Bool :=
  decide ((s.homes.filter (fun e => homeOf e.1 == homeOf line && e.2.tx.isSome)).length ≥ 512)

/-- A Put of the agent waits in its buffer of 64 bytes at the home (R314). -/
def State.putWaits (s : State) (m : Msg) : Bool :=
  s.homes.any (fun e => homeOf e.1 == homeOf m.line && e.2.waiting.any (fun x => x.agent == m.agent && (x.code == mPutM || x.code == mPutO)))

/-- A request is held on its virtual channel: the transaction table is full (R312), or the agent's Put buffer is in use (R314). -/
def State.heldOnVc (s : State) (m : Msg) : Bool :=
  if m.code = mPutM ∨ m.code = mPutO then s.putWaits m else (s.home m.line).tx.isNone && s.tableFull m.line

/-- A request reaches its home: it waits while its line is busy (R312, R319), or on its channel. -/
def State.homeRequest (s : State) (m : Msg) : State :=
  let h := s.home m.line
  if s.heldOnVc m then s.send m
  else if h.tx.isSome ∨ !h.waiting.isEmpty then s.setHome m.line { h with waiting := h.waiting ++ [m] }
  else (s.homeAdmit m).wakeSet m.line

/-- A transaction ends: the line is free, and waiting requests start. -/
def State.homeEnd (s : State) (line : Nat) (h : HomeLine) : State := ((s.setHome line { h with tx := none }).wakeLine line).wakeSet line

/-- R318: every snooped agent has answered. -/
def State.settle (s : State) (line : Nat) (t : Tx) : State :=
  let h := s.home line
  let m := t.req
  let r := m.agent
  match t.st with
  | .bi =>
    let s := match t.data with
      | some d => s.writeLine cpuRq line d.1 d.2
      | none => s
    -- the request that needs the way comes before those that wait for the victim's line
    let s := (s.setHome line { HomeLine.init with waiting := h.waiting, owed := h.owed }).wakeLine m.tag
    (s.wakeLine line).wakeSet line
  | _ =>
    if m.code = mRdS then
      if t.ownerRsp = mRspS then
        s.awaitCtl line h t
      else match t.data with
        | some d => s.grant m { h with st := .dox, sharers := h.sharers ||| 2 ^ r } mDataS d.1 d.2
        | none => s.awaitCtl line { h with st := .di, owner := 0x7F, sharers := 0 } t
    else if m.code = mRdX ∨ (m.code = mUpg ∧ !t.listed) then
      match t.data with
      | some d => s.grant m { h with st := .dx, owner := r, sharers := 0 } mDataM d.1 d.2
      | none => s.awaitCtl line { h with st := .di, owner := 0x7F, sharers := 0 } t
    else if m.code = mUpg then s.grantOwner m
    else if m.code = mNCRd then
      if t.ownerRsp = mRspV then s.awaitCtl line h t
      else match t.data with
        | some d =>
          let s := s.writeLine cpuRq line d.1 d.2
          let s := s.answerNc m mNCData (if d.2 = 0 then stOk else stPoisoned) ((d.1.drop m.off).take m.len) d.2
          s.homeEnd line { h with st := .ds, sharers := h.sharers ||| 2 ^ h.owner, owner := 0x7F }
        | none => s.awaitCtl line { h with st := .di, owner := 0x7F, sharers := 0 } t
    else
      -- NCWr, NCWrP, NCAtom, ZeroL
      let h' := { h with st := .di, owner := 0x7F, sharers := 0 }
      if t.listed then (s.answerNc m mNCCmp m.op m.data 0).homeEnd line h'
      else
        let s := match t.data with
          | some d => if m.code = mNCWrP ∨ m.code = mNCAtom then s.writeLine cpuRq line d.1 d.2 else s
          | none => s
        if s.lineServed m then (s.ncWriteDi m).homeEnd line h' else s.awaitCtl line h' t

/-- Answers that R318 lists for a transaction from a snooped agent. -/
def expected (t : Tx) (h : HomeLine) (m : Msg) : Bool :=
  let owner := m.agent == h.owner
  match t.st with
  | .bi => m.code == mRspI || m.code == mRspID
  | .snp =>
    if t.req.code = mRdS then
      (h.st == .dx && (m.code == mRspS || m.code == mRspOD || m.code == mRspI)) || (h.st == .dox && m.code == mRspOD)
    else if t.req.code = mNCRd then
      m.code == mRspSD || (h.st == .dx && (m.code == mRspV || m.code == mRspI))
    else m.code == mRspI || (m.code == mRspID && owner)
  | _ => false

/-- R326: after the error the line is DI, and the requests that waited start; those of a victim's successor too. -/
def State.homeFail (s : State) (m : Msg) : State :=
  let h := s.home m.line
  let s := (s.homeError m).wakeLine m.line
  let s := match h.tx with
    | some t => if t.st = TxSt.bi then s.wakeLine t.req.tag else s
    | none => s
  s.wakeSet m.line

/-- An answer that an error left to be discarded (R326). -/
def State.discardOwed (s : State) (line k : Nat) : State :=
  let h := s.home line
  s.setHome line { h with owed := h.owed.erase k }

/-- A snoop response reaches a home (R318, R319). -/
def State.homeResponse (s : State) (m : Msg) : State :=
  let h := s.home m.line
  if h.owed.contains m.agent then s.discardOwed m.line m.agent
  else
  match h.tx with
  | none => s.homeFail m
  | some t =>
    if !bit t.await m.agent || !expected t h m then s.homeFail m
    else
      let isData := m.code ≥ mRspOD
      let t' := { t with
        await := without t.await m.agent
        data := if isData then some (m.data, m.poison) else t.data
        ownerRsp := if m.agent = h.owner then m.code else t.ownerRsp }
      let s := s.setTx m.line (some t')
      if t'.await = 0 then s.settle m.line t' else s

/-- The controller has served a line in HB_MEM (R317 to R319): the home sends the grant or NCData, or the write is performed. -/
def State.memoryServed (s : State) (line : Nat) (h : HomeLine) (t : Tx) : State :=
  let m := t.req
  if m.code = mPutM ∨ m.code = mPutO then (s.putWrite m).homeEnd line h.putDone
  else if mNCWr ≤ m.code ∧ m.code ≤ mZeroL then
    if h.st = .ds then s.ncWriteDs m else (s.ncWriteDi m).homeEnd line h
  else
    let r := s.memLine (s.msgRq m) line
    let s := r.1
    if m.code = mRdS then
      if h.st = .ds then s.grant m { h with sharers := h.sharers ||| 2 ^ m.agent } mDataS r.2.1 r.2.2
      else if t.ownerRsp = mRspS ∧ h.st = .dx then
        s.grant m { h with st := .ds, owner := 0x7F, sharers := 2 ^ h.owner ||| 2 ^ m.agent } mDataS r.2.1 r.2.2
      else s.grant m { h with st := .dx, owner := m.agent, sharers := 0 } mDataE r.2.1 r.2.2
    else if m.code = mRdX ∨ m.code = mUpg then
      s.grant m { h with st := .dx, owner := m.agent, sharers := 0 } mDataM r.2.1 r.2.2
    else
      (s.answerNc m mNCData (if r.2.2 = 0 then stOk else stPoisoned) ((r.2.1.drop m.off).take m.len) r.2.2).homeEnd line h

/-- HOME_MEMORY_DATA: the controller serves a line that awaits it, where the share and R232 allow. -/
def State.memoryData (s : State) (line : Nat) : State :=
  let h := s.home line
  match h.tx with
  | some t => if t.st ≠ .mem ∨ !s.mayServe line then s else s.memoryServed line h t
  | none => s

/-- CmpAck ends the line's transaction (R312, R319). -/
def State.cmpAck (s : State) (m : Msg) : State :=
  let h := s.home m.line
  match h.tx with
  | some t =>
    if t.st = .ack ∧ t.req.agent = m.agent then s.homeEnd m.line h
    else if h.owed.contains (128 + m.agent) then s.discardOwed m.line (128 + m.agent)
    else s.homeFail m
  | none => if h.owed.contains (128 + m.agent) then s.discardOwed m.line (128 + m.agent) else s.homeFail m

/-! ## The caching agent (R316, R325) -/

/-- Replaces the state of an agent's line, dropping data and reservation where the line ends in I. -/
def State.toState (s : State) (a line : Nat) (st : LineSt) : State :=
  if st = .inv then s.setLine a line Line.empty else s.setLine a line { s.line a line with st := st }

def State.respond (s : State) (code line a : Nat) : State := s.send (msg code line a)

def State.respondData (s : State) (code line a : Nat) : State :=
  let l := s.line a line
  s.send { msg code line a with data := l.data, poison := l.poison }

/-- R325 step 1: an unexpected event at an agent is recorded. -/
def State.noteAgentErr (s : State) (m : Msg) : State :=
  let a := m.agent
  let s := (s.raise Fld.HUB_STICKY_COH_PROTOCOL).bump Fld.CPU_COH_ERR_CNT_ERRORS a
  let s := if s.fld Fld.CPU_COH_ERR_CNT_ERRORS a = 2 ^ 24 - 1 then s.raise Fld.CPU_COH_ERR_CNT_OVF a else s
  if s.flag Fld.CPU_COH_ERR_VALID a then s
  else
    ((((s.setFld Fld.CPU_COH_ERR_AGENT a 0x7F).setFld Fld.CPU_COH_ERR_MSG a m.code).setFld Fld.CPU_COH_ERR_STATE a
      (s.line a m.line).st.code).setFld Fld.CPU_COH_ERR_LINE a m.line).raise Fld.CPU_COH_ERR_VALID a

/-- R325 for a snoop: the copy is invalidated, RspID with every POISON bit set, to I, or to II_A where CmpPut is awaited. -/
def State.snoopError (s : State) (m : Msg) : State :=
  let s := s.noteAgentErr m
  let st := (s.line m.agent m.line).st
  let s := s.send { msg mRspID m.line m.agent with data := List.replicate 64 0, poison := 3 }
  if st = .miA ∨ st = .oiA ∨ st = .iiA then s.toState m.agent m.line .iiA else s.toState m.agent m.line .inv

/-- R325 for a grant, by the state it grants: installed poisoned where the line awaits one, otherwise discarded, and a stable copy marked
poisoned. -/
def State.grantError (s : State) (m : Msg) (granted : LineSt) : State :=
  let s := s.noteAgentErr m
  let l := s.line m.agent m.line
  if l.st = .isD ∨ l.st = .imD ∨ l.st = .smA ∨ l.st = .omA then
    let data := if m.data.length = 64 then m.data else if l.data.length = 64 then l.data else List.replicate 64 0
    (s.setLine m.agent m.line ⟨granted, data, 3, l.reserved⟩).respond mCmpAck m.line m.agent
  else if l.st = .shared ∨ l.st = .excl ∨ l.st = .modified ∨ l.st = .owned then
    s.setLine m.agent m.line { l with poison := 3 }
  else s

/-- SnpS at an agent (R316). -/
def State.agentSnpS (s : State) (m : Msg) : State :=
  let a := m.agent
  match (s.line a m.line).st with
  | .inv => s.respond mRspI m.line a
  | .isD => s.respond mRspI m.line a
  | .imD => s.respond mRspI m.line a
  | .excl => (s.respond mRspS m.line a).toState a m.line .shared
  | .modified => (s.respondData mRspOD m.line a).toState a m.line .owned
  | .owned => s.respondData mRspOD m.line a
  | .omA => s.respondData mRspOD m.line a
  | .miA => (s.respondData mRspOD m.line a).toState a m.line .oiA
  | .oiA => s.respondData mRspOD m.line a
  | .shared => s.snoopError m
  | .smA => s.snoopError m
  | .iiA => s.snoopError m

/-- SnpInv at an agent (R316): it clears a reservation too (R324). -/
def State.agentSnpInv (s : State) (m : Msg) : State :=
  let a := m.agent
  match (s.line a m.line).st with
  | .inv => s.respond mRspI m.line a
  | .isD => s.respond mRspI m.line a
  | .imD => s.respond mRspI m.line a
  | .iiA => s.respond mRspI m.line a
  | .shared => (s.respond mRspI m.line a).toState a m.line .inv
  | .excl => (s.respond mRspI m.line a).toState a m.line .inv
  | .modified => (s.respondData mRspID m.line a).toState a m.line .inv
  | .owned => (s.respondData mRspID m.line a).toState a m.line .inv
  | .smA => (s.respond mRspI m.line a).setLine a m.line { Line.empty with st := .imD }
  | .omA => (s.respondData mRspID m.line a).setLine a m.line { Line.empty with st := .imD }
  | .miA => (s.respondData mRspID m.line a).toState a m.line .iiA
  | .oiA => (s.respondData mRspID m.line a).toState a m.line .iiA

/-- SnpRcl at an agent (R316). -/
def State.agentSnpRcl (s : State) (m : Msg) : State :=
  let a := m.agent
  match (s.line a m.line).st with
  | .inv => s.respond mRspI m.line a
  | .isD => s.respond mRspI m.line a
  | .imD => s.respond mRspI m.line a
  | .excl => s.respond mRspV m.line a
  | .modified => (s.respondData mRspSD m.line a).toState a m.line .shared
  | .owned => (s.respondData mRspSD m.line a).toState a m.line .shared
  | .omA => (s.respondData mRspSD m.line a).toState a m.line .smA
  | .miA => (s.respondData mRspSD m.line a).toState a m.line .iiA
  | .oiA => (s.respondData mRspSD m.line a).toState a m.line .iiA
  | .shared => s.snoopError m
  | .smA => s.snoopError m
  | .iiA => s.snoopError m

/-- The agent gives a line up: Put for M and O, silently for S and E (R315, R316). -/
def State.replace (s : State) (a line : Nat) : State :=
  let l := s.line a line
  match l.st with
  | .modified => (s.respondData mPutM line a).setLine a line { l with st := .miA, reserved := false }
  | .owned => (s.respondData mPutO line a).setLine a line { l with st := .oiA, reserved := false }
  | .shared => s.toState a line .inv
  | .excl => s.toState a line .inv
  | _ => s

/-- Lines of 64 bytes that an L2 holds, 2 MiB, and that the L3 holds for all agents, 128 MiB (R4, R309). -/
def l2Lines : Nat := 32768
def l3Lines : Nat := 2097152

/-- Lines that an agent holds or has given up without CmpPut, and those of them in a stable state. -/
def State.agentLines (s : State) (a : Nat) : List (Nat × Line) := s.agents.filter (fun e => e.1 / 2 ^ 46 == a && e.2.st != .inv)
def LineSt.stable (x : LineSt) : Bool := decide (x.code ≤ 4)

/-- Lines that do not fit in their agents' L2 stand in the L3 (R309): they overflow it. -/
def State.l3Overflow (s : State) : Bool :=
  decide (((List.range 96).map (fun a => (s.agentLines a).length - l2Lines)).sum > l3Lines)

/-- Replacement (R315, R316): where the caches overflow, an agent that takes a line gives another up, in a stable state, chosen by a free value
(DESIGN CHOICE, log 68). -/
def State.fitLine (s : State) (a line : Nat) : State :=
  if !s.l3Overflow then s
  else
    let l := (s.agentLines a).filter (fun e => e.2.st.stable && e.1 % 2 ^ 46 != line)
    if l.isEmpty then s else s.spend.replace a ((l.getD (s.free % l.length) (0, Line.empty)).1 % 2 ^ 46)

/-- A line is installed in the granted state and CmpAck is sent (R316). -/
def State.install (s : State) (m : Msg) (st : LineSt) : State :=
  ((s.setLine m.agent m.line ⟨st, m.data, m.poison, false⟩).respond mCmpAck m.line m.agent).fitLine m.agent m.line

/-- DataS or DataE at an agent (R316): expected only in IS_D. -/
def State.agentData (s : State) (m : Msg) (st : LineSt) : State :=
  if (s.line m.agent m.line).st = .isD then s.install m st else s.grantError m st

/-- DataM at an agent (R316): expected only in IM_D. -/
def State.agentDataM (s : State) (m : Msg) : State :=
  if (s.line m.agent m.line).st = .imD then s.install m .modified else s.grantError m .modified

/-- GntM at an agent (R316): expected in SM_A and OM_A; the copy it holds becomes M. -/
def State.agentGntM (s : State) (m : Msg) : State :=
  let l := s.line m.agent m.line
  if l.st = .smA ∨ l.st = .omA then
    (s.setLine m.agent m.line { l with st := .modified, poison := l.poison ||| m.poison }).respond mCmpAck m.line m.agent
  else s.grantError m .modified

/-- CmpPut at an agent (R316): the evicted line ends in I. -/
def State.agentCmpPut (s : State) (m : Msg) : State :=
  let l := s.line m.agent m.line
  if l.st = .miA ∨ l.st = .oiA ∨ l.st = .iiA then s.toState m.agent m.line .inv
  else
    let s := s.noteAgentErr m
    if l.st = .shared ∨ l.st = .excl ∨ l.st = .modified ∨ l.st = .owned then s.setLine m.agent m.line { l with poison := 3 } else s

/-- R330: requests to a fenced home are answered at once, every POISON bit set; an Upg whose copy a snoop took is answered with DataM (R316). -/
def State.fencedAnswer (s : State) (m : Msg) : State :=
  let zero := List.replicate 64 (0 : Byte)
  if m.code = mRdS then s.send (grantMsg mDataS m.line m.agent zero 3)
  else if m.code = mRdX ∨ m.code = mUpg then
    s.send (grantMsg (if m.code = mUpg ∧ (s.line m.agent m.line).st ≠ .imD then mGntM else mDataM) m.line m.agent zero 3)
  else if m.code = mPutM ∨ m.code = mPutO then s.send (msg mCmpPut m.line m.agent)
  else if m.code = mNCRd then s.answerNc m mNCData stPoisoned zero 3
  else s.answerNc m mNCCmp stAccessError [] 0

/-- A request of a row reaches its home. -/
def State.request (s : State) (m : Msg) : State :=
  let s := s.deliver m
  if (homeOf m.line).isNone then s
  else if s.homeFenced m.line then s.fencedAnswer m
  else s.homeRequest m

/-! ## Replacement and the agent's requests (R315) -/

/-- The agent asks its home for a line: RdS for a read, RdX or Upg for ownership; in a transient state it waits (R316). -/
def State.agentAsk (s : State) (a line : Nat) (own : Bool) : State :=
  let l := s.line a line
  match l.st with
  | .inv =>
    if own then (s.send (msg mRdX line a)).setLine a line { Line.empty with st := .imD }
    else (s.send (msg mRdS line a)).setLine a line { Line.empty with st := .isD }
  | .shared => if own then (s.send (msg mUpg line a)).toState a line .smA else s
  | .owned => if own then (s.send (msg mUpg line a)).toState a line .omA else s
  | _ => s

end Sys2Proof.Machine
end

