-- ==== Sys2Proof/Machine/Access.lean ====
section
/-! DEFINITION. Reads and writes at local endpoints by requesters that are no caching agents (R31, R34, R226, R227, R301, R302, R317,
R321): rights, fences, coherence, cache, error codes. A recall and its answer are one step here (assumption log 7). -/

namespace Sys2Proof.Machine

/-- The line is in a transaction, or requests wait for it (R312, R319). -/
def State.lineBusy (s : State) (line : Nat) : Bool := (s.home line).tx.isSome || !(s.home line).waiting.isEmpty

/-- The lines of 64 bytes that n bytes at a touch. -/
def linesOf (a n : Nat) : List Nat := (List.range ((a + n + 63) / 64 - a / 64)).map (fun i => a / 64 + i)

/-- A write of n bytes at a clears the reservations of their lines (R324). -/
def State.clearResvs (s : State) (a n : Nat) : State := (linesOf a n).foldl State.clearResv s

/-- State an owner's copy is left in by SnpRcl with data (R316). -/
def recalledState : LineSt → LineSt
  | .modified => .shared
  | .owned => .shared
  | .omA => .smA
  | .miA => .iiA
  | .oiA => .iiA
  | x => x

/-- R317, R318, NCRd: the owner is recalled; its data is written to memory and the line becomes DS; a clean owner keeps its copy; an owner
that holds nothing leaves DI. -/
def State.recall (s : State) (line : Nat) : State :=
  let h := s.home line
  if s.lineBusy line then s
  else match h.st with
    | .di => s
    | .ds => s
    | _ =>
      let l := s.line h.owner line
      if l.st.dirty then
        let s := s.writeLine cpuRq line l.data l.poison
        let s := s.setLine h.owner line { l with st := recalledState l.st }
        s.setHome line { h with st := .ds, sharers := h.sharers ||| 2 ^ h.owner, owner := 0x7F }
      else if l.st = .excl then s
      else s.setHome line { h with st := .di, owner := 0x7F, sharers := 0 }

/-- State a copy is left in by SnpInv (R316). -/
def invalidatedState : LineSt → LineSt
  | .smA => .imD
  | .omA => .imD
  | .miA => .iiA
  | .oiA => .iiA
  | .iiA => .iiA
  | .isD => .isD
  | .imD => .imD
  | _ => .inv

/-- R317, R318, NCWr: every copy is invalidated, an owner's data first written to memory; the line becomes DI. -/
def State.invalidateCopies (s : State) (line : Nat) : State :=
  let h := s.home line
  if s.lineBusy line then s
  else
    let owned := h.st == .dx || h.st == .dox
    let l := s.line h.owner line
    let s := if owned && l.st.dirty then s.writeLine cpuRq line l.data l.poison else s
    let s := (bitsOf 96 h.listed).foldl (fun s a =>
      let st := invalidatedState (s.line a line).st
      s.setLine a line (if st = .iiA then { s.line a line with st := st } else { Line.empty with st := st })) s
    if h.st = .di then s else s.setHome line { h with st := .di, owner := 0x7F, sharers := 0 }

/-- An agent that holds the line dirty, while the line is busy. -/
def State.dirtyHolder (s : State) (line : Nat) : Option Line :=
  ((List.range 96).map (fun a => s.line a line)).find? (fun l => l.st.dirty && l.data.length == 64)

/-- The current value of a line in a transaction, where memory does not hold it: in an agent, on its way, or at the home. -/
def State.busyData (s : State) (line : Nat) : Option (List Byte × Nat) :=
  match s.dirtyHolder line with
  | some l => some (l.data, l.poison)
  | none => match s.net.find? (fun m => m.line == line && m.data.length == 64 && [mRspOD, mRspSD, mRspID, mDataM].contains m.code) with
    | some m => some (m.data, m.poison)
    | none => (s.home line).tx.bind (·.data)

/-- A read of up to a line at the point of coherence: state, poisoned, bytes. -/
def State.readCoherent (s : State) (a n : Nat) : State × Bool × List Byte :=
  if s.lineBusy (a / 64) then
    match s.busyData (a / 64) with
    | some d => (s, decide (d.2 ≠ 0), (d.1.drop (a % 64)).take n)
    | none => s.readMem a n
  else s.readMem a n

/-- Cuts an access into the parts that lie in one line of 64 bytes: address and length. -/
def lineParts (a n : Nat) : List (Nat × Nat) :=
  (linesOf a n).map (fun l => (max a (l * 64), min (a + n) (l * 64 + 64) - max a (l * 64)))

/-- Reads by parts. -/
def State.readParts (s : State) : List (Nat × Nat) → State × Bool × List Byte
  | [] => (s, false, [])
  | p :: rest =>
    let r := s.readCoherent p.1 p.2
    let t := State.readParts r.1 rest
    (t.1, r.2.1 || t.2.1, r.2.2 ++ t.2.2)

/-- The cache and the channel see an access of n bytes, whole sectors as such (R237); lines that are busy apart. -/
def State.accessCache (s : State) (rq : Requester) (a n : Nat) (write : Bool) : State :=
  if (linesOf a n).any s.lineBusy then
    ((lineParts a n).filter (fun p => !s.lineBusy (p.1 / 64))).foldl (fun s p => s.throughCache rq p.1 p.2 write) s
  else s.throughCache rq a n write

/-- A read of cacheable memory: copies that may be dirty are recalled, and the parts read. -/
def State.readShared (s : State) (rq : Requester) (a n : Nat) : State × Bool × List Byte :=
  (((linesOf a n).foldl State.recall s).accessCache rq a n false).readParts (lineParts a n)

/-- Opens an access that awaits an answer, with the next id. -/
def State.openAccess (s : State) (who : Requester) (ctx : Option CmdRef) (addr len op : Nat) (w : Waiter) : State :=
  { s with opens := s.opens ++ [⟨s.nextId, who, ctx, addr, len, op, w, none, none, 0, [], 0⟩], nextId := s.nextId + 1 }

/-- The home's message for a part of a write: NCWr for a whole line, else NCWrP (R321). -/
def ncWriteMsg (a : Nat) (b : List Byte) (tag : Nat) : Msg :=
  { msg (if b.length = 64 then mNCWr else mNCWrP) (a / 64) ncAgent with data := b, off := a % 64, len := b.length, tag := tag }

/-- A write of up to a line at the point of coherence: a busy line makes it wait at its home as a message (R312). -/
def State.writeCoherent (s : State) (rq : Requester) (ref : Option CmdRef) (a : Nat) (b : List Byte) : State × Bool :=
  if s.lineBusy (a / 64) then ((s.openAccess rq ref a b.length 2 .plain).homeRequest (ncWriteMsg a b s.nextId), false)
  else s.writeMem a b

/-- Writes by parts. -/
def State.writeParts (s : State) (rq : Requester) (ref : Option CmdRef) (b : List Byte) : List (Nat × Nat) → State × Bool
  | [] => (s, false)
  | p :: rest =>
    let r := s.writeCoherent rq ref p.1 (b.take p.2)
    let t := State.writeParts r.1 rq ref (b.drop p.2) rest
    (t.1, r.2 || t.2)

/-- A write of cacheable memory: copies are invalidated, and the parts written. -/
def State.writeShared (s : State) (rq : Requester) (ref : Option CmdRef) (a : Nat) (b : List Byte) : State × Bool :=
  let lines := linesOf a b.length
  let s := lines.foldl (fun s l => if s.lineBusy l then s else (s.invalidateCopies l).clearResv l) s
  (s.accessCache rq a b.length true).writeParts rq ref b (lineParts a b.length)

/-- The unit that holds an address: accesses that cross units are judged at both ends. -/
def sameUnit (a b : Nat) : Bool :=
  match locate a, locate b with
  | .sram _ _, .sram _ _ => true
  | .llm _ _, .llm _ _ => true
  | .hbm k _, .hbm j _ => k == j
  | .lpddr k _, .lpddr j _ => k == j
  | .hubPrivate _, .hubPrivate _ => true
  | _, _ => false

/-- The unit of an address is fenced with its die pair. -/
def State.pairFenced (s : State) (a : Nat) : Bool :=
  match locate a with
  | .hbm k _ => s.dieFenced (k / 2)
  | .llm n _ => s.dieFenced n
  | _ => false

/-- R34, R37, R41, R390, R443: why an access of n bytes to local memory is refused: none, or a status, with the isolation record made;
a read at a fenced die pair returns poison. -/
def State.judge (s : State) (rq : Requester) (op a n : Nat) : State × Option Nat :=
  let z := a + n - 1
  match s.right rq a, s.right rq z with
  | .isolated, _ => (s.isolation rq op a, some stAccessError)
  | .refused, _ => (s, some stAccessError)
  | _, .isolated => (s.isolation rq op z, some stAccessError)
  | _, .refused => (s, some stAccessError)
  | .granted, .granted =>
    if !sameUnit a z then (s, some stAccessError)
    else if op = 1 ∧ (s.pairFenced a || s.pairFenced z) then (s, some stPoisoned)
    else if s.endpointFenced a || s.endpointFenced z then (s, some stAccessError)
    else (s, none)

/-- A read of local memory: state, status, bytes (zeros where refused). -/
def State.readLocal (s : State) (rq : Requester) (a n : Nat) : State × Nat × List Byte :=
  match s.judge rq 1 a n with
  | (s, some e) => (s, e, List.replicate n 0)
  | (s, none) =>
    let r := if cacheable a then s.readShared rq a n
      else s.readMem a n (if rq.kind = .tensor then .demand else .endpoint)
    (r.1, if r.2.1 then stPoisoned else stOk, r.2.2)

/-- A write of local memory: state and status. -/
def State.writeLocal (s : State) (rq : Requester) (ref : Option CmdRef) (a : Nat) (b : List Byte) : State × Nat :=
  match s.judge rq 2 a b.length with
  | (s, some e) => (s, e)
  | (s, none) =>
    let r := if cacheable a then s.writeShared rq ref a b
      else ((linesOf a b.length).foldl State.clearResv s).writeMem a b
    (r.1, if r.2 then stPoisoned else stOk)

/-- A write of at most 8 bytes within a line, as an atomic operation of R313 at the home or endpoint: state, status, old value. -/
def State.atomicLocal (s : State) (rq : Requester) (a size op x cmp : Nat) : State × Nat × Nat :=
  match s.judge rq 3 a size with
  | (s, some e) => (s, e, 0)
  | (s, none) =>
    let s := if cacheable a then s.invalidateCopies (a / 64) else s
    let r := s.readMem a size .rmw
    if r.2.1 then (r.1, stPoisoned, 0)
    else
      let old := leNat r.2.2
      let new := atomicResult op (8 * size) old x cmp
      let s := (r.1.clearResv (a / 64)).throughCache rq a size true
      let w := s.writeMem a (leBytes size new)
      (w.1, if w.2 then stPoisoned else stOk, old)

/-- Every line of an access can be served at once: none is busy, and a coherent-plane requester finds its sector cached, or a beat of the
share with nothing before it (R30, R232). Tensor-plane requesters have their slots. -/
def State.accessNow (s : State) (rq : Requester) (a n : Nat) : Bool :=
  (linesOf a n).all (fun l => !s.lineBusy l && (rq.kind == .tensor || s.inCache (l * 64) || s.servedNow rq.rank (l * 64)))

/-- An access goes to its homes as messages, one for each line, and is open until all have answered (R321). -/
def State.ncIssue (s : State) (rq : Requester) (ref : Option CmdRef) (a n op : Nat) (w : Waiter) (ms : List Msg) : State :=
  let id := s.nextId
  let s := { s with opens := s.opens ++ [⟨id, rq, ref, a, n, op, w, none, none, ms.length, [], 0⟩], nextId := id + 1 }
  ms.foldl (fun s m => s.homeRequest { m with tag := id }) s

def ncReads (a n : Nat) : List Msg := (lineParts a n).map (fun p => { msg mNCRd (p.1 / 64) ncAgent with off := p.1 % 64, len := p.2 })

def ncWrites (a : Nat) (b : List Byte) : List Msg :=
  (lineParts a b.length).map (fun p => ncWriteMsg p.1 ((b.drop (p.1 - a)).take p.2) 0)

/-- ZERO_LINE of the 1 KiB line at a (R241): lines that cannot be served at once wait at their homes, for a waiter. -/
def State.zeroLine (s : State) (rq : Requester) (ref : Option CmdRef) (a : Nat) (w : Waiter := .plain) : State × Nat :=
  match s.judge rq 2 a 1024 with
  | (s, some e) => (s, e)
  | (s, none) =>
    let later := (linesOf a 1024).filter (fun l => !s.accessNow rq (l * 64) 64)
    let s := (linesOf a 1024).foldl (fun s l => (s.invalidateCopies l).clearResv l) s
    let s := s.cacheZero rq a
    let s := ((linesOf a 1024).filter (fun l => !later.contains l)).foldl
      (fun s l => (s.writeMem (l * 64) (List.replicate 64 0)).1) s
    let s := if later.isEmpty then s
      else s.ncIssue rq ref a 1024 2 w (later.map (fun l => { msg mZeroL l ncAgent with len := 64 }))
    (s, stOk)

end Sys2Proof.Machine
end

