-- ==== Sys2Proof/Machine/Issue.lean ====
section
/-! DEFINITION. Accesses by issuer and destination (R37, R43, R44, R286, R292 to R295): local memory at once, the host aperture and remote
windows through open accesses that an answer completes. Also packets toward other modules (R361 to R368) and rings of
records that the device writes (R345, R377). -/

namespace Sys2Proof.Machine

/-! ## Issuers (R292, R367) -/

/-- An issuer: a context's command stream, a CPU core, or a device unit. -/
def issuerOf (rq : Requester) (ref : Option CmdRef) : Nat × Nat :=
  match ref with
  | some r => (0, r.ctx)
  | none => match rq.kind with
    | .cpu => (1, rq.unit)
    | .host => (2, 0)
    | .eth => (3, rq.unit)
    | .remote => (4, rq.unit)
    | .tensor => (5, rq.unit)
    | .dma => (6, rq.unit)
    | .security => (7, 0)

/-! ## Packets (R361 to R366) -/

def State.selfModule (s : State) : Nat := s.fld Fld.HUB_SIMG_GEN_MODULE_ID

def State.portUp (s : State) (p : Nat) : Bool := s.fld Fld.FAB_PORT_STATUS_STATE p == 4

def State.routeOf (s : State) (m : Nat) : Option RouteEntry := (routes s.tables).find? (fun r => r.dest == m)

/-- R365: the first valid candidate whose port is UP. -/
def State.nextPort (s : State) (m : Nat) : Option Nat :=
  match s.routeOf m with
  | none => none
  | some r => (r.cands.find? (fun c => bit c 7 && s.portUp (c % 16))).map (· % 16)

def State.removed (s : State) (m : Nat) : Bool := bit (s.fld Fld.FAB_REMOVED_REMOVED (m / 64)) (m % 64)

/-- R294, R375: the module is removed, or no route to it is left. -/
def State.unreachable (s : State) (m : Nat) : Bool := s.removed m || (s.nextPort m).isNone

def Port.credit (p : Port) (vc : Nat) : Nat := if vc = 0 then p.req else if vc = 1 then p.rsp else p.ntc

def Port.setCredit (p : Port) (vc n : Nat) : Port :=
  if vc = 0 then { p with req := n } else if vc = 1 then { p with rsp := n } else { p with ntc := n }

/-- A packet waits for the port's free beats and its channel's credits (R360, R362). -/
def State.queuePacket (s : State) (port : Nat) (x : Packet) : State :=
  let v := s.port port
  s.setPort port { v with egress := v.egress ++ [x] }

/-- Sends a packet that the module originates, by its own entry for the destination; false where it has no way. -/
def State.sendPacket (s : State) (x : Packet) : State × Option Nat :=
  match s.nextPort x.dest, s.routeOf x.dest with
  | some p, some r =>
    let x := { x with src := s.selfModule, hops := r.hopLimit, epoch := s.fld Fld.FAB_STATUS_EPOCH }
    (s.queuePacket p x, some p)
  | _, _ => (s, none)

/-! ## Open accesses -/

/-- The next id's access is opened toward a module and port. -/
def State.openRemote (s : State) (rq : Requester) (ref : Option CmdRef) (addr len op : Nat) (w : Waiter) (m p : Nat) : State :=
  { s with opens := s.opens ++ [⟨s.nextId, rq, ref, addr, len, op, w, some m, some p, 0, [], 0⟩], nextId := s.nextId + 1 }

/-- What an access answers: a status and data at once, or that it is open. -/
inductive Acc where
  | done (status : Nat) (data : List Byte)
  | open
  deriving DecidableEq, Repr

/-- WINDOWS entry of a window. -/
def State.window (s : State) (w : Nat) : Option WinEntry := (windows s.tables).find? (fun e => e.window == w)

/-- R43, R368: an access through window w: target module and address at the target, or the status of its error response. -/
def State.windowTarget (s : State) (rq : Requester) (op a w off : Nat) : State × Sum Nat (WinEntry × Nat) :=
  match s.window w with
  | none => (s.isolation rq op a, .inl stAccessError)
  | some e =>
    if !(e.srcPart == 0xFF || e.srcPart == rq.part) || (bit e.flags 0 && op != 1) then (s.isolation rq op a, .inl stAccessError)
    else
      let t := e.base + off
      if t < 0x100_0000 ∨ t ≥ hostBase then (s, .inl stAccessError) else (s, .inr (e, t))

/-- R367: the issuer's requests to the module are refused until its next COMPLETE. -/
def State.isBroken (s : State) (rq : Requester) (ref : Option CmdRef) (m : Nat) : Bool := s.broken.contains (issuerOf rq ref, m)

/-- Status of an error answer of R367 or R294 for a request to a module. -/
def State.lostStatus (s : State) (m : Nat) : Nat := if s.unreachable m then stDead else stAccessError

/-- Differences of sequence numbers (R200). -/
def seqSub (a b : Nat) : Nat := (a + 2 ^ 32 - b % 2 ^ 32) % 2 ^ 32

/-- Sequence number a lies before b. -/
def seqBefore (a b : Nat) : Bool := decide (0 < seqSub b a) && decide (seqSub b a < 2 ^ 31)

/-- R282, R289: an ORDER of the context lies between an access still open to the module and a command's: its packet takes the barrier along, as
RELEASE (DEDUCED, log 77). -/
def State.behindOrder (s : State) (ref : Option CmdRef) (m : Nat) : Bool :=
  match ref with
  | none => false
  | some r => s.opens.any (fun o => o.module == some m && (match o.ctx with
    | some q => q.ctx == r.ctx && (s.ctx r.ctx).orders.any (fun k => seqBefore q.seq k && seqBefore k r.seq)
    | none => false))

/-- A request packet leaves for a module; its access is open until the answer comes. -/
def State.remoteRequest (s : State) (rq : Requester) (ref : Option CmdRef) (a n op : Nat) (w : Waiter) (e : WinEntry) (x : Packet) : State × Acc :=
  if s.unreachable e.module then (s, .done stDead [])
  else if s.isBroken rq ref e.module then (s, .done (s.lostStatus e.module) [])
  else match s.sendPacket { x with
      dest := e.module, part := e.dstPart, tag := s.nextId, flags := x.flags ||| (if s.behindOrder ref e.module then 8 else 0) } with
    | (s, some p) => (s.openRemote rq ref a n op w e.module p, .open)
    | (s, none) => (s, .done stDead [])

def basePacket (typ len op addr : Nat) (data : List Byte) : Packet :=
  ⟨0, 0, typ, if typ ≤ 3 then 0 else if typ ≤ 6 then 1 else 2, 0, 0, 0, 0, op, len, 0, addr, data⟩

/-! ### Local targets (R34, R43)

Each takes the address that the access names, and the local address that it reaches: another one through a window onto the module itself. -/

/-- An access to the register range by a requester that R34 accepts: it is open until the next beat performs it (DESIGN CHOICE, log 69). -/
def State.issueReg (s : State) (rq : Requester) (ref : Option CmdRef) (a off n op : Nat) (b : List Byte) (w : Waiter) : State × Acc :=
  if !s.regGranted rq off (op != 1) then (s.isolation rq op (regBase + off), .done stAccessError [])
  else
    let one : OpenAccess := ⟨s.nextId, rq, ref, a, n, op, w, none, none, 0, [(off, b)], 0⟩
    ({ s with opens := s.opens ++ [one], nextId := s.nextId + 1 }, .open)

/-- A register access that waits for the next beat. -/
def OpenAccess.isReg (o : OpenAccess) : Bool := o.left == 0 && o.module.isNone && o.got.any (fun g => decide (g.1 < regSize))

def State.localRead (s : State) (rq : Requester) (ref : Option CmdRef) (a t n : Nat) (w : Waiter) : State × Acc :=
  match locate t with
  | .reg off => s.issueReg rq ref a off n 1 [] w
  | _ =>
    if rq.kind = .tensor ∨ !cacheable t ∨ s.accessNow rq t n then
      let r := s.readLocal rq t n
      (r.1, .done r.2.1 r.2.2)
    else match s.judge rq 1 t n with
      | (s, some e) => (s, .done e (List.replicate n 0))
      | (s, none) => (s.ncIssue rq ref a n 1 w (ncReads t n), .open)

def State.localWrite (s : State) (rq : Requester) (ref : Option CmdRef) (a t : Nat) (b : List Byte) (w : Waiter) : State × Acc :=
  match locate t with
  | .reg off => s.issueReg rq ref a off b.length 2 b w
  | _ =>
    if rq.kind = .tensor ∨ !cacheable t ∨ s.accessNow rq t b.length then
      let r := s.writeLocal rq ref t b
      (r.1, .done r.2 [])
    else match s.judge rq 2 t b.length with
      | (s, some e) => (s, .done e [])
      | (s, none) => (s.ncIssue rq ref a b.length 2 w (ncWrites t b), .open)

/-- The register range takes no atomic operation (R323). -/
def State.localAtomic (s : State) (rq : Requester) (ref : Option CmdRef) (a t size op x cmp : Nat) (w : Waiter) : State × Acc :=
  match locate t with
  | .reg off => (if s.regGranted rq off true then s else s.isolation rq 3 t, .done stAccessError [])
  | _ =>
    if !cacheable t ∨ s.accessNow rq t size then
      let r := s.atomicLocal rq t size op x cmp
      (r.1, .done r.2.1 (leBytes size r.2.2))
    else match s.judge rq 3 t size with
      | (s, some e) => (s, .done e [])
      | (s, none) => (s.ncIssue rq ref a size 3 w [{ msg mNCAtom (t / 64) ncAgent with
          op := op, off := t % 64, len := size, data := leBytes size x ++ leBytes size cmp }], .open)

/-! ### Every target -/

/-- A read of n bytes; mark holds the bits ACQUIRE (4) and RELEASE (8) of a packet's VC_FLAGS. For a remote window n is at most 256. -/
def State.issueRead (s : State) (rq : Requester) (ref : Option CmdRef) (a n : Nat) (w : Waiter) (mark : Nat := 0) : State × Acc :=
  match locate a with
  | .host _ =>
    if !s.hostUp then (s, .done stHostLost [])
    else
      let s := s.emit (.hostRead s.nextId (a - hostBase) n)
      (s.openAccess rq ref a n 1 w, .open)
  | .remote win off =>
    match s.windowTarget rq 1 a win off with
    | (s, .inl st) => (s, .done st [])
    | (s, .inr (e, t)) =>
      if e.module = s.selfModule then s.localRead { rq with part := e.dstPart } ref a t n w
      else s.remoteRequest rq ref a n 1 w e { basePacket pkRead n 0 t [] with flags := mark }
  | _ => s.localRead rq ref a a n w

/-- A write. Toward the host it completes when a PCI Express read that the device issues behind it has returned (R284). -/
def State.issueWrite (s : State) (rq : Requester) (ref : Option CmdRef) (a : Nat) (b : List Byte) (w : Waiter) (mark : Nat := 0) : State × Acc :=
  match locate a with
  | .host _ =>
    if !s.hostUp then (s, .done stHostLost [])
    else
      let s := (s.emit (.hostWrite (a - hostBase) b)).emit (.hostRead s.nextId (a - hostBase) 1)
      (s.openAccess rq ref a b.length 2 w, .open)
  | .remote win off =>
    match s.windowTarget rq 2 a win off with
    | (s, .inl st) => (s, .done st [])
    | (s, .inr (e, t)) =>
      if e.module = s.selfModule then s.localWrite { rq with part := e.dstPart } ref a t b w
      else s.remoteRequest rq ref a b.length 2 w e { basePacket pkWrite b.length 0 t b with flags := mark }
  | _ => s.localWrite rq ref a a b w

/-- Packet OP of an atomic operation (R361): SWAP 0x10 to MAXU 0x18, CAS 0x19, in the order that R361 gives. -/
def packetOp : Nat → Nat
  | 0 => 0x10
  | 1 => 0x11
  | 2 => 0x14
  | 3 => 0x12
  | 4 => 0x13
  | 5 => 0x15
  | 6 => 0x16
  | 7 => 0x17
  | 8 => 0x18
  | _ => 0x19

/-- The atomic operation of a packet OP. -/
def opOfPacket (p : Nat) : Nat :=
  match p with
  | 0x10 => 0
  | 0x11 => 1
  | 0x14 => 2
  | 0x12 => 3
  | 0x13 => 4
  | 0x15 => 5
  | 0x16 => 6
  | 0x17 => 7
  | 0x18 => 8
  | _ => 9

/-- An atomic operation of 4 or 8 bytes. The host aperture takes none (R323): it answers with an error. -/
def State.issueAtomic (s : State) (rq : Requester) (ref : Option CmdRef) (a size op x cmp : Nat) (w : Waiter) (mark : Nat := 0) : State × Acc :=
  match locate a with
  | .host _ => (s, .done (if s.hostUp then stAccessError else stHostLost) [])
  | .remote win off =>
    match s.windowTarget rq 3 a win off with
    | (s, .inl st) => (s, .done st [])
    | (s, .inr (e, t)) =>
      if e.module = s.selfModule then s.localAtomic { rq with part := e.dstPart } ref a t size op x cmp w
      else
        let data := if op = 9 then leBytes size cmp ++ leBytes size x else leBytes size x
        s.remoteRequest rq ref a size 3 w e { basePacket pkAtomic data.length (packetOp op) t data with flags := mark }
  | _ => s.localAtomic rq ref a a size op x cmp w

/-- Open accesses that a command made. -/
def State.cmdOpens (s : State) (r : CmdRef) : Bool := s.opens.any (fun o => o.ctx == some r)

/-! ## The device's own requests -/

/-- A device unit that acts for the module, or for a partition. -/
def unitRq (part : Nat) : Requester := ⟨.dma, 0, part⟩

/-- A write of a record by a device unit: false where it received an error response or met poisoned data. Toward the host or another
module it is posted. -/
def State.recordWrite (s : State) (rq : Requester) (a : Nat) (b : List Byte) : State × Bool :=
  match s.issueWrite rq none a b .plain with
  | (s, .done st _) => (s, st == stOk)
  | (s, .open) => (s, true)

/-- Registers of a ring of records (R278, R345, R377): its base in units of 4 KiB, L, HEAD, TAIL, the count of drops, its MSI. -/
structure RingRegs where
  base : Field
  l : Field
  head : Field
  tail : Field
  drops : Field
  file : Field
  en : Field
  ident : Field

def faultRing : RingRegs :=
  ⟨Fld.HUB_FLT_RING_BASE, Fld.HUB_FLT_RING_LOG2_RECORDS, Fld.HUB_FLT_PTR_HEAD, Fld.HUB_FLT_PTR_TAIL, Fld.HUB_FLT_CTL_DROPS,
   Fld.HUB_FLT_MSI_FILE, Fld.HUB_FLT_MSI_EN, Fld.HUB_FLT_MSI_IDENTITY⟩

def tileRing : RingRegs :=
  ⟨Fld.HUB_TT_NRING_BASE, Fld.HUB_TT_NRING_LOG2_RECORDS, Fld.HUB_TT_NPTR_HEAD, Fld.HUB_TT_NPTR_TAIL, Fld.HUB_TT_CTL_DROPS,
   Fld.HUB_TT_NMSI_FILE, Fld.HUB_TT_NMSI_EN, Fld.HUB_TT_NMSI_IDENTITY⟩

def noticeRing : RingRegs :=
  ⟨Fld.FAB_NRING_BASE, Fld.FAB_NRING_LOG2_RECORDS, Fld.FAB_NPTR_HEAD, Fld.FAB_NPTR_TAIL, Fld.FAB_STATUS_NDROPS,
   Fld.FAB_NMSI_FILE, Fld.FAB_NMSI_EN, Fld.FAB_NMSI_IDENTITY⟩

def ringRegs : Nat → RingRegs
  | 0 => faultRing
  | 1 => tileRing
  | _ => noticeRing

/-- A record of the ring is being written. -/
def State.ringBusy (s : State) (kind i : Nat) : Bool := s.opens.any (fun o => o.waiter == .append kind i)

/-- R345, R377: a record has been written: HEAD advances and the MSI is sent; or its write has failed, and it is dropped and counted. -/
def State.ringDone (s : State) (kind i : Nat) (ok : Bool) : State :=
  let g := ringRegs kind
  if ok then (s.setFld g.head i (s.fld g.head i + 1)).msi g.file g.en g.ident i else s.bump g.drops i

/-- A record is written at HEAD mod 2^L. -/
def State.ringWrite (s : State) (kind i : Nat) (b : List Byte) : State :=
  let g := ringRegs kind
  match s.issueWrite (unitRq 0xFE) none (s.fld g.base i * 4096 + s.fld g.head i % 2 ^ s.fld g.l i * b.length) b (.append kind i) with
  | (s, .done st _) => s.ringDone kind i (st == stOk)
  | (s, .open) => s

/-- R345, R377: a record goes to its ring, after those that are still being written; on a full ring it is dropped and counted. -/
def State.ringAppend (s : State) (kind i : Nat) (b : List Byte) : State :=
  let g := ringRegs kind
  let waiting := (s.ringQ.filter (fun x => x.kind == kind && x.i == i)).length + (if s.ringBusy kind i then 1 else 0)
  if 2 ^ s.fld g.l i ≤ (s.fld g.head i + waiting + 2 ^ 32 - s.fld g.tail i) % 2 ^ 32 then s.bump g.drops i
  else if waiting = 0 then s.ringWrite kind i b
  else { s with ringQ := s.ringQ ++ [⟨kind, i, b⟩] }

/-- The records that wait for a ring are written, until one has to wait for its home. -/
def State.ringDrain (s : State) (kind i : Nat) : Nat → State
  | 0 => s
  | n + 1 =>
    if s.ringBusy kind i then s
    else match s.ringQ.find? (fun x => x.kind == kind && x.i == i) with
      | some x => State.ringDrain (({ s with ringQ := s.ringQ.erase x }).ringWrite kind i x.data) kind i n
      | none => s

end Sys2Proof.Machine
end

