-- ==== Sys2Proof/Machine/Xlate.lean ====
section
/-! DEFINITION. Address translation (chapter 12): translation caches and the walker (R336 to R338), the Sv57 walk (R334, R335), and
faults (R340 to R346). -/

namespace Sys2Proof.Machine

/-- The hub's command translation cache, beside those of cores 0 to 127. -/
def cmdCache : Nat := 128
/-- DESIGN of the tag of a G entry: no ASID has this number. -/
def asidG : Nat := 65536

/-- Causes (R340). -/
def fcBadPte : Nat := 1
def fcPermission : Nat := 2
def fcAccessed : Nat := 3
def fcMisaligned : Nat := 4
def fcNonCanonical : Nat := 5
def fcBadAtp : Nat := 6
def fcWalkError : Nat := 7
def fcWalkPoison : Nat := 8
def fcAccess : Nat := 9

/-- Status of a command that a cause ends (R340). -/
def faultStatus (code : Nat) : Nat := if code = fcWalkPoison then stPoisoned else stAccessError

/-! ## Page-table entries (R334) -/

def pteBit (pte i : Nat) : Bool := bit pte i
def ptePpn (pte : Nat) : Nat := getBits pte 10 44

/-- Entries that are invalid at any level. -/
def pteBad (pte : Nat) : Bool :=
  !bit pte 0 || (bit pte 2 && !bit pte 1) || getBits pte 54 7 != 0 || getBits pte 61 2 == 3

def pteLeaf (pte : Nat) : Bool := bit pte 1 || bit pte 2 || bit pte 3

/-- User access: U, and R or W as the access needs; a reduction or atomic (3) needs both. -/
def pteDenied (pte access : Nat) : Bool :=
  !bit pte 4 || (access != 2 && !bit pte 1) || (access != 1 && !bit pte 2)

/-- Svade: A = 0, or a write with D = 0. -/
def pteUnmarked (pte access : Nat) : Bool := !bit pte 6 || (access != 1 && !bit pte 7)

/-- The cause a leaf raises at a level, in the order of R334, or 0. -/
def leafCause (pte level access : Nat) : Nat :=
  if level ≥ 3 then fcBadPte
  else if bit pte 63 ∧ (level ≠ 0 ∨ ptePpn pte % 16 ≠ 8) then fcBadPte
  else if pteDenied pte access then fcPermission
  else if ptePpn pte % 2 ^ (9 * level) ≠ 0 then fcMisaligned
  else if pteUnmarked pte access then fcAccessed
  else 0

/-- log2 of a leaf's page: 4 KiB, Svnapot 64 KiB, 2 MiB, 1 GiB. -/
def leafSize (pte level : Nat) : Nat := if level = 0 ∧ bit pte 63 then 16 else 12 + 9 * level

/-! ## Translation caches (R336) -/

def Tlb.fits (t : Tlb) (cache part asid va : Nat) : Bool :=
  t.cache == cache && t.part == part && (bit t.flags 5 || t.asid == asid) && va / 2 ^ t.size == t.va / 2 ^ t.size

/-- What a translation gives: an address and the bytes left in its page, a miss, or a fault judged before a walk. -/
inductive Xl where
  | ok (pa room : Nat)
  | miss
  | fault (code : Nat)
  deriving DecidableEq, Repr

def State.asidOf (s : State) (c : Nat) : Nat := s.fld Fld.HUB_CTX_ATP_ASID c

/-- R333, R334: a virtual address of context c through a cache. A cached leaf that this access would fault on is a miss (R337)
(DEDUCED, log 37). -/
def State.xlate (s : State) (cache c va access : Nat) : Xl :=
  if s.fld Fld.HUB_CTX_ATP_MODE c ≠ 10 then .fault fcBadAtp
  else if va % 2 ^ 64 / 2 ^ 56 ≠ 0 ∧ va % 2 ^ 64 / 2 ^ 56 ≠ 255 then .fault fcNonCanonical
  else
    let v := va % 2 ^ 57
    match s.tlbs.find? (fun t => t.fits cache (s.partOfCtx c) (s.asidOf c) v && !pteDenied t.flags access && !pteUnmarked t.flags access) with
    | some t => .ok (t.pa + v % 2 ^ t.size) (2 ^ t.size - v % 2 ^ t.size)
    | none => .miss

/-- Splits n bytes at va into pages that translate, at most fuel of them: pieces so far, and where and why it stopped. -/
def State.pieces (s : State) (cache c access : Nat) (va : Nat) : Nat → Nat → Nat → List (Nat × Nat) × Option (Nat × Xl)
  | 0, off, n => if n = 0 then ([], none) else ([], some (off, .miss))
  | fuel + 1, off, n =>
    if n = 0 then ([], none)
    else match s.xlate cache c (va + off) access with
      | .ok pa room =>
        let k := min room n
        let r := State.pieces s cache c access va fuel (off + k) (n - k)
        ((pa, k) :: r.1, r.2)
      | x => ([], some (off, x))

/-- Pieces of n bytes at an address that is physical, or translated: a page holds at least 4 KiB. -/
def State.locatePieces (s : State) (phys : Bool) (cache c access va n : Nat) : List (Nat × Nat) × Option (Nat × Xl) :=
  if phys then ([(va % 2 ^ 64, n)], none) else s.pieces cache c access va (n / 4096 + 2) 0 n

/-- One address. -/
def State.xlateOne (s : State) (phys : Bool) (cache c access va : Nat) : Xl :=
  if phys then .ok (va % 2 ^ 64) 0 else s.xlate cache c va access

/-! ## Who translates (R332, R342) -/

/-- A far end with addresses: a memory endpoint or the host (R176, R403). -/
def memoryEp (ep : Nat) : Bool := ep / 4096 == 2 || ep / 4096 == 3 || ep / 4096 == 4

def addressed (ep : Nat) : Bool := memoryEp ep || ep / 4096 == 7

/-- The far end of a mover's circuit. -/
def farEnd (d : List Byte) (ce : CircEntry) : Nat := if moverDir d = 0 then ce.src else ce.dst

/-- Access of a mover (R334): 1 read, 2 write, 3 reduction. -/
def moverAccess (d : List Byte) : Nat := if moverReduce d then 3 else if moverDir d = 0 then 1 else 2

/-- A mover's firing that is still to translate (part of) its memory: the first virtual address that misses. A plain write's and a contribution's
firings translate in their order. -/
def State.firingMiss (s : State) (k e f : Nat) : Option (Nat × Nat) :=
  match s.entry k e, s.firings.find? (fun y => y.core == k && y.entry == e && y.f == f) with
  | some x, some fr =>
    let d := x.desc
    if descUnit d ≠ 3 ∨ moverPhys d ∨ moverTile d ∨ fr.stage ≠ .active ∨ fr.pieces.isSome ∨ fr.asked then none
    else if moverDir d = 1 ∧ s.firings.any (fun y => y.core == k && y.entry == e && decide (y.f < f) && y.stage == .active && y.pieces.isNone) then none
    else if !((s.circEntry (moverCirc d)).any (fun ce => addressed (farEnd d ce))) then none
    else match s.pieces k x.ctx (moverAccess d) (tileId d f + fr.b) (moverBytes d / 4096 + 2) 0 (moverBytes d - fr.b) with
      | (_, some (off, .miss)) => some (tileId d f + fr.b + off, moverAccess d)
      | _ => none
  | _, _ => none

/-- Counts of a command's engines on core k that wait. -/
def Cmd.coreHist (m : Cmd) (k : Nat) : List Nat :=
  (m.sums.filter (fun y => y.engine / 4 == k)).foldl (fun h y => (h.zip y.hist).map (fun z => z.1 + z.2)) (List.replicate 69 0)

/-- A command has no engine work left on core k: no descriptor, no save. -/
def State.coreDrained (s : State) (r : CmdRef) (k : Nat) : Bool :=
  !(s.cmdEntries r).any (fun e => e.1 == k && descUnit e.2.2.desc == 1)
  && !s.ctxs.any (fun x => x.2.saves.any (fun v => v.engine / 4 == k
      && ((v.entry0.map (·.cmd)) == some r || (v.entry1.map (·.cmd)) == some r)))

/-- The histogram of core k that a command still has to deliver, its command's last drain on the core being done: who delivers it, the circuit
and the record's address. -/
def State.histWork (s : State) (k : Nat) (r : CmdRef) : Option (HistFrom × Nat × Nat) :=
  match s.cmd r with
  | some m =>
    if (m.coreHist k).sum = 0 ∨ m.finished ∨ !s.coreDrained r k then none
    else match m.histFrom.find? (fun h => h.core == k), histTarget (launchRecords m) k with
      | some h, some (c, va) => some (h, c, va)
      | _, _ => none
  | none => none

/-- The entry number by which a walk names a histogram delivery, whose descriptor has retired. -/
def histEntry : Nat := 0xFE

/-- A command that a walk for a delivery is for: its sequence number, the context of the descriptor and the core say which. -/
def State.histCmd (s : State) (k c seq : Nat) : Option CmdRef :=
  ((s.ctxs.map (fun x => (⟨x.1, seq⟩ : CmdRef))).filter (fun r => (s.histWork k r).any (fun h => h.1.ctx == c))).head?

/-- The first virtual address of a run that misses in a cache. -/
def State.missIn (s : State) (cache c access va n : Nat) : Option (Nat × Nat) :=
  match s.pieces cache c access va (n / 4096 + 2) 0 n with
  | (_, some (off, .miss)) => some (va + off, access)
  | _ => none

/-- Bytes of a command's counter records (R213). -/
def Cmd.counterBytes (m : Cmd) : Nat := if m.opcode = 3 ∧ fieldAt m.slot 0x30 8 ≠ 0 then 128 * (popcount 128 m.coresField - 1) else 0

/-- The virtual address, and the access, at which a command's own access misses now. -/
def State.cmdMiss (s : State) (r : CmdRef) : Option (Nat × Nat) :=
  match s.cmd r with
  | none => none
  | some m =>
    let one := fun (access va n : Nat) => s.missIn cmdCache r.ctx access va n
    if bit m.hdrFlags 3 ∨ m.latched then none
    else match m.opcode with
      | 3 =>
        if m.installed ∨ m.finished then (if m.started ∧ 0 < m.counterBytes then one 2 (fieldAt m.slot 0x30 8) m.counterBytes else none)
        else if m.arg1 ≠ 0 ∧ m.records.length < 144 * m.arg0 then one 1 (m.arg1 + m.records.length) 1 else none
      | 4 => if m.started ∧ !m.finished then one 2 m.arg0 (fieldAt m.slot 0xC 2) else none
      | 5 =>
        if m.started ∧ !m.finished then
          (match one 1 (m.arg0 + m.pos) 1 with
          | some x => some x
          | none => one 2 (m.arg1 + m.pos) 1)
        else none
      | 8 => if m.started ∧ m.installed ∧ !m.finished then one 1 m.arg0 8 else none
      | 9 => if m.started ∧ !m.finished then one 2 m.arg0 8 else none
      | _ => none

/-! ## Faults (R340 to R345) -/

/-- A requester as a fault record names it (R344): the command that it counts for, the context that it belongs to (R209), REQUESTER, CORE, ENTRY,
firing, ACCESS, LAYER, OPERATOR, RESUME_INDEX and RESUME_BYTES. -/
structure FaultSite where
  cmd : CmdRef
  ctx : Nat
  requester : Nat
  core : Nat
  entry : Nat
  f : Nat
  access : Nat
  layer : Nat
  oper : Nat
  index : Nat
  bytes : Nat
  deriving DecidableEq, Repr

/-- A command's own access: n of a LAUNCH, b of a COPY (R342). -/
def State.cmdSite (s : State) (r : CmdRef) (access : Nat) : FaultSite :=
  match s.cmd r with
  | some m => ⟨r, r.ctx, 3, 0xFF, 0xFF, 0, access, m.layer, m.oper, if m.opcode = 3 ∧ !m.installed ∧ !m.finished then m.pos else 0,
      if m.opcode = 5 then m.pos / 64 * 64 else 0⟩
  | none => ⟨r, r.ctx, 3, 0xFF, 0xFF, 0, access, 0xFFFF, 0xFFFF, 0, 0⟩

/-- A mover's firing, at byte b: a contribution has sent nothing of it (R342). -/
def firingSite (fr : Firing) (x : Entry) (access b : Nat) : FaultSite :=
  ⟨x.cmd, x.ctx, 1, fr.core, fr.entry, fr.f, access, descLayer x.desc, descOper x.desc, fr.f, if moverReduce x.desc then 0 else b / 64 * 64⟩

/-- A mover's firing whose token is on its way, from core k; its descriptor may have retired. A delivery's entry
number stands 256 higher. -/
def Token.site (t : Token) (k access b : Nat) : FaultSite :=
  ⟨t.cmd, t.ctx, if t.entry < 256 then 1 else 2, k, t.entry % 256, t.f, access, t.ids.1, t.ids.2, t.f, b / 64 * 64⟩

def histSite (h : HistFrom) (r : CmdRef) : FaultSite := ⟨r, h.ctx, 2, h.core, h.entry, 0, 3, h.layer, h.oper, 0, 0⟩

/-- Core whose ring takes the events of a requester: its own, or the lead core of a command (R211). -/
def State.siteCore (s : State) (w : FaultSite) : Nat :=
  if w.core ≠ 0xFF then w.core
  else match s.cmd w.cmd with
    | some m => s.leadOf w.cmd.ctx m
    | none => s.leadCore w.cmd.ctx

/-- The 64 bytes of a fault record (R344). -/
def State.faultRecord (s : State) (w : FaultSite) (code level pte pteAddr addr : Nat) : List Byte :=
  leBytes 4 w.cmd.seq ++ [BitVec.ofNat 8 code, if code ≤ 4 then 1 else 2, BitVec.ofNat 8 w.ctx, BitVec.ofNat 8 w.requester]
  ++ leBytes 8 addr
  ++ [BitVec.ofNat 8 w.core, BitVec.ofNat 8 w.entry, BitVec.ofNat 8 w.access, BitVec.ofNat 8 level]
  ++ leBytes 2 w.layer ++ leBytes 2 w.oper ++ leBytes 4 w.index ++ leBytes 4 w.bytes ++ leBytes 8 pte ++ leBytes 8 pteAddr ++ leBytes 8 s.ft
  ++ leBytes 8 0

/-- R340, R341, R344, R347: a fault of a requester of a context: its record, and the context's or the command's action. In ENDING, or
where the context's partition is being fenced, it is discarded. -/
def State.raiseFault (s : State) (w : FaultSite) (code level pte pteAddr addr : Nat) : State :=
  let x := s.ctx w.ctx
  let p := s.partOfCtx w.ctx
  if x.st = .ending ∨ x.st = .free ∨ s.fencing (.partition p) ∨ s.fencing .chip then s
  else
    let cnt := s.fld Fld.HUB_CTX_FAULT_COUNT w.ctx
    let s := if cnt = 0 then s.setFld Fld.HUB_CTX_FAULT_CAUSE w.ctx code else s
    let s := s.bump Fld.HUB_CTX_FAULT_COUNT w.ctx
    let record := s.faultRecord w code level pte pteAddr addr
    let ev : EvRec := ⟨s.ft, 0x8006, 1, s.siteCore w, some w.ctx, w.layer, w.oper, w.cmd.seq, addr⟩
    let s := (s.event ev).packet 1 ⟨ev, 4, code⟩
    let s := if code ≤ 4 then
        let s := s.updCtx w.ctx (fun x => { x with faults := x.faults ++ [⟨addr, code, w.cmd, w.core, w.entry, w.f⟩] })
        let s := s.setFld Fld.HUB_CTX_FAULT_PENDING w.ctx 1
        if x.st = .running then s.enterCtx w.ctx .suspended else s
      else s.failCmd w.cmd (faultStatus code)
    s.ringAppend 0 p record

/-- A requester of R342 stands stopped at its resume point: one firing of a descriptor, or a command's access. -/
def State.stopped (s : State) (c : Nat) (r : CmdRef) (core entry f : Nat) : Bool :=
  (s.ctx c).faults.any (fun y => y.cmd == r && y.core == core && y.entry == entry && y.f == f)

/-- The command's own access stands stopped. -/
def State.cmdStopped (s : State) (r : CmdRef) : Bool := s.stopped r.ctx r 0xFF 0xFF 0

/-- An access of a command that received an error response after its translation: cause ACCESS (R340), with a status of its own where the
endpoint was lost or its data poisoned, which write no fault record. -/
def State.accessFault (s : State) (w : FaultSite) (addr status : Nat) : State :=
  if status = stOk then s
  else
    let s := s.coverCtx w.cmd.ctx status
    if status = stAccessError then s.raiseFault w fcAccess 0xFF 0 0 addr
    else
      let s := if status = stPoisoned then s.event ⟨s.ft, 0x8007, 1, s.siteCore w, some w.ctx, w.layer, w.oper, w.cmd.seq, addr / 32 * 32⟩ else s
      s.failCmd w.cmd status

/-- A fault judged before a walk. -/
def State.earlyFault (s : State) (w : FaultSite) (va code : Nat) : State := s.raiseFault w code 0xFF 0 0 va

/-! ## The walker (R334 to R336) -/

/-- Where a walk begins: the deepest table that the non-leaf cache holds, else the root. -/
def State.walkStart (s : State) (w : Walk) : Walk :=
  let p := s.partOfCtx w.ctx
  let v := w.va % 2 ^ 57
  let found := [0, 1, 2, 3].findSome? (fun l => s.nonLeaf.find? (fun n =>
    n.part == p && (n.asid == s.asidOf w.ctx || n.asid == asidG) && n.level == l && n.va == v / 2 ^ (12 + 9 * (l + 1))))
  match found with
  | some n => { w with level := n.level, table := n.table, g := n.asid == asidG }
  | none => { w with level := 4, table := s.fld Fld.HUB_CTX_ATP_PPN w.ctx * 4096, g := false }

/-- What a walk's requester misses now, and its site: a mover's firing through its core's cache, a histogram delivery of its core, or a command
through the hub's cache (R332). Engines, feeders and vector programs never translate (R342). -/
def State.walkNeed (s : State) (w : Walk) : Option ((Nat × Nat) × FaultSite) :=
  if w.entry < 64 then
    match s.entry w.cache w.entry, s.firings.find? (fun y => y.core == w.cache && y.entry == w.entry && y.f == w.f) with
    | some x, some fr =>
      if x.ctx = w.ctx ∧ x.cmd.seq = w.seq then
        (s.firingMiss w.cache w.entry w.f).map (fun m => (m, firingSite fr x m.2 ((m.1 : Int) - tileId x.desc fr.f).toNat))
      else none
    | _, _ => none
  else if w.entry = histEntry then
    match s.histCmd w.cache w.ctx w.seq with
    | some r => (match s.histWork w.cache r with
      | some (h, _, va) => (s.missIn w.cache w.ctx 3 va 576).map (fun m => (m, histSite h r))
      | none => none)
    | none => none
  else if w.entry = 0xFF ∧ w.cache = cmdCache then (s.cmdMiss ⟨w.ctx, w.seq⟩).map (fun m => (m, s.cmdSite ⟨w.ctx, w.seq⟩ m.2))
  else none

/-- A walk is for what its requester misses now. -/
def State.walkWanted (s : State) (w : Walk) : Bool := (s.walkNeed w).any (fun n => n.1 == (w.va, w.access))

/-- TRANSLATION_MISS (R336): a requester that translates asks for a walk: at most 32 in flight, 8 of a partition, one for a requester. -/
def State.translationMiss (s : State) (w : Walk) : State :=
  let p := s.partOfCtx w.ctx
  match s.walkNeed w with
  | none => s
  | some (need, site) =>
    if need ≠ (w.va, w.access) ∨ s.stopped site.ctx site.cmd site.core site.entry site.f then s
    else if s.walks.length ≥ 32 ∨ (s.walks.filter (fun x => s.partOfCtx x.ctx == p)).length ≥ 8 then s
    else if s.walks.any (fun x => x.cache == w.cache && x.ctx == w.ctx && x.seq == w.seq && x.entry == w.entry && x.f == w.f) then s
    else
      let s := if w.cache < 128 then s.countCore w.cache 0x12 0 1 else s
      { s with walks := s.walks ++ [s.walkStart w] }

/-- The requester that a walk reads for (R335). -/
def State.walkRq (s : State) (w : Walk) : Requester :=
  if w.cache < 128 then ⟨.tensor, w.cache, s.partOfCtx w.ctx⟩ else ⟨.dma, 0, s.partOfCtx w.ctx⟩

/-- Adds an entry to a cache of a size; a full one gives up a victim that a free value chooses (R336: pseudo-LRU). -/
def addVictim {α : Type} (l : List α) (mine : α → Bool) (cap : Nat) (pick : Nat) (x : α) : List α :=
  let n := (l.filter mine).length
  if n < cap then l ++ [x]
  else
    let keep := (l.filter mine).eraseIdx (pick % max 1 n)
    l.filter (fun y => !mine y) ++ keep ++ [x]

/-- A leaf enters its translation cache (R336, R337). -/
def State.addTlb (s : State) (t : Tlb) : State :=
  let mine := fun (x : Tlb) => x.cache == t.cache
  { (s.spend) with tlbs := addVictim s.tlbs mine (if t.cache < 128 then 512 else 1024) s.free t }

def State.addNonLeaf (s : State) (n : NonLeaf) : State :=
  if s.nonLeaf.contains n then s else { (s.spend) with nonLeaf := addVictim s.nonLeaf (fun _ => true) 256 s.free n }

def State.dropWalk (s : State) (i : Nat) : State := { s with walks := s.walks.eraseIdx i }

/-- The partition whose turn it is: of those with a walk in flight, the next after the one served last (R336). -/
def State.walkPart (s : State) : Option Nat :=
  ((List.range 256).map (fun i => (s.walkTurn + 1 + i) % 256)).find? (fun p => s.walks.any (fun w => s.partOfCtx w.ctx == p))

/-- PAGE_WALK (R334, R335): in its partition's turn, and once the share serves it, walk i reads the entry at its level; it goes on one level down, or ends with a translation or a fault. -/
def State.pageWalk (s : State) (i : Nat) : State :=
  match s.walks[i]? with
  | none => s
  | some w =>
    let p := s.partOfCtx w.ctx
    let v := w.va % 2 ^ 57
    let a := w.table + 8 * (v / 2 ^ (12 + 9 * w.level) % 512)
    let fail := fun (s : State) (code pte : Nat) => match s.walkNeed w with
      | some n => (s.dropWalk i).raiseFault n.2 code w.level pte a w.va
      | none => s.dropWalk i
    if s.walkPart ≠ some p then s
    else if !s.walkWanted w then s.dropWalk i
    else if cacheable a ∧ !s.accessNow (unitRq p) a 8 then s
    else
    let s := { s with walkTurn := p }
    if !cacheable a then fail s fcWalkError 0
    else
      let r := s.readLocal (s.walkRq w) a 8
      let s := r.1
      if r.2.1 = stPoisoned then fail s fcWalkPoison 0
      else if r.2.1 ≠ stOk then fail s fcWalkError 0
      else
        let pte := leNat r.2.2
        let g := w.g || bit pte 5
        let asid := s.asidOf w.ctx
        if pteBad pte then fail s fcBadPte pte
        else if pteLeaf pte then
          let c := leafCause pte w.level w.access
          if c ≠ 0 then fail s c pte
          else
            let size := leafSize pte w.level
            let pa := (if size = 16 then ptePpn pte / 16 * 16 else ptePpn pte) * 4096
            let flags := if g then pte % 256 ||| 32 else pte % 256
            (s.dropWalk i).addTlb ⟨w.cache, p, asid, v / 2 ^ size * 2 ^ size, size, pa, flags⟩
        else if w.level = 0 ∨ getBits pte 61 3 ≠ 0 ∨ bit pte 4 ∨ bit pte 6 ∨ bit pte 7 then fail s fcBadPte pte
        else
          let t := ptePpn pte * 4096
          let s := s.addNonLeaf ⟨p, if g then asidG else asid, w.level - 1, v / 2 ^ (12 + 9 * w.level), t⟩
          { s with walks := s.walks.set i { w with level := w.level - 1, table := t, g := g } }

/-! ## Invalidation (R338) -/

/-- An entry of size log2 pages from va matches HUB_TLBI and HUB_TLBI_VA of partition p. -/
def State.tlbiMatch (s : State) (p asid va size : Nat) (g : Bool) : Bool :=
  let all := s.flag Fld.HUB_TLBI_ALL_ASID p
  let lo := s.fld Fld.HUB_TLBI_VA_VPN p * 4096
  let hi := lo + 2 ^ (12 + s.fld Fld.HUB_TLBI_VA_LOG2_PAGES p)
  (all || (!g && asid == s.fld Fld.HUB_TLBI_ASID p)) && (s.flag Fld.HUB_TLBI_ALL_VA p || (decide (va < hi) && decide (lo < va + 2 ^ size)))

/-- GO: every matching entry of the partition is dropped (R338), with its walks in flight, which begin again. GO stays set until TLBI_DONE; the
physical ranges of the dropped entries say which accesses it waits for. -/
def State.tlbiDrop (s : State) (p : Nat) : State :=
  let drop := fun (t : Tlb) => t.part == p && s.tlbiMatch p t.asid t.va t.size (bit t.flags 5)
  { s with
    tlbWait := Store.set (fun _ => ([], 0)) s.tlbWait p ((s.tlbs.filter drop).map (fun t => (t.pa, t.pa + 2 ^ t.size)), s.nextId)
    tlbs := s.tlbs.filter (fun t => !drop t)
    nonLeaf := s.nonLeaf.filter (fun n => !(n.part == p
      && s.tlbiMatch p n.asid (n.va * 2 ^ (12 + 9 * (n.level + 1))) (12 + 9 * (n.level + 1)) (n.asid == asidG)))
    walks := s.walks.filter (fun w => s.partOfCtx w.ctx != p) }

/-- An access of partition p that may have been translated through a dropped entry is outstanding: one of its commands', translated memory of its
movers, or a token on its way to memory (DEDUCED, log 37). -/
def State.tlbiOutstanding (s : State) (p : Nat) : Bool :=
  let w := Store.get (fun _ => ([], 0)) s.tlbWait p
  let hit := fun (a n : Nat) => w.1.any (fun r => decide (a < r.2) && decide (r.1 < a + n))
  let toMem := fun (t : Token) => s.partOfCtx t.ctx == p && t.pieces.any (fun q => hit q.1 q.2)
  s.opens.any (fun o => decide (o.id < w.2) && o.ctx.any (fun r => s.partOfCtx r.ctx == p) && hit o.addr o.len)
  || s.firings.any (fun f => f.stage == .active && f.pieces.any (fun l => l.any (fun q => hit q.1 q.2))
      && (s.entry f.core f.entry).any (fun x => s.partOfCtx x.ctx == p && !moverPhys x.desc && !moverTile x.desc))
  || s.circs.any (fun c => c.2.ready.any toMem || c.2.flight.any (fun x => toMem x.2)) || s.contribs.any (fun t => toMem t.tok)
  || s.segs.any (fun g => (g.2.sent ++ g.2.resend).any (fun x => toMem x.tok))

/-- TLBI_DONE (R338): GO clears once no access through a dropped entry is outstanding. -/
def State.tlbiDone (s : State) (p : Nat) : State :=
  if s.flag Fld.HUB_TLBI_GO p ∧ !s.tlbiOutstanding p then
    { s.setFld Fld.HUB_TLBI_GO p 0 with tlbWait := Store.del s.tlbWait p }
  else s

def execTranslationMiss (w : Walk) (s : State) : Host.Outcome State Fault Refusal := answer (s.translationMiss w)
def execPageWalk (i : Nat) (s : State) : Host.Outcome State Fault Refusal := answer (s.pageWalk i)
def execTlbiDone (p : Nat) (s : State) : Host.Outcome State Fault Refusal := answer (s.tlbiDone p)

end Sys2Proof.Machine
end

