-- ==== Sys2Proof/Machine/Install.lean ====
section
/-! DEFINITION. Install checks of descriptors and queue records (R178, R207, R208) and what installing does (R166 to R168, R177). -/

namespace Sys2Proof.Machine

/-- Footprint of a tile by format code (R254). -/
def footprint (fmt : Nat) : Nat :=
  match fmt with
  | 0 => 0x900
  | 1 => 0x1000
  | 2 => 0x1000
  | 7 => 0x1000
  | 3 => 0x2000
  | 5 => 0x2000
  | 8 => 0x2000
  | _ => 0x4000

/-- A queue's slot holds a tile of a format (R254): for Z4, its scale plane at SCALE_UNITS too (R258). -/
def Queue.fitsTile (q : Queue) (fmt : Nat) : Bool :=
  decide (footprint fmt ≤ q.slotBytes) && (fmt != 0 || decide (q.scaleUnits * 256 + 0x80 ≤ q.slotBytes))

/-! ## Vector instructions (R179) -/

def vOpc (w : Nat) : Nat := getBits w 56 8
def vType (w : Nat) : Nat := getBits w 52 4
def vType2 (w : Nat) : Nat := getBits w 48 4
def vVd (w : Nat) : Nat := getBits w 43 5
def vVs1 (w : Nat) : Nat := getBits w 38 5
def vVs2 (w : Nat) : Nat := getBits w 33 5
def vVs3 (w : Nat) : Nat := getBits w 28 5
def vRound (w : Nat) : Nat := getBits w 25 3
def vSatf (w : Nat) : Bool := bit w 24
def vMask (w : Nat) : Nat := getBits w 21 3
def vQueue (w : Nat) : Nat := getBits w 15 6
def vOffset (w : Nat) : Nat := getBits w 0 15

def isF (t : Nat) : Bool := t == 3 || t == 4 || t == 5 || t == 6
def isI (t : Nat) : Bool := t == 7 || t == 8 || t == 9
def isReg (t : Nat) : Bool := decide (1 ≤ t) && decide (t ≤ 9)

/-- Types that an opcode allows (R180). -/
def vTypesOk (w : Nat) : Bool :=
  let t := vType w
  let u := vType2 w
  let o := vOpc w
  if o = 0x00 then true
  else if o = 0x0C then isReg t && isReg u
  else if o = 0x20 ∨ o = 0x21 then decide (t ≤ 9) && isReg u
  else if o = 0x22 then isReg t && decide (u ≤ 9)
  else if t ≠ u then false
  else if o ≤ 3 ∨ o = 5 ∨ o = 6 ∨ o = 9 ∨ o = 0xA ∨ o = 0x11 ∨ o = 0x12 then isF t || isI t
  else if o = 4 ∨ (0xD ≤ o ∧ o ≤ 0x10) then isF t
  else if o = 7 ∨ o = 8 then isI t
  else isReg t

def vOpcOk (o : Nat) : Bool := decide (o ≤ 0x12) || (decide (0x20 ≤ o) && decide (o ≤ 0x22))

/-- Bytes that an access moves at its address. -/
def vBytes (w : Nat) : Nat :=
  let m := if vOpc w = 0x22 then vType2 w else vType w
  let per := match FCode.ofCode m with
    | some c => c.bits
    | none => 0
  if m = 0 then 32 else if vOpc w = 0x21 then per / 8 else 64 * per / 8

def vIsZ4 (w : Nat) : Bool := (if vOpc w = 0x22 then vType2 w else vType w) == 0

/-- R179: the access lies within the n slots of the queue that the firing holds. -/
def vAccessOk (q : Queue) (n : Nat) (w : Nat) : Bool :=
  let o := 4 * vOffset w
  let sb := q.slotBytes
  decide (o + vBytes w ≤ n * sb) &&
  (!vIsZ4 w || (vOffset w % 4 == 0 && decide (o / max 1 sb * sb + q.scaleUnits * 256 + o % max 1 sb / 16 + 2 ≤ n * sb)))

/-- The port of a load or store: a store's is an OUT queue, a load's an IN queue, or else an OUT queue. -/
def vPort (d : List Byte) (w : Nat) : Option QPort :=
  let out := (descOuts d).find? (fun p => p.queue == vQueue w)
  if vOpc w = 0x22 then out
  else match (descIns d).find? (fun p => p.queue == vQueue w) with
    | some p => some p
    | none => out

/-- R179, R180: one instruction of a descriptor's program on core k. -/
def State.vInstrOk (s : State) (k : Nat) (d : List Byte) (w : Nat) : Bool :=
  let o := vOpc w
  vOpcOk o && vTypesOk w
  && (!(o == 9 || o == 0xA) || vVd w % 8 != 0)
  && (decide (o < 0x20) ||
      match vPort d w with
      | some p => vAccessOk (s.queue k p.queue) p.n w
      | none => false)

/-- The program that a vector descriptor names, read from SRAM. -/
def State.vProgram (s : State) (k : Nat) (d : List Byte) : List Word :=
  (List.range (fieldAt d 0x24 2)).map (fun i => BitVec.ofNat 64 (leNat (s.bytes (sramOf k (fieldAt d 0x20 4 + 8 * i)) 8)))

/-! ## Descriptor checks (R178) -/

/-- Check 0x01: reserved bits and bytes of a descriptor. -/
def descReserved (d : List Byte) : Bool :=
  reservedSet d [(7, 1), (0xC, 4)] || (List.range 8).any (fun i => bit (fieldAt d (0x10 + 2 * i) 2) 14)
  || match descUnit d with
    | 1 => reservedSet d [(0x25, 3), (0x2E, 2), (0x38, 72)] || decide (engConv d / 64 ≠ 0)
    | 2 => reservedSet d [(0x26, 90)]
    | 3 => reservedSet d [(0x38, 72)] || decide (moverFlags d / 16 ≠ 0)
    | _ => false

/-- Formats an operand may have in a mode (R135, R175). -/
def modeFormatOk (mode fmt : Nat) : Bool :=
  match mode with
  | 0 => fmt == 0
  | 1 => fmt == 1 || fmt == 2
  | 2 => fmt == 3
  | _ => false

/-- ADD_OP codes of R247. -/
def addOpOk (reduce : Bool) (op : Nat) : Bool :=
  if reduce then op == 1 || op == 2 || op == 3 || op == 4 || op == 8 else op == 0

/-- Check 0x03. -/
def descBadFormat (d : List Byte) : Bool :=
  match descUnit d with
  | 1 => !modeFormatOk (engMode d) (fieldAt d 0x21 1) || !modeFormatOk (engMode d) (fieldAt d 0x22 1) || decide (fieldAt d 0x23 1 > 4)
  | 3 => !addOpOk (moverReduce d) (moverOp d)
  | _ => false

/-- Valid bits of the eight ports as R175 and R176 allow them: required (some true), forbidden (some false) or free (none). -/
def portPlan (d : List Byte) : List (Option Bool) :=
  match descUnit d with
  | 1 => [some true, some true, some (engInitLoad d), some false, some true, some false, some false, some false]
  | 3 => [some (moverDir d == 1), some false, some false, some false, some (moverDir d == 0), some false, some false, some false]
  | _ => List.replicate 8 none

/-- Check 0x05. A PROG_LEN out of range, and a queue entry that R175 or R176 requires and that is not valid, take this code too (DESIGN CHOICE, log 75). -/
def descBadLength (d : List Byte) : Bool :=
  let ps := qports d 0x10 ++ qports d 0x18
  descFirings d == 0 || (descUnit d == 1 && engMode d == 0 && engK d % 32 != 0)
  || (ps.zip (portPlan d)).any (fun x => match x.2 with
      | some v => x.1.valid != v
      | none => false)
  || ps.any (fun p => p.valid && (p.n == 0 || decide (p.n > 64) || (descUnit d == 1 && p.n != 1)))
  || (descUnit d == 2 && (fieldAt d 0x24 2 == 0 || decide (fieldAt d 0x24 2 > 256)))

/-- What the descriptors of the same LAUNCH accepted before on one core have claimed: consumed queues, produced queues,
descriptor entries, and the histogram circuit. -/
structure Claims where
  core : Nat
  ins : List Nat
  outs : List Nat
  entries : List Nat
  hist : Option Nat
  deriving DecidableEq, Repr

def claimsOf (l : List Claims) (k : Nat) : Claims := (l.find? (fun c => c.core == k)).getD ⟨k, [], [], [], none⟩

def setClaims (l : List Claims) (c : Claims) : List Claims := c :: l.filter (fun x => x.core != c.core)

/-- Size of a bank group of core SRAM (R26). -/
def groupBytes : Nat := 0x8_0000

def Queue.bytes (q : Queue) : Nat := q.depth * q.slotBytes

/-- Check 0x06 of one port. A mover's BYTES above N × SLOT_BYTES takes this code too (DESIGN CHOICE, log 75). -/
def State.portBad (s : State) (k : Nat) (d : List Byte) (cl : Claims) (p : QPort) (out : Bool) (fmt : Option Nat) : Bool :=
  let q := s.queue k p.queue
  !q.valid || q.owner != descCtx d
  || (if out then q.producer != 0xFF || cl.outs.contains p.queue else q.consumer != 0xFF || cl.ins.contains p.queue)
  || (descUnit d == 1 && !(decide (descTarget d * groupBytes ≤ q.base) && decide (q.base + q.bytes ≤ (descTarget d + 1) * groupBytes)))
  || (match fmt with
      | some f => !q.fitsTile f
      | none => false)
  || (descUnit d == 3 && (decide (moverBytes d > p.n * q.slotBytes)
      || (match s.circEntry (moverCirc d) with
          | some c => c.credits != q.depth
          | none => false)))

/-- Formats of an engine's A, B, C and output tiles; others have none. -/
def inFormats (d : List Byte) : List (Option Nat) :=
  if descUnit d = 1 then [some (fieldAt d 0x21 1), some (fieldAt d 0x22 1), some 4, none] else [none, none, none, none]

def State.badQueue (s : State) (k : Nat) (d : List Byte) (cl : Claims) : Bool :=
  ((qports d 0x10).zip (inFormats d)).any (fun x => x.1.valid && s.portBad k d cl x.1 false x.2)
  || (descOuts d).any (fun p => s.portBad k d cl p true (if descUnit d = 1 then some (fieldAt d 0x23 1) else none))
  || !noDup ((descIns d).map (·.queue)) || !noDup ((descOuts d).map (·.queue))

/-- Check 0x07. -/
def State.badCircuit (s : State) (k part : Nat) (d : List Byte) (cl : Claims) : Bool :=
  let me := 0x1000 + k
  match descUnit d with
  | 1 => engHistAddr d != 0 && (match s.circEntry (engHistCirc d) with
      | none => true
      | some c => c.part != part || c.src != me || !c.reduce || !(c.dst / 4096 == 2 || c.dst / 4096 == 3)
          || ((s.lastSlot c.id).map (·.bytes)) != some 576
          || (match cl.hist with
              | some h => h != c.id
              | none => false))
  | 3 => match s.circEntry (moverCirc d) with
      | none => true
      | some c => c.part != part || (if moverDir d = 1 then c.src else c.dst) != me
          || ((s.lastSlot c.id).map (·.bytes)) != some (moverBytes d)
  | _ => false

/-- Check 0x08: HIST_ADDR, a contribution's ADDR, BYTES and STRIDE (R241, R249), and PROG. STRIDE must meet the alignment of a contribution's ADDR,
and none without REDUCE (DESIGN CHOICE, log 75). -/
def descBadAddress (d : List Byte) : Bool :=
  match descUnit d with
  | 1 => engHistAddr d % 64 != 0
  | 2 => fieldAt d 0x20 4 % 8 != 0
  | 3 => moverReduce d && (let a := if moverOp d = 8 then 1024 else 64
      moverAddr d % a != 0 || moverBytes d % a != 0 || fieldAt d 0x30 8 % a != 0)
  | _ => false

/-- Check 0x09: a program that lies in SRAM, whose instructions are sound and whose last is VEND. One that reaches past the SRAM takes this code too
(DESIGN CHOICE, log 75). -/
def State.badProgram (s : State) (k : Nat) (d : List Byte) : Bool :=
  descUnit d == 2 &&
    (let p := s.vProgram k d
     decide (fieldAt d 0x20 4 + 8 * p.length > sramStride) || (p.getLast?.map (fun w => vOpc w.toNat)) != some 0
     || p.any (fun w => !s.vInstrOk k d w.toNat))

/-- Check 0x04: ROUND of an engine descriptor, or of an instruction of a program. -/
def State.badRound (s : State) (k : Nat) (d : List Byte) : Bool :=
  (descUnit d == 1 && decide (engConv d % 8 > 4)) || (descUnit d == 2 && (s.vProgram k d).any (fun w => decide (vRound w.toNat > 4)))

/-- The lowest free entry of a core that the LAUNCH has not claimed. -/
def State.freeEntry (s : State) (k : Nat) (cl : Claims) : Option Nat :=
  (List.range 64).find? (fun e => (s.entry k e).isNone && !cl.entries.contains e)

/-- The check code of a record, 0 if it passes, and its entry. -/
def State.checkRecord (s : State) (r : CmdRef) (cores : Nat) (rec1 : List Byte) (cl : Claims) : Nat × Nat :=
  let k := recCore rec1
  let e := recEntry rec1
  let d := recDesc rec1
  let p := s.partOfCtx r.ctx
  let slot := if e = 0xFF then s.freeEntry k cl else if (s.entry k e).isNone && !cl.entries.contains e then some e else none
  let code := firstFail [(1, reservedSet rec1 [(2, 14)] || descReserved d),
    (2, descUnit d == 0 || decide (descUnit d > 3) || decide (descTarget d > (if descUnit d = 1 then 3 else 0))
      || s.partOfCtx (descCtx d) != p || (s.ctx (descCtx d)).st == .free
      || (decide (64 ≤ e) && decide (e ≤ 0xFE)) || decide (k > 127) || !bit cores k),
    (3, descBadFormat d), (4, s.badRound k d), (5, descBadLength d), (6, s.badQueue k d cl), (7, s.badCircuit k p d cl),
    (8, descBadAddress d), (9, s.badProgram k d), (0xA, slot.isNone)]
  (code, slot.getD e)

/-- Every record in order: the first that fails, with its index and code, or the entries that they take. -/
def State.checkRecords (s : State) (r : CmdRef) (cores : Nat) : Nat → List (List Byte) → List Claims → Sum (Nat × Nat) (List Nat)
  | _, [], _ => .inr []
  | i, x :: rest, cls =>
    let cl := claimsOf cls (recCore x)
    let d := recDesc x
    let c := s.checkRecord r cores x cl
    if c.1 ≠ 0 then .inl (i, c.1)
    else
      let cl := { cl with
        ins := (descIns d).map (·.queue) ++ cl.ins
        outs := (descOuts d).map (·.queue) ++ cl.outs
        entries := c.2 :: cl.entries
        hist := if descUnit d = 1 ∧ engHistAddr d ≠ 0 then some (engHistCirc d) else cl.hist }
      match State.checkRecords s r cores (i + 1) rest (setClaims cls cl) with
      | .inl e => .inl e
      | .inr l => .inr (c.2 :: l)

/-- CO_DESC_ERR holds the first failure while VALID is 0, and the core's ring a DESC_REJECT event (R178, R504). -/
def State.noteReject (s : State) (c : Nat) (m : Cmd) (k code entry oper layer : Nat) : State :=
  let s := if s.flag Fld.CO_DESC_ERR_VALID k then s
    else ((((s.setFld Fld.CO_DESC_ERR_CODE k code).setFld Fld.CO_DESC_ERR_ENTRY k entry).setFld Fld.CO_DESC_ERR_OPERATOR k oper).setFld
      Fld.CO_DESC_ERR_LAYER k layer).raise Fld.CO_DESC_ERR_VALID k
  s.event ⟨s.ft, 0x8005, 1, k, some c, layer, oper, m.seq, code * 256 + entry⟩

/-- DETAIL of BAD_DESCRIPTOR (R211). -/
def badDetail (code core index : Nat) : Nat := code + core % 128 * 2 ^ 8 + index % 8192 * 2 ^ 16

/-! ## Installing -/

/-- One slip of a circuit (R99, R108): the partition's count, its longest run, the commands' SLIPS. A period in which lossless tracing held the
producer does not lengthen the run (R514). -/
def State.slip (s : State) (ce : CircEntry) (e : SlotEntry) (traced : Bool) : State :=
  let x := s.circ ce.id
  let run := if traced then x.run else x.run + 1
  let s := s.setCirc ce.id { x with run := run }
  let s := x.pend.foldl (fun s r => s.updCmd r (fun m => { m with slips := min (2 ^ 32 - 1) (m.slips + 1) })) s
  let s := if e.kind = 1 then s.countCluster e.res 6 0 1 else s
  if ce.part < 16 then
    let p := ce.part
    let s := s.bump Fld.HUB_SLIP_COUNT_SLIPS p
    let s := if s.fld Fld.HUB_SLIP_COUNT_SLIPS p = 2 ^ 48 - 1 then s.raise Fld.HUB_SLIP_COUNT_OVF p else s
    if run > s.fld Fld.HUB_SLIP_MAX_RUN p then
      (s.setFld Fld.HUB_SLIP_MAX_RUN p (min run 0xFFFF)).setFld Fld.HUB_SLIP_MAX_CIRCUIT p ce.id
    else s
  else s

/-- The circuit of a mover or of a histogram is pending for the command from its start (R99): instances that idled since then were slips. -/
def State.addPend (s : State) (c : Nat) (r : CmdRef) : State :=
  let x := s.circ c
  if x.pend.contains r then s
  else
    let from1 := ((s.cmd r).map (·.startBeat)).getD s.ft
    let missed := (x.idled.filter (fun b => decide (from1 ≤ b))).length
    let s := s.setCirc c { x with pend := x.pend ++ [r], idled := [] }
    match s.circEntry c, s.lastSlot c with
    | some ce, some e => (List.range missed).foldl (fun s _ => s.slip ce e false) s
    | _, _ => s

/-- Installs one descriptor: its entry, its queues' roles, the join of a mover's queue and circuit (R168), its program (R177). -/
def State.install1 (s : State) (r : CmdRef) (k e : Nat) (d : List Byte) : State :=
  let prog := if descUnit d = 2 then s.vProgram k d else []
  let en : Entry := ⟨d, prog, r, 0, 0, true⟩
  let s := s.setEntry k e (some en)
  let s := if descUnit d = 1 ∧ engHistAddr d ≠ 0 then
      s.updCmd r (fun m => if m.histFrom.any (fun h => h.core == k) then m
        else { m with histFrom := m.histFrom ++ [⟨k, e, descCtx d, descLayer d, descOper d⟩] })
    else s
  let s := (descIns d).foldl (fun s p => s.updQueue k p.queue (fun q => { q with consumer := e })) s
  let s := (descOuts d).foldl (fun s p => s.updQueue k p.queue (fun q => { q with producer := e })) s
  let s := if descUnit d = 3 then
      let join := fun (q : Queue) =>
        if moverDir d = 0 then { q with circ := some (moverCirc d) } else { q with feeds := some (moverCirc d) }
      let s := (descIns d).foldl (fun s p => s.updQueue k p.queue join) s
      (descOuts d).foldl (fun s p => s.updQueue k p.queue join) s
    else s
  let s := if descUnit d = 3 then s.addPend (moverCirc d) r
    else if descUnit d = 1 ∧ engHistAddr d ≠ 0 then s.addPend (engHistCirc d) r else s
  s.event (descEvent s 0x8003 1 k en (e + descUnit d * 256))

/-! ## Queue records (R207) -/

/-- Two byte ranges of SRAM meet. -/
def rangesMeet (a la b lb : Nat) : Bool := decide (a < b + lb) && decide (b < a + la)

/-- A range meets a save region of core k with n slots per engine (R185). -/
def meetsSave (n a la : Nat) : Bool :=
  decide (0 < n) && (List.range 4).any (fun g => rangesMeet a la ((g + 1) * groupBytes - n * 0x8400) (n * 0x8400))

/-- Check code of a QCFG record against the queues as they stand, earlier records of the command applied; 0 if it passes. -/
def State.checkQcfg (s : State) (c : Nat) (r : List Byte) : Nat :=
  let k := fieldAt r 0 1
  let q := fieldAt r 1 1
  let depth := fieldAt r 2 1
  let su := fieldAt r 4 2
  let base := fieldAt r 8 4
  let len := depth * su * 256
  firstFail [(1, reservedSet r [(3, 1), (0xC, 4)]), (2, decide (k > 127) || !bit (s.coreMask c) k || decide (q > 63)),
    (5, depth == 0 || decide (depth > 64) || su == 0 || decide (su > 1023) || decide (fieldAt r 6 2 ≥ su)),
    (6, (s.queue k q).valid || meetsSave (s.fld Fld.CO_SAVE_CFG_SLOTS k) base len
      || (s.coreQueues k).any (fun x => rangesMeet base len x.2.base x.2.bytes)),
    (8, base % 256 != 0 || decide (base + len > sramStride))]

def State.applyQcfg (s : State) (c : Nat) (r : List Byte) : State :=
  s.setQueue (fieldAt r 0 1) (fieldAt r 1 1)
    { Queue.none with valid := true, depth := fieldAt r 2 1, slotUnits := fieldAt r 4 2, scaleUnits := fieldAt r 6 2,
                      base := fieldAt r 8 4, owner := c }

/-- Check code of a QFREE record: 0 if it passes. -/
def State.checkQfree (s : State) (c : Nat) (r : List Byte) : Nat :=
  let k := fieldAt r 0 1
  let q := s.queue k (fieldAt r 1 1)
  firstFail [(1, reservedSet r [(2, 6)]), (2, decide (k > 127) || !bit (s.coreMask c) k || decide (fieldAt r 1 1 > 63)),
    (6, !q.valid || q.owner != c)]

/-- QUEUE_BUSY (R205, R207): a record of a QFREE names a queue with a producer, a consumer or a held slot, whatever else is wrong with its records. -/
def State.qfreeBusy (s : State) (m : Cmd) : Bool :=
  m.opcode == 2 && (cutEntries 8 m.arg0 (m.slot.drop 0x40)).any (fun r =>
    let q := s.queue (fieldAt r 0 1) (fieldAt r 1 1)
    decide (fieldAt r 0 1 ≤ 127) && decide (fieldAt r 1 1 ≤ 63) && q.valid
    && (q.producer != 0xFF || q.consumer != 0xFF || q.heldIn != 0 || q.heldOut != 0))

/-- A queue is unconfigured: its tokens are discarded; a circuit that it served has its CREDITS at the producer again, those of
tokens that are still on their way apart (R104, R105). -/
def State.unconfigure (s : State) (k q : Nat) : State :=
  let x := s.queue k q
  let s := match x.circ with
    | some c => match s.circEntry c with
      | some e => if s.queueConsumes c = some (k, q) then
          s.setCirc c { s.circ c with credits := e.credits - ((s.circ c).flight.length + (s.circ c).held + (s.circ c).returning) } else s
      | none => s
    | none => s
  s.setQueue k q Queue.none

def State.applyQfree (s : State) (r : List Byte) : State := s.unconfigure (fieldAt r 0 1) (fieldAt r 1 1)

/-- Applies records one by one until one fails: the state after all, or index, core and code. -/
def applyAll (check : State → List Byte → Nat) (apply : State → List Byte → State) : Nat → List (List Byte) → State → Sum (Nat × Nat × Nat) State
  | _, [], s => .inr s
  | i, r :: rest, s =>
    let c := check s r
    if c ≠ 0 then .inl (i, fieldAt r 0 1, c) else applyAll check apply (i + 1) rest (apply s r)

/-- QCFG and QFREE act all or nothing (R207). -/
def State.queueCommand (s : State) (ref : CmdRef) (m : Cmd) (size : Nat) (check : State → List Byte → Nat) (apply : State → List Byte → State) : State :=
  let recs := cutEntries size (fieldAt m.slot 0x20 8) (m.slot.drop 0x40)
  if s.qfreeBusy m then s.failHeader ref 6
  else match applyAll check apply 0 recs s with
  | .inr t => t.finishCmd ref
  | .inl (i, k, code) =>
    let unit := if k > 127 then s.leadCore ref.ctx else k
    (s.noteReject ref.ctx m unit code 0xFF m.oper m.layer).failCmd ref stBadDescriptor (badDetail code k i)

end Sys2Proof.Machine
end

