-- ==== Sys2Proof/Machine/Commands.lean ====
section
/-! DEFINITION. Rings and commands (R200 to R214): sampling, header checks, starts, the ten opcodes, and completion records. -/

namespace Sys2Proof.Machine

/-! ## Sampling (R202, R205) -/

/-- The requester that a context's ring and commands act as. -/
def State.cmdRq (s : State) (c : Nat) : Requester := ⟨.dma, 0, s.partOfCtx c⟩

/-- R202, R205, R212: a context halts; LAST_STATUS and, for BAD_COMMAND, HALT_REASON say why. -/
def State.haltCtx (s : State) (c status reason : Nat) : State := (s.setFld Fld.HUB_CTX_STATUS_LAST_STATUS c status).halt c reason

def State.ringBase (s : State) (c : Nat) : Nat := s.fld Fld.HUB_CTX_RING_BASE c * 512
def State.ringL (s : State) (c : Nat) : Nat := s.fld Fld.HUB_CTX_RING_LOG2_ENTRIES c

/-- A poll beat of ring c (R59). -/
def State.pollBeat (s : State) (c : Nat) : Bool :=
  match s.ring c with
  | some r => s.ft % r.period == r.phase
  | none => false

/-- R73: between the proposal and the switch, the rings of partitions in SCOPE are not sampled. -/
def State.quiescing (s : State) (p : Nat) : Bool :=
  decide (3 ≤ s.fld Fld.HUB_SIMG_STATUS_PHASE) && s.img.staged.isSome && bit (s.fld Fld.HUB_SIMG_STATUS_SCOPE) p

/-- Successors of sequence numbers (R200). -/
def seqNext (a : Nat) : Nat := (a + 1) % 2 ^ 32

/-- Header and payload rules of R204 and R206. -/
def badHeader (c : Nat) (b : List Byte) : Bool :=
  let op := fieldAt b 0 1
  let len := fieldAt b 0xC 2
  let a0 := fieldAt b 0x20 8
  let a1 := fieldAt b 0x28 8
  decide (fieldAt b 1 1 ≠ c) || decide (fieldAt b 2 2 ≥ 32) || reservedSet b [(0xE, 2)] || decide (len > 448)
  || (match op with
      | 1 => a1 != 0 || a0 == 0 || decide (a0 > 28) || len != 16 * a0
      | 2 => a1 != 0 || a0 == 0 || decide (a0 > 56) || len != 8 * a0
      | 3 => if a1 = 0 then a0 == 0 || decide (a0 > 3) || len != 144 * a0 else a0 == 0 || decide (a0 > 8192) || a1 % 16 != 0 || len != 0
      | 4 => a1 != 0 || len == 0
      | 5 => len != 8 || fieldAt b 0x40 8 == 0 || decide (fieldAt b 0x40 8 > 2 ^ 32)
      | 8 => a0 % 8 != 0 || len != 0
      | 9 => a0 % 8 != 0 || a1 != 0 || len != 0
      | _ => a0 != 0 || a1 != 0 || len != 0)

/-- Nonzero HIST_ADDR values of the engine descriptors of install records. -/
def histAddrs (recs : List (List Byte)) : List Nat :=
  (((recs.map recDesc).filter (fun d => descUnit d == 1 && engHistAddr d != 0)).map engHistAddr).eraseDups

/-- The reason with which a header fails (R205), 0 for none. The sequence number is judged apart. -/
def State.headerReason (s : State) (c : Nat) (b : List Byte) : Nat :=
  let op := fieldAt b 0 1
  let cores := fieldAt b 0x10 16
  let mask := s.coreMask c
  firstFail [(1, decide (op > 9)), (2, badHeader c b),
    (4, if op = 3 then cores == 0 || cores &&& mask != cores else cores != 0),
    (5, op == 3 && fieldAt b 0x28 8 == 0 && decide ((histAddrs (cutEntries 144 (fieldAt b 0x20 8) (b.drop 0x40))).length > 1))]

def Cmd.fetched (seq : Nat) (slot : List Byte) : Cmd :=
  ⟨seq, slot, 0, false, 0, false, 0, 0, 0, 0, 0, [], [], false, 0, 0, [], false, 0, [], 0, false, []⟩

/-- A fetched slot enters the command buffer; one whose header fails has ended before it starts (R205). -/
def State.takeSlot (s : State) (c seq : Nat) (slot : List Byte) : State :=
  let r := s.headerReason c slot
  let m := Cmd.fetched seq slot
  let m := if r = 0 then m else { m with reason := r, status := stBadCommand, detail := r, finished := true }
  s.updCtx c (fun x => { x with buf := x.buf ++ [m] })

/-- The fetch of ring c ends (R202): HEAD is written where it has moved. -/
def State.endFetch (s : State) (c : Nat) : State :=
  match (s.ctx c).fetch with
  | none => s
  | some (head, seq, _) =>
    let s := s.updCtx c (fun x => { x with fetch := none })
    if seq = head then s
    else ((s.writeLocal (s.cmdRq c) none (s.ringBase c + 8) (leBytes 4 seq)).1).setFld Fld.HUB_CTX_SEQ_NEXT c seq

/-- A slot of the fetch has been read, or its read has failed; a slot whose SEQ is wrong was never written (R202, R205). -/
def State.slotRead (s : State) (c status : Nat) (b : List Byte) : State :=
  match (s.ctx c).fetch with
  | none => s
  | some (head, seq, n) =>
    if status ≠ stOk then (s.endFetch c).haltCtx c status 0
    else if fieldAt b 4 4 ≠ seq then (s.endFetch c).haltCtx c stBadCommand 3
    else (s.takeSlot c seq b).updCtx c (fun x => { x with fetch := some (head, seqNext seq, n - 1) })

/-- The fetch goes on (R202, R205): slot after slot, until it ends or a slot has to be waited for. Commands that have left a replay set (R451) are
passed over. -/
def State.fetchSlots (s : State) (c : Nat) : Nat → State
  | 0 => s.endFetch c
  | fuel + 1 =>
    match (s.ctx c).fetch with
    | none => s
    | some (head, seq, n) =>
      if n = 0 then s.endFetch c
      else if (s.ctx c).ended.contains seq then
        State.fetchSlots (s.updCtx c (fun x => { x with fetch := some (head, seqNext seq, n - 1) })) c fuel
      else match s.issueRead (s.cmdRq c) none (s.ringBase c + 0x200 + 512 * (seq % 2 ^ s.ringL c)) 512 (.ring c) with
        | (s, .open) => s
        | (s, .done st b) => State.fetchSlots (s.slotRead c st b) c fuel

/-- One sample of ring c (R202). A TAIL that lies before HEAD (R200) leaves nothing to fetch. A replay stops at the end of its set (R451). -/
def State.sampleRing (s : State) (c : Nat) : State :=
  let s := s.countHub 0xD 0 1
  let base := s.ringBase c
  let t := s.readLocal (s.cmdRq c) base 4
  let d := t.1.readLocal (s.cmdRq c) (base + 0x10) 4
  let h := d.1.readLocal (s.cmdRq c) (base + 8) 4
  let st := [t.2.1, d.2.1, h.2.1].foldl worse 0
  let s := h.1
  if st ≠ stOk then s.haltCtx c st 0
  else
    let tail := ((s.ctx c).replayTo).getD (leNat t.2.2)
    let head := leNat h.2.2
    if seqSub tail (s.ctx c).done > 2 ^ s.ringL c then s.haltCtx c stBadCommand 7
    else
      let ahead := if seqSub tail head < 2 ^ 31 then seqSub tail head else 0
      let n := min (min ahead 16) (16 - (s.ctx c).buf.length)
      (s.updCtx c (fun x => { x with fetch := some (head, head, n) })).fetchSlots c 17

/-- RING_POLL (R202, R219) (DEDUCED, log 17): a poll beat while a fetch of the ring is in progress is skipped, and counted. -/
def State.ringPoll (s : State) (c : Nat) : State :=
  let p := s.partOfCtx c
  if c < 256 ∧ s.pollBeat c ∧ s.ctxRuns c ∧ s.partRuns p ∧ !s.quiescing p then
    if (s.ctx c).fetch.isSome then s.bump Fld.HUB_CTX_STATUS_POLLS_SKIPPED c else s.sampleRing c
  else s

/-! ## Starts (R210) -/

/-- Commands of a context before one. -/
def Ctx.before (x : Ctx) (seq : Nat) : List Cmd := x.buf.takeWhile (fun m => m.seq != seq)

/-- The next command that may start: every one before it has started or ended. -/
def Ctx.next (x : Ctx) : Option Cmd := x.buf.find? (fun m => !m.started && !m.finished)

/-- R210: the rules of start order, WAIT_PREV, COMPLETE and installs. A command leaves the buffer when it completes. -/
def Ctx.mayStart (x : Ctx) (m : Cmd) : Bool :=
  let b := x.before m.seq
  !((bit m.hdrFlags 0 || m.opcode == 7) && !b.isEmpty)
  && !b.any (fun e => e.opcode == 7)
  && !(m.opcode == 3 && b.any (fun e => e.opcode == 3 && !e.installed && !e.finished))

/-- An event that a command causes: the ring of its lead core, and a packet of class COMMAND (R504, R513). -/
def State.cmdNote (s : State) (c : Nat) (m : Cmd) (code sub data : Nat) : State :=
  let e := cmdEvent s code 1 (s.leadOf c m) c m data
  (s.event e).packet 1 ⟨e, 0, sub⟩

/-- A command starts: selectors, latches, event (R189, R210, R211, R500). -/
def State.startCmd (s : State) (c : Nat) (m : Cmd) : State :=
  let cores := s.coresOf c m
  let s := s.applyCores cores
  let s := s.updCmd ⟨c, m.seq⟩ (fun m => { m with started := true, startBeat := s.ft, cntStart := s.latchCores cores })
  let s := if m.opcode = 6 ∨ m.opcode = 7 then s.updCtx c (fun x => { x with orders := x.orders ++ [m.seq] }) else s
  let k := s.leadOf c m
  let s := (s.countCluster (clusterOfCore k) 3 (k % 8) 1).countCluster (clusterOfCore k) 3 8 1
  s.cmdNote c m 0x8001 1 m.opcode

/-! ## What a command does -/

/-- Something that a command has sent on a circuit has still to arrive or to be acknowledged (R208, R214, R358): a token, or a contribution not yet
applied, here or at another module. -/
def State.tokensOut (s : State) (r : CmdRef) : Bool :=
  s.circs.any (fun x => x.2.ready.any (fun t => t.cmd == r) || x.2.flight.any (fun t => t.2.cmd == r))
  || s.contribs.any (fun t => t.tok.cmd == r)
  || s.segs.any (fun g => (g.2.sent ++ g.2.resend).any (fun t => t.tok.cmd == r) || g.2.owed.contains r)

/-- A LAUNCH has nothing left to run: every descriptor it installed has retired, its tokens and contributions have arrived, its
histograms are delivered (R208). -/
def State.launchDone (s : State) (r : CmdRef) (m : Cmd) : Bool :=
  m.installed && (s.cmdEntries r).isEmpty && !m.histWaits && !s.savedFor r && !s.tokensOut r

/-- A command's accesses have all been made. -/
def State.effectDone (s : State) (r : CmdRef) (m : Cmd) : Bool := m.finished || (m.opcode == 3 && s.launchDone r m)

/-- R289: an access keeps a later one back: a local one until it is performed, a remote one until it has left the module; one to the host has left. -/
def State.stillHere (s : State) (o : OpenAccess) : Bool :=
  match o.module with
  | some _ => s.ports.any (fun p => p.2.waiting.any (fun x => x.tag == o.id && x.src == s.selfModule))
  | none => match locate o.addr with
    | .host _ => false
    | _ => true

/-- R210, R287 to R289: an access of a command waits for the accesses of earlier commands, finished ones with open accesses among them: of those
before an ORDER or COMPLETE that lies between, of every one for a release store, and for a WAIT that has not been satisfied. -/
def State.accessHeld (s : State) (r : CmdRef) : Bool :=
  let x := s.ctx r.ctx
  let b := (x.before r.seq).filter (fun e => e.started && !s.effectDone ⟨r.ctx, e.seq⟩ e)
  let due := b.map (·.seq) ++ s.opens.filterMap (fun o => match o.ctx with
    | some q => if s.stillHere o ∧ q.ctx = r.ctx ∧ seqBefore q.seq r.seq ∧ (s.cmd q).all (fun m => m.stage == 0) then some q.seq else none
    | none => none)
  let release := (s.cmd r).any (fun m => m.opcode == 4 && bit m.hdrFlags 4)
  b.any (fun e => e.opcode == 8) || (release && !due.isEmpty)
  || x.orders.any (fun o => seqBefore o r.seq && due.any (fun q => q != o && seqBefore q o))

/-- Accesses of a context's commands and firings go on in these states (R215, R341, R347). -/
def CtxState.acts : CtxState → Bool
  | .running => true
  | .suspended => true
  | .preempting => true
  | _ => false

/-- The command, while its effect is under way under an opcode. -/
def State.acting (s : State) (r : CmdRef) (op : Nat) : Option Cmd :=
  match s.cmd r with
  | some m => if m.started && !m.finished && m.opcode == op && (s.ctx r.ctx).st.acts && !s.cmdStopped r then some m else none
  | none => none

/-- The same, for an access that no order holds back. -/
def State.accessing (s : State) (r : CmdRef) (op : Nat) : Option Cmd := if s.accessHeld r then none else s.acting r op

def Cmd.phys (m : Cmd) : Bool := bit m.hdrFlags 3
def Cmd.payload (m : Cmd) : List Byte := (m.slot.drop 0x40).take (fieldAt m.slot 0xC 2)

/-- Writes bytes through physical pieces, in parts of at most 256 bytes: state, and whether every part was taken. -/
def State.writeParts256 (s : State) (rq : Requester) (ref : CmdRef) (mark : Nat) : List (Nat × Nat) → List Byte → State × Bool
  | [], _ => (s, true)
  | p :: rest, b =>
    match s.issueWrite rq (some ref) p.1 (b.take p.2) .plain mark with
    | (s, .done st _) =>
      if st = stOk then State.writeParts256 s rq ref mark rest (b.drop p.2)
      else (s.accessFault (s.cmdSite ref 2) p.1 st, false)
    | (s, .open) => State.writeParts256 s rq ref mark rest (b.drop p.2)

def State.writePieces (s : State) (rq : Requester) (ref : CmdRef) (ps : List (Nat × Nat)) (b : List Byte) (mark : Nat := 0) : State × Bool :=
  s.writeParts256 rq ref mark (ps.map (fun p => sectorsOf p.1 p.2)).flatten b

/-- The mark of a WRITE with RELEASE (R288), as a packet carries it (R361). -/
def Cmd.mark (m : Cmd) : Nat := if m.opcode = 4 ∧ bit m.hdrFlags 4 then 8 else 0

/-- A command's write, translated whole before anything is sent (R342): none while a translation is missing; else the state and whether
it was taken. -/
def State.cmdWrite (s : State) (r : CmdRef) (m : Cmd) (va : Nat) (b : List Byte) : Option (State × Bool) :=
  match s.locatePieces m.phys cmdCache r.ctx 2 va b.length with
  | (ps, none) => some (s.writePieces (s.cmdRq r.ctx) r ps b m.mark)
  | (_, some (off, .fault code)) => some (s.earlyFault (s.cmdSite r 2) (va + off) code, false)
  | (_, some _) => none

/-- A WRITE's or TIMESTAMP's whole effect. -/
def State.runWrite (s : State) (r : CmdRef) (m : Cmd) (b : List Byte) : State :=
  match s.cmdWrite r m m.arg0 b with
  | some (s, true) => s.finishCmd r
  | some (s, false) => s
  | none => s

/-- Bytes that a COPY has read go on to their destination. -/
def State.copyStore (s : State) (r : CmdRef) (dst : Nat) (b : List Byte) : State × Bool :=
  match s.writePieces (s.cmdRq r.ctx) r [(dst, b.length)] b with
  | (s, true) => (s.updCmd r (fun m => { m with pos := m.pos + b.length }), true)
  | (s, false) => (s, false)

/-- An answer to a COPY's read. -/
def State.copyData (s : State) (r : CmdRef) (src dst status : Nat) (b : List Byte) : State :=
  match s.cmd r with
  | some m =>
    if m.finished then s
    else if status ≠ stOk then s.accessFault (s.cmdSite r 1) src status
    else (s.copyStore r dst b).1
  | none => s

/-- A COPY goes on from its position, in parts of at most 256 bytes, until it is done, stops, or waits for an answer (R206, R342)
(DESIGN CHOICE, log 18). -/
def State.copySteps (s : State) (r : CmdRef) : Nat → State
  | 0 => s
  | fuel + 1 =>
    match s.cmd r with
    | none => s
    | some m =>
      let n := fieldAt m.slot 0x40 8
      if m.finished then s
      else if m.pos ≥ n then s.finishCmd r
      else
        let src := m.arg0 + m.pos
        let dst := m.arg1 + m.pos
        match s.xlateOne m.phys cmdCache r.ctx 1 src, s.xlateOne m.phys cmdCache r.ctx 2 dst with
        | .fault code, _ => s.earlyFault (s.cmdSite r 1) src code
        | .miss, _ => s
        | _, .fault code => s.earlyFault (s.cmdSite r 2) dst code
        | _, .miss => s
        | .ok sp sroom, .ok dp droom =>
          let k := min (n - m.pos) (256 - sp % 256)
          let k := if m.phys then k else min k (min sroom droom)
          match s.issueRead (s.cmdRq r.ctx) (some r) sp k (.copy r dp) with
          | (s, .open) => s
          | (s, .done st b) =>
            if st ≠ stOk then s.accessFault (s.cmdSite r 1) sp st
            else match s.copyStore r dp b with
              | (s, true) => State.copySteps s r fuel
              | (s, false) => s

/-- The command waits for an answer to a read. -/
def State.readOpen (s : State) (r : CmdRef) : Bool := s.opens.any (fun o => o.ctx == some r && o.op == 1)

/-! ## LAUNCH (R208) -/

/-- Bytes of a LAUNCH's install records have been read. -/
def State.launchData (s : State) (r : CmdRef) (src status : Nat) (b : List Byte) : State :=
  match s.cmd r with
  | some m =>
    if m.finished then s
    else if status ≠ stOk then s.accessFault (s.cmdSite r 1) src status
    else s.updCmd r (fun m => { m with records := m.records ++ b, pos := (m.records.length + b.length) / 144 })
  | none => s

/-- Reads install records from ARG1 until all are read, or one stops. -/
def State.launchReads (s : State) (r : CmdRef) : Nat → State
  | 0 => s
  | fuel + 1 =>
    match s.cmd r with
    | none => s
    | some m =>
      let n := 144 * m.arg0
      if m.finished || decide (m.records.length ≥ n) then s
      else
        let va := m.arg1 + m.records.length
        match s.xlateOne m.phys cmdCache r.ctx 1 va with
        | .fault code => s.earlyFault (s.cmdSite r 1) va code
        | .miss => s
        | .ok pa room =>
          let k := min (n - m.records.length) (256 - pa % 256)
          let k := if m.phys then k else min k room
          match s.issueRead (s.cmdRq r.ctx) (some r) pa k (.launch r) with
          | (s, .open) => s
          | (s, .done st b) =>
            if st ≠ stOk then s.accessFault (s.cmdSite r 1) pa st
            else State.launchReads (s.launchData r pa stOk b) r fuel

/-- Checks every record and installs all of them, or none (R178, R208). -/
def State.launchInstall (s : State) (r : CmdRef) (m : Cmd) (recs : List (List Byte)) : State :=
  let hist := histAddrs recs
  if hist.length > 1 then s.failHeader r 5
  else match s.checkRecords r m.coresField 0 recs [] with
    | .inl (i, code) =>
      let x := recs.getD i []
      let k := if recCore x > 127 then s.leadOf r.ctx m else recCore x
      (s.noteReject r.ctx m k code (recEntry x) (descOper (recDesc x)) (descLayer (recDesc x))).failCmd r stBadDescriptor (badDetail code (recCore x) i)
    | .inr slots =>
      let s := (recs.zip slots).foldl (fun s x => s.install1 r (recCore x.1) x.2 (recDesc x.1)) s
      s.updCmd r (fun m => { m with installed := true, histAddr := hist.headD 0 })

/-- Every install record of a LAUNCH has been read. -/
def Cmd.recordsRead (m : Cmd) : Bool := m.arg1 == 0 || decide (144 * m.arg0 ≤ m.records.length)

/-- A record installs on an engine that a recovery holds for another context (R452). -/
def State.recoversFor (s : State) (recs : List (List Byte)) : Bool :=
  recs.any (fun x =>
    let d := recDesc x
    descUnit d == 1 && decide (recCore x ≤ 127) && s.recovs.any (fun v =>
      v.2.stage != 0 && v.2.engine == engineOf (recCore x) d && v.2.current != some (descCtx d)))

/-- LAUNCH installs, once no recovery keeps its engines for another context. -/
def State.launch (s : State) (r : CmdRef) : State :=
  match s.acting r 3 with
  | none => s
  | some m => if m.installed ∨ s.recoversFor (launchRecords m) then s else s.launchInstall r m (launchRecords m)

/-- A header check of R205 that needs more than the header: HIST_MISMATCH of install records at ARG1, and QUEUE_BUSY. -/
def State.startReason (s : State) (m : Cmd) : Nat :=
  if m.opcode = 3 ∧ (histAddrs (launchRecords m)).length > 1 then 5 else if s.qfreeBusy m then 6 else 0

/-- The command starts, or completes without starting (R205). -/
def State.judgeStart (s : State) (c : Nat) (m : Cmd) : State :=
  let reason := s.startReason m
  if reason = 0 then s.startCmd c m else s.failHeader ⟨c, m.seq⟩ reason

/-- COMMAND_START: the next command starts once the rules of R210 permit; a LAUNCH with records at ARG1 reads them first, since they decide
whether it starts (R205) (DEDUCED, log 17). -/
def State.commandStart (s : State) (c : Nat) : State :=
  match (s.ctx c).next with
  | none => s
  | some m =>
    let r : CmdRef := ⟨c, m.seq⟩
    if !s.ctxRuns c ∨ !s.partRuns (s.partOfCtx c) ∨ !(s.ctx c).mayStart m then s
    else if m.opcode ≠ 3 ∨ m.recordsRead then s.judgeStart c m
    else if s.readOpen r ∨ s.accessHeld r ∨ s.cmdStopped r then s
    else
      let s := s.launchReads r (144 * m.arg0)
      match s.cmd r with
      | some m => if !m.finished ∧ m.recordsRead ∧ s.ctxRuns c then s.judgeStart c m else s
      | none => s

/-! ## The opcodes (R206, R207, R210) -/

def State.runDone (s : State) (r : CmdRef) (op : Nat) : State :=
  match s.acting r op with
  | some _ => s.finishCmd r
  | none => s

def State.runWait (s : State) (r : CmdRef) : State :=
  match s.acting r 8 with
  | some _ => s.updCmd r (fun m => { m with installed := true })
  | none => s

/-- A WAIT's value has been read: it has reached the threshold, or not. -/
def State.waitValue (s : State) (r : CmdRef) (src status : Nat) (b : List Byte) : State :=
  match s.cmd r with
  | some m =>
    if m.finished then s
    else if status ≠ stOk then s.accessFault (s.cmdSite r 1) src status
    else if leNat b ≥ m.arg1 then s.finishCmd r else s
  | none => s

def State.waitPoll (s : State) (r : CmdRef) : State :=
  match s.accessing r 8 with
  | some m =>
    if !m.installed || !s.pollBeat r.ctx || s.readOpen r then s
    else match s.xlateOne m.phys cmdCache r.ctx 1 m.arg0 with
      | .fault code => s.earlyFault (s.cmdSite r 1) m.arg0 code
      | .miss => s
      | .ok pa _ =>
        match s.issueRead (s.cmdRq r.ctx) (some r) pa 8 (.wait r) 4 with
        | (s, .open) => s
        | (s, .done st b) => s.waitValue r pa st b
  | none => s

/-- COMPLETE starts to wait: it is alone in the buffer's front (R210). -/
def State.runComplete (s : State) (r : CmdRef) : State :=
  match s.acting r 7 with
  | some _ => s.updCmd r (fun m => { m with installed := true })
  | none => s

/-- Accesses that a COMPLETE of the ring covers are open. -/
def State.ctxOpens (s : State) (c : Nat) : Bool := s.opens.any (fun o => (o.ctx.map (·.ctx)) == some c)

/-- R210, R293: COMPLETE returns the worst status of the accesses that it covers; the issuer's broken modules are forgotten (R367). -/
def State.accessesCompleted (s : State) (r : CmdRef) : State :=
  match s.cmd r with
  | some m =>
    if m.opcode = 7 ∧ m.installed ∧ !m.finished ∧ !s.ctxOpens r.ctx ∧ (s.ctx r.ctx).st ≠ .ending ∧ (s.ctx r.ctx).st ≠ .free then
      let st := (s.ctx r.ctx).covered
      let s := { s with broken := s.broken.filter (fun b => b.1 != (0, r.ctx)) }
      let s := s.updCtx r.ctx (fun x => { x with covered := 0 })
      if st = 0 then s.finishCmd r else s.failCmd r st
    else s
  | none => s

/-! ## Completion records (R211 to R214) -/

/-- The 256 bytes of a completion record. -/
def State.cplRecord (s : State) (c : Nat) (m : Cmd) : List Byte :=
  let k := s.leadOf c m
  leBytes 4 m.seq ++ leBytes 1 m.status ++ leBytes 1 m.allFlags ++ (m.slot.take 2) ++ (m.slot.drop 8).take 4 ++ leBytes 4 m.detail
  ++ leBytes 8 m.coord ++ leBytes 8 (if m.started then m.startBeat else 0) ++ leBytes 8 m.endBeat ++ leBytes 8 m.histAddr
  ++ (m.slot.drop 0x38).take 8 ++ leBytes 4 m.slips ++ leBytes 4 0
  ++ latchBytes m.cntStart k ++ latchBytes m.cntEnd k ++ List.replicate 64 0

/-- DONE passes every completed command in sequence order (R203). -/
def passDone (ended : List Nat) : Nat → Nat → Nat
  | 0, done => done
  | n + 1, done => if ended.contains done then passDone ended n (seqNext done) else done

def State.advanceDone (s : State) (c seq : Nat) : State :=
  let x := s.ctx c
  let ended := seq :: x.ended
  let done := passDone ended ended.length x.done
  let s := s.setCtx c { x with
    done := done
    ended := ended.filter (fun e => decide (seqSub e done < 2 ^ 31))
    orders := x.orders.filter (fun o => !seqBefore o done || s.ctxOpens c) }
  if done = x.done then s else (s.writeLocal (s.cmdRq c) none (s.ringBase c + 0x10) (leBytes 4 done)).1

/-- HALT_ON_ERROR (R212, R219): the context halts, or halts when its pre-emption has ended. -/
def State.haltOnError (s : State) (c : Nat) : State :=
  match (s.ctx c).st with
  | .running => s.halt c 0
  | .suspended => s.halt c 0
  | .preempted => s.halt c 0
  | .preempting => s.updCtx c (fun x => { x with haltAfter := true })
  | _ => s

/-- Address of a command's completion record (R200). -/
def State.recordAt (s : State) (r : CmdRef) : Nat := s.fld Fld.HUB_CTX_CPL_BASE r.ctx * 256 + 256 * (r.seq % 2 ^ s.ringL r.ctx)

/-- Steps 5 and 6 of R214: the command leaves its buffer, its record written, and DONE, the MSI and HALT_ON_ERROR follow; where the record could not
be written, the context halts. -/
def State.retireCmd (s : State) (c : Nat) (m : Cmd) (ok : Bool) : State :=
  let x := s.ctx c
  let s := s.setCtx c { x with buf := x.buf.filter (fun e => e.seq != m.seq) }
  let s := s.cmdNote c m 0x8002 2 (m.status + m.allFlags * 256)
  let s := s.setFld Fld.HUB_CTX_STATUS_LAST_STATUS c m.status
  if !ok then if x.st = .ending then s else s.halt c 0
  else
    let s := s.advanceDone c m.seq
    let s := if bit m.hdrFlags 1 then s.msi Fld.HUB_CTX_MSI_FILE Fld.HUB_CTX_MSI_EN Fld.HUB_CTX_MSI_IDENTITY c else s
    if m.status ≠ 0 ∧ bit m.hdrFlags 2 then s.haltOnError c else s

/-- The record of a fenced command is written whole at once (R198, R443). -/
def State.retireNow (s : State) (c : Nat) (m : Cmd) : State :=
  let a := s.recordAt ⟨c, m.seq⟩
  let b := s.cplRecord c m
  let w1 := s.writeLocal (s.cmdRq c) none (a + 8) (b.drop 8)
  let w2 := if w1.2 = stOk then w1.1.writeLocal (s.cmdRq c) none a (b.take 8) else w1
  w2.1.retireCmd c m (w2.2 == stOk)

/-- One part of the record has been written, or its write has failed. -/
def State.recordPart (s : State) (r : CmdRef) (status : Nat) : State :=
  s.updCmd r (fun m => { m with recBad := m.recBad || status != stOk })

/-- A part of the record is written: it is open where a line has to be waited for. -/
def State.writeRecord (s : State) (r : CmdRef) (a : Nat) (b : List Byte) : State :=
  match s.issueWrite (s.cmdRq r.ctx) (some r) a b (.record r) with
  | (s, .done st _) => s.recordPart r st
  | (s, .open) => s

/-- Steps 2 to 6 of R214, as far as the record's own writes have been performed: bytes 8 to 255, then bytes 0 to 7 behind them. -/
def State.recordSteps (s : State) (r : CmdRef) : Nat → State
  | 0 => s
  | n + 1 =>
    match s.cmd r with
    | none => s
    | some m =>
      if s.cmdOpens r then s
      else if m.stage = 2 ∨ m.recBad then s.retireCmd r.ctx m (!m.recBad)
      else
        let a := s.recordAt r
        let b := s.cplRecord r.ctx m
        let s := s.updCmd r (fun m => { m with stage := m.stage + 1 })
        State.recordSteps (if m.stage = 0 then s.writeRecord r (a + 8) (b.drop 8) else s.writeRecord r a (b.take 8)) r n

/-- The end of a command's execution: its end latches, its end beat, and its count of commands that are not OK (R211, R497, R500). -/
def State.latchEnd (s : State) (c : Nat) (m : Cmd) : State :=
  let k := s.leadOf c m
  let s := if m.started ∧ m.status ≠ 0 then
      (s.countCluster (clusterOfCore k) 4 (k % 8) 1).countCluster (clusterOfCore k) 4 8 1 else s
  let latch := if m.started then s.latchCores (s.coresOf c m) else []
  s.updCmd ⟨c, m.seq⟩ (fun m => { m with finished := true, latched := true, endBeat := s.ft, cntEnd := latch })

/-- R213: counter records of the cores of a LAUNCH above its lead core, in ascending order. -/
def State.counterRecords (s : State) (c : Nat) (m : Cmd) : List Byte :=
  let now := s.latchCores (s.coresOf c m)
  (((bitsOf 128 m.coresField).drop 1).map (fun k => latchBytes m.cntStart k ++ latchBytes now k)).flatten

/-- Step 1 of R214: the counter records, and the end latches. Nothing happens while a translation is missing or faults. -/
def State.endExecution (s : State) (r : CmdRef) (m : Cmd) : State :=
  let cnt := fieldAt m.slot 0x30 8
  let b := if m.started ∧ m.opcode = 3 ∧ cnt ≠ 0 then s.counterRecords r.ctx m else []
  if b.isEmpty then s.latchEnd r.ctx m
  else if !(s.ctx r.ctx).st.acts ∨ s.cmdStopped r then s
  else match s.cmdWrite r m cnt b with
    | none => s
    | some (s, ok) =>
      match s.cmd r with
      | some m => if ok ∨ m.status ≠ 0 then s.latchEnd r.ctx m else s
      | none => s

/-- COMMAND_END (R214): a command whose effect is done ends its execution and, once its accesses have completed, has its record written, part after
part. -/
def State.commandEnd (s : State) (r : CmdRef) : State :=
  match s.cmd r with
  | none => s
  | some m =>
    if (s.ctx r.ctx).st = .ending ∨ (s.ctx r.ctx).st = .free ∨ !s.effectDone r m then s
    else
      let s := if m.latched then s else s.endExecution r m
      match s.cmd r with
      | some m => if m.latched then s.recordSteps r 3 else s
      | none => s

/-- QCFG and QFREE (R207). -/
def State.runQcfg (s : State) (r : CmdRef) : State :=
  match s.acting r 1 with
  | some m => s.queueCommand r m 16 (fun s => s.checkQcfg r.ctx) (fun s => s.applyQcfg r.ctx)
  | none => s

def State.runQfree (s : State) (r : CmdRef) : State :=
  match s.acting r 2 with
  | some m => s.queueCommand r m 8 (fun s => s.checkQfree r.ctx) State.applyQfree
  | none => s

/-- WRITE, COPY and TIMESTAMP (R206). -/
def State.writeCommand (s : State) (r : CmdRef) : State :=
  match s.accessing r 4 with
  | some m => s.runWrite r m m.payload
  | none => s

def State.copyCommand (s : State) (r : CmdRef) : State :=
  match s.accessing r 5 with
  | some m => if s.readOpen r then s else s.copySteps r (fieldAt m.slot 0x40 8 + 1 - m.pos)
  | none => s

def State.timestampCommand (s : State) (r : CmdRef) : State :=
  match s.accessing r 9 with
  | some m => s.runWrite r m (leBytes 8 m.startBeat)
  | none => s

def execRingPoll (c : Nat) (s : State) : Host.Outcome State Fault Refusal := answer (s.ringPoll c)
def execCommandStart (c : Nat) (s : State) : Host.Outcome State Fault Refusal := answer (s.commandStart c)
/-- NOP completes at its start. -/
def execNop (c seq : Nat) (s : State) : Host.Outcome State Fault Refusal := answer (s.runDone ⟨c, seq⟩ 0)
def execQcfg (c seq : Nat) (s : State) : Host.Outcome State Fault Refusal := answer (s.runQcfg ⟨c, seq⟩)
def execQfree (c seq : Nat) (s : State) : Host.Outcome State Fault Refusal := answer (s.runQfree ⟨c, seq⟩)
def execLaunch (c seq : Nat) (s : State) : Host.Outcome State Fault Refusal := answer (s.launch ⟨c, seq⟩)
def execWrite (c seq : Nat) (s : State) : Host.Outcome State Fault Refusal := answer (s.writeCommand ⟨c, seq⟩)
def execCopy (c seq : Nat) (s : State) : Host.Outcome State Fault Refusal := answer (s.copyCommand ⟨c, seq⟩)
/-- ORDER completes at its start; accesses of later commands wait for it (R210). -/
def execOrder (c seq : Nat) (s : State) : Host.Outcome State Fault Refusal := answer (s.runDone ⟨c, seq⟩ 6)
def execComplete (c seq : Nat) (s : State) : Host.Outcome State Fault Refusal := answer (s.runComplete ⟨c, seq⟩)
def execWait (c seq : Nat) (s : State) : Host.Outcome State Fault Refusal := answer (s.runWait ⟨c, seq⟩)
def execWaitPoll (c seq : Nat) (s : State) : Host.Outcome State Fault Refusal := answer (s.waitPoll ⟨c, seq⟩)
/-- TIMESTAMP writes fabric time at its start. -/
def execTimestamp (c seq : Nat) (s : State) : Host.Outcome State Fault Refusal :=
  answer (s.timestampCommand ⟨c, seq⟩)
def execAccessesCompleted (c seq : Nat) (s : State) : Host.Outcome State Fault Refusal := answer (s.accessesCompleted ⟨c, seq⟩)

end Sys2Proof.Machine
end

