-- ==== Sys2Proof/Machine/Replay.lean ====
section
/-! DEFINITION. Engine recoveries as sequences of replays (R450 to R452, R464): the beginning of one, the next suspect's replay, and the return of the
innocent. -/

namespace Sys2Proof.Machine

/-- A core's partition, or none. -/
def State.enginePart (s : State) (e : Nat) : Nat := s.partOfCore (coreOfEngine e)

/-- R450: contexts that have a descriptor installed on the engine, or a save in one of its save slots, ascending. -/
def State.suspectsOf (s : State) (e : Nat) : List Nat :=
  (s.ctxs.filter (fun x => x.2.st != .free && x.2.st != .ending
    && (x.2.saves.any (fun v => v.engine == e && v.slot.isSome)
      || s.installed.any (fun i => i.1 == e / 4 && descUnit i.2.2.desc == 1 && engineOf i.1 i.2.2.desc == e && descCtx i.2.2.desc == x.1)))).map (·.1)

/-- Suspect c is being replayed. -/
def State.isReplaying (s : State) (c : Nat) : Bool := s.recovs.any (fun r => r.2.current == some c)

/-- An event of the hub about a unit: it has no context. -/
def State.unitEvent (s : State) (code kind unit data : Nat) : State := s.event ⟨s.ft, code, kind, unit, none, 0xFFFF, 0xFFFF, 0, data⟩

/-- Step 1 of R451: the suspects' fence begins, with its event of level 1 (R504). -/
def State.beginRecovery (s : State) (p e : Nat) (suspects covered : List Nat) (queue : List (Nat × List Nat)) : State :=
  let sus := suspects.filter (fun c => !covered.contains c && (s.ctx c).st != .free && (s.ctx c).st != .ending)
  let s := sus.foldl (fun s c => s.updCtx c (fun x => { x with st := .preempting, saveErr := 0 })) s
  let s := (s.unitEvent 0x800F 2 (clusterOfCore (e / 4)) 1).bump Fld.EN_HANG_RECOVERIES e
  let beats := e |> Store.get (fun _ => []) s.hangBeats
  let s := { s with hangBeats := Store.set (fun _ => []) s.hangBeats e (beats ++ [s.ft]) }
  let one : Fence := ⟨.engine e, s.ft, 0⟩
  let s := { s with fences := s.fences ++ [one] }
  s.setRecov p ⟨e, s.ft, 1, sus, [], none, sus.map (fun c => (c, s.fld Fld.HUB_CTX_SEQ_NEXT c)), covered ++ sus, queue⟩

/-- Every suspect has been settled: the innocent run again, and the next queued recovery begins. -/
def State.endRecovery (s : State) (p : Nat) : State :=
  let v := s.recov p
  let s := v.innocent.foldl (fun s c => s.updCtx c (fun x =>
    { x with st := if x.haltAfter then .halted else .running, haltAfter := false, replayTo := none, kept := [], keptEnded := [] })) s
  match v.queue with
  | [] => s.setRecov p { Recov.idle with engine := v.engine }
  | q :: rest => s.beginRecovery p q.1 q.2 v.covered rest

/-- Replay goes on with the lowest suspect that is not settled: its replay set is fetched from its ring again. -/
def State.replayNext (s : State) (p : Nat) : State :=
  let v := s.recov p
  match v.suspects with
  | c :: _ =>
    let s := s.setRecov p { v with stage := 4, current := some c }
    let s := s.updCtx c (fun x => { x with st := .running, replayTo := (v.heads.find? (fun h => h.1 == c)).map (·.2) })
    s.sampleRing c
  | [] => s.endRecovery p

/-- R464: a suspect that ends leaves the recovery; after the one being replayed, replay moves on. -/
def State.leaveRecovery (s : State) (c : Nat) : State :=
  match s.recovs.find? (fun r => r.2.suspects.contains c || r.2.innocent.contains c) with
  | none => s
  | some (p, v) =>
    let w := { v with suspects := v.suspects.filter (· != c), innocent := v.innocent.filter (· != c) }
    let s := s.updCtx c (fun x => { x with replayTo := none })
    if v.current = some c then (s.setRecov p { w with current := none }).replayNext p else s.setRecov p w

end Sys2Proof.Machine
end

