-- ==== Sys2Proof/Machine/Contexts.lean ====
section
/-! DEFINITION. Contexts (R191 to R199, R215 to R219): creation, pre-emption with the saves of engines, and resumption. -/

namespace Sys2Proof.Machine

/-! ## CREATE (R193, R196, R197) -/

/-- n bytes from lo lie in one HBM stack or LPDDR channel, whose memory partition p owns or shares, all in regions of type S. -/
def State.inTypeS (s : State) (p lo n : Nat) (hbmOnly : Bool) : Bool :=
  match channelOf lo, channelOf (lo + n - 1) with
  | some (c, _), some (d, _) =>
    c == d && (!hbmOnly || decide (c < 8)) && ownsOrShares s.tables p c && !inImageHold lo
    && !(regions s.tables).any (fun r => r.type != 2 && overlaps lo n r.base (r.size * 8192))
  | _, _ => false

/-- Checks of R193, R197 and R217 on a context's configuration. -/
def State.badCtxConfig (s : State) (c p : Nat) : Bool :=
  let l := s.ringL c
  let cores := s.coreMask c
  cores == 0 || (bitsOf 128 cores).any (fun k => s.partOfCore k != p) || decide (l < 4) || decide (l > 16)
  || !s.inTypeS p (s.ringBase c) (512 * (2 ^ l + 1)) false
  || !s.inTypeS p (s.fld Fld.HUB_CTX_CPL_BASE c * 256) (256 * 2 ^ l) false
  || !s.inTypeS p (s.fld Fld.HUB_CTX_SAVE_BASE c * 4096) (0x8400 * 4 * popcount 128 cores) true

/-- Live contexts of a partition (R192). -/
def State.liveCtxs (s : State) (p : Nat) : Nat := (s.ctxs.filter (fun x => x.2.st != .free && s.partOfCtx x.1 == p)).length

def opErrMultiple : Nat := 1
def opErrWrongState : Nat := 2
def opErrNoRing : Nat := 3
def opErrLimit : Nat := 4
def opErrBadConfig : Nat := 5

/-- CREATE on a FREE context: the state, and OP_ERR (R196). -/
def State.createCtx (s : State) (c : Nat) : State × Nat :=
  match s.ring c with
  | none => (s, opErrNoRing)
  | some r =>
    let p := r.part
    if !s.partRuns p then (s, opErrNoRing)
    else if s.liveCtxs p ≥ ((partOf s.tables p).map (·.contexts)).getD 0 then (s, opErrLimit)
    else if s.badCtxConfig c p then (s, opErrBadConfig)
    else
      let rq := s.cmdRq c
      let init := s.fld Fld.HUB_CTX_SEQ_INITIAL_SEQ c
      let t := s.readLocal rq (s.ringBase c) 4
      if t.2.1 ≠ stOk ∨ leNat t.2.2 ≠ init then (t.1, opErrBadConfig)
      else
        let s := (t.1.writeLocal rq none (s.ringBase c + 8) (leBytes 4 init)).1
        let s := (s.writeLocal rq none (s.ringBase c + 0x10) (leBytes 4 init)).1
        let s := ((s.setFld Fld.HUB_CTX_SEQ_NEXT c init).setFld Fld.HUB_CTX_STATUS_PARTITION c p).setFld Fld.HUB_CTX_STATUS_HALT_REASON c 0
        let s := ((s.setFld Fld.HUB_CTX_FAULT_PENDING c 0).setFld Fld.HUB_CTX_FAULT_CAUSE c 0).setFld Fld.HUB_CTX_FAULT_COUNT c 0
        (s.setCtx c { Ctx.init with st := .running, done := init }, 0)

/-! ## Saves (R158, R185, R215, R217) -/

def saveBytes : Nat := 0x8400

/-- Offset of save slot n of engine e in its core's SRAM (R185). -/
def slotAddr (e n : Nat) : Nat := sramOf (e / 4) ((e % 4 + 1) * groupBytes - (n + 1) * saveBytes)

/-- Address of engine e's place in context c's HBM save area (R217). -/
def State.saveArea (s : State) (c e : Nat) : Nat :=
  let r := ((bitsOf 128 (s.coreMask c)).takeWhile (· < e / 4)).length
  s.fld Fld.HUB_CTX_SAVE_BASE c * 4096 + saveBytes * (4 * r + e % 4)

/-- A bank's owner: the entry that it accumulates for. -/
def State.bankEntry (s : State) (e : Nat) (b : Bank) : Option Entry := if b.st = .free then none else s.entry (e / 4) b.entry

/-- A bank holds work of context c. -/
def State.bankOf (s : State) (e c : Nat) (b : Bank) : Bool :=
  match s.bankEntry e b with
  | some x => x.ctx == c
  | none => false

/-- Bytes of a bank's 64 × 64 cells. -/
def State.bankBytes (s : State) (e b : Nat) : List Byte :=
  ((List.range 64).map (fun i => ((List.range 64).map (fun j => leBytes 4 (s.cell e b i j))).flatten)).flatten

/-- The 69 counts in the layout of R153. -/
def histBytes (h : List Nat) : List Byte :=
  ((h.take 5).map (leBytes 8)).flatten ++ List.replicate 24 0 ++ ((h.drop 5).map (leBytes 8)).flatten

def histOfBytes (b : List Byte) : List Nat :=
  (List.range 5).map (fun i => fieldAt b (8 * i) 8) ++ (List.range 64).map (fun i => fieldAt b (0x40 + 8 * i) 8)

def bankCode (b : Bank) : Nat :=
  match b.st with
  | .free => 0
  | .accumulating => 1
  | .completed => 2

/-- The bank of a save whose next step the save gives: of two that accumulate, the one that has been fed (R185). -/
def EngineSave.fed (v : EngineSave) : Bank :=
  if v.bank1.st = .accumulating ∧ (v.bank0.st ≠ .accumulating ∨ 0 < v.bank1.k) then v.bank1 else v.bank0

/-- The descriptor that a save holds, with its command's FLAGS, EXC_COORD and counts: of two, the accumulating bank's. What its other bank's command
has raised and counted stays with that command (DESIGN CHOICE, log 61). -/
def EngineSave.summed (v : EngineSave) : Option Entry :=
  if v.bank1.st = .accumulating ∧ (v.bank0.st ≠ .accumulating ∨ 0 < v.bank1.k) then v.entry1 else match v.entry0 with
    | some x => some x
    | none => v.entry1

/-- The 0x8400 bytes of a save (R185). What it holds for a bank that is not the context's, and the next-step position where no
bank accumulates, is left open: free values (DESIGN CHOICE, log 61). -/
def State.saveImage (s : State) (v : EngineSave) : List Byte :=
  let e := v.engine
  let bank := fun (n : Nat) (b : Bank) => if b.st = .free then freeBytes (s.freeCtr + 0x4000 * n) 0x4000 else s.bankBytes e n
  let acc := v.fed
  let k := if acc.st = .accumulating then acc.k else (Config.freeWord (s.freeCtr + 0x8000)).toNat % 2 ^ 32
  let entry := v.summed
  let sum := match entry with
    | some x => ((s.cmd x.cmd).map (fun (m : Cmd) => m.sumOf e)).getD (EngSum.zero e)
    | none => EngSum.zero e
  bank 0 v.bank0 ++ bank 1 v.bank1 ++ leBytes 4 k ++ leBytes 4 ((entry.map (·.done)).getD 0) ++ leBytes 8 sum.flags ++ leBytes 8 sum.coord
  ++ (entry.map (·.desc)).getD (List.replicate 128 0) ++ histBytes sum.hist ++ leBytes 8 (bankCode v.bank0 + 4 * bankCode v.bank1)
  ++ List.replicate 288 0

/-- Save slot n of engine e is occupied, and by which context. -/
def State.slotHolder (s : State) (e n : Nat) : Option Nat :=
  (s.ctxs.find? (fun x => x.2.saves.any (fun v => v.engine == e && v.slot == some n))).map (·.1)

/-- The lowest free save slot of an engine (R186). -/
def State.freeSlot (s : State) (e : Nat) : Option Nat :=
  (List.range (s.fld Fld.CO_SAVE_CFG_SLOTS (e / 4))).find? (fun n => (s.slotHolder e n).isNone)

/-- A saved descriptor keeps its queues: their role reads 0xFE while it has no entry (assumption log 21). -/
def savedRole : Nat := 0xFE

def State.moveRoles (s : State) (k old new : Nat) : State :=
  { s with queues := s.queues.map (fun x =>
      if x.1 / 64 ≠ k then x
      else (x.1, { x.2 with consumer := if x.2.consumer = old then new else x.2.consumer,
                            producer := if x.2.producer = old then new else x.2.producer })) }

/-- A context being fenced as a suspect of an engine recovery reads PREEMPTING, and is none of these rules' (R451). -/
def State.isSuspect (s : State) (c : Nat) : Bool :=
  s.recovs.any (fun r => (r.2.suspects.contains c && r.2.current != some c) || r.2.innocent.contains c)

/-- Context c is pre-empting, and engine e's banks of it stand at a tile boundary with no drain (R215 step 3). -/
def State.savable (s : State) (e c : Nat) : Bool :=
  let g := s.engine e
  let mine := fun (b : Bank) => s.bankOf e c b
  let still := fun (b : Bank) => !mine b || b.st == .completed || (b.k % 64 == 0 && g.opnd.isNone)
  (s.ctx c).st == .preempting && !s.isSuspect c && (mine g.bank0 || mine g.bank1) && still g.bank0 && still g.bank1
  && !(match g.drain with
      | some d => (match s.entry (e / 4) d.entry with
          | some x => x.ctx == c
          | none => false)
      | none => false)

/-- Removes the counts not yet delivered of engine e from a command: they are in its save. -/
def State.takeHist (s : State) (r : CmdRef) (e : Nat) : State :=
  s.updCmd r (fun m => m.setSum { m.sumOf e with hist := List.replicate 69 0 })

/-- The save of engine e for context c: its image, the bytes' place, the freed banks and entries (R215 step 3, R217). -/
def State.saveEngine (s : State) (e c : Nat) : State :=
  let g := s.engine e
  let k := e / 4
  let mine := fun (b : Bank) => if s.bankOf e c b then b else Bank.empty
  let n := s.freeSlot e
  let v : EngineSave := ⟨e, n, mine g.bank0, mine g.bank1, s.bankEntry e (mine g.bank0), s.bankEntry e (mine g.bank1), (s.ctx c).preemptBeat⟩
  let img := s.saveImage v
  let s := s.spendN 0x8001
  let data := match n with
    | some i => ((s.clearResvs (slotAddr e i) saveBytes).setBytes (slotAddr e i) img, stOk)
    | none => s.writeLocal (s.cmdRq c) none (s.saveArea c e) img
  let s := data.1
  let ents := ((if v.entry0.isSome then [v.bank0.entry] else []) ++ (if v.entry1.isSome then [v.bank1.entry] else [])).eraseDups
  let s := v.summed.toList.foldl (fun s x => s.takeHist x.cmd e) s
  let s := ents.foldl (fun s i => (s.moveRoles k i savedRole).setEntry k i none) s
  let s := s.setEngine e { g with
    bank0 := if (mine g.bank0).st = .free then g.bank0 else Bank.empty
    bank1 := if (mine g.bank1).st = .free then g.bank1 else Bank.empty }
  let s := if data.2 = stOk then s.updCtx c (fun x => { x with saves := x.saves ++ [v] })
    else s.updCtx c (fun x => { x with saveErr := if x.saveErr = 0 then data.2 else x.saveErr })
  let s := (s.countEngine e 8 1).progress e
  let x := (v.entry0.toList ++ v.entry1.toList).head?
  match x with
  | some x => s.event (descEvent s 0x8009 0 e x (n.getD 0xFF))
  | none => s

/-- Contexts in ascending order of number. -/
def State.ctxIds (s : State) : List Nat := s.ctxs.map (·.1)

def State.engineSave (s : State) (e : Nat) : State :=
  match s.ctxIds.find? (s.savable e) with
  | some c => s.saveEngine e c
  | none => s

/-! ## PREEMPT (R215, R219, R347) -/

/-- Entries of a context's descriptors on vector units and movers are enabled or disabled. -/
def State.enableEntries (s : State) (c : Nat) (on : Bool) : State :=
  { s with entries := s.entries.map (fun e => (e.1, e.2.map (fun x => if x.ctx = c ∧ descUnit x.desc ≠ 1 then { x with enabled := on } else x))) }

def State.preemptCtx (s : State) (c : Nat) : State :=
  ((s.enableEntries c false).updCtx c (fun x => { x with st := .preempting, preemptBeat := s.ft, saveErr := 0, haltAfter := false })).setFld
    Fld.HUB_CTX_CTL_PREEMPT c 1

/-- The descriptor that joins a queue to a circuit with DIR 0: the firings that wait for it, oldest first. -/
def State.inFirings (s : State) (c : Nat) : List (Firing × Entry) :=
  s.firings.filterMap (fun f => match s.entry f.core f.entry with
    | some x => if descUnit x.desc = 3 ∧ moverDir x.desc = 0 ∧ moverCirc x.desc = c then some (f, x) else none
    | none => none)

/-- Firings of a circuit's DIR 0 mover that wait for their data, oldest first; a reader that waits for its tile holds its place. -/
def State.activeIn (s : State) (c : Nat) : List (Firing × Entry) := (s.inFirings c).filter (fun x => x.1.stage == .active || x.1.stage == .waiting)

/-- A firing of the context is in progress (R215 step 2): a stopped one counts as ended (R347), and so does one that waits for its tile, which a
pre-emption ends (R269) (DEDUCED, log 22). -/
def State.firingsRun (s : State) (c : Nat) : Bool :=
  s.firings.any (fun f => match s.entry f.core f.entry with
    | some x => x.ctx == c && f.stage != .waiting && !s.stopped c x.cmd f.core f.entry f.f
    | none => false)
  || s.vec.any (fun v => match v.2 with
      | some r => (match s.entry v.1 r.entry with
          | some x => x.ctx == c
          | none => false)
      | none => false)

/-- An engine holds a bank or a drain of the context. -/
def State.enginesHold (s : State) (c : Nat) : Bool :=
  s.engines.any (fun g => s.bankOf g.1 c g.2.bank0 || s.bankOf g.1 c g.2.bank1
    || (match g.2.drain with
        | some d => (match s.entry (g.1 / 4) d.entry with
            | some x => x.ctx == c
            | none => false)
        | none => false))

/-- PREEMPT_COMPLETE (R215, R219, R347). -/
def State.preemptComplete (s : State) (c : Nat) : State :=
  let x := s.ctx c
  if x.st ≠ .preempting ∨ s.isSuspect c ∨ s.firingsRun c ∨ s.enginesHold c then s
  else
    let s := s.setFld Fld.HUB_CTX_CTL_PREEMPT c 0
    if x.saveErr ≠ 0 then (s.setFld Fld.HUB_CTX_STATUS_LAST_STATUS c x.saveErr).halt c 0
    else if x.haltAfter then (s.updCtx c (fun x => { x with haltAfter := false })).halt c 0
    else (s.setFld Fld.HUB_CTX_STATUS_LAST_STATUS c stPreempted).enterCtx c .preempted

/-- Of the saves that hold a save slot of engine e, the one of the earliest-pre-empted context, and that context. -/
def State.oldestSave (s : State) (e : Nat) : Option (Nat × EngineSave) :=
  let held := (s.ctxs.map (fun x => (x.2.saves.filter (fun v => v.engine == e && v.slot.isSome)).map (fun v => (x.1, v)))).flatten
  held.foldl (fun (b : Option (Nat × EngineSave)) v => match b with
    | some w => if v.2.beat < w.2.beat then some v else b
    | none => some v) none

/-- SAVE_SLOT_COPY_OUT (R217): where pre-emptions have left engine e without a free slot, the occupied slot of the earliest-pre-empted
context goes to its HBM save area. -/
def State.copyOut (s : State) (e : Nat) : State :=
  let n := s.fld Fld.CO_SAVE_CFG_SLOTS (e / 4)
  if n = 0 ∨ (s.freeSlot e).isSome then s
  else
    match s.oldestSave e with
    | none => s
    | some (c, v) =>
      let w := s.writeLocal (s.cmdRq c) none (s.saveArea c e) (s.bytes (slotAddr e (v.slot.getD 0)) saveBytes)
      let s := w.1
      if w.2 = stOk then
        s.updCtx c (fun x => { x with saves := x.saves.map (fun y => if y = v then { y with slot := none } else y) })
      else
        let s := s.updCtx c (fun x => { x with saves := x.saves.filter (fun y => !decide (y = v)), saveErr := w.2 })
        if (s.ctx c).st = .preempted then (s.setFld Fld.HUB_CTX_STATUS_LAST_STATUS c w.2).halt c 0 else s

/-! ## RESUME (R218, R346, R347) -/

/-- Cells of a bank from the bytes of a save. -/
def State.loadBank (s : State) (e b : Nat) (img : List Byte) : State :=
  (List.range 64).foldl (fun s i => (List.range 64).foldl (fun s j => s.setCell e b i j (fieldAt img (4 * (64 * i + j)) 4)) s) s

/-- A descriptor entry for each saved descriptor of one save, from the lowest free. -/
def State.freeEntries (s : State) (k n : Nat) : Option (List Nat) :=
  let l := ((List.range 64).filter (fun i => (s.entry k i).isNone)).take n
  if l.length = n then some l else none

/-- A saved descriptor takes its queues again. -/
def State.takeRoles (s : State) (k i : Nat) (x : Entry) : State :=
  let s := (descIns x.desc).foldl (fun s p => s.updQueue k p.queue (fun q => { q with consumer := i })) s
  (descOuts x.desc).foldl (fun s p => s.updQueue k p.queue (fun q => { q with producer := i })) s

/-- An engine can take a save back: its banks are free, and no other accumulation is in progress. -/
def State.canRestore (s : State) (v : EngineSave) : Bool :=
  let g := s.engine v.engine
  (v.bank0.st == .free || g.bank0.st == .free) && (v.bank1.st == .free || g.bank1.st == .free)
  && !((v.bank0.st == .accumulating || v.bank1.st == .accumulating) && (g.bank0.st == .accumulating || g.bank1.st == .accumulating))

/-- One save of context c goes back to its engine (R218 step 1). The cells, the position, the count of completed firings and the
summaries come from the save's bytes. -/
def State.restore1 (s : State) (c : Nat) (v : EngineSave) : State :=
  let e := v.engine
  let k := e / 4
  let olds := ((v.entry0.map (fun x => (v.bank0.entry, x))).toList ++ (v.entry1.map (fun x => (v.bank1.entry, x))).toList).eraseDups
  match s.canRestore v, s.freeEntries k olds.length with
  | true, some news =>
    let data := match v.slot with
      | some n => (s, stOk, s.bytes (slotAddr e n) saveBytes)
      | none => s.readLocal (s.cmdRq c) (s.saveArea c e) saveBytes
    let s := data.1
    let s := s.updCtx c (fun x => { x with saves := x.saves.filter (fun y => !decide (y = v)) })
    if data.2.1 ≠ stOk then (s.setFld Fld.HUB_CTX_STATUS_LAST_STATUS c data.2.1).halt c 0
    else
      let img := data.2.2
      let acc := v.fed.entry
      let done := fieldAt img 0x8004 4
      let pairs := olds.zip news
      let place := fun (i : Nat) => ((pairs.find? (fun q => q.1.1 == i)).map (·.2)).getD i
      let s := pairs.foldl (fun s q =>
        let x := q.1.2
        (s.setEntry k q.2 (some { x with done := if q.1.1 = acc then done else x.done })).takeRoles k q.2 x) s
      let pos := fieldAt img 0x8000 4
      let back := fun (b : Bank) => { b with entry := place b.entry, k := if b.st = .accumulating ∧ b = v.fed then pos else b.k }
      let s := if v.bank0.st = .free then s else s.loadBank e 0 img
      let s := if v.bank1.st = .free then s else s.loadBank e 1 (img.drop 0x4000)
      let g := s.engine e
      let s := s.setEngine e { g with
        bank0 := if v.bank0.st = .free then g.bank0 else back v.bank0
        bank1 := if v.bank1.st = .free then g.bank1 else back v.bank1
        feed := if v.fed.st ≠ .accumulating then g.feed else if v.fed = v.bank0 then 0 else 1 }
      let s := match v.summed with
        | some x => s.updCmd x.cmd (fun (m : Cmd) =>
            let y := m.sumOf e
            m.setSum { y with flags := y.flags ||| fieldAt img 0x8008 8 % 256, coord := firstCoord y.coord (fieldAt img 0x8010 8),
                              hist := (y.hist.zip (histOfBytes (img.drop 0x8098))).map (fun (z : Nat × Nat) => z.1 + z.2) })
        | none => s
      let s := (s.countEngine e 9 1).progress e
      match olds.head? with
      | some (_, x) => s.event (descEvent s 0x800A 0 e x (v.slot.getD 0xFF))
      | none => s
  | _, _ => s

/-- Saves of a running context go back as soon as their engines can take them. -/
def State.restoreSaves (s : State) (c : Nat) : State :=
  if (s.ctx c).st = .running then (s.ctx c).saves.foldl (fun s v => s.restore1 c v) s else s

/-- The stopped requesters retry: a COPY from its resume point, a LAUNCH from the record it was reading (R342, R346). -/
def State.retryStopped (s : State) (c : Nat) : State :=
  let f := (s.ctx c).faults
  let s := s.updCtx c (fun x => { x with
    faults := []
    buf := x.buf.map (fun m =>
      if f.any (fun y => y.cmd == (⟨c, m.seq⟩ : CmdRef) && y.core == 0xFF) then
        if m.opcode = 5 then { m with pos := m.pos / 64 * 64 }
        else if m.opcode = 3 then { m with records := m.records.take (144 * m.pos) } else m
      else m) })
  ((s.setFld Fld.HUB_CTX_FAULT_PENDING c 0).setFld Fld.HUB_CTX_FAULT_CAUSE c 0).setFld Fld.HUB_CTX_FAULT_COUNT c 0

def State.resumeCtx (s : State) (c : Nat) : State :=
  (((s.enterCtx c .running).enableEntries c true).retryStopped c).restoreSaves c

/-! ## Operations of HUB_CTX_CTL (R195, R219) -/

def State.setOpErr (s : State) (c e : Nat) : State := s.setFld Fld.HUB_CTX_STATUS_OP_ERR c e

/-- END begins the context's fence (R198, R443): its commands complete at the fence's end. -/
def State.endCtx (s : State) (c : Nat) : State :=
  let x := s.ctx c
  let st := match x.st with
    | .preempted => stPreempted
    | .suspended => stFaulted
    | _ => stFenced
  let s := s.updCtx c (fun x => { x with st := .ending, saves := if x.st = .preempting then [] else x.saves, endStatus := st, fenceBeat := some s.ft })
  let s := ((s.setFld Fld.HUB_CTX_CTL_PREEMPT c 0).setFld Fld.HUB_CTX_CTL_END c 1)
  let one : Fence := ⟨.context c, s.ft, st⟩
  ({ s with fences := s.fences ++ [one] }).leaveRecovery c

/-- A write of HUB_CTX_CTL with these bits set. -/
def State.ctxCtl (s : State) (c bits : Nat) : State :=
  let st := (s.ctx c).st
  match bits % 16 with
  | 0 => s
  | 1 =>
    if st = .free then
      let r := s.createCtx c
      r.1.setOpErr c r.2
    else s.setOpErr c opErrWrongState
  | 2 =>
    if s.isReplaying c then s.setOpErr c 0
    else match st with
    | .running => (s.preemptCtx c).setOpErr c 0
    | .suspended => (s.preemptCtx c).setOpErr c 0
    | .preempting => s.setOpErr c 0
    | .preempted => s.setOpErr c 0
    | _ => s.setOpErr c opErrWrongState
  | 4 =>
    if st = .preempted ∨ st = .suspended then (s.resumeCtx c).setOpErr c 0 else s.setOpErr c opErrWrongState
  | 8 =>
    match st with
    | .free => s.setOpErr c opErrWrongState
    | .ending => s.setOpErr c 0
    | _ => (s.endCtx c).setOpErr c 0
  | _ => s.setOpErr c opErrMultiple

/-- A write of HUB_CTX_CTL by a requester: an error response under R34 leaves it undone (R194). -/
def State.ctxWrite (s : State) (rq : Requester) (c bits : Nat) : State :=
  if c ≥ 256 then s
  else s.gated rq .HUB_CTX_CTL c (fun s => s.ctxCtl c bits)

/-- CREATE: the write sets CREATE, and may set others. -/
def execCreate (rq : Requester) (c bits : Nat) (s : State) : Host.Outcome State Fault Refusal := answer (s.ctxWrite rq c (bits ||| 1))
def execPreempt (rq : Requester) (c bits : Nat) (s : State) : Host.Outcome State Fault Refusal := answer (s.ctxWrite rq c (bits ||| 2))
def execResume (rq : Requester) (c bits : Nat) (s : State) : Host.Outcome State Fault Refusal := answer (s.ctxWrite rq c (bits ||| 4))
def execCtxEnd (rq : Requester) (c bits : Nat) (s : State) : Host.Outcome State Fault Refusal := answer (s.ctxWrite rq c (bits ||| 8))
def execEngineSave (e : Nat) (s : State) : Host.Outcome State Fault Refusal := answer (s.engineSave e)
def execPreemptComplete (c : Nat) (s : State) : Host.Outcome State Fault Refusal := answer (s.preemptComplete c)
def execSaveSlotCopyOut (e : Nat) (s : State) : Host.Outcome State Fault Refusal := answer (s.copyOut e)

end Sys2Proof.Machine
end

