-- ==== Sys2Proof/Machine/Slots.lean ====
section
/-! DEFINITION. The slot logic (R96 to R102), fabric segments at their egress (R355 to R358), slips, and the credit audit (R104 to R107). -/

namespace Sys2Proof.Machine

/-! ## Who is concerned -/

/-- Cluster of a resource or endpoint that lies in one; none for others. -/
def endpointCluster (ep : Nat) : Option Nat := if ep / 4096 = 1 then some (clusterOfCore (ep % 4096)) else none

/-- An endpoint is fenced (R36, R390, R443). -/
def State.epFenced (s : State) (ep : Nat) : Bool :=
  let i := ep % 4096
  s.fencing .chip ||
  match ep / 4096 with
  | 1 => s.clusterFenced (clusterOfCore i)
  | 2 => s.dieFenced (i / 2)
  | 4 => s.endpointFenced (llmBase + i / 16 * llmStride)
  | _ => false

/-- A resource on a path is fenced: a cluster switch, or what belongs to a fenced die pair (R93). -/
def State.resFenced (s : State) (e : SlotEntry) : Bool :=
  match e.kind with
  | 1 => s.clusterFenced e.res
  | 2 => s.dieFenced e.res
  | 3 => s.dieFenced e.res
  | 4 => s.fld Fld.HUB_LINK_STATUS_STATE (9 + e.res) == 3
  | 5 => s.dieFenced e.res
  | 6 => decide (e.res < 8) && s.dieFenced (e.res / 2)
  | _ => false

/-- The sending end of the die link that a slot uses (R382, R383). -/
def dieLinkEnd (e : SlotEntry) : Option Nat :=
  match e.kind with
  | 3 => some (2 * (13 + e.res) + e.dir)
  | 4 => some (2 * (9 + e.res) + e.dir)
  | 5 => some (2 * (1 + e.res) + e.dir)
  | _ => none

/-- An instance of the circuit waits at the slot's link to be sent again (R387). -/
def State.linkAgain (s : State) (c : Nat) (e : Option SlotEntry) : Bool :=
  match e.bind dieLinkEnd with
  | some k => (s.dieLink k).again.any (fun x => x.1 == c)
  | none => false

/-- The slot's instance resends the instance that a link discarded; nothing else moves in it. -/
def State.linkResend (s : State) (c n : Nat) (e : SlotEntry) : State :=
  match dieLinkEnd e with
  | some k =>
    let v := s.dieLink k
    let one : Nat × Nat := (c, n % 2 ^ 16)
    let s := s.setDieLink k { v with
      again := v.again.filter (fun x => x.1 != c), insts := v.insts.filter (fun x => x.1 != c) ++ [one] }
    let s := s.bump Fld.HUB_LINK_ERR_REPLAYS (k / 2)
    if s.fld Fld.HUB_LINK_ERR_REPLAYS (k / 2) = 2 ^ 24 - 1 then s.raise Fld.HUB_LINK_ERR_OVF (k / 2) else s
  | none => s

def State.updFiring (s : State) (k e f : Nat) (g : Firing → Firing) : State :=
  { s with firings := s.firings.map (fun x => if x.core = k ∧ x.entry = e ∧ x.f = f then g x else x) }

/-- A port's slots are down for R98 (R354). -/
def State.slotDown (s : State) (p : Nat) : Bool := !s.portUp p || !s.flag Fld.FAB_PORT_STATUS_SLOT_LIVE p

/-- Fabric time does not hold the fabric's slots (R84, R98). -/
def State.timeHolds (s : State) : Bool := s.fld Fld.HUB_FT_STATUS_STATE < 2

/-! ## Notes of a slot (R497, R513) -/

/-- A trace packet of class SLOT: a cluster's for its switch, a fabric port's for its slots. -/
def State.slotNote (s : State) (e : SlotEntry) (c n sub : Nat) : State :=
  let p : TracePkt := ⟨⟨s.ft, 0, if e.kind = 7 then 4 else 2, e.res, none, 0xFFFF, 0xFFFF, 0, c + n % 2 ^ 32 * 2 ^ 16⟩, 2, sub⟩
  if e.kind = 1 then s.packet 2 p else if e.kind = 7 then s.packet 4 p else s

/-- Lossless tracing holds the slot's producer (R514). -/
def State.slotTraced (s : State) (e : SlotEntry) : Bool :=
  (e.kind == 1 && s.traceHolds 2 2 e.res 0xFFFF 0xFFFF) || (e.kind == 7 && s.traceHolds 2 4 e.res 0xFFFF 0xFFFF)

def units64 (n : Nat) : Nat := (n + 63) / 64

/-- Cluster counts of a transfer over a cluster switch: SWITCH_BYTES_IN or _OUT of the core at its end, and SLOT_TRANSFERS. -/
def State.switchCounts (s : State) (ce : CircEntry) (e : SlotEntry) : State :=
  if e.kind ≠ 1 then s
  else
    let core := if e.dir = 0 then ce.dst else ce.src
    let base := if e.dir = 0 then 1 else 2
    let s := s.countCluster e.res 5 0 1
    if core / 4096 = 1 then (s.countCluster e.res base (core % 8) (units64 e.bytes)).countCluster e.res base 8 (units64 e.bytes)
    else s.countCluster e.res base 8 (units64 e.bytes)

/-! ## Slips (R99, R102, R108) -/

/-- A LAUNCH of the partition has started, and its install records have yet to say which circuits it uses. -/
def State.launching (s : State) (p : Nat) : Bool :=
  s.ctxs.any (fun x => s.partOfCtx x.1 == p && x.2.buf.any (fun m => m.started && !m.finished && !m.installed && m.opcode == 3))

/-- An instance idles: a slip where it is the LAST slot of a pending circuit, at a fabric circuit's producer segment only (R99, R359). A period
that is no slip ends a run (R102). -/
def State.idle (s : State) (ce : CircEntry) (e : SlotEntry) (n : Nat) (traced : Bool) : State :=
  if !e.last ∨ ce.src / 4096 = 5 then s
  else if (s.circ ce.id).pend.isEmpty then
    s.setCirc ce.id { s.circ ce.id with run := 0, idled := if s.launching ce.part then (s.circ ce.id).idled ++ [s.ft] else [] }
  else (s.slip ce e traced).slotNote e ce.id n 1

/-- SLIP_LIMIT_REACHED (R102). Of several commands that a circuit is pending for, each ends (DESIGN CHOICE, log 72). -/
def State.slipLimit (s : State) (c : Nat) : State :=
  match s.circEntry c with
  | none => s
  | some ce =>
    let x := s.circ c
    if ce.slipLimit = 0 ∨ x.run < ce.slipLimit ∨ x.pend.isEmpty then s
    else
      let s := s.setCirc c { x with run := 0 }
      let s := if ce.part < 16 then (s.raise Fld.HUB_SLIP_MAX_LIMIT_HIT ce.part).setFld Fld.HUB_SLIP_MAX_CIRCUIT ce.part c else s
      let s := match s.lastSlot c with
        | some e => if e.kind = 1 then
              s.event ⟨s.ft, 0x800E, 2, e.res, x.pend.head?.map (·.ctx), 0xFFFF, 0xFFFF, (x.pend.head?.map (·.seq)).getD 0, c⟩
            else s
        | none => s
      x.pend.foldl (fun s r => s.failCmd r stSlipLimit) s

/-! ## Sources of a token -/

/-- Core whose tile mover requests a circuit's transfers, and whose translations it uses: the one at an end of it. -/
def circCore (ce : CircEntry) : Nat := if ce.src / 4096 = 1 then ce.src % 4096 else ce.dst % 4096

/-- The requester of a mover's memory accesses. -/
def State.moverRq (s : State) (k : Nat) : Requester := ⟨.tensor, k, s.partOfCore k⟩

/-- R31: lines that a CPU may hold exclusive, or that are in a transaction: the access recalls or invalidates them and slips. -/
def State.contended (s : State) (ps : List (Nat × Nat)) : List Nat :=
  ((ps.map (fun p => if cacheable p.1 then linesOf p.1 p.2 else [])).flatten).filter (fun l =>
    let h := s.home l
    h.tx.isSome || h.st == .dx || h.st == .dox)

/-- The recalls or invalidations of R31. -/
def State.clearLines (s : State) (write : Bool) (ls : List Nat) : State :=
  ls.foldl (fun s l => if write then s.invalidateCopies l else s.recall l) s

/-- Reads pieces at their endpoints: state, worst status, data. -/
def State.readPieces (s : State) (rq : Requester) : List (Nat × Nat) → State × Nat × List Byte
  | [] => (s, 0, [])
  | p :: rest =>
    let r := s.readLocal rq p.1 p.2
    let t := State.readPieces r.1 rq rest
    (t.1, worse r.2.1 t.2.1, r.2.2 ++ t.2.2)

/-- Writes data to pieces: state, worst status, and the first address that failed with its place in the data. -/
def State.storePieces (s : State) (rq : Requester) (ref : CmdRef) : List (Nat × Nat) → List Byte → State × Nat × (Nat × Nat)
  | [], _ => (s, 0, (0, 0))
  | p :: rest, b =>
    let r := s.writeLocal rq (some ref) p.1 (b.take p.2)
    let t := State.storePieces r.1 rq ref rest (b.drop p.2)
    (t.1, worse r.2 t.2.1, if r.2 ≠ 0 then (p.1, 0) else (t.2.2.1, t.2.2.2 + p.2))

/-- The firing that the circuit's next token is for: tokens in flight are for those before it. -/
def State.nextIn (s : State) (c : Nat) : Option (Firing × Entry) := (s.activeIn c)[(s.circ c).flight.length]?

/-- A firing of a DIR 0 mover whose access stands issued and whose data has not left: the token that R98 asks for at a memory
endpoint (R176). -/
def State.readyFiring (s : State) (c : Nat) : Option (Firing × Entry × List (Nat × Nat)) :=
  match s.nextIn c with
  | some (f, x) => f.pieces.map (fun ps => (f, x, ps))
  | none => none

/-- Commands that a fence or a lost port at an instance ends: its token's, or the first that is pending. -/
def State.concerned (s : State) (c : Nat) (t : Option Token) : Option CmdRef :=
  match t with
  | some t => if t.cmd = foreignCmd then (s.circ c).pend.head? else some t.cmd
  | none => (s.circ c).pend.head?

/-! ## Delivery -/

/-- Writes data into the OUT slots that a firing holds, slot after slot; reservations of the lines written are cleared (R324). -/
def State.fillSlots (s : State) (k q i : Nat) : Nat → List Byte → State
  | 0, _ => s
  | n + 1, b =>
    let v := s.queue k q
    let m := v.slotBytes
    if b.isEmpty then s
    else
      let a := sramOf k (v.slotAt (v.heldIn + v.tokens + i))
      State.fillSlots ((s.clearResvs a m).setBytes a (b.take m)) k q (i + 1) n (b.drop m)

/-- A circuit's token reaches the queue of a DIR 0 mover: into the slots of its oldest waiting firing (R168, R176). -/
def State.toQueue (s : State) (c : Nat) (t : Token) : State :=
  match (s.activeIn c).head? with
  | none => s
  | some (f, x) =>
    match (descOuts x.desc).head? with
    | none => s
    | some p =>
      let before := ((s.inFirings c).filter (fun y => decide (y.1.f < f.f))).length * p.n
      let s := s.fillSlots f.core p.queue before p.n t.data
      let s := s.countCore f.core 0xF 0 (units64 t.data.length)
      s.updFiring f.core f.entry f.f (fun y => { y with stage := if t.poison then .poisoned else .finished })

/-- The credit of a delivered buffer is on its way back to the producer; to another module, with a note (R250, R251). -/
def State.returnCredit (s : State) (c : Nat) (note : Nat × Nat := (0, 0)) : State :=
  let x := s.circ c
  let foreign := (s.circEntry c).any (fun ce => ce.src / 4096 == 5)
  s.setCirc c { x with returning := x.returning + 1, notes := if foreign then x.notes ++ [note] else x.notes }

/-- Posted writes of a token's pieces to the host (R403); each is completed by a read behind it (R284). -/
def State.hostWrites (s : State) (rq : Requester) (w : FaultSite) : List (Nat × Nat) → List Byte → State
  | [], _ => s
  | p :: rest, b =>
    match s.issueWrite rq (some w.cmd) p.1 (b.take p.2) .plain with
    | (s, .done st _) => State.hostWrites (s.accessFault w p.1 st) rq w rest (b.drop p.2)
    | (s, .open) => State.hostWrites s rq w rest (b.drop p.2)

/-- A stager's claim takes the status of its failed transfer (R266). -/
def State.failStaging (s : State) (k : Nat) (t : Token) (status : Nat) : State :=
  s.updFiring k t.entry t.f (fun x => { x with fail := status })

/-- A plain write reaches its memory endpoint (R176): an error ends the command. -/
def State.toMemory (s : State) (ce : CircEntry) (t : Token) : State :=
  let k := circCore ce
  let foreign := ce.src / 4096 == 5
  let r := s.storePieces (if foreign then ⟨.remote, ce.src % 4096, ce.part⟩ else s.moverRq k) t.cmd t.pieces t.data
  let s := if t.poison then t.pieces.foldl (fun s p => (granulesOf p.1 p.2).foldl State.poisonGranule s) r.1 else r.1
  let s := s.returnCredit ce.id
  let b := ((s.lastSlot ce.id).map (·.bytes)).getD 0 - t.data.length + r.2.2.2
  if r.2.1 = 0 ∨ foreign then s else (s.failStaging k t r.2.1).accessFault (t.site k 2 b) r.2.2.1 r.2.1

/-- The LAST hop of a segment is crossed. -/
def State.deliverToken (s : State) (ce : CircEntry) (hops : Nat) (t : Token) : State :=
  match ce.dst / 4096 with
  | 1 => s.toQueue ce.id t
  | 7 =>
    let s := s.emit (.slotData ce.id ce.dst t)
    let s := s.hostWrites (s.moverRq (circCore ce)) (t.site (circCore ce) 2 0) t.pieces t.data
    s.returnCredit ce.id
  -- token f goes to A + f × BYTES, modulo 2^64 (R411)
  | 6 => (s.emit (.rdmaToken ce.id (t.f * ((s.lastSlot ce.id).map (·.bytes)).getD 0 % 2 ^ 64) t.data)).setCirc ce.id { s.circ ce.id with held := (s.circ ce.id).held + 1 }
  | _ =>
    if ce.reduce then
      let x := s.circ ce.id
      s.setCirc ce.id { x with flight := x.flight ++ [(hops, t)] }
    else s.toMemory ce t

/-! ## Fabric egress (R355 to R358) -/

def slotFrameCount (bytes : Nat) : Nat := (bytes + 799) / 800

/-- The slot frames of an instance (R350, R357), as far as they are known before they leave. -/
def instFrames (ce : CircEntry) (e : SlotEntry) (n : Nat) (t : Token) : List (Frame × FrameNote) :=
  (List.range (slotFrameCount e.bytes)).map (fun i =>
    (⟨2, 0, 0, ce.id, n % 2 ^ 16, i, 0, [], (t.data.drop (800 * i)).take 800⟩, ⟨t.j, t.poison, t.pieces, t.op, (0, 0), (0, 0), false⟩))

/-- An instance leaves on a port, in the first beats of its slot. -/
def State.sendInst (s : State) (ce : CircEntry) (e : SlotEntry) (n : Nat) (t : Token) : State :=
  let v := s.port e.res
  let s := s.setPort e.res { v with slotQ := v.slotQ ++ instFrames ce e n t }
  (s.countHub 0xA e.res (slotFrameCount e.bytes)).slotNote e ce.id n 0

/-- A PKT_RETRY or an instance's resend on a port (R379). -/
def State.portRetry (s : State) (p : Nat) : State :=
  let s := s.bump Fld.FAB_PORT_ERR_RETRIES p
  if s.fld Fld.FAB_PORT_ERR_RETRIES p = 0xFFFF then s.raise Fld.FAB_PORT_ERR_OVF p else s

/-- Instances unacknowledged for 4 periods, with every later one, are to be sent again (R358). -/
def State.expireInsts (s : State) (ce : CircEntry) : State :=
  let g := s.seg ce.id
  match g.sent.findIdx? (fun t => decide (s.ft ≥ t.beat + 4 * 2 ^ ce.k)) with
  | some i => s.setSeg ce.id { g with sent := g.sent.take i, resend := g.sent.drop i ++ g.resend }
  | none => s

/-- A transit's egress instance: forwards the instance of this period, if it was accepted whole (R357). -/
def State.transitEgress (s : State) (ce : CircEntry) (e : SlotEntry) (n : Nat) : State :=
  let g := s.seg ce.id
  match g.hold with
  | some (i, t) =>
    let s := s.setSeg ce.id { g with hold := none }
    if i = n % 2 ^ 16 ∧ !s.slotDown e.res ∧ !s.timeHolds then (s.sendInst ce e n t).switchCounts ce e else s
  | none => s

/-! ## One instance -/

/-- The token that stands at hop h of a circuit, and counts at this beat (R97). -/
def State.tokenAt (s : State) (ce : CircEntry) (h : Nat) : Option Token :=
  (if h = 0 then (s.circ ce.id).ready.head? else ((s.circ ce.id).flight.find? (fun t => t.1 == h)).map (·.2)).filter
    (fun t => decide (t.since ≤ s.ft))

/-- The token leaves hop h for the next, or is delivered. -/
def State.cross (s : State) (ce : CircEntry) (e : SlotEntry) (h n : Nat) (t : Token) : State :=
  let x := s.circ ce.id
  let s := s.setCirc ce.id { x with
    flight := (x.flight.filter (fun y => !(y.1 == h && decide (y.2 = t)))) ++ (if e.last then [] else [(h + 1, { t with since := s.ft + 1 })])
    run := if e.last then 0 else x.run
    cleared := if h = 0 then [] else x.cleared }
  let s := (s.switchCounts ce e).slotNote e ce.id n 0
  if e.last then (s.deliverToken ce (h + 1) t).pendCheck ce.id t.cmd else s

/-- The first hop of a circuit takes its credit, and its token its place j (R96, R101). -/
def State.launchToken (s : State) (ce : CircEntry) (t : Token) : State × Token :=
  let x := s.circ ce.id
  let joined := (s.queueConsumes ce.id).isSome
  let s := if ce.reduce ∧ ce.dst / 4096 ≠ 5 then s.countSent ce.id 1 else s
  (s.setCirc ce.id { x with credits := if joined then x.credits else x.credits - 1, j := x.j + 1,
                            ready := if ce.src / 4096 = 1 then x.ready.drop 1 else x.ready }, { t with j := x.j })

/-- A credit stands at the producer: of a circuit that a queue consumes, a slot that a firing holds (R168). -/
def State.hasCredit (s : State) (ce : CircEntry) : Bool :=
  match s.queueConsumes ce.id with
  | some _ => (match s.nextIn ce.id with
    | some (f, _) => decide (f.since ≤ s.ft)
    | none => false)
  | none => decide (0 < (s.circ ce.id).creditsAt s.ft)

/-- Row 4 of R98: the context that owns the producer is suspended, or pre-empted. -/
def State.ctxIdles (s : State) (c : Nat) : Bool :=
  match (s.ctx c).st with
  | .suspended => true
  | .preempted => true
  | .halted => true
  | _ => false

/-- The producer unit's tensor die is held (row 5 of R98). -/
def State.producerHeld (s : State) (ce : CircEntry) : Bool := ce.src / 4096 == 1 && s.coreHeld (ce.src % 4096)

/-- Bytes that a core's ingress buffer holds as an instance begins: how fast the mover has emptied it is left open, a free value (R183)
(DESIGN CHOICE, log 73). -/
def State.ingressNow (s : State) (k : Nat) : State × Nat :=
  let n := Store.get (fun _ => 0) s.ingress k
  if n = 0 then (s, 0) else (s.spend, s.free % (n + 1))

/-- An instance for a tile mover finds room in its ingress buffer of 64 KiB, or none (R183). -/
def State.takeIngress (s : State) (k bytes : Nat) : State × Bool :=
  let r := s.ingressNow k
  let fits := decide (r.2 + bytes ≤ 0x1_0000)
  ({ r.1 with ingress := Store.set (fun _ => 0) s.ingress k (if fits then r.2 + bytes else r.2) }, fits)

/-- Why a token with its credit idles all the same (R31, R183, R230, rows 4, 6 and 7 of R98): the state, with recalls begun, and whether it
idles. -/
def State.holdUp (s : State) (ce : CircEntry) (e : SlotEntry) (t : Token) : State × Bool :=
  if s.ctxIdles t.ctx then (s, true)
  else if ce.dst / 4096 = 1 ∧ e.last then
    if (s.activeIn ce.id).isEmpty then (s, true)
    else match s.takeIngress (ce.dst % 4096) e.bytes with
      | (s, fits) => (s, !fits)
  else if memoryEp ce.dst ∧ e.last ∧ !(s.contended t.pieces).isEmpty then (s.clearLines true (s.contended t.pieces), true)
  else if e.kind = 6 then s.refreshDelays e.res e.length
  else (s, false)

/-- The instance of a segment's LAST slot at a port's egress: instances to resend go first; at most 4 are outstanding (R358). -/
def State.producerEgress (s : State) (ce : CircEntry) (e : SlotEntry) (h n : Nat) (t : Option Token) (launch traced : Bool) : State :=
  let s := s.expireInsts ce
  let g := s.seg ce.id
  match g.resend, t with
  | r :: rest, _ =>
    let s := s.setSeg ce.id { g with sent := g.sent ++ [⟨n % 2 ^ 16, r.tok, s.ft⟩], resend := rest }
    let s := s.portRetry e.res
    (s.idle ce e n traced).sendInst ce e n r.tok
  | [], some t =>
    if s.ctxIdles t.ctx ∨ g.sent.length ≥ 4 then s.idle ce e n traced
    else
      let l := if launch then s.launchToken ce t else (s, t)
      let s := l.1.setSeg ce.id { g with
        sent := g.sent ++ [⟨n % 2 ^ 16, l.2, s.ft⟩], owed := if ce.reduce then g.owed ++ [l.2.cmd] else g.owed }
      let x := s.circ ce.id
      let s := s.setCirc ce.id { x with flight := x.flight.filter (fun y => !(y.1 == h && decide (y.2 = l.2))), run := 0 }
      (s.sendInst ce e n l.2).switchCounts ce e
  | [], none => s.idle ce e n traced

/-- The instance of hop h with the token that stands there, if any; the first hop launches it. -/
def State.moveToken (s : State) (ce : CircEntry) (e : SlotEntry) (h n : Nat) (t : Option Token) (launch traced : Bool) : State :=
  if ce.dst / 4096 = 5 ∧ e.last then s.producerEgress ce e h n t launch traced
  else match t with
    | none => s.idle ce e n traced
    | some t =>
      match s.holdUp ce e t with
      | (s, true) => s.idle ce e n traced
      | (s, false) =>
        let l := if launch then s.launchToken ce t else (s, t)
        l.1.cross ce e h n l.2

/-- A token of another module is discarded in a consumer segment: its credit goes back to the producer, with FENCED for its command (R98, R250). -/
def State.discardForeign (s : State) (c h : Nat) : State :=
  let x := s.circ c
  match x.flight.find? (fun y => y.1 == h) with
  | some y => s.setCirc c { x with flight := x.flight.erase y, returning := x.returning + 1, notes := x.notes ++ [(stFenced, 0)] }
  | none => s

/-- A fence at this instance: the token is discarded with its credit, and the command ends with FENCED (R98) (DEDUCED, log 60). -/
def State.fencedInstance (s : State) (ce : CircEntry) (e : SlotEntry) (h n : Nat) : State :=
  let r := s.concerned ce.id (s.tokenAt ce h)
  let s := s.slotNote e ce.id n 2
  let s := if ce.src / 4096 = 5 then s.discardForeign ce.id h else s
  match r with
  | some r => (s.discardOn r ce.id).failCmd r stFenced
  | none => s

/-- The first hop of a circuit that a memory endpoint or the host feeds (R31, R176, R403): a line that has been recalled for the instance costs one
slip, whatever its owner keeps (R322). -/
def State.feedHop (s : State) (ce : CircEntry) (e : SlotEntry) (n : Nat) (traced : Bool) : State :=
  match s.readyFiring ce.id with
  | none => s.moveToken ce e 0 n none true traced
  | some (f, x, ps) =>
    let tok := fun (poison : Bool) (b : List Byte) => (⟨b, poison, ps, 0, 0, x.cmd, x.ctx, f.entry, f.f, (descLayer x.desc, descOper x.desc), 0⟩ : Token)
    if s.ctxIdles x.ctx then s.idle ce e n traced
    else if ce.src / 4096 = 7 then s.moveToken ce e 0 n (f.data.map (tok false)) true traced
    else
      let done := (s.circ ce.id).cleared
      let ls := (s.contended ps).filter (fun l => s.lineBusy l || !done.contains l)
      if !ls.isEmpty then
        ((s.clearLines false ls).setCirc ce.id { s.circ ce.id with cleared := done ++ ls }).idle ce e n traced
      else
        let r := s.readPieces (s.moverRq f.core) ps
        let s := r.1
        if r.2.1 ≠ stOk ∧ !(r.2.1 = stPoisoned ∧ moverTile x.desc) then
          s.accessFault (firingSite f x 1 f.b) ((ps.head?.map (·.1)).getD 0) r.2.1
        else s.moveToken ce e 0 n (some (tok (r.2.1 == stPoisoned) (f.held ++ r.2.2))) true traced

/-- A port on the path is down (R98, R354). -/
def State.pathDown (s : State) (c : Nat) : Bool := (s.hops c).any (fun e => e.kind == 7 && s.slotDown e.res)

/-- The rows of R98, in their order, for the instance of hop h. -/
def State.decideInstance (s : State) (ce : CircEntry) (e : SlotEntry) (h n : Nat) : State :=
  let c := ce.id
  let traced := s.slotTraced e
  if s.epFenced ce.dst || (s.hops c).any s.resFenced then s.fencedInstance ce e h n
  else if s.linkAgain c (some e) then s.linkResend c n e
  else if s.pathDown c then
    match s.concerned c (s.tokenAt ce h) with
    | some r => s.failCmd r stDead
    | none => s
  else if e.kind = 7 ∧ s.timeHolds then s.idle ce e n traced
  else if traced ∨ s.producerHeld ce then s.idle ce e n traced
  else if h > 0 then
    if s.linkAgain c (s.hops c)[h - 1]? then s.idle ce e n traced else s.moveToken ce e h n (s.tokenAt ce h) false traced
  else if !s.hasCredit ce then s.moveToken ce e 0 n none true traced
  else if ce.src / 4096 = 1 then s.moveToken ce e 0 n (s.tokenAt ce 0) true traced
  else s.feedHop ce e n traced

/-- SLOT_INSTANCE (R97, R98): hop h of a circuit, decided once, at the first beat of its instance. An ingress instance of a fabric port
transfers nothing itself: its frames do. -/
def State.slotInstance (s : State) (c h : Nat) : State :=
  match s.circEntry c, (s.hops c)[h]? with
  | some ce, some e =>
    let x := s.circ c
    if s.ft % 2 ^ ce.k ≠ e.start ∨ x.decided.contains (h, s.ft) then s
    else
      let n := s.ft / 2 ^ ce.k
      let s := s.setCirc c { x with decided := (h, s.ft) :: x.decided.filter (fun d => d.1 != h) }
      let fromPort := ce.src / 4096 == 5
      if fromPort && decide (h = 0) then s
      else if fromPort && ce.dst / 4096 == 5 then s.transitEgress ce e n
      else s.decideInstance ce e h n
  | _, _ => s

/-- A link message waits to be sent on a port (R351). -/
def State.pushMsg (s : State) (p : Nat) (m : LinkMsg) : State := let v := s.port p; s.setPort p { v with msgs := v.msgs ++ [m] }

/-- Buffers of a fabric circuit that its consumer segment still occupies: tokens on their way, and slots of the queue that it fills. -/
def State.occupied (s : State) (c : Nat) : Nat :=
  (s.circ c).flight.length + (match s.queueConsumes c with
    | some (k, q) => (s.queue k q).heldIn + (s.queue k q).tokens
        + ((s.inFirings c).filter (fun y => y.1.stage == .finished || y.1.stage == .poisoned)).length
    | none => 0)

/-- CREDIT_RETURN (R96, R358): a credit reaches the circuit's producer; from a fabric circuit's consumer segment it leaves as
CIRCUIT_CREDIT. -/
def State.creditReturn (s : State) (c : Nat) : State :=
  let x := s.circ c
  match s.circEntry c with
  | none => s
  | some ce =>
    if ce.src / 4096 = 5 then
      if ce.dst / 4096 = 5 then s
      else if 0 < x.returning then
        (s.setCirc c { x with returning := x.returning - 1, notes := x.notes.drop 1 }).pushMsg (ce.src % 4096) ⟨4, 1, c, x.notes.head?.getD (0, 0)⟩
      else if ce.dst / 4096 = 1 ∧ s.occupied c < x.held then
        (s.setCirc c { x with held := x.held - 1 }).pushMsg (ce.src % 4096) ⟨4, 1, c, (0, 0)⟩
      else s
    else if x.returning = 0 then s else s.setCirc c ({ x with returning := x.returning - 1 }.addCredits s.ft 1)

/-! ## The audit (R106, R107, R166, R359) -/

/-- A circuit's share of an audit: credits free, tokens, credits in return. -/
def State.auditCirc (s : State) (ce : CircEntry) : Nat × Nat × Nat :=
  let x := s.circ ce.id
  match s.queueConsumes ce.id with
  | some (k, q) =>
    let v := s.queue k q
    (v.credits, v.heldIn + v.tokens + v.heldOut, 0)
  | none =>
    if ce.dst / 4096 = 5 then (x.credits, ce.credits - x.credits - x.returning, x.returning)
    else (x.credits, x.flight.length + x.held, x.returning)

/-- Circuits that a partition's audit counts: not transit and consumer segments. -/
def State.auditCircs (s : State) (p : Nat) : List CircEntry := (circuits s.tables).filter (fun c => c.part == p && c.src / 4096 != 5)

/-- A queue serves a counted circuit: as its buffer (DIR 0), or as the buffer that its transfers leave (DIR 1) (R166, R168). -/
def State.serves (s : State) (x : Nat × Queue) : Bool :=
  (match x.2.circ with
    | some c => s.queueConsumes c == some (x.1 / 64, x.1 % 64) && ((s.circEntry c).map (fun e => e.src / 4096)) != some 5
    | none => false)
  || (match x.2.feeds with
    | some c => (s.circEntry c).isSome
    | none => false)

/-- Configured queues of a partition that serve no counted circuit. -/
def State.auditQueues (s : State) (p : Nat) : List Queue :=
  (s.queues.filter (fun x => x.2.valid && s.partOfCore (x.1 / 64) == p && !s.serves x)).map (·.2)

/-- A snapshot that falls in a fence, a reset or a quiesce of the partition is not evaluated. The fence of a die pair lasts until the next
chip start (R391): a partition that it took is lost. -/
def State.auditTransient (s : State) (p : Nat) : Bool :=
  s.fences.any (fun f => match f.dom with
    | .context c => s.partOfCtx c == p
    | .engine e => s.partOfCore (e / 4) == p
    | .partition q => q == p
    | .diePair _ => false
    | .chip => true)
  || s.partLost p || s.quiescing p || (s.fld Fld.HUB_RECOV_STATUS_STATE p == 1) || (s.fld Fld.HUB_RECOV_STATUS_STATE p == 2)
  || s.flag Fld.HUB_PART_RESET_BUSY p

def sumBy {α : Type} (f : α → Nat) (l : List α) : Nat := (l.map f).sum

/-- The sums of an audit (R106): BUDGET, CREDITS_FREE, TOKENS, RETURNING, and contributions sent, retired and held. -/
structure AuditSums where
  budget : Nat
  free : Nat
  tokens : Nat
  ret : Nat
  sent : Nat
  retired : Nat
  held : Nat
  deriving DecidableEq, Repr

def State.auditSums (s : State) (p : Nat) : AuditSums :=
  let cs := s.auditCircs p
  let qs := s.auditQueues p
  let parts := cs.map s.auditCirc
  let cnt := s.contribCount p
  { budget := sumBy (·.credits) cs + sumBy (·.depth) qs
    free := sumBy (·.1) parts + sumBy Queue.credits qs
    tokens := sumBy (·.2.1) parts + sumBy (fun q => q.heldIn + q.tokens + q.heldOut) qs
    ret := sumBy (·.2.2) parts
    sent := cnt.1, retired := cnt.2
    held := (s.contribs.filter (fun t => s.partOfCirc t.circ == p)).length + sumBy (fun c => if c.reduce then (s.circ c.id).flight.length else 0) cs }

/-- The sums balance. -/
def AuditSums.balance (a : AuditSums) : Bool :=
  a.free + a.tokens + a.ret == a.budget && (a.sent + 2 ^ 48 - a.retired) % 2 ^ 48 == a.held

/-- The hub's sums for a partition, and its judgement (R106, R107). -/
def State.auditLatch1 (s : State) (p : Nat) : State :=
  let a := s.auditSums p
  let trans := s.auditTransient p
  let ok := !trans && a.balance
  let s := (s.setFld Fld.HUB_AUDIT_A_BALANCED p (if ok then 1 else 0)).setFld Fld.HUB_AUDIT_A_TRANSIENT p (if trans then 1 else 0)
  let s := (s.setFld Fld.HUB_AUDIT_A_BUDGET p a.budget).setFld Fld.HUB_AUDIT_A_CREDITS_FREE p a.free
  let s := (s.setFld Fld.HUB_AUDIT_B_RETURNING p a.ret).setFld Fld.HUB_AUDIT_B_TOKENS p a.tokens
  let s := (s.setFld Fld.HUB_AUDIT_C_CONTRIB_SENT p a.sent).setFld Fld.HUB_AUDIT_D_CONTRIB_RETIRED p a.retired
  let s := s.setFld Fld.HUB_AUDIT_E_CONTRIB_HELD p a.held
  if !trans && !ok then s.raise Fld.HUB_STICKY_CREDIT_IMBALANCE else s

/-- AUDIT_LATCH (R106, R107): at a beat that is a multiple of 64, every requested snapshot is taken and its bit cleared. -/
def State.auditLatch (s : State) : State :=
  if s.ft % 64 ≠ 0 then s
  else
    let w := s.fld Fld.HUB_AUDIT_SNAP_SNAP
    (((bitsOf 16 w).filter (fun p => (partOf s.tables p).isSome)).foldl State.auditLatch1 s).setFld Fld.HUB_AUDIT_SNAP_SNAP 0 0

/-- A write of HUB_AUDIT_SNAP requests snapshots (R106). -/
def State.auditRequest (s : State) (w : Nat) : State :=
  s.setFld Fld.HUB_AUDIT_SNAP_SNAP 0 (s.fld Fld.HUB_AUDIT_SNAP_SNAP ||| w % 2 ^ 16)

def execSlotInstance (circ slot : Nat) (s : State) : Host.Outcome State Fault Refusal := answer (s.slotInstance circ slot)
def execSlipLimitReached (circ : Nat) (s : State) : Host.Outcome State Fault Refusal := answer (s.slipLimit circ)
def execCreditReturn (circ : Nat) (s : State) : Host.Outcome State Fault Refusal := answer (s.creditReturn circ)
def execAuditSnap (rq : Requester) (w : Nat) (s : State) : Host.Outcome State Fault Refusal :=
  answer (s.gated rq .HUB_AUDIT_SNAP 0 (fun s => s.auditRequest w))
def execAuditLatch (s : State) : Host.Outcome State Fault Refusal := answer s.auditLatch

end Sys2Proof.Machine
end

