-- ==== Sys2Proof/Machine/EngineArith.lean ====
section
/-! DEFINITION. The arithmetic of an outer-product engine, one cell at a time (R134 to R145): products, Z4 scaling, and
the accumulation step with its 27-bit window. Cell flags lie in the positions of EN_EXC (R146). -/

namespace Sys2Proof.Machine

def excNanIn : Nat := 128
def excScaleUnf : Nat := 64
def excScaleOvf : Nat := 32

/-- The modes of an engine (R134). -/
inductive EngMode where
  | z4
  | z9
  | z16
  deriving DecidableEq, Repr

def EngMode.ofCode : Nat → Option EngMode
  | 0 => some .z4
  | 1 => some .z9
  | 2 => some .z16
  | _ => none

/-- k-indices per step (R134). -/
def EngMode.kPerStep : EngMode → Nat
  | .z4 => 2
  | .z9 => 1
  | .z16 => 1

/-- A product as it enters a step: its exact value, its flags and its kind of invalid operation (0 or 1). -/
structure Term where
  v : Num
  flags : Nat
  kind : Nat
  deriving DecidableEq, Repr

/-- The product of two operands of Z9 or Z16 (R138, R140). -/
def product (a b : Num) : Term :=
  match a, b with
  | .nan, _ => ⟨.nan, excNanIn, 0⟩
  | _, .nan => ⟨.nan, excNanIn, 0⟩
  | .inf _, .zero _ => ⟨.nan, flagInvalid, 1⟩
  | .zero _, .inf _ => ⟨.nan, flagInvalid, 1⟩
  | .inf s, .inf t => ⟨.inf (s != t), 0, 0⟩
  | .inf s, .fin t _ _ => ⟨.inf (s != t), 0, 0⟩
  | .fin s _ _, .inf t => ⟨.inf (s != t), 0, 0⟩
  | .zero s, .zero t => ⟨.zero (s != t), 0, 0⟩
  | .zero s, .fin t _ _ => ⟨.zero (s != t), 0, 0⟩
  | .fin s _ _, .zero t => ⟨.zero (s != t), 0, 0⟩
  | .fin s m e, .fin t n g => ⟨.fin (s != t) (m * n) (e + g), 0, 0⟩

/-- The Z32 maximum finite magnitude as m × 2^e. -/
def zmaxM : Nat := 2 ^ 24 - 1
def zmaxE : Int := 104

/-- The product of two Z4 elements under their block scales, settled by R139. -/
def productZ4 (ca sa cb sb : Nat) : Term :=
  let t := product (z4Value ca sa) (z4Value cb sb)
  match t.v with
  | .fin s m e =>
    let l := log2Of m e
    if 128 ≤ l then ⟨.fin s zmaxM zmaxE, excScaleOvf, 0⟩
    else if l < -126 then ⟨.zero s, excScaleUnf, 0⟩
    else t
  | _ => t

/-- What a step leaves in a cell: the Z32 bits, the flags, and the kind of invalid operation (0 none). -/
structure CellRes where
  bits : Nat
  flags : Nat
  kind : Nat
  deriving DecidableEq, Repr

def Num.isPosInf : Num → Bool
  | .inf false => true
  | _ => false

def Num.isNegInf : Num → Bool
  | .inf true => true
  | _ => false

def Num.isZero : Num → Bool
  | .zero _ => true
  | _ => false

/-- The exponent of the largest nonzero term (R141, stage 1). -/
def windowExp (terms : List Num) : Option Int := blockExp terms

/-- A term truncated to the window, signed, in units of 2^q, and whether a nonzero remainder was dropped. -/
def windowTerm (q : Int) : Num → Int × Bool
  | .fin s m e =>
    let tr := truncAt m e q
    (if s then -(tr.1 : Int) else tr.1, decide (tr.2 ≠ .exact))
  | _ => (0, false)

/-- R142: one step of one cell on its current bits. A step never sets SATURATED (R146). -/
def cellStep (c : Nat) (products : List Term) : CellRes :=
  let terms := fmtZ32.decode c :: products.map (·.v)
  let fl := products.foldl (fun a t => a ||| t.flags) 0
  let kind := products.foldl (fun a t => max a t.kind) 0
  if terms.any Num.isNan then ⟨0x7FFFFFFF, fl, kind⟩
  else if terms.any Num.isPosInf && terms.any Num.isNegInf then ⟨0x7FFFFFFF, fl ||| flagInvalid, 2⟩
  else if terms.any Num.isPosInf then ⟨0x7F800000, fl, kind⟩
  else if terms.any Num.isNegInf then ⟨0xFF800000, fl, kind⟩
  else
    match windowExp terms with
    | none => ⟨if terms.all (fun t => decide (t = .zero true)) then 0x80000000 else 0, fl, kind⟩
    | some e =>
      let q := e - 26
      let ws := terms.map (windowTerm q)
      let s := ws.foldl (fun (a : Int) w => a + w.1) 0
      let fl1 := fl ||| (if ws.any (·.2) then flagInexact else 0)
      if s = 0 then ⟨0, fl1, kind⟩
      else
        let r := fmtZ32.ofNum .rne false (.fin (decide (s < 0)) s.natAbs q)
        ⟨r.bits, fl1 ||| (if r.flags.testBit 3 then r.flags - flagSaturated else r.flags), kind⟩

end Sys2Proof.Machine
end

