-- ==== Sys2Proof/Machine/Engine.lean ====
section
/-! DEFINITION. Engines at work (R134 to R157, R164, R170, R255 to R257): feeding, firing, stepping, draining, and the histogram's
delivery. Of two accumulations on an engine, the one that began first is fed. -/

namespace Sys2Proof.Machine

/-- A hang holds the engine until its recovery resets it (R450). -/
def State.engineHung (s : State) (e : Nat) : Bool :=
  s.recovs.any (fun r => (r.2.engine == e && (r.2.stage == 1 || r.2.stage == 2)) || r.2.queue.any (fun q => q.1 == e))

def Engine.setBank (g : Engine) (b : Nat) (x : Bank) : Engine := if b = 0 then { g with bank0 := x } else { g with bank1 := x }

def Engine.freeBank (g : Engine) : Option Nat := if g.bank0.st = .free then some 0 else if g.bank1.st = .free then some 1 else none

/-- Queue of an IN or OUT port of a descriptor: roles of R175. -/
def inQueue (d : List Byte) (i : Nat) : Nat := (portAt d (0x10 + 2 * i)).queue
def outQueue (d : List Byte) (i : Nat) : Nat := (portAt d (0x18 + 2 * i)).queue

/-! ## Tiles in queue slots (R253 to R257) -/

/-- Bits of an element of a tile by format code. -/
def tileBits (fmt : Nat) : Nat :=
  match FCode.ofCode fmt with
  | some c => c.bits
  | none => 0

/-- Element p of lane l of a tile that starts at an SRAM address. -/
def State.tileElement (s : State) (a fmt l p : Nat) : Nat :=
  if fmt = 0 then getBits (s.byte (a + 32 * l + p / 2)).toNat (4 * (p % 2)) 4
  else
    let n := tileBits fmt / 8
    leNat (s.bytes (a + 64 * n * l + n * p) n)

/-- The scale of the block of position p of lane l, in a slot whose scale plane lies at scaleOff. -/
def State.tileScale (s : State) (a scaleOff l p : Nat) : Nat := (s.byte (a + scaleOff + 2 * l + p / 32)).toNat

/-- One lane's operands of a step from position p: element codes as the engine takes them (R117), and the block scale. -/
def State.laneOperands (s : State) (q : Queue) (k mode fmt l p : Nat) : List Nat × Nat :=
  let a := sramOf k (q.slotAt 0)
  match mode with
  | 0 => ([s.tileElement a 0 l p, s.tileElement a 0 l (p + 1)], s.tileScale a (q.scaleUnits * 256) l p)
  | 1 => ([fp8ToZ9 (fmt == 1) (s.tileElement a fmt l p)], 0)
  | _ => ([s.tileElement a 3 l p], 0)

def kPerStep (mode : Nat) : Nat := if mode = 0 then 2 else 1

/-- The operands of the step at index k of an accumulation on core c under descriptor d. -/
def State.stepOperands (s : State) (c k : Nat) (d : List Byte) : Operands :=
  let lanes := fun (i fmt : Nat) => (List.range 64).map (fun l => s.laneOperands (s.queue c (inQueue d i)) c (engMode d) fmt l (k % 64))
  ⟨k, lanes 0 (fieldAt d 0x21 1), lanes 1 (fieldAt d 0x22 1)⟩

/-! ## Feeding (R164, R170) -/

/-- FEEDER_FIRE: the next step's operands of the accumulation in progress. At a block of 64 k-indices after the first, the feeders take a
further A and B token; a pre-empting context's accumulation stops there (R215). -/
def State.feederFire (s : State) (e : Nat) : State :=
  let g := s.engine e
  let c := e / 4
  match g.accumulating with
  | none => s
  | some b =>
    let bk := g.bank b
    match s.entry c bk.entry with
    | none => s
    | some x =>
      let d := x.desc
      let qa := s.queue c (inQueue d 0)
      let qb := s.queue c (inQueue d 1)
      let edge := bk.k % 64 == 0
      let take := edge && decide (0 < bk.k)
      if g.opnd.isSome || s.engineHung e || decide (bk.k ≥ engK d) then s
      else if edge && (s.ctx x.ctx).st == .preempting then s
      else if take && (qa.tokens == 0 || qb.tokens == 0) then s
      else
        let s := if take then (s.updQueue c (inQueue d 0) (fun q => q.takeIn 1)).updQueue c (inQueue d 1) (fun q => q.takeIn 1) else s
        s.setEngine e { g with opnd := some (s.stepOperands c bk.k d) }

/-! ## Firing (R137, R170) -/

/-- A Z32 pattern as a bank load reads it: exponent 0 is zero of its sign (R137). -/
def loadPattern (v : Nat) : Nat := if v / 2 ^ 23 % 256 = 0 then v / 2 ^ 31 % 2 * 2 ^ 31 else v

/-- Cell (i, j) of a Z32 tile at address a under Z4_AXIS (R137, R257). -/
def State.tileCell (s : State) (a axis i j : Nat) : Nat :=
  loadPattern (leNat (s.bytes (a + 4 * (if axis = 0 then 64 * i + j else 64 * j + i)) 4))

/-- A bank's 64 × 64 cells set from a function of row and column. -/
def State.fillBank (s : State) (e b : Nat) (f : Nat → Nat → Nat) : State :=
  (List.range 64).foldl (fun s i => (List.range 64).foldl (fun s j => s.setCell e b i j (f i j)) s) s

def engAxis (d : List Byte) : Nat := getBits (engConv d) 5 1

/-- An accumulation of entry i has still to take tiles of its queues: the next one of the descriptor, whose tiles lie behind them, waits (R170)
(DEDUCED, log 39). -/
def Engine.takesTiles (g : Engine) (i : Nat) (d : List Byte) : Bool :=
  let last := (engK d - 1) / 64 * 64
  [0, 1].any (fun b =>
    let x := g.bank b
    x.st == .accumulating && x.entry == i && (decide (x.k < last)
      || (decide (x.k = last) && decide (0 < last) && !(g.accumulating == some b && g.opnd.isSome))))

/-- An engine descriptor can fire (R170, R171). -/
def State.engineReady (s : State) (e i : Nat) (x : Entry) : Bool :=
  let c := e / 4
  let d := x.desc
  let has := fun (i : Nat) => decide (0 < (s.queue c (inQueue d i)).tokens)
  descUnit d == 1 && descTarget d == e % 4 && s.mayFire c x && has 0 && has 1 && (!engInitLoad d || has 2)
  && !(s.engine e).takesTiles i d

/-- ENGINE_FIRE: the accumulation of the lowest ready descriptor begins in a free bank, from +0 or from its C tile. -/
def State.engineFire (s : State) (e : Nat) : State :=
  let g := s.engine e
  let c := e / 4
  match g.freeBank, s.lowestEntry c (s.engineReady e) with
  | some b, some (i, x) =>
    if s.engineHung e then s
    else
      let d := x.desc
      let s := (s.updQueue c (inQueue d 0) (fun q => q.takeIn 1)).updQueue c (inQueue d 1) (fun q => q.takeIn 1)
      let s := if engInitLoad d then
          let s := s.updQueue c (inQueue d 2) (fun q => q.takeIn 1)
          let a := sramOf c ((s.queue c (inQueue d 2)).slotAt 0)
          let t := s
          let s := s.fillBank e b (t.tileCell a (engAxis d))
          ((s.updQueue c (inQueue d 2) (fun q => q.freeIn 1)).countEngine e 7 1).progress e
        else s.fillBank e b (fun _ _ => 0)
      (s.setEngine e { g.setBank b ⟨.accumulating, i, x.started, 0⟩ with feed := g.accumulating.getD b }).fireStart c i x
  | _, _ => s

/-! ## Stepping (R141 to R148) -/

/-- The products of cell (i, j) in a step (R136). -/
def stepProducts (mode : Nat) (o : Operands) (i j : Nat) : List Term :=
  let a := o.a.getD i ([], 0)
  let b := o.b.getD j ([], 0)
  match mode with
  | 0 => (a.1.zip b.1).map (fun p => productZ4 p.1 a.2 p.2 b.2)
  | 1 => (a.1.zip b.1).map (fun p => product (fmtZ9.decode p.1) (fmtZ9.decode p.2))
  | _ => (a.1.zip b.1).map (fun p => product (fmtZ16.decode p.1) (fmtZ16.decode p.2))

/-- What a step does to every cell, in the order of row then column. -/
def State.stepCells (s : State) (e b mode : Nat) (o : Operands) : List (Nat × Nat × CellRes) :=
  ((List.range 64).map (fun i => (List.range 64).map (fun j => (i, j, cellStep (s.cell e b i j) (stepProducts mode o i j))))).flatten

/-- EN_EXC_COORD's layout (R150). -/
def coordWord (k e kind b i j : Nat) : Nat := k % 2 ^ 32 * 2 ^ 32 + e * 2 ^ 23 + kind * 2 ^ 21 + b * 2 ^ 12 + i * 2 ^ 6 + j

/-- Sets sticky flags of EN_EXC (R146). -/
def State.raiseExc (s : State) (e fl : Nat) : State := s.setReg .EN_EXC e (s.reg .EN_EXC e ||| BitVec.ofNat 64 fl)

/-- R147: n invalid operations of one step, of which the first lies at coord, with the ids of the command. -/
def State.captureExc (s : State) (e n coord : Nat) (x : Entry) : State :=
  if n = 0 then s
  else if s.flag Fld.EN_EXC_TAG_VALID e then s.bump Fld.EN_EXC_TAG_COUNT e n
  else
    let s := s.setReg .EN_EXC_COORD e (BitVec.ofNat 64 coord)
    let ids := ((s.cmd x.cmd).map (fun m => (m.oper, m.layer))).getD (descOper x.desc, descLayer x.desc)
    let s := ((s.setFld Fld.EN_EXC_TAG_CONTEXT e x.cmd.ctx).setFld Fld.EN_EXC_TAG_OPERATOR e ids.1).setFld Fld.EN_EXC_TAG_LAYER e ids.2
    let s := ((s.setFld Fld.EN_EXC_TAG_COUNT e (min n 0xFFFF)).raise Fld.EN_EXC_TAG_VALID e).setFld Fld.EN_EXC_BEAT_BEAT e s.ft
    s.event (descEvent s 0x8008 0 e x coord)

/-- Adds flags, and a first invalid operation, to a command's summary (R148). -/
def State.sumExc (s : State) (r : CmdRef) (e fl coord : Nat) : State :=
  s.updCmd r (fun m => let y := m.sumOf e; m.setSum { y with flags := y.flags ||| fl, coord := firstCoord y.coord coord })

/-- ENGINE_STEP: every cell of the accumulating bank takes the step's products. A tile whose last step has issued returns its credit
(R170). -/
def State.engineStep (s : State) (e : Nat) : State :=
  let g := s.engine e
  let c := e / 4
  match g.accumulating, g.opnd with
  | some b, some o =>
    let bk := g.bank b
    match s.entry c bk.entry with
    | none => s
    | some x =>
      if o.k ≠ bk.k ∨ s.engineHung e ∨ s.coreHeld c ∨ s.traceHolds 3 1 c (descLayer x.desc) (descOper x.desc) then s
      else
        let d := x.desc
        let mode := engMode d
        let res := s.stepCells e b mode o
        let fl := res.foldl (fun a r => a ||| r.2.2.flags) 0
        let bad := res.filter (fun r => decide (r.2.2.kind ≠ 0))
        let coord := match bad.head? with
          | some r => coordWord o.k e r.2.2.kind b r.1 r.2.1
          | none => 0
        let s := res.foldl (fun s r => s.setCell e b r.1 r.2.1 r.2.2.bits) s
        let s := ((s.raiseExc e fl).captureExc e bad.length coord x).sumExc x.cmd e fl coord
        let k := bk.k + kPerStep mode
        let ended := decide (k ≥ engK d)
        let s := if ended || k % 64 == 0 then
            (s.updQueue c (inQueue d 0) (fun q => q.freeIn 1)).updQueue c (inQueue d 1) (fun q => q.freeIn 1)
          else s
        let bk := { bk with k := k, st := if ended then .completed else .accumulating }
        let s := s.setEngine e { g.setBank b bk with opnd := none }
        ((s.countEngine e (1 + min mode 2) 1).countEngine e 0xA bad.length).progress e
  | _, _ => s

/-! ## Draining (R132, R151, R152, R257) -/

/-- The value at lane l, position p of an output tile (R257). -/
def State.drainValue (s : State) (e b axis l p : Nat) : Nat := if axis = 0 then s.cell e b l p else s.cell e b p l

/-- One drained value in a format that has no blocks (R132). -/
def drainElement (fmt : Nat) (r : Round) (satf : Bool) (v : Nat) : Res :=
  match fmt with
  | 1 => fmtE4M3.ofNum .rne satf (toW (fmtZ32.decode v))
  | 2 => fmtE5M2.ofNum .rne satf (toW (fmtZ32.decode v))
  | 3 => fmtZ16.ofNum r satf (fmtZ32.decode v)
  | _ => ⟨v, 0⟩

/-- Two 4-bit codes to a byte, even position low (R114). -/
def packNibbles : List Nat → List Byte
  | a :: b :: rest => BitVec.ofNat 8 (a % 16 + b % 16 * 16) :: packNibbles rest
  | _ => []

/-- A lane drained: its element bytes, its scale bytes, and every element's result. -/
def drainLane (fmt : Nat) (r : Round) (satf : Bool) (vs : List Nat) : List Byte × List Byte × List Res :=
  if fmt = 0 then
    let block := fun (l : List Nat) => z4Block .rne (l.map (fun v => toW (fmtZ32.decode v)))
    let x := block (vs.take 32)
    let y := block (vs.drop 32)
    let rs := x.1 ++ y.1
    (packNibbles (rs.map (·.bits)), [BitVec.ofNat 8 x.2, BitVec.ofNat 8 y.2], rs)
  else
    let rs := vs.map (drainElement fmt r satf)
    ((rs.map (fun z => leBytes (tileBits fmt / 8) z.bits)).flatten, [], rs)

/-- Place of a value in the counts of a histogram (R152, R153): ZEROS 1, NANS 2, INFS 3, BIN b at 5 + b. -/
def histPlace (v : Nat) : Nat :=
  match fmtZ32.decode v with
  | .zero _ => 1
  | .nan => 2
  | .inf _ => 3
  | .fin _ m e => 5 + (max (-32) (min 31 (log2Of m e)) + 32).toNat

def addCount (h : List Nat) (i n : Nat) : List Nat := h.set i (h.getD i 0 + n)

/-- The counts of one drained tile. -/
def histAdd (h : List Nat) (vs : List Nat) (saturated : Nat) : List Nat :=
  addCount (addCount (vs.foldl (fun h v => addCount h (histPlace v) 1) h) 4 saturated) 0 1

/-- A completed bank of the same descriptor that must drain first: the one of the earlier firing. -/
def Engine.olderCompleted (g : Engine) (b : Nat) : Bool :=
  let x := g.bank b
  let y := g.bank (1 - b)
  y.st == .completed && y.entry == x.entry && decide (y.f < x.f)

/-- Contexts in which completed work goes on (R215 step 3, R341, R443 step 2). -/
def CtxState.drains : CtxState → Bool
  | .running => true
  | .suspended => true
  | .preempting => true
  | .ending => true
  | _ => false

/-- DRAIN_FIRE: bank b, completed, takes an output credit, is converted and written into the output slot, and counted. -/
def State.drainFire (s : State) (e b : Nat) : State :=
  let g := s.engine e
  let c := e / 4
  let bk := g.bank b
  if bk.st ≠ .completed ∨ g.drain.isSome ∨ g.olderCompleted b ∨ s.engineHung e then s
  else match s.entry c bk.entry with
    | none => s
    | some x =>
      let d := x.desc
      let oq := outQueue d 0
      let q := s.queue c oq
      if q.credits = 0 ∨ !(s.ctx x.ctx).st.drains then s
      else
        let fmt := fieldAt d 0x23 1
        let r := (Round.ofCode (engConv d % 8)).getD .rne
        let lanes := (List.range 64).map (fun l => (List.range 64).map (fun p => s.drainValue e b (engAxis d) l p))
        let out := lanes.map (drainLane fmt r (bit (engConv d) 3))
        let rs := (out.map (·.2.2)).flatten
        let fl := rs.foldl (fun a z => a ||| z.flags) 0
        let sat := (rs.filter (fun z => bit z.flags 3)).length
        let a := sramOf c q.outAt
        let s := (s.clearResvs a (footprint fmt)).setBytes a (out.map (·.1)).flatten
        let s := if fmt = 0 then (s.clearResvs (a + q.scaleUnits * 256) 128).setBytes (a + q.scaleUnits * 256) (out.map (·.2.1)).flatten else s
        let s := (s.raiseExc e fl).sumExc x.cmd e fl 0
        let s := s.updCmd x.cmd (fun m => let y := m.sumOf e; m.setSum { y with hist := histAdd y.hist lanes.flatten sat })
        let s := s.updQueue c oq (fun q => q.takeOut 1)
        ((s.setEngine e { g with drain := some ⟨b, bk.entry⟩ }).countEngine e 6 1).progress e

/-- DRAIN_COMPLETE: the output becomes a token, the bank is free, and the firing completes. -/
def State.drainComplete (s : State) (e : Nat) : State :=
  let g := s.engine e
  let c := e / 4
  match g.drain with
  | none => s
  | some dr =>
    let s := (s.setEngine e { g.setBank dr.bank Bank.empty with drain := none }).progress e
    match s.entry c dr.entry with
    | none => s
    | some x => (s.updQueue c (outQueue x.desc 0) (fun q => q.fillOut 1 x.cmd)).firingDone c dr.entry x

/-! ## The histogram's delivery (R153) -/

/-- HISTOGRAM_DELIVERY: core k's contribution of a command goes onto its circuit, after the accesses that an order puts before it; its record's
address is translated now (R342). -/
def State.histDelivery (s : State) (k : Nat) (r : CmdRef) : State :=
  match s.cmd r, s.histWork k r with
  | some m, some (h, c, va) =>
    let w := histSite h r
    if !(s.ctx h.ctx).st.acts ∨ s.stopped w.ctx r k w.entry 0 ∨ s.accessHeld r then s
    else
        match s.pieces k h.ctx 3 va 3 0 576 with
        | (ps, none) =>
          let ep := ((s.circEntry c).map (·.dst)).getD 0
          match ps.find? (fun p => !inEndpoint ep p.1 || !inEndpoint ep (p.1 + p.2 - 1)) with
          | some p => s.accessFault w p.1 stAccessError
          | none =>
            let x := s.circ c
            let tok : Token := ⟨histBytes (m.coreHist k), false, ps, 2, 0, r, h.ctx, 256 + h.entry, 0, (h.layer, h.oper), s.ft + 1⟩
            let s := s.setCirc c { x with ready := x.ready ++ [tok] }
            s.updCmd r (fun m => { m with sums := m.sums.map (fun y =>
              if y.engine / 4 = k then { y with hist := List.replicate 69 0 } else y) })
        | (_, some (off, .fault code)) => s.earlyFault w (va + off) code
        | (_, some _) => s
  | _, _ => s

def execFeederFire (e : Nat) (s : State) : Host.Outcome State Fault Refusal := answer (s.feederFire e)
def execEngineFire (e : Nat) (s : State) : Host.Outcome State Fault Refusal := answer (s.engineFire e)
def execEngineStep (e : Nat) (s : State) : Host.Outcome State Fault Refusal := answer (s.engineStep e)
def execDrainFire (e b : Nat) (s : State) : Host.Outcome State Fault Refusal := answer (s.drainFire e b)
def execDrainComplete (e : Nat) (s : State) : Host.Outcome State Fault Refusal := answer (s.drainComplete e)
def execHistogramDelivery (k c seq : Nat) (s : State) : Host.Outcome State Fault Refusal := answer (s.histDelivery k ⟨c, seq⟩)

end Sys2Proof.Machine
end

