-- ==== Sys2Proof/Machine/VecArith.lean ====
section
/-! DEFINITION. The arithmetic of the vector unit, one lane at a time (R120, R180, R181), and of memory-side adders,
which share it: exact results rounded once, the four functions, minimum, maximum, comparison, integers. -/

namespace Sys2Proof.Machine

/-- The signed integer of a finite value in units of 2^u, u not above its exponent. -/
def Num.scaled (neg : Bool) (m : Nat) (e u : Int) : Int :=
  let n : Int := (m * 2 ^ (e - u).toNat : Nat)
  if neg then -n else n

/-- A signed count of units of 2^u as a value; a zero takes the sign given. -/
def Num.ofScaled (i u : Int) (zneg : Bool) : Num :=
  if i = 0 then .zero zneg else .fin (decide (i < 0)) i.natAbs u

/-- The exact sum, and whether it is an invalid operation. An exact zero sum of terms that are not both zeros of one
sign is +0, or −0 under RDN. DEDUCED (log 19) for Z16 and Z32 from the rule of IEEE 754. -/
def Num.add (r : Round) (a b : Num) : Num × Bool :=
  match a, b with
  | .nan, _ => (.nan, false)
  | _, .nan => (.nan, false)
  | .inf s, .inf t => if s = t then (.inf s, false) else (.nan, true)
  | .inf s, _ => (.inf s, false)
  | _, .inf t => (.inf t, false)
  | .zero s, .zero t => (.zero (if s = t then s else decide (r = .rdn)), false)
  | .zero _, v => (v, false)
  | v, .zero _ => (v, false)
  | .fin s m e, .fin t n g =>
    let u := min e g
    (Num.ofScaled (Num.scaled s m e u + Num.scaled t n g u) u (decide (r = .rdn)), false)

def Num.neg : Num → Num
  | .nan => .nan
  | .inf s => .inf (!s)
  | .zero s => .zero (!s)
  | .fin s m e => .fin (!s) m e

/-- The exact product, and whether it is an invalid operation (∞ × 0). -/
def Num.mul (a b : Num) : Num × Bool :=
  match a, b with
  | .nan, _ => (.nan, false)
  | _, .nan => (.nan, false)
  | .inf _, .zero _ => (.nan, true)
  | .zero _, .inf _ => (.nan, true)
  | .inf s, .inf t => (.inf (s != t), false)
  | .inf s, .fin t _ _ => (.inf (s != t), false)
  | .fin s _ _, .inf t => (.inf (s != t), false)
  | .zero s, .zero t => (.zero (s != t), false)
  | .zero s, .fin t _ _ => (.zero (s != t), false)
  | .fin s _ _, .zero t => (.zero (s != t), false)
  | .fin s m e, .fin t n g => (.fin (s != t) (m * n) (e + g), false)

/-- −1, 0 or 1 as a is below, equal to or above b, neither of them NaN; zeros compare equal. -/
def Num.cmp (a b : Num) : Int :=
  let key : Num → Int × Nat × Int := fun v =>
    match v with
    | .nan => (0, 0, 0)
    | .inf s => (if s then -2 else 2, 0, 0)
    | .zero _ => (0, 0, 0)
    | .fin s m e => (if s then -1 else 1, m, e)
  match key a, key b with
  | (x, m, e), (y, n, g) =>
    if x < y then -1
    else if y < x then 1
    else if x = 1 ∨ x = -1 then
      let u := min e g
      let p : Int := (m * 2 ^ (e - u).toNat : Nat)
      let q : Int := (n * 2 ^ (g - u).toNat : Nat)
      (if p < q then -1 else if q < p then 1 else 0) * x
    else 0

def Num.isNegZero : Num → Bool
  | .zero true => true
  | _ => false

/-- a orders before b with −0 below +0 (R181). -/
def Num.below (a b : Num) : Bool :=
  let c := Num.cmp a b
  decide (c < 0) || (decide (c = 0) && a.isNegZero && !b.isNegZero)

/-! ### Powers: comparing m^(2^k) with 2^n exactly -/

/-- lo × 2^ex to hi × 2^ex, an interval that holds a power. -/
structure Span where
  lo : Nat
  hi : Nat
  ex : Int
  deriving DecidableEq, Repr

/-- The square of an interval, kept to w bits by rounding its ends outward. -/
def Span.square (w : Nat) (a : Span) : Span :=
  let lo := a.lo * a.lo
  let hi := a.hi * a.hi
  let s := Nat.log2 hi + 1 - w
  ⟨lo / 2 ^ s, (hi + 2 ^ s - 1) / 2 ^ s, 2 * a.ex + s⟩

/-- The interval after k squarings of m. -/
def Span.power (w : Nat) (m : Nat) : Nat → Span
  | 0 => ⟨m, m, 0⟩
  | k + 1 => (Span.power w m k).square w

/-- Whether x, above 0, is above (gt), equal to or below 2^n. -/
def cmpPow2 (x : Nat) (n : Int) : Ordering :=
  if n < 0 then .gt
  else if (Nat.log2 x : Int) < n then .lt
  else if (Nat.log2 x : Int) = n ∧ x = 2 ^ Nat.log2 x then .eq
  else .gt

/-- m^(2^k) against 2^n, m above 0: decided by intervals, and by the powers themselves where these do not decide. -/
def cmpPower (m k : Nat) (n : Int) : Ordering :=
  let a := Span.power 256 m k
  if cmpPow2 a.lo (n - a.ex) = .gt then .gt
  else if cmpPow2 a.hi (n - a.ex) = .lt then .lt
  else cmpPow2 (m ^ 2 ^ k) n

/-! ### Significand search -/

/-- The largest t below 2^b (added to base) for which le holds, found bit by bit; le must hold of base. -/
def searchBits (le : Nat → Bool) : Nat → Nat → Nat
  | 0, base => base
  | b + 1, base =>
    let c := base + 2 ^ b
    searchBits le b (if le c then c else base)

/-- The truncated significand and remainder of a value known by le c (c units are at most the value) and by
ge2 c (c half units against the value). -/
def searchTrunc (bits : Nat) (le : Nat → Bool) (half : Nat → Ordering) (exact : Nat → Bool) : Nat × Rem :=
  let t := searchBits le bits 0
  (t, if exact t then .exact
      else
        match half (2 * t + 1) with
        | .lt => .high
        | .eq => .half
        | .gt => .low)

/-- 1 / (m × 2^e) in units of 2^u. -/
def recipTrunc (m : Nat) (e u : Int) : Nat × Rem :=
  let d := (-e - u).toNat
  if -e - u < 0 then (0, .low)
  else
    let t := 2 ^ d / m
    let r := 2 ^ d % m
    (t, if r = 0 then .exact else if 2 * r < m then .low else if 2 * r = m then .half else .high)

/-- floor(log2(1 / (m × 2^e))). -/
def recipExp (m : Nat) (e : Int) : Int :=
  let l := log2Of m e
  if m = 2 ^ Nat.log2 m then -l else -l - 1

/-- Compares c² × m with 2^n. -/
def cmpSquare (c m : Nat) (n : Int) : Ordering :=
  if c = 0 then .lt else cmpPow2 (c * c * m) n

/-- 1 / √(m × 2^e) in units of 2^u: t with t² m ≤ 2^(−e−2u). -/
def rsqrtTrunc (bits : Nat) (m : Nat) (e u : Int) : Nat × Rem :=
  let n := -e - 2 * u
  searchTrunc bits (fun c => cmpSquare c m n != .gt) (fun c => cmpSquare c m (n + 2)) (fun c => cmpSquare c m n == .eq)

/-- floor(log2(1 / √(m × 2^e))): the largest j with 2^(2j) m ≤ 2^(−e). -/
def rsqrtExp (m : Nat) (e : Int) : Int :=
  let l := log2Of m e
  let up := if m = 2 ^ Nat.log2 m then l else l + 1
  (0 - up) / 2

/-- 2^(x) for x = i / 2^d, i not a multiple of 2^d, in units of 2^u: t ≤ 2^(x − u). -/
def exp2Trunc (bits : Nat) (i : Int) (d : Nat) (u : Int) : Nat × Rem :=
  let n := i - u * ((2 ^ d : Nat) : Int)
  let le : Nat → Bool := fun c => c == 0 || cmpPower c d n != .gt
  let half : Nat → Ordering := fun c => cmpPower c d (n + (2 ^ d : Nat))
  searchTrunc bits le half (fun _ => false)

/-- |log2(m × 2^e)| against c × 2^u, where the logarithm is not an integer: lt says c × 2^u is below it. -/
def cmpLog (neg : Bool) (m : Nat) (e : Int) (c : Nat) (u : Int) : Ordering :=
  let k := (-u).toNat
  let a : Int := (c * 2 ^ u.toNat : Nat)
  -- (m × 2^e)^(2^k) against 2^(±a)
  let n := (if neg then -a else a) - e * ((2 ^ k : Nat) : Int)
  let o := cmpPower m k n
  if neg then o else o.swap

/-- floor(log2 |L|) for the non-integer L = log2(m × 2^e): found downward from j. -/
def logExp (neg : Bool) (m : Nat) (e : Int) : Nat → Int → Int
  | 0, j => j
  | f + 1, j => if cmpLog neg m e 1 j = .lt then j else logExp neg m e f (j - 1)

def logTrunc (bits : Nat) (neg : Bool) (m : Nat) (e u : Int) : Nat × Rem :=
  searchTrunc bits (fun c => c == 0 || cmpLog neg m e c u != .gt) (fun c => cmpLog neg m e c (u - 1)) (fun _ => false)

/-! ### Lane operations -/

/-- The result of an exact value with an invalid flag. -/
def Fmt.finish (f : Fmt) (r : Round) (satf : Bool) (v : Num × Bool) : Res :=
  let x := f.ofNum r satf v.1
  ⟨x.bits, x.flags ||| (if v.2 then flagInvalid else 0)⟩

def fAdd (f : Fmt) (r : Round) (satf : Bool) (a b : Nat) : Res := f.finish r satf ((f.decode a).add r (f.decode b))

def fSub (f : Fmt) (r : Round) (satf : Bool) (a b : Nat) : Res := f.finish r satf ((f.decode a).add r (f.decode b).neg)

def fMul (f : Fmt) (r : Round) (satf : Bool) (a b : Nat) : Res := f.finish r satf ((f.decode a).mul (f.decode b))

/-- One rounding of a × b + c. A NaN operand gives NaN and raises nothing (R125). -/
def fFma (f : Fmt) (r : Round) (satf : Bool) (a b c : Nat) : Res :=
  if (f.decode c).isNan then ⟨f.nanBits, 0⟩
  else
    let p := (f.decode a).mul (f.decode b)
    let s := p.1.add r (f.decode c)
    f.finish r satf (s.1, p.2 || s.2)

/-- Minimum or maximum: NaN if any operand is NaN, −0 below +0 (R181). -/
def fMinMax (f : Fmt) (mx : Bool) (a b : Nat) : Res :=
  let x := f.decode a
  let y := f.decode b
  if x.isNan || y.isNan then ⟨f.nanBits, 0⟩
  else
    let pickB := if mx then x.below y else y.below x
    ⟨(f.ofNum .rne false (if pickB then y else x)).bits, 0⟩

def fLess (f : Fmt) (a b : Nat) : Bool :=
  let x := f.decode a
  let y := f.decode b
  !x.isNan && !y.isNan && decide (Num.cmp x y < 0)

def fEq (f : Fmt) (a b : Nat) : Bool :=
  let x := f.decode a
  let y := f.decode b
  !x.isNan && !y.isNan && decide (Num.cmp x y = 0)

/-- The number of significand bits a search covers: one more than p, since a value may reach its binade's end. -/
def Fmt.span (f : Fmt) : Nat := f.p + 1

/-- VRCP (R181). -/
def fRcp (f : Fmt) (r : Round) (satf : Bool) (a : Nat) : Res :=
  match f.decode a with
  | .nan => ⟨f.nanBits, 0⟩
  | .zero s => ⟨(f.ofNum r false (.inf s)).bits, flagDivZero⟩
  | .inf s => f.ofNum r satf (.zero s)
  | .fin s m e => f.roundWith r satf s (recipExp m e) (recipTrunc m e)

/-- VRSQRT (R181). -/
def fRsqrt (f : Fmt) (r : Round) (satf : Bool) (a : Nat) : Res :=
  match f.decode a with
  | .nan => ⟨f.nanBits, 0⟩
  | .zero s => ⟨(f.ofNum r false (.inf s)).bits, flagDivZero⟩
  | .inf false => f.ofNum r satf (.zero false)
  | .inf true => ⟨f.nanBits, flagInvalid⟩
  | .fin true _ _ => ⟨f.nanBits, flagInvalid⟩
  | .fin false m e => f.roundWith r satf false (rsqrtExp m e) (rsqrtTrunc f.span m e)

/-- VEXP2 (R181). An argument beyond ±2000 lies past both ends of every format and is held to ±2000.5, which rounds as
it does; one below 2^−40 in magnitude gives a result between 1 and its neighbour, as that of 2^−40 does. -/
def fExp2 (f : Fmt) (r : Round) (satf : Bool) (a : Nat) : Res :=
  match f.decode a with
  | .nan => ⟨f.nanBits, 0⟩
  | .zero _ => f.ofNum r satf (.fin false 1 0)
  | .inf false => f.ofNum r satf (.inf false)
  | .inf true => f.ofNum r satf (.zero false)
  | .fin s m e =>
    let l := log2Of m e
    let m' := if 11 ≤ l then 4001 else if l < -40 then 1 else m
    let e' : Int := if 11 ≤ l then -1 else if l < -40 then -40 else e
    if 0 ≤ e' then
      let i : Int := (m' * 2 ^ e'.toNat : Nat)
      f.ofNum r satf (.fin false 1 (if s then -i else i))
    else
      let d := (-e').toNat
      let i : Int := if s then -(m' : Int) else m'
      if i % ((2 ^ d : Nat) : Int) = 0 then f.ofNum r satf (.fin false 1 (i / ((2 ^ d : Nat) : Int)))
      else f.roundWith r satf false (i / ((2 ^ d : Nat) : Int)) (exp2Trunc f.span i d)

/-- VLOG2 (R181). -/
def fLog2 (f : Fmt) (r : Round) (satf : Bool) (a : Nat) : Res :=
  match f.decode a with
  | .nan => ⟨f.nanBits, 0⟩
  | .zero _ => ⟨(f.ofNum r false (.inf true)).bits, flagDivZero⟩
  | .inf false => f.ofNum r satf (.inf false)
  | .inf true => ⟨f.nanBits, flagInvalid⟩
  | .fin true _ _ => ⟨f.nanBits, flagInvalid⟩
  | .fin false m e =>
    let l := log2Of m e
    if m = 2 ^ Nat.log2 m then f.ofNum r satf (numOfInt l)
    else
      let neg := decide (l < 0)
      f.roundWith r satf neg (logExp neg m e 64 8) (logTrunc f.span neg m e)

/-- Integer results wrapped modulo 2^w (R181). -/
def iWrap (w : Nat) (i : Int) : Res := ⟨ofInt w i, 0⟩

/-- VADDSAT: the sum held at the type's bounds, with SATURATED (R125). -/
def iAddSat (w : Nat) (a b : Nat) : Res :=
  let s := toInt w a + toInt w b
  if intMax w < s then ⟨ofInt w (intMax w), flagSaturated⟩
  else if s < intMin w then ⟨ofInt w (intMin w), flagSaturated⟩
  else ⟨ofInt w s, 0⟩

/-- The two-operand and three-operand opcodes with an arithmetic result. -/
inductive LaneOp where
  | add
  | sub
  | mul
  | fma
  | vmin
  | vmax
  | addSat
  | rcp
  | rsqrt
  | exp2
  | log2
  deriving DecidableEq, Repr

/-- One lane of an arithmetic opcode of R180 on operands a, b and c of type ty. An opcode that does not allow the type
is refused at install (R179), so no lane runs it: such a lane gives 0 (DEDUCED, log 19). -/
def laneOp (op : LaneOp) (ty : FCode) (r : Round) (satf : Bool) (a b c : Nat) : Res :=
  match ty.fmt with
  | some f =>
    match op with
    | .add => fAdd f r satf a b
    | .sub => fSub f r satf a b
    | .mul => fMul f r satf a b
    | .fma => fFma f r satf a b c
    | .vmin => fMinMax f false a b
    | .vmax => fMinMax f true a b
    | .addSat => ⟨0, 0⟩
    | .rcp => fRcp f r satf a
    | .rsqrt => fRsqrt f r satf a
    | .exp2 => fExp2 f r satf a
    | .log2 => fLog2 f r satf a
  | none =>
    let w := ty.bits
    match op with
    | .add => iWrap w (toInt w a + toInt w b)
    | .sub => iWrap w (toInt w a - toInt w b)
    | .mul => iWrap w (toInt w a * toInt w b)
    | .vmin => iWrap w (min (toInt w a) (toInt w b))
    | .vmax => iWrap w (max (toInt w a) (toInt w b))
    | .addSat => iAddSat w a b
    | .fma => ⟨0, 0⟩
    | .rcp => ⟨0, 0⟩
    | .rsqrt => ⟨0, 0⟩
    | .exp2 => ⟨0, 0⟩
    | .log2 => ⟨0, 0⟩

/-- VSHR: arithmetic right shift (R180). -/
def laneShr (ty : FCode) (count : Nat) (a : Nat) : Nat := ofInt ty.bits (toInt ty.bits a / ((2 ^ count : Nat) : Int))

def laneLess (ty : FCode) (a b : Nat) : Bool :=
  match ty.fmt with
  | some f => fLess f a b
  | none => decide (toInt ty.bits a < toInt ty.bits b)

def laneEq (ty : FCode) (a b : Nat) : Bool :=
  match ty.fmt with
  | some f => fEq f a b
  | none => decide (toInt ty.bits a = toInt ty.bits b)

/-- What a lane whose mask bit is 0 contributes to VREDADD (−0, or 0) and to VREDMAX (−∞, or the type's minimum). -/
def redIdentity (ty : FCode) (mx : Bool) : Nat :=
  match ty.fmt with
  | some f => (f.ofNum .rne false (if mx then .inf true else .zero true)).bits
  | none => if mx then ofInt ty.bits (intMin ty.bits) else 0

/-- One level of the fixed tree: adjacent pairs combined, flags gathered (R181). -/
def redLevel (op : LaneOp) (ty : FCode) (r : Round) (satf : Bool) : List Nat → Nat → List Nat × Nat
  | a :: b :: rest, fl =>
    let x := laneOp op ty r satf a b 0
    let y := redLevel op ty r satf rest (fl ||| x.flags)
    (x.bits :: y.1, y.2)
  | l, fl => (l, fl)

/-- n levels of the tree. -/
def redTree (op : LaneOp) (ty : FCode) (r : Round) (satf : Bool) : Nat → List Nat → Nat → List Nat × Nat
  | 0, l, fl => (l, fl)
  | n + 1, l, fl =>
    let x := redLevel op ty r satf l fl
    redTree op ty r satf n x.1 x.2

end Sys2Proof.Machine
end

