-- ==== Sys2Proof/Machine/Vector.lean ====
section
/-! DEFINITION. The vector unit (R169, R179 to R182): firings, and one meaning for each opcode on the instruction that is next. -/

namespace Sys2Proof.Machine

/-! ## Registers of a vector unit (R179) -/

def State.vreg (s : State) (k r lane : Nat) : Nat := (Store.get (fun _ => 0) s.vregs (k * 2048 + r * 64 + lane)).toNat

def State.setVreg (s : State) (k r lane v : Nat) : State :=
  { s with vregs := Store.set (fun _ => 0) s.vregs (k * 2048 + r * 64 + lane) (BitVec.ofNat 32 v) }

/-- Mask register m: m0 reads as all ones and ignores writes. -/
def State.vmask (s : State) (k m : Nat) : Nat := if m = 0 then 2 ^ 64 - 1 else (Store.get (fun _ => 0) s.masks (k * 8 + m)).toNat

def State.setVmask (s : State) (k m v : Nat) : State :=
  if m = 0 then s else { s with masks := Store.set (fun _ => 0) s.masks (k * 8 + m) (BitVec.ofNat 64 v) }

/-- Lanes of an instruction whose mask bit is 1. -/
def State.lanesOn (s : State) (k w : Nat) : List Nat := bitsOf 64 (s.vmask k (vMask w))

/-- Writes lanes of a register. -/
def State.setLanes (s : State) (k r : Nat) (l : List (Nat × Nat)) : State := l.foldl (fun s x => s.setVreg k r x.1 x.2) s

/-- R182: flags of a vector operation. -/
def State.noteVFlags (s : State) (k : Nat) (x : Entry) (fl : Nat) : State :=
  (s.setReg .CO_VFLAGS k (s.reg .CO_VFLAGS k ||| BitVec.ofNat 64 fl)).updCmd x.cmd (fun m => { m with flags := m.flags ||| fl % 32 })

def orFlags (l : List Res) : Nat := l.foldl (fun a r => a ||| r.flags) 0

def vRoundOf (w : Nat) : Round := (Round.ofCode (vRound w)).getD .rne

/-! ## Firing (R169, R171) -/

/-- A vector descriptor can fire: its tokens and credits are present. -/
def State.vectorReady (s : State) (k : Nat) (x : Entry) : Bool :=
  descUnit x.desc == 2 && s.mayFire k x && (descIns x.desc).all (fun p => decide (p.n ≤ (s.queue k p.queue).tokens))
  && (descOuts x.desc).all (fun p => decide (p.n ≤ (s.queue k p.queue).credits))

/-- A firing takes its tokens and credits as held slots (R169). -/
def State.takePorts (s : State) (k : Nat) (d : List Byte) : State :=
  let s := (descIns d).foldl (fun s p => s.updQueue k p.queue (fun q => q.takeIn p.n)) s
  (descOuts d).foldl (fun s p => s.updQueue k p.queue (fun q => q.takeOut p.n)) s

/-- Held slots become credits and tokens when a firing completes (R169). -/
def State.givePorts (s : State) (k : Nat) (d : List Byte) (r : CmdRef) : State :=
  let s := (descIns d).foldl (fun s p => s.updQueue k p.queue (fun q => q.freeIn p.n)) s
  (descOuts d).foldl (fun s p => s.updQueue k p.queue (fun q => q.fillOut p.n r)) s

/-- VECTOR_FIRE: the lowest ready descriptor fires, if the unit runs no program. -/
def State.vectorFire (s : State) (k : Nat) : State :=
  match s.vecRun k, s.lowestEntry k (fun _ x => s.vectorReady k x) with
  | none, some (i, x) => ((s.takePorts k x.desc).setVecRun k (some ⟨i, x.started, 0, false⟩)).fireStart k i x
  | _, _ => s

/-! ## The next instruction -/

/-- The unit's next instruction, if it has this opcode and the unit may issue. -/
def State.vecNext (s : State) (k opc : Nat) : Option (VecRun × Entry × Nat) :=
  match s.vecRun k with
  | some r =>
    if r.ended || s.coreHeld k then none
    else match s.entry k r.entry with
      | some x => match x.prog[r.pc]? with
        | some w => if vOpc w.toNat = opc then some (r, x, w.toNat) else none
        | none => none
      | none => none
  | none => none

/-- The step to the next instruction, and the counts of the one that has issued. -/
def State.vecAdvance (s : State) (k : Nat) (r : VecRun) (opc lanes : Nat) : State :=
  ((s.setVecRun k (some { r with pc := r.pc + 1, ended := opc == 0 })).countCore k 0x0B 0 1).countCore k 0x0C 0 lanes

/-- Issues the next instruction, if it has this opcode: its effect, its counts, and the step to the one after it. -/
def State.vecIssue (s : State) (k opc : Nat) (act : State → Entry → Nat → State) : State :=
  match s.vecNext k opc with
  | some (r, x, w) =>
    (act s x w).vecAdvance k r opc (if opc = 0 then 0 else (s.lanesOn k w).length)
  | none => s

/-- The result of an arithmetic opcode on each lane that its mask selects. -/
def State.laneResults (s : State) (k : Nat) (op : LaneOp) (ty : FCode) (w : Nat) : List (Nat × Res) :=
  (s.lanesOn k w).map (fun l =>
    (l, laneOp op ty (vRoundOf w) (vSatf w) (s.vreg k (vVs1 w) l) (s.vreg k (vVs2 w) l) (s.vreg k (vVs3 w) l)))

/-- An arithmetic opcode on every lane that its mask selects (R180, R181). -/
def State.vecArith (s : State) (k : Nat) (op : LaneOp) (x : Entry) (w : Nat) : State :=
  match FCode.ofCode (vType w) with
  | none => s
  | some ty =>
    let rs := s.laneResults k op ty w
    (s.setLanes k (vVd w) (rs.map (fun r => (r.1, r.2.bits)))).noteVFlags k x (orFlags (rs.map (·.2)))

/-- A compare: the selected lanes' bits of the destination mask. -/
def State.vecCompare (s : State) (k : Nat) (f : FCode → Nat → Nat → Bool) (w : Nat) : State :=
  match FCode.ofCode (vType w) with
  | none => s
  | some ty =>
    let m := vVd w % 8
    s.setVmask k m ((s.lanesOn k w).foldl (fun acc l =>
      putBits acc l 1 (if f ty (s.vreg k (vVs1 w) l) (s.vreg k (vVs2 w) l) then 1 else 0)) (s.vmask k m))

/-- A reduction into lane 0: other lanes become +0. The mask selects the lanes that contribute (R181). -/
def State.vecReduce (s : State) (k : Nat) (mx : Bool) (x : Entry) (w : Nat) : State :=
  match FCode.ofCode (vType w) with
  | none => s
  | some ty =>
    let on := s.lanesOn k w
    let vs := (List.range 64).map (fun l => if on.contains l then s.vreg k (vVs1 w) l else redIdentity ty mx)
    let t := redTree (if mx then .vmax else .add) ty (vRoundOf w) (vSatf w) 6 vs 0
    (s.setLanes k (vVd w) ((List.range 64).map (fun l => (l, if l = 0 then t.1.headD 0 else 0)))).noteVFlags k x t.2

def State.vecShift (s : State) (k w : Nat) : State :=
  match FCode.ofCode (vType w) with
  | none => s
  | some ty => s.setLanes k (vVd w) ((s.lanesOn k w).map (fun l => (l, laneShr ty (vOffset w % 32) (s.vreg k (vVs1 w) l))))

/-- VSEL: every lane is written, from VS1 where its mask bit is 1, else from VS2. -/
def State.vecSelect (s : State) (k w : Nat) : State :=
  let on := s.lanesOn k w
  s.setLanes k (vVd w) ((List.range 64).map (fun l => (l, s.vreg k (if on.contains l then vVs1 w else vVs2 w) l)))

def State.vecConvert (s : State) (k : Nat) (x : Entry) (w : Nat) : State :=
  match FCode.ofCode (vType w), FCode.ofCode (vType2 w) with
  | some a, some b =>
    let rs := (s.lanesOn k w).map (fun l => (l, convert a b (vRoundOf w) (vSatf w) (s.vreg k (vVs1 w) l)))
    (s.setLanes k (vVd w) (rs.map (fun r => (r.1, r.2.bits)))).noteVFlags k x (orFlags (rs.map (·.2)))
  | _, _ => s

/-! ## Loads and stores (R179) -/

/-- The queue of an access, and the ring index of the first slot that the firing holds on it. -/
def State.vecSlots (s : State) (k : Nat) (x : Entry) (w : Nat) : Option (Queue × Nat) :=
  (vPort x.desc w).map (fun p =>
    let q := s.queue k p.queue
    let isIn := vOpc w != 0x22 && (descIns x.desc).any (fun y => y.queue == p.queue)
    (q, if isIn then 0 else q.heldIn + q.tokens))

/-- Address of byte off of the held slots that begin at ring index i: it wraps at the ring's end. -/
def vecAddr (k : Nat) (q : Queue) (i off : Nat) : Nat :=
  let n := max 1 q.depth
  sramOf k (q.base + ((q.rd + i) % n * q.slotBytes + off) % max 1 (n * q.slotBytes))

/-- Offset of the two scale bytes of a Z4 access at offset off of the held slots. -/
def scaleOff (q : Queue) (off : Nat) : Nat :=
  let sb := max 1 q.slotBytes
  off / sb * sb + q.scaleUnits * 256 + off % sb / 16

/-- Element i of an access, with the scale of its block. -/
def State.vecElement (s : State) (k : Nat) (q : Queue) (first off : Nat) (ty : FCode) (i : Nat) : Nat × Nat :=
  let at1 := fun (o : Nat) => (s.byte (vecAddr k q first o)).toNat
  if ty.bits = 4 then (getBits (at1 (off + i / 2)) (4 * (i % 2)) 4, at1 (scaleOff q off + i / 32))
  else
    let n := ty.bits / 8
    (leNat ((List.range n).map (fun b => BitVec.ofNat 8 (at1 (off + n * i + b)))), 0)

/-- A memory element in a register type. -/
def loadConvert (m r : FCode) (w : Nat) (v : Nat × Nat) : Res :=
  if m.bits = 4 then r.ofNum (vRoundOf w) (vSatf w) (z4Value v.1 v.2) else convert m r (vRoundOf w) (vSatf w) v.1

/-- VLD, and with one true VLDB: lanes take their own element, or all the first. -/
def State.vecLoad (s : State) (k : Nat) (one : Bool) (x : Entry) (w : Nat) : State :=
  match s.vecSlots k x w, FCode.ofCode (vType w), FCode.ofCode (vType2 w) with
  | some (q, first), some m, some r =>
    let rs := (s.lanesOn k w).map (fun l =>
      (l, loadConvert m r w (s.vecElement k q first (4 * vOffset w) m (if one then 0 else l))))
    (s.setLanes k (vVd w) (rs.map (fun z => (z.1, z.2.bits)))).noteVFlags k x (orFlags (rs.map (·.2)))
  | _, _, _ => s

/-- Stored bytes clear the reservations of their lines (R324). -/
def State.setVecBytes (s : State) (k : Nat) (q : Queue) (first : Nat) (l : List (Nat × Byte)) : State :=
  l.foldl (fun s x => (s.clearResv (vecAddr k q first x.1 / 64)).setByte (vecAddr k q first x.1) x.2) s

/-- VST to a type with whole-byte elements: the selected lanes. -/
def State.vecStoreBytes (s : State) (k : Nat) (q : Queue) (first : Nat) (r m : FCode) (x : Entry) (w : Nat) : State :=
  let n := m.bits / 8
  let rs := (s.lanesOn k w).map (fun l => (l, convert r m (vRoundOf w) (vSatf w) (s.vreg k (vVs1 w) l)))
  let bs := (rs.map (fun z => (List.range n).map (fun b =>
    (4 * vOffset w + n * z.1 + b, BitVec.ofNat 8 (z.2.bits / 2 ^ (8 * b)))))).flatten
  (s.setVecBytes k q first bs).noteVFlags k x (orFlags (rs.map (·.2)))

/-- VST to Z4: two blocks of 32 lanes. A block's scale comes from all its lanes; the selected lanes' codes are stored, and the scale of a
block with a selected lane. -/
def State.vecStoreZ4 (s : State) (k : Nat) (q : Queue) (first : Nat) (r : FCode) (x : Entry) (w : Nat) : State :=
  let off := 4 * vOffset w
  let on := s.lanesOn k w
  let block := fun (b : Nat) => z4Block (vRoundOf w) ((List.range 32).map (fun i => r.value (s.vreg k (vVs1 w) (32 * b + i))))
  [0, 1].foldl (fun s b =>
    let z := block b
    let mine := on.filter (fun l => l / 32 == b)
    let s := mine.foldl (fun s l =>
      let a := vecAddr k q first (off + l / 2)
      (s.clearResv (a / 64)).setByte a (BitVec.ofNat 8 (putBits (s.byte a).toNat (4 * (l % 2)) 4 ((z.1.getD (l % 32) ⟨0, 0⟩).bits)))) s
    let s := if mine.isEmpty then s else s.setVecBytes k q first [(scaleOff q off + b, BitVec.ofNat 8 z.2)]
    s.noteVFlags k x (orFlags (mine.map (fun l => z.1.getD (l % 32) ⟨0, 0⟩)))) s

def State.vecStore (s : State) (k : Nat) (x : Entry) (w : Nat) : State :=
  match s.vecSlots k x w, FCode.ofCode (vType w), FCode.ofCode (vType2 w) with
  | some (q, first), some r, some m => if m.bits = 4 then s.vecStoreZ4 k q first r x w else s.vecStoreBytes k q first r m x w
  | _, _, _ => s

def execVectorFire (k : Nat) (s : State) : Host.Outcome State Fault Refusal := answer (s.vectorFire k)
/-- VEND: the program ends. -/
def execVend (k : Nat) (s : State) : Host.Outcome State Fault Refusal := answer (s.vecIssue k 0x00 (fun s _ _ => s))
def execVadd (k : Nat) (s : State) : Host.Outcome State Fault Refusal := answer (s.vecIssue k 0x01 (fun s x w => s.vecArith k .add x w))
def execVsub (k : Nat) (s : State) : Host.Outcome State Fault Refusal := answer (s.vecIssue k 0x02 (fun s x w => s.vecArith k .sub x w))
def execVmul (k : Nat) (s : State) : Host.Outcome State Fault Refusal := answer (s.vecIssue k 0x03 (fun s x w => s.vecArith k .mul x w))
def execVfma (k : Nat) (s : State) : Host.Outcome State Fault Refusal := answer (s.vecIssue k 0x04 (fun s x w => s.vecArith k .fma x w))
def execVmin (k : Nat) (s : State) : Host.Outcome State Fault Refusal := answer (s.vecIssue k 0x05 (fun s x w => s.vecArith k .vmin x w))
def execVmax (k : Nat) (s : State) : Host.Outcome State Fault Refusal := answer (s.vecIssue k 0x06 (fun s x w => s.vecArith k .vmax x w))
def execVaddsat (k : Nat) (s : State) : Host.Outcome State Fault Refusal :=
  answer (s.vecIssue k 0x07 (fun s x w => s.vecArith k .addSat x w))
def execVshr (k : Nat) (s : State) : Host.Outcome State Fault Refusal := answer (s.vecIssue k 0x08 (fun s _ w => s.vecShift k w))
def execVcmplt (k : Nat) (s : State) : Host.Outcome State Fault Refusal := answer (s.vecIssue k 0x09 (fun s _ w => s.vecCompare k laneLess w))
def execVcmpeq (k : Nat) (s : State) : Host.Outcome State Fault Refusal := answer (s.vecIssue k 0x0A (fun s _ w => s.vecCompare k laneEq w))
def execVsel (k : Nat) (s : State) : Host.Outcome State Fault Refusal := answer (s.vecIssue k 0x0B (fun s _ w => s.vecSelect k w))
def execVcvt (k : Nat) (s : State) : Host.Outcome State Fault Refusal := answer (s.vecIssue k 0x0C (fun s x w => s.vecConvert k x w))
def execVrcp (k : Nat) (s : State) : Host.Outcome State Fault Refusal := answer (s.vecIssue k 0x0D (fun s x w => s.vecArith k .rcp x w))
def execVrsqrt (k : Nat) (s : State) : Host.Outcome State Fault Refusal := answer (s.vecIssue k 0x0E (fun s x w => s.vecArith k .rsqrt x w))
def execVexp2 (k : Nat) (s : State) : Host.Outcome State Fault Refusal := answer (s.vecIssue k 0x0F (fun s x w => s.vecArith k .exp2 x w))
def execVlog2 (k : Nat) (s : State) : Host.Outcome State Fault Refusal := answer (s.vecIssue k 0x10 (fun s x w => s.vecArith k .log2 x w))
def execVredadd (k : Nat) (s : State) : Host.Outcome State Fault Refusal := answer (s.vecIssue k 0x11 (fun s x w => s.vecReduce k false x w))
def execVredmax (k : Nat) (s : State) : Host.Outcome State Fault Refusal := answer (s.vecIssue k 0x12 (fun s x w => s.vecReduce k true x w))
def execVld (k : Nat) (s : State) : Host.Outcome State Fault Refusal := answer (s.vecIssue k 0x20 (fun s x w => s.vecLoad k false x w))
def execVldb (k : Nat) (s : State) : Host.Outcome State Fault Refusal := answer (s.vecIssue k 0x21 (fun s x w => s.vecLoad k true x w))
def execVst (k : Nat) (s : State) : Host.Outcome State Fault Refusal := answer (s.vecIssue k 0x22 (fun s x w => s.vecStore k x w))

end Sys2Proof.Machine
end

