-- ==== Sys2Proof/Machine/Mover.lean ====
section
/-! DEFINITION. Tile movers (R169, R176, R183, R342, R343), tile readers and stagers (chapter 09), and the completion of firings. -/

namespace Sys2Proof.Machine

/-- A firing, its descriptor entry and its circuit. -/
def State.moverFiring (s : State) (k e f : Nat) : Option (Firing × Entry × CircEntry) :=
  match s.firings.find? (fun x => x.core == k && x.entry == e && x.f == f), s.entry k e with
  | some fr, some x => (s.circEntry (moverCirc x.desc)).map (fun ce => (fr, x, ce))
  | _, _ => none

/-- A piece lies at the far end. -/
def atFarEnd (ep : Nat) (p : Nat × Nat) : Bool :=
  if ep / 4096 = 7 then decide (hostBase ≤ p.1) && decide (p.1 + p.2 ≤ remoteBase / 4)
  else inEndpoint ep p.1 && inEndpoint ep (p.1 + p.2 - 1)

/-- Firings of the entry that have not completed and come before firing f. -/
def State.firingsBefore (s : State) (k e f : Nat) : List Firing :=
  s.firings.filter (fun x => x.core == k && x.entry == e && decide (x.f < f))

/-- Work of a context's firings goes on (R215, R341, R443), and this firing has not stopped at a fault. -/
def State.firingActs (s : State) (k e f : Nat) (x : Entry) : Bool :=
  (s.ctx x.ctx).st.drains && !s.stopped x.ctx x.cmd k e f

/-! ## Data in the queue's slots -/

/-- The first n bytes of the m held slots of a queue that begin at ring index i. -/
def State.slotData (s : State) (k : Nat) (q : Queue) (i : Nat) : Nat → Nat → List Byte
  | 0, _ => []
  | m + 1, n => s.bytes (sramOf k (q.slotAt i)) (min n q.slotBytes) ++ State.slotData s k q (i + 1) m (n - min n q.slotBytes)

/-- The data of firing f of a DIR 1 mover. -/
def State.firingData (s : State) (k e f : Nat) (d : List Byte) : List Byte :=
  match (descIns d).head? with
  | some p => s.slotData k (s.queue k p.queue) ((s.firingsBefore k e f).length * p.n) p.n (moverBytes d)
  | none => []

/-- Bytes that wait in a core's egress buffer (R183). -/
def State.egressUse (s : State) (k : Nat) : Nat :=
  sumBy (fun ce => if ce.src = 0x1000 + k then sumBy (fun t => t.data.length) (s.circ ce.id).ready else 0) (circuits s.tables)

/-- The data from byte b of a firing becomes a token of its circuit, where the egress buffer has room (R176, R183). -/
def State.pushToken (s : State) (fr : Firing) (x : Entry) (ce : CircEntry) (ps : List (Nat × Nat)) (stage : FireStage) : State :=
  let d := x.desc
  if s.egressUse fr.core + moverBytes d > 0x1_0000 then s
  else
    let data := (s.firingData fr.core fr.entry fr.f d).drop fr.b
    let c := s.circ ce.id
    let op := if moverReduce d then moverOp d else 0
    let s := s.setCirc ce.id { c with ready := c.ready ++ [⟨data, false, ps, op, 0, x.cmd, x.ctx, fr.entry, fr.f, (descLayer d, descOper d), s.ft + 1⟩] }
    (s.countCore fr.core 0x10 0 (units64 data.length)).updFiring fr.core fr.entry fr.f (fun y => { y with pieces := some ps, stage := stage })

/-! ## Translation and the work before a resume point (R342, R343) -/

/-- The pieces that cover the first n bytes. -/
def takePieces : Nat → List (Nat × Nat) → List (Nat × Nat)
  | _, [] => []
  | n, p :: rest => if n = 0 then [] else (p.1, min n p.2) :: takePieces (n - min n p.2) rest

/-- A host read of a firing's next piece is opened (R403); its answer is held in the mover. -/
def State.openFeed (s : State) (fr : Firing) (x : Entry) (p : Nat × Nat) : State :=
  match s.issueRead (s.moverRq fr.core) (some x.cmd) p.1 p.2 (.feed fr.core fr.entry fr.f) with
  | (s, .open) => s.updFiring fr.core fr.entry fr.f (fun y => { y with asked := true })
  | (s, .done st _) => s.accessFault (firingSite fr x 1 fr.b) p.1 st

/-- Bytes of a firing whose pages translate are read into the mover, or written, before the page that does not; a contribution sends
nothing (R342, R343). -/
def State.partFiring (s : State) (fr : Firing) (x : Entry) (ce : CircEntry) (ps : List (Nat × Nat)) (off : Nat) : State :=
  let d := x.desc
  let n := (fr.b + off) / 64 * 64 - fr.b
  let ps := takePieces n ps
  let ep := farEnd d ce
  if moverReduce d ∨ n = 0 then s
  else if moverDir d = 0 ∧ ep / 4096 = 7 then
    match ps.head? with
    | some p => s.openFeed fr x p
    | none => s
  else if moverDir d = 0 then
    let r := s.readPieces (s.moverRq fr.core) ps
    if r.2.1 ≠ stOk then r.1.accessFault (firingSite fr x 1 fr.b) ((ps.head?.map (·.1)).getD 0) r.2.1
    else r.1.updFiring fr.core fr.entry fr.f (fun y => { y with b := y.b + n, held := y.held ++ r.2.2 })
  else
    let data := ((s.firingData fr.core fr.entry fr.f d).drop fr.b).take n
    let done := fun (s : State) => s.updFiring fr.core fr.entry fr.f (fun y => { y with b := y.b + n })
    if ep / 4096 = 7 then done (s.hostWrites (s.moverRq fr.core) (firingSite fr x 2 fr.b) ps data)
    else
      let r := s.storePieces (s.moverRq fr.core) x.cmd ps data
      if r.2.1 ≠ stOk then r.1.accessFault (firingSite fr x 2 (fr.b + r.2.2.2)) r.2.2.1 r.2.1 else done r.1

/-- The translated pieces of a firing are used: kept for the slot, sent, or read from the host. -/
def State.usePieces (s : State) (fr : Firing) (x : Entry) (ce : CircEntry) (ps : List (Nat × Nat)) : State :=
  let d := x.desc
  let ep := farEnd d ce
  let since := s.ft + 1
  match ps.find? (fun p => !atFarEnd ep p) with
  | some p => s.accessFault (firingSite fr x (moverAccess d) fr.b) p.1 stAccessError
  | none =>
    let s := s.countCore fr.core 0x11 0 (if moverPhys d then 0 else ps.length)
    if moverDir d = 1 then s.pushToken fr x ce ps .finished
    else if ep / 4096 = 7 then
      match ps.head? with
      | some p => s.openFeed fr x p
      | none => s.updFiring fr.core fr.entry fr.f (fun y => { y with pieces := some [], data := some y.held, since := since })
    else s.updFiring fr.core fr.entry fr.f (fun y => { y with pieces := some ps, since := since })

/-- A firing that has no pieces yet goes on: it translates from its resume point (R176, R342). A fault stops it once everything before it has been
read or written. -/
def State.advanceFiring (s : State) (k e f : Nat) : State :=
  match s.moverFiring k e f with
  | none => s
  | some (fr, x, ce) =>
    let d := x.desc
    let since := s.ft + 1
    if fr.pieces.isSome ∨ fr.stage ≠ .active ∨ fr.asked ∨ moverTile d ∨ !s.firingActs k e f x then s
    else if moverDir d = 1 ∧ (s.firingsBefore k e f).any (fun y => y.stage == .active || y.stage == .waiting) then s
    else if !addressed (farEnd d ce) then
      if moverDir d = 1 then s.pushToken fr x ce [] .finished
      else s.updFiring k e f (fun y => { y with pieces := some [], since := since })
    else
      let va := tileId d f + fr.b
      match s.locatePieces (moverPhys d) k x.ctx (moverAccess d) va (moverBytes d - fr.b) with
      | (ps, none) => s.usePieces fr x ce ps
      | (ps, some (off, .fault code)) =>
        let s := s.partFiring fr x ce ps off
        match s.moverFiring k e f with
        | some (fr, x, _) =>
          if fr.asked ∨ (s.cmd x.cmd).any (fun m => m.finished) then s
          else s.earlyFault (firingSite fr x (moverAccess d) ((va + off : Nat) - tileId d f)) (va + off) code
        | none => s
      | (ps, some (off, _)) => s.partFiring fr x ce ps off

/-! ## Firing (R169, R171) -/

/-- A mover descriptor can fire; the accesses of its command come after those that an order puts before them (R210, R289). -/
def State.moverReady (s : State) (k : Nat) (x : Entry) : Bool :=
  descUnit x.desc == 3 && s.mayFire k x && !s.accessHeld x.cmd && (descIns x.desc).all (fun p => decide (p.n ≤ (s.queue k p.queue).tokens))
  && (descOuts x.desc).all (fun p => decide (p.n ≤ (s.queue k p.queue).credits))

/-- The lowest ready mover descriptor starts a firing. -/
def State.moverStart (s : State) (k : Nat) : State :=
  match s.lowestEntry k (fun _ x => s.moverReady k x) with
  | none => s
  | some (i, x) =>
    let fr : Firing := ⟨k, i, x.started, 0, [], none, none, false, 0, none, .active, 0, false, 0, none⟩
    let s := s.takePorts k x.desc
    let s := { s with firings := s.firings ++ [fr] }
    (s.countCore k 0x0E 0 1).fireStart k i x

/-- MOVER_FIRE: a firing starts, and the core's firings that wait for a translation or for room go on (DEDUCED, log 38). -/
def State.moverFire (s : State) (k : Nat) : State :=
  let s := s.moverStart k
  (s.firings.filter (fun f => f.core == k)).foldl (fun s f => s.advanceFiring k f.entry f.f) s

/-! ## The tile table (R259 to R262) -/

def tileState (w : Nat) : Nat := getBits w 0 4
def tileFormat (w : Nat) : Nat := getBits w 4 4
def tileLoc (w : Nat) : Nat := getBits w 8 44 * 256
def tileEpoch (w : Nat) : Nat := getBits w 52 12
def word1Next (w : Nat) : Nat := getBits w 8 44 * 256
def word1Fail (w : Nat) : Nat := getBits w 56 8

/-- A reserved format code has no footprint (R109). -/
def formatOk (fmt : Nat) : Bool := (FCode.ofCode fmt).isSome

def word1Of (fail next : Nat) : Nat := fail * 2 ^ 56 + next / 256 * 256

/-- Address of tile t's entry; none where the table is not enabled or has no such tile. -/
def State.tileEntry (s : State) (p t : Nat) : Option Nat :=
  if s.flag Fld.HUB_TT_CFG_EN p && decide (t < 2 ^ s.fld Fld.HUB_TT_CFG_LOG2_ENTRIES p)
  then some (s.fld Fld.HUB_TT_CFG_BASE p * 4096 + 16 * t) else none

/-- A 64-bit read, and a write, of the table by a mover at the entry's home. -/
def State.ttRead (s : State) (rq : Requester) (a : Nat) : State × Nat × Nat :=
  let r := s.readLocal rq a 8
  (r.1, r.2.1, leNat r.2.2)

def State.ttWrite (s : State) (rq : Requester) (ref : CmdRef) (a v : Nat) : State × Nat := s.writeLocal rq (some ref) a (leBytes 8 v)

/-- A compare-and-swap of word 0: state, status, whether it succeeded (R262). -/
def State.ttSwap (s : State) (rq : Requester) (a old new : Nat) : State × Nat × Bool :=
  let r := s.atomicLocal rq a 8 9 new old
  (r.1, r.2.1, r.2.1 == stOk && r.2.2 == old)

/-- R271: a tile notice of partition p. -/
def State.tileNotice (s : State) (p tile kind status ctx loc layer oper : Nat) : State :=
  s.ringAppend 1 p (leBytes 4 tile ++ [BitVec.ofNat 8 kind, BitVec.ofNat 8 status, BitVec.ofNat 8 ctx, 0]
    ++ leBytes 8 loc ++ leBytes 2 layer ++ leBytes 2 oper ++ leBytes 4 0 ++ leBytes 8 s.ft)

/-- A tile table access of a firing received an error response. -/
def State.ttFault (s : State) (fr : Firing) (x : Entry) (access a status : Nat) : State :=
  s.accessFault (firingSite fr x access 0) a status

/-- STAGING_REVERT (R266): word 0 goes back to PRESENT, FAIL takes the status, and a notice of kind 2 is written. -/
def State.revert1 (s : State) (v : Revert) : State :=
  let rq := s.moverRq v.core
  match s.tileEntry v.part v.tile with
  | none => s
  | some a =>
    let r := s.ttSwap rq a v.word0 (putBits v.word0 0 4 1)
    let s := if r.2.2 then (r.1.ttWrite rq v.cmd (a + 8) (word1Of v.status v.next)).1 else r.1
    s.tileNotice v.part v.tile 2 v.status v.ctx v.next v.layer v.oper

/-- A tile's entry lies in a line that is in a transaction: accesses of movers wait for its home (R31, R262). -/
def State.tileBusy (s : State) (p t : Nat) : Bool := (s.tileEntry p t).any (fun a => s.lineBusy (a / 64))

/-- The reverts that are due among those that p selects, and whose entries their homes serve now. -/
def State.doReverts (s : State) (p : Revert → Bool) : State :=
  let now := fun (v : Revert) => p v && !s.tileBusy v.part v.tile
  (s.reverts.filter now).foldl State.revert1 { s with reverts := s.reverts.filter (fun v => !now v) }

/-! ## Tile readers (R263, R264, R267, R270) -/

/-- resolve(t, e) of R263. -/
def State.resolveTile (s : State) (fr : Firing) (x : Entry) (ce : CircEntry) : State :=
  let d := x.desc
  let rq := s.moverRq fr.core
  let upd := fun (s : State) (g : Firing → Firing) => s.updFiring fr.core fr.entry fr.f g
  match s.tileEntry (s.partOfCtx x.ctx) (tileId d fr.f) with
  | none => s.failCmd x.cmd stAccessError
  | some a =>
    let r := s.ttRead rq a
    let s := r.1
    let w := r.2.2
    if r.2.1 ≠ stOk then s.ttFault fr x 1 a r.2.1
    else if tileState w = 0 ∨ tileState w > 3 then s.failCmd x.cmd stAccessError
    else if tileState w = 3 then s.failCmd x.cmd stPoisoned
    else if !formatOk (tileFormat w) ∨ footprint (tileFormat w) ≠ moverBytes d then s.failCmd x.cmd stAccessError
    else if inEndpoint ce.src (tileLoc w) then
      upd s (fun y => { y with
        word0 := w, resolvedAt := some s.ft, stage := .active, pieces := some [(tileLoc w, moverBytes d)], since := s.ft + 1 })
    else
      let r := s.ttRead rq (a + 8)
      let s := r.1
      if r.2.1 ≠ stOk then s.ttFault fr x 1 (a + 8) r.2.1
      else if word1Fail r.2.2 ≠ 0 ∧ inEndpoint ce.src (word1Next r.2.2) then s.failCmd x.cmd (word1Fail r.2.2)
      else upd s (fun y => { y with resolvedAt := some s.ft, stage := .waiting })

/-- TILE_RESOLVE: the first resolution of a tile reader's firing. -/
def State.tileResolve (s : State) (k e f : Nat) : State :=
  match s.moverFiring k e f with
  | some (fr, x, ce) =>
    if moverTile x.desc ∧ moverDir x.desc = 0 ∧ fr.stage = .active ∧ fr.pieces.isNone ∧ s.firingActs k e f x then s.resolveTile fr x ce else s
  | none => s

/-- TILE_POISONED_READ (R270). -/
def State.tilePoisoned (s : State) (k e f : Nat) : State :=
  match s.moverFiring k e f with
  | some (fr, x, _) =>
    let d := x.desc
    if fr.stage ≠ .poisoned ∨ !moverTile d ∨ s.tileBusy (s.partOfCtx x.ctx) (tileId d f) then s
    else
      let t := tileId d f
      let p := s.partOfCtx x.ctx
      let rq := s.moverRq k
      let loc := tileLoc fr.word0
      let s := s.event ⟨s.ft, 0x8007, 1, k, some x.ctx, descLayer d, descOper d, x.cmd.seq, loc⟩
      let s := s.failCmd x.cmd stPoisoned
      let s := match s.tileEntry p t with
        | some a => (s.ttSwap rq a fr.word0 (putBits fr.word0 0 4 3)).1
        | none => s
      s.tileNotice p t 1 stPoisoned x.ctx loc (descLayer d) (descOper d)
  | none => s

/-! ## Stagers (R265 to R267) -/

/-- A stager acts on the word 0 that it finds: complete, wait, claim, or end (R265 steps 1 to 4, R267). Its NEXT is the one that it read first
(R262). -/
def State.stagerAct (s : State) (fr : Firing) (x : Entry) (ce : CircEntry) : State :=
  let d := x.desc
  let k := fr.core
  let rq := s.moverRq k
  let upd := fun (s : State) (g : Firing → Firing) => s.updFiring k fr.entry fr.f g
  match s.tileEntry (s.partOfCtx x.ctx) (tileId d fr.f) with
  | none => s.failCmd x.cmd stAccessError
  | some a =>
    let r := s.ttRead rq a
    let w := r.2.2
    let q := r.1.ttRead rq (a + 8)
    let s := q.1
    let next := fr.next.getD (word1Next q.2.2)
    let s := upd s (fun y => { y with next := some next })
    if worse r.2.1 q.2.1 ≠ stOk then s.ttFault fr x 1 a (worse r.2.1 q.2.1)
    else if tileState w = 0 ∨ tileState w > 3 then s.failCmd x.cmd stAccessError
    else if tileState w = 3 then s.failCmd x.cmd stPoisoned
    else if tileState w = 2 then upd s (fun y => { y with stage := .waiting, resolvedAt := some s.ft })
    else if tileLoc w = next then upd s (fun y => { y with stage := .finished, resolvedAt := some s.ft })
    else if s.egressUse k + moverBytes d > 0x1_0000 then s
    else
      let z := s.ttWrite rq x.cmd (a + 8) (word1Of 0 next)
      if z.2 ≠ stOk then z.1.ttFault fr x 2 (a + 8) z.2
      else
        let claim := putBits w 0 4 2
        let c := z.1.ttSwap rq a w claim
        if c.2.1 ≠ stOk then c.1.ttFault fr x 3 a c.2.1
        else if !c.2.2 then upd c.1 (fun y => { y with stage := .waiting, resolvedAt := some s.ft })
        else
          let s := upd c.1 (fun y => { y with stage := .claimed claim next, word0 := w, resolvedAt := some s.ft })
          if !inEndpoint ce.dst next ∨ next % 256 ≠ 0 ∨ !formatOk (tileFormat w) ∨ footprint (tileFormat w) ≠ moverBytes d then
            ((upd s (fun y => { y with fail := stAccessError })).failCmd x.cmd stAccessError).doReverts
              (fun v => v.core == k && v.entry == fr.entry && v.f == fr.f)
          else s.pushToken fr x ce [(next, moverBytes d)] (.claimed claim next)

/-- Earlier firings of a stager that have not claimed yet: claims are made in the order of firings. -/
def State.stagerTurn (s : State) (k e f : Nat) : Bool :=
  !(s.firingsBefore k e f).any (fun y => y.stage == .active || y.stage == .waiting)

/-- STAGER_FIRE. -/
def State.stagerFire (s : State) (k e f : Nat) : State :=
  match s.moverFiring k e f with
  | some (fr, x, ce) =>
    if moverTile x.desc ∧ moverDir x.desc = 1 ∧ fr.stage = .active ∧ s.firingActs k e f x ∧ s.stagerTurn k e f
      ∧ !s.tileBusy (s.partOfCtx x.ctx) (tileId x.desc f) then s.stagerAct fr x ce else s
  | none => s

/-- TILE_RESOLVE_RETRY: at the first beat of the circuit's next period, a waiting reader or stager looks again (R264, R267). -/
def State.tileRetry (s : State) (k e f : Nat) : State :=
  match s.moverFiring k e f with
  | some (fr, x, ce) =>
    if fr.stage ≠ .waiting ∨ !s.firingActs k e f x ∨ s.ft % 2 ^ ce.k ≠ 0 ∨ fr.resolvedAt = some s.ft then s
    else if moverDir x.desc = 0 then s.resolveTile fr x ce
    else (s.updFiring k e f (fun y => { y with stage := .active })).stagerFire k e f
  | none => s

/-- A token of a firing that has not been delivered, or not been acknowledged. -/
def State.undelivered (s : State) (c : Nat) (r : CmdRef) (e f : Nat) : Bool :=
  let x := s.circ c
  let g := s.seg c
  let its := fun (t : Token) => t.cmd == r && t.entry == e && t.f == f
  x.ready.any its || x.flight.any (fun t => its t.2) || (g.sent ++ g.resend).any (fun t => its t.tok)

/-- STAGER_FLIP (R265 steps 5 to 7): a claim whose data has arrived flips, in the order of firings (R269). A claim whose command has ended is
reverted. -/
def State.stagerFlip (s : State) (k e f : Nat) : State :=
  let s := s.doReverts (fun v => v.core == k && v.entry == e && v.f == f)
  match s.moverFiring k e f with
  | some (fr, x, ce) =>
    match fr.stage with
    | .claimed claim next =>
      if (s.firingsBefore k e f).any (fun y => y.stage != .finished) ∨ s.undelivered ce.id x.cmd e f ∨ !s.firingActs k e f x
          ∨ s.tileBusy (s.partOfCtx x.ctx) (tileId x.desc f) then s
      else match s.tileEntry (s.partOfCtx x.ctx) (tileId x.desc f) with
        | none => s.failCmd x.cmd stAccessError
        | some a =>
          let rq := s.moverRq k
          let old := tileLoc claim
          let flipped := putBits (putBits (putBits claim 0 4 1) 8 44 (next / 256)) 52 12 (tileEpoch claim + 1)
          let r := s.ttSwap rq a claim flipped
          if r.2.1 ≠ stOk then r.1.ttFault fr x 3 a r.2.1
          else if r.2.2 then
            let w := r.1.ttWrite rq x.cmd (a + 8) (word1Of 0 old)
            let s := w.1.updFiring k e f (fun y => { y with stage := .finished })
            if w.2 = stOk then s else s.ttFault fr x 2 (a + 8) w.2
          else
            (r.1.updFiring k e f (fun y => { y with stage := .active })).stagerFire k e f
    | _ => s
  | none => s

/-! ## Completion (R169, R172) and tile fences (R273) -/

/-- Setting HUB_TT_CTL.FENCE: the fence waits for firings that have resolved an entry. -/
def State.tileFence (s : State) (p : Nat) : State :=
  let s := s.raise Fld.HUB_TT_CTL_FENCE p
  let mark := fun (f : Firing) =>
    if f.resolvedAt.isSome && ((s.entry f.core f.entry).map (fun x => s.partOfCtx x.ctx)) == some p then { f with fenced := true } else f
  let s := { s with firings := s.firings.map mark }
  s.tileFenceCheck p

/-- A mover's firing completes, in the order of firings. -/
def State.moverDone (s : State) (k e f : Nat) : State :=
  match s.moverFiring k e f with
  | some (fr, x, _) =>
    if fr.stage ≠ .finished ∨ !(s.firingsBefore k e f).isEmpty then s
    else
      let p := s.partOfCtx x.ctx
      let s := { s with firings := s.firings.filter (fun y => !(y.core == k && y.entry == e && y.f == f)) }
      (((s.givePorts k x.desc x.cmd).firingDone k e x).pendCheck (moverCirc x.desc) x.cmd).tileFenceCheck p
  | none => s

/-- A vector firing completes. -/
def State.vectorDone (s : State) (k e f : Nat) : State :=
  match s.vecRun k, s.entry k e with
  | some r, some x => if r.entry = e ∧ r.f = f ∧ r.ended then ((s.givePorts k x.desc x.cmd).setVecRun k none).firingDone k e x else s
  | _, _ => s

/-- FIRING_COMPLETE. -/
def State.firingComplete (s : State) (k e f : Nat) : State :=
  match s.entry k e with
  | some x => if descUnit x.desc = 2 then s.vectorDone k e f else s.moverDone k e f
  | none => s

def execMoverFire (k : Nat) (s : State) : Host.Outcome State Fault Refusal := answer (s.moverFire k)
def execTileResolve (k entry f : Nat) (s : State) : Host.Outcome State Fault Refusal := answer (s.tileResolve k entry f)
def execTileResolveRetry (k entry f : Nat) (s : State) : Host.Outcome State Fault Refusal := answer (s.tileRetry k entry f)
def execTilePoisonedRead (k entry f : Nat) (s : State) : Host.Outcome State Fault Refusal := answer (s.tilePoisoned k entry f)
def execStagerFire (k entry f : Nat) (s : State) : Host.Outcome State Fault Refusal := answer (s.stagerFire k entry f)
def execStagerFlip (k entry f : Nat) (s : State) : Host.Outcome State Fault Refusal := answer (s.stagerFlip k entry f)
def execFiringComplete (k entry f : Nat) (s : State) : Host.Outcome State Fault Refusal := answer (s.firingComplete k entry f)
/-- TILE_FENCE: a write of HUB_TT_CTL that sets FENCE. -/
def execTileFence (rq : Requester) (p : Nat) (s : State) : Host.Outcome State Fault Refusal :=
  answer (if p < 16 then s.gated rq .HUB_TT_CTL p (fun s => s.tileFence p) else s)

end Sys2Proof.Machine
end

