-- ==== Sys2Proof/Machine/Memory.lean ====
section
/-! DEFINITION. Memory controllers, the last-level memory and the memory-side adders (chapter 08): contributions, endpoint accesses, scrub,
refresh, the coherent share, ways, and LLM_ZERO. -/

namespace Sys2Proof.Machine

/-! ## Memory-side adders (R101, R247 to R251) -/

/-- Address at which an adder endpoint's channel begins. -/
def epChannel (ep : Nat) : Nat := if ep / 4096 = 2 then ep % 4096 else 8 + ep % 4096

/-- CONTRIBUTION_ARRIVE: a token that has crossed its circuit's LAST slot enters the adder's reorder buffer. -/
def State.contribArrive (s : State) (c : Nat) : State :=
  let x := s.circ c
  let n := (s.hops c).length
  match s.circEntry c, x.flight.find? (fun t => t.1 == n) with
  | some ce, some t =>
    if !ce.reduce ∨ n = 0 then s
    else
      let one : Contribution := ⟨c, t.2⟩
      let s := { s with contribs := s.contribs ++ [one] }
      let s := if ce.src / 4096 = 5 then s.countSent c 1 else s
      s.setCirc c { x with flight := x.flight.erase t, held := x.held + 1 }
  | _, _ => s

/-- Schedule position j × 2^k + START of the LAST slot (R101). -/
def State.schedPos (s : State) (ce : CircEntry) (j : Nat) : Nat := j * 2 ^ ce.k + ((s.lastSlot ce.id).map (·.start)).getD 0

/-- Schedule order: ascending position, then ascending circuit. -/
def schedBefore (a b : Nat × Nat) : Bool := decide (a.1 < b.1) || (a.1 == b.1 && decide (a.2 < b.2))

def State.contribPos (s : State) (t : Contribution) : Nat × Nat :=
  match s.circEntry t.circ with
  | some ce => (s.schedPos ce t.tok.j, t.circ)
  | none => (0, t.circ)

/-- The contribution that is first in schedule order at an adder. -/
def State.firstContrib (s : State) (ep : Nat) : Option Contribution :=
  (s.contribs.filter (fun t => ((s.circEntry t.circ).map (·.dst)) == some ep)).foldl (fun (b : Option Contribution) t => match b with
    | none => some t
    | some u => if schedBefore (s.contribPos t) (s.contribPos u) then some t else b) none

/-- A contribution that comes earlier in schedule order is still to arrive: it is in flight, or its circuit is pending and has it to send. -/
def State.earlierDue (s : State) (ep : Nat) (p : Nat × Nat) : Bool :=
  (circuits s.tables).any (fun ce => ce.reduce && ce.dst == ep && (
    (s.circ ce.id).flight.any (fun t => schedBefore (s.schedPos ce t.2.j, ce.id) p)
    || (!(s.circ ce.id).pend.isEmpty && schedBefore (s.schedPos ce (s.circ ce.id).j, ce.id) p)))

/-- Another module's circuit has a place in schedule order before p at the adder: whether its producer has a contribution to send for that place
cannot be seen here (R101). -/
def State.foreignDue (s : State) (ep : Nat) (p : Nat × Nat) : Bool :=
  (circuits s.tables).any (fun ce => ce.reduce && ce.dst == ep && ce.src / 4096 == 5
    && schedBefore (s.schedPos ce (s.circ ce.id).j, ce.id) p)

/-- A contribution that comes earlier in schedule order is still to come: here, or, as a free bit says, from another module (DESIGN CHOICE,
log 74). -/
def State.mustWait (s : State) (ep : Nat) (p : Nat × Nat) : State × Bool :=
  if s.earlierDue ep p then (s, true)
  else if s.foreignDue ep p then (s.spend, s.free % 2 == 1)
  else (s, false)

/-- One element added: bytes and flags (R247). -/
def addElement (op m x : Nat) : Nat × Nat :=
  match op with
  | 1 => ((m + x) % 2 ^ 32, 0)
  | 2 => ((m + x) % 2 ^ 64, 0)
  | 3 => let r := fAdd fmtZ32 .rne false m x; (r.bits, r.flags)
  | _ => let r := fAdd fmtB32 .rne false m x; (r.bits, r.flags)

def addSize (op : Nat) : Nat := if op = 2 then 8 else 4

/-- A granule's elements added: its new bytes and the flags. -/
def addGranule (op : Nat) (old x : List Byte) : List Byte × Nat :=
  let n := addSize op
  (List.range (32 / n)).foldl (fun acc i =>
    let r := addElement op (fieldAt old (n * i) n) (fieldAt x (n * i) n)
    (acc.1 ++ leBytes n r.1, acc.2 ||| r.2)) ([], 0)

/-- R248: the cache or the channel sees an adder's read and write of one granule. -/
def State.adderThrough (s : State) (g : Nat) : State :=
  match s.cacheHit g with
  | some (p, w) => s.markSector p w true
  | none => (s.countChannel g 32 false).countChannel g 32 true

/-- Applies a contribution to granule after granule: state, whether one was poisoned, flags. -/
def State.addGranules (s : State) (op : Nat) (g : Nat) : Nat → List Byte → State × Bool × Nat
  | 0, _ => (s, false, 0)
  | n + 1, b =>
    let s := if g % 64 = 0 then (s.invalidateCopies (g / 64)).clearResv (g / 64) else s
    let r := (s.adderThrough g).readGranule g .adder
    let w := if r.2.1 then (r.1, 0) else
      let z := addGranule op r.2.2 (b.take 32)
      ((r.1.writeGranule g z.1).1, z.2)
    let t := State.addGranules w.1 op (g + 32) n (b.drop 32)
    (t.1, r.2.1 || t.2.1, w.2 ||| t.2.2)

/-- Applies a contribution to its pieces: state, status, flags. -/
def State.addPieces (s : State) (rq : Requester) (t : Token) : List (Nat × Nat) → List Byte → State × Nat × Nat
  | [], _ => (s, 0, 0)
  | p :: rest, b =>
    let one := match s.judge rq 3 p.1 p.2 with
      | (s, some e) => (s, e, 0)
      | (s, none) =>
        if t.op = 8 then
          let z := (List.range (p.2 / 1024)).foldl (fun (r : State × Nat) i =>
            let y := r.1.zeroLine rq (some t.cmd) (p.1 + 1024 * i)
            (y.1, worse r.2 y.2)) (s, 0)
          (z.1, z.2, 0)
        else if t.op = 0 then
          let z := s.writeLocal rq (some t.cmd) p.1 (b.take p.2)
          (z.1, z.2, 0)
        else
          let z := s.addGranules t.op p.1 (p.2 / 32) b
          let el := p.2 / addSize t.op
          let s := match locate p.1 with
            | .hbm k _ => z.1.countHub 5 k el
            | _ => z.1.countHub 5 8 el
          (s, if z.2.1 then stPoisoned else stOk, z.2.2)
    let r := State.addPieces one.1 rq t rest (b.drop p.2)
    (r.1, worse one.2.1 r.2.1, one.2.2 ||| r.2.2)

/-- Lines of a contribution that are in a transaction: the adder waits for their homes (R31). -/
def State.contribBusy (s : State) (t : Token) : Bool := t.pieces.any (fun p => (linesOf p.1 p.2).any s.lineBusy)

/-- A contribution leaves the adder: its credit returns, with a note of its status and flags where it came from another module. -/
def State.retireContrib (s : State) (t : Contribution) (status flags : Nat) : State :=
  let s := (s.countRetired t.circ 1).returnCredit t.circ (status, flags)
  s.setCirc t.circ { s.circ t.circ with held := (s.circ t.circ).held - 1 }

/-- CONTRIBUTION_APPLY: the first contribution in schedule order at an adder is applied, or discarded, and its credit returns. Its status and flags
are its command's (R250, R251). -/
def State.contribApply (s : State) (ep : Nat) : State :=
  match s.firstContrib ep with
  | none => s
  | some t =>
    match s.mustWait ep (s.contribPos t), s.circEntry t.circ with
    | (s, false), some ce =>
      if s.contribBusy t.tok then s
      else
        let s := { s with contribs := s.contribs.erase t }
        let foreign := ce.src / 4096 == 5
        if s.epFenced ep then
          let s := s.retireContrib t stFenced 0
          if foreign then s else s.failCmd t.tok.cmd stFenced
        else
          let k := circCore ce
          let rq : Requester := if foreign then ⟨.remote, ce.src % 4096, ce.part⟩ else s.moverRq k
          let r := s.addPieces rq t.tok t.tok.pieces t.tok.data
          let s := r.1.retireContrib t r.2.1 r.2.2
          let s := s.setReg .MEM_ADD_FLAGS (epChannel ep) (s.reg .MEM_ADD_FLAGS (epChannel ep) ||| BitVec.ofNat 64 r.2.2)
          if foreign then s
          else
            let s := s.updCmd t.tok.cmd (fun m => { m with flags := m.flags ||| r.2.2 })
            if r.2.1 = stOk then s else s.accessFault (t.tok.site k 3 0) ((t.tok.pieces.head?.map (·.1)).getD 0) r.2.1
    | (s, _), _ => s

/-! ## Endpoint accesses (R163, R233, R548) -/

/-- An access of an endpoint from outside, with its answer. -/
def State.endpointAccess (s : State) (rq : Requester) (a : Nat) (op : MemOp) : State :=
  match op with
  | .read n =>
    let r := s.readLocal rq a n
    r.1.emit (.endpointAnswer rq.unit a r.2.1 r.2.2)
  | .write b =>
    let r := s.writeLocal rq none a b
    r.1.emit (.endpointAnswer rq.unit a r.2 [])
  | .atomic code size x cmp =>
    let r := s.atomicLocal rq a size code x cmp
    r.1.emit (.endpointAnswer rq.unit a r.2.1 (leBytes size r.2.2))

def State.sramAccess (s : State) (rq : Requester) (a : Nat) (op : MemOp) : State :=
  match locate a with
  | .sram k _ => (s.endpointAccess rq a op).countCore k 0x14 0 1
  | _ => s

def State.scratchAccess (s : State) (rq : Requester) (a : Nat) (op : MemOp) : State :=
  match locate a with
  | .llm _ _ => s.endpointAccess rq a op
  | _ => s

/-- A write of CO_SAVE_CFG.SLOTS (R186). -/
def State.writeSaveCfg (s : State) (k v : Nat) : State :=
  let busy := (List.range 4).any (fun g => (List.range 4).any (fun n => (s.slotHolder (4 * k + g) n).isSome))
  if busy ∨ v % 8 > 4 ∨ (s.coreQueues k).any (fun x => meetsSave (v % 8) x.2.base x.2.bytes) then s
  else s.setFld Fld.CO_SAVE_CFG_SLOTS k v

/-! ## Scrub, writebacks and the coherent share (R228, R232, R240) -/

/-- Beat at which the next granule of the scrub is due: a pass takes MEM_SCRUB.PERIOD seconds, evenly (R228) (DESIGN CHOICE, log 67). -/
def State.scrubDue (s : State) (ch : Nat) : Nat :=
  let m := s.memCtl ch
  m.passStart + m.scrub * s.fld Fld.MEM_SCRUB_PERIOD ch * 125000000 / channelUsable ch

/-- The next granule is read; a pass that ends is counted, and the next one begins a period after it (R228). -/
def State.scrubNext (s : State) (ch : Nat) : State :=
  if s.fld Fld.MEM_SCRUB_PERIOD ch = 0 ∨ s.ft < s.scrubDue ch then s
  else
    let m := s.memCtl ch
    let s := (s.readGranule (channelBase ch + m.scrub) .scrub).1
    if m.scrub + 32 ≥ channelUsable ch then
      (s.setMemCtl ch { s.memCtl ch with
        scrub := 0, passStart := max s.ft (m.passStart + s.fld Fld.MEM_SCRUB_PERIOD ch * 125000000) }).bump Fld.MEM_SCRUB_PASSES ch
    else s.setMemCtl ch { s.memCtl ch with scrub := m.scrub + 32 }

/-- Work of rank 4 that waits for a channel, oldest first. -/
def State.cacheWork (s : State) (ch : Nat) : Option CacheJob := s.wbuf.find? (fun e => decide (ch < 8) && e.stack == ch)

/-- A sector of the buffer is written to HBM4, which may let a failing way go on (R240, R244), or a sector is filled. -/
def State.cacheJob (s : State) (e : CacheJob) : State :=
  if e.fill.isSome then s.fillSector e
  else (((({ s with wbuf := s.wbuf.erase e }).countHub 8 (e.stack / 2) 1).countHub 8 4 1).countChannel e.addr 256 true).settleWays (e.stack / 2)

/-- A correction that waits for the channel: no write to its granule came first (R226). -/
def State.correctionOf (s : State) (ch : Nat) : Option Nat :=
  s.corrections.find? (fun g => (channelOf g).map (·.1) == some ch && (match rsDecode (s.syn g) with
    | .single _ _ => true
    | _ => false))

def State.correct (s : State) (g : Nat) : State := { s.correctGranule g with corrections := s.corrections.erase g }

/-- The channel's controller runs, and this beat is the share's, not yet taken by refresh (R58, R230). -/
def State.shareBeatOf (s : State) (ch : Nat) : Bool :=
  s.channelRuns ch && (s.memCtl ch).refBeat != some s.ft && (match s.shareMask ch with
    | some mask => bit mask (s.ft % 64)
    | none => true)

/-- Work of ranks 1 to 3 waits for the channel (R232). -/
def State.demandWaits (s : State) (ch : Nat) : Bool := s.refreshLate ch || (s.nextAwaiting ch).isSome

/-- Work of rank 5 or higher waits for the channel (R232). -/
def State.workWaits (s : State) (ch : Nat) : Bool :=
  s.demandWaits ch || (s.cacheWork ch).isSome || (s.correctionOf ch).isSome || s.refreshEarly ch

/-- LLM_WRITEBACK: the oldest sector of a stack's writeback buffer is written to HBM4, in the share at rank 4 (R232, R240). -/
def State.llmWriteback (s : State) (stack : Nat) : State :=
  match s.cacheWork stack with
  | some e => if e.fill.isNone ∧ s.shareBeatOf stack ∧ !s.demandWaits stack then s.cacheJob e else s
  | none => s

/-- SCRUB_READ: the next granule, in the share at the lowest rank (R228, R232). -/
def State.scrubRead (s : State) (ch : Nat) : State :=
  if s.shareBeatOf ch ∧ !s.workWaits ch then s.scrubNext ch else s

/-- The work of a share beat, by rank and order of arrival (R232): refresh at its deadline, what the homes await, the cache's work, corrections,
further refresh, a scrub read. -/
def State.shareWork (s : State) (ch : Nat) : State :=
  if s.refreshLate ch then s.takeShareBeat ch
  else match s.nextAwaiting ch, s.cacheWork ch, s.correctionOf ch with
    | some (line, t), _, _ => s.memoryServed line (s.home line) t
    | none, some e, _ => s.cacheJob e
    | none, none, some g => s.correct g
    | none, none, none => if s.refreshEarly ch then s.takeShareBeat ch else s.scrubNext ch

/-- COHERENT_SHARE_BEAT: a beat of the channel's share serves the request that is first by rank and order of arrival (R30, R232). -/
def State.shareBeat (s : State) (ch : Nat) : State := if (s.shareMask ch).isSome ∧ s.shareBeatOf ch then s.shareWork ch else s

/-! ## Refresh (R229, R231) -/

/-- Level of a temperature, from the level held, with hysteresis: a fall goes one level at a reading. -/
def refreshLevel (held temp : Nat) : Nat :=
  if temp > 95 then 2
  else if held = 2 then (if temp ≤ 92 then 1 else 2)
  else if temp > 85 then 1
  else if held = 1 then (if temp ≤ 82 then 0 else 1) else 0

/-- The level in force is the higher of the two, from the next beat that is a multiple of 64. -/
def State.setRefresh (s : State) (ch : Nat) (m : MemCtl) : State :=
  let want := max m.tempLevel (s.fld Fld.MEM_REFRESH_FLOOR ch)
  s.setMemCtl ch { m with pending := if want = s.fld Fld.MEM_REFRESH_LEVEL ch then none else some want }

/-- MEM_TEMP_SAMPLE. -/
def State.memTemp (s : State) (ch temp : Nat) : State :=
  let s := s.setFld Fld.MEM_REFRESH_TEMP ch (min temp 255)
  let m := s.memCtl ch
  s.setRefresh ch { m with tempLevel := refreshLevel m.tempLevel temp }

/-- R231, R433: some controller's floor lies below the level that its temperature requires or that is in force. -/
def State.refreshClamp (s : State) : State :=
  s.clampEpisode Fld.PWR_POLICY_CLAMP_REFRESH 0 ((List.range 40).any (fun c =>
    decide (s.fld Fld.MEM_REFRESH_FLOOR c < max (s.fld Fld.MEM_REFRESH_LEVEL c) (s.memCtl c).tempLevel)))

/-- REFRESH_FLOOR_WRITE: 3 is ignored; a floor below what temperature requires is overridden. -/
def State.writeFloor (s : State) (ch v : Nat) : State :=
  if v % 4 = 3 then s
  else
    let s := s.setFld Fld.MEM_REFRESH_FLOOR ch v
    let s := s.setRefresh ch (s.memCtl ch)
    s.refreshClamp

/-- REFRESH_LEVEL_APPLY. -/
def State.refreshApply (s : State) (ch : Nat) : State :=
  match (s.memCtl ch).pending with
  | none => s
  | some l =>
    if s.ft % 64 ≠ 0 then s
    else
      let s := (s.setFld Fld.MEM_REFRESH_LEVEL ch l).setMemCtl ch { s.memCtl ch with pending := none }
      s.refreshClamp

/-! ## LLM_ZERO (R241, R252) -/

/-- Zeroes n lines in ascending order; an error stops the sequence, and ADDR holds the failing line. -/
def State.zeroLines (s : State) (die a : Nat) : Nat → State
  | 0 => s
  | n + 1 =>
    match s.zeroLine cpuRq none a (.zero die) with
    | (s, st) => if st = stOk then State.zeroLines s die (a + 1024) n else s.setFld Fld.LLM_ZERO_ADDR die (a / 1024)

/-- GO reads 1 while lines of the sequence wait at their homes (R252). -/
def State.zeroBusy (s : State) (die : Nat) : Bool := s.opens.any (fun o => o.waiter == .zero die)

/-- A write of LLM_ZERO: a write of GO is ignored while GO reads 1. -/
def State.writeLlmZero (s : State) (die w : Nat) : State :=
  let s := (s.setFld Fld.LLM_ZERO_LINES die (getBits w 52 12)).setFld Fld.LLM_ZERO_ADDR die (getBits w 10 42)
  let s := if bit w 0 ∧ !s.zeroBusy die then s.zeroLines die (getBits w 10 42 * 1024) (getBits w 52 12 + 1) else s
  s.setFld Fld.LLM_ZERO_GO die (if s.zeroBusy die then 1 else 0)

def execContributionArrive (circ : Nat) (s : State) : Host.Outcome State Fault Refusal := answer (s.contribArrive circ)
def execContributionApply (ep : Nat) (s : State) : Host.Outcome State Fault Refusal := answer (s.contribApply ep)
def execSramEndpointAccess (rq : Requester) (addr : Nat) (op : MemOp) (s : State) : Host.Outcome State Fault Refusal :=
  answer (s.sramAccess rq addr op)
def execLlmScratchAccess (rq : Requester) (addr : Nat) (op : MemOp) (s : State) : Host.Outcome State Fault Refusal :=
  answer (s.scratchAccess rq addr op)
def execSaveCfgWrite (rq : Requester) (k v : Nat) (s : State) : Host.Outcome State Fault Refusal :=
  answer (if k < 128 then s.gated rq .CO_SAVE_CFG k (fun s => s.writeSaveCfg k v) else s)
def execCoherentShareBeat (ch : Nat) (s : State) : Host.Outcome State Fault Refusal := answer (s.shareBeat ch)
def execScrubRead (ch : Nat) (s : State) : Host.Outcome State Fault Refusal := answer (s.scrubRead ch)
def execMemTempSample (ch temp : Nat) (s : State) : Host.Outcome State Fault Refusal := answer (s.memTemp ch temp)
def execRefreshFloorWrite (rq : Requester) (ch v : Nat) (s : State) : Host.Outcome State Fault Refusal :=
  answer (if ch < 40 then s.gated rq .MEM_REFRESH ch (fun s => s.writeFloor ch v) else s)
def execRefreshLevelApply (ch : Nat) (s : State) : Host.Outcome State Fault Refusal := answer (s.refreshApply ch)
def execLlmWriteback (stack : Nat) (s : State) : Host.Outcome State Fault Refusal := answer (s.llmWriteback stack)
def execWayDisable (slice way : Nat) (uncorrectable : Bool) (bad : List Nat) (s : State) : Host.Outcome State Fault Refusal :=
  answer (s.wayError slice way uncorrectable bad)
def execWayReenable (rq : Requester) (slice mask : Nat) (s : State) : Host.Outcome State Fault Refusal :=
  answer (if slice < 64 then s.gated rq .LLM_SLICE slice (fun s => s.wayReenable slice mask) else s)
def execLlmZero (rq : Requester) (die w : Nat) (s : State) : Host.Outcome State Fault Refusal :=
  answer (if die < 4 then s.gated rq .LLM_ZERO die (fun s => s.writeLlmZero die w) else s)

end Sys2Proof.Machine
end

