-- ==== Sys2Proof/Machine/Answers.lean ====
section
/-! DEFINITION. What the answer to an open access does (R293, R294, R298, R342, R361, R367): the access completes, and its issuer takes the
status and the data. -/

namespace Sys2Proof.Machine

/-! ## CPU cores as issuers (R293, R297, R298) -/

/-- RISC-V exception codes: instruction access fault, illegal instruction, load address misaligned, load access fault, store address
misaligned, store or AMO access fault. -/
def trapFetch : Nat := 1
def trapIllegal : Nat := 2
def trapLoadAlign : Nat := 4
def trapLoad : Nat := 5
def trapStoreAlign : Nat := 6
def trapStore : Nat := 7

def State.updCpu (s : State) (c : Nat) (f : Cpu → Cpu) : State := s.setCpu c (f (s.cpu c))

/-- A core raises an exception: its code plus one stands in the core's state. -/
def State.trapCpu (s : State) (c code : Nat) : State := s.updCpu c (fun x => { x with trap := code + 1 })

/-- Statuses that a COMPLETE counts (R293): a write refused by poison is an error response (R327); a poisoned read has completed. -/
def State.coverCpu (s : State) (c status : Nat) : State :=
  if status = 0 then s
  else s.updCpu c (fun x => { x with covered := worse x.covered (if status = stDead ∨ status = stHostLost then status else stAccessError) })

/-- The core has accesses that are open or wait. -/
def State.cpuOpens (s : State) (c : Nat) : Bool :=
  s.opens.any (fun o => o.who.kind == .cpu && o.who.unit == c && o.ctx.isNone) || s.stalls.any (fun x => x.cpu == c)

/-- A FENCE.COMPLETE that waits returns once every covered access has completed: rd takes the status (R293, R297). -/
def State.tryFence (s : State) (c : Nat) : State :=
  match (s.cpu c).fenceRd with
  | some rd =>
    if s.cpuOpens c then s
    else
      let s := s.setXreg c rd (BitVec.ofNat 64 (s.cpu c).covered)
      let s := s.updCpu c (fun x => { x with covered := 0, fenceRd := none })
      { s with broken := s.broken.filter (fun b => b.1 != (1, c)) }
  | none => s

/-- The value that a load of a size leaves in its register. -/
def loadValue (size : Nat) (signed : Bool) (b : List Byte) : Word :=
  let v := leNat (b.take size)
  if signed then BitVec.ofInt 64 (toInt (8 * size) v) else BitVec.ofNat 64 v

/-- A load or AMO of a core completes: its register takes the value, or it raises an access fault (R298, R327). -/
def State.cpuLoaded (s : State) (c rd size : Nat) (signed : Bool) (atomic : Bool) (status : Nat) (b : List Byte) : State :=
  if status = stOk then s.setXreg c rd (loadValue size signed b)
  else
    let s := if status = stPoisoned then s else s.coverCpu c status
    s.trapCpu c (if atomic then trapStore else trapLoad)

/-- An instruction fetch of a core completes, or raises an access fault (R327). -/
def State.cpuFetched (s : State) (c status : Nat) : State :=
  if status = stOk then s
  else (if status = stPoisoned then s else s.coverCpu c status).trapCpu c trapFetch

/-! ## Answers to other modules (R361) -/

/-- A response packet to a requester module. -/
def State.respondTo (s : State) (module tag typ status : Nat) (data : List Byte) : State :=
  (s.sendPacket { basePacket typ data.length 0 0 data with dest := module, tag := tag, status := status }).1

/-- A request of another module has been performed: DATA, ACK or ERROR. -/
def State.answerPacket (s : State) (module tag op status : Nat) (data : List Byte) : State :=
  if status ≠ stOk ∧ status ≠ stPoisoned then s.respondTo module tag pkError status []
  else if op = 2 then (if status = stOk then s.respondTo module tag pkAck status [] else s.respondTo module tag pkError status [])
  else s.respondTo module tag pkData status data

/-- Local writes for a module's request that still wait for their homes. -/
def State.packetWaits (s : State) (module tag : Nat) : Bool :=
  s.opens.any (fun o => match o.waiter with
    | .packet m t _ => m == module && t == tag
    | _ => false)

/-! ## The answer -/

/-- A host read of a mover's firing has been answered: the data is held in the mover (R342, R403). -/
def State.feedData (s : State) (k e f addr status : Nat) (b : List Byte) : State :=
  match s.firings.find? (fun y => y.core == k && y.entry == e && y.f == f && y.asked), s.entry k e with
  | some f, some x =>
    if status ≠ stOk then s.accessFault (firingSite f x 1 f.b) addr status
    else s.updFiring k e f.f (fun y => { y with held := y.held ++ b, b := (y.held ++ b).length, asked := false })
  | _, _ => s

/-- A core's access, a command's access, or one of another requester has completed without data to hand on. -/
def State.plainDone (s : State) (o : OpenAccess) (status : Nat) : State :=
  match o.ctx with
  | some r => if status = stOk then s else s.accessFault (s.cmdSite r o.op) o.addr status
  | none => if o.who.kind = .cpu then s.coverCpu o.who.unit status else s

/-- What answers a host read (R400): success, EP for poisoned data, Completer Abort for an error, which is counted. -/
def State.hostAnswered (s : State) (status : Nat) (data : List Byte) : State :=
  if status = stOk then s.emit (.hostAnswer 0 data)
  else if status = stPoisoned then s.emit (.hostAnswer 3 data)
  else (s.bump Fld.HOST_STATUS_BAR_ERRORS 0).emit (.hostAnswer 2 [])

/-- What answers an RDMA peer (R410): data or an acknowledgement, or a NAK, which is counted. -/
def State.rdmaAnswer (s : State) (port qp tag op addr status : Nat) (data : List Byte) : State :=
  if status = stOk then (if op = 2 then s.emit (.rdmaAck port qp tag 0) else s.emit (.rdmaData port qp tag addr data))
  else (s.bump Fld.ETH_STATUS_RKEY_ERR port).emit (.rdmaAck port qp tag (if status = stPoisoned then 2 else 1))

/-- Accesses of requests through an RDMA window are open. -/
def State.rwinOpen (s : State) (win : Nat) : Bool :=
  s.opens.any (fun o => match o.waiter with
    | .rdma _ _ _ w => w == win
    | _ => false)

/-- The access belongs to a request of the queue pair. -/
def OpenAccess.ofQp (o : OpenAccess) (port qp : Nat) : Bool :=
  match o.waiter with
  | .rdma p q _ _ => p == port && q == qp
  | _ => false

/-- RDMA writes of the queue pair have not been performed: its later reads wait (R282). -/
def State.qpWrites (s : State) (port qp : Nat) : Bool := s.opens.any (fun o => o.op == 2 && o.ofQp port qp)

/-- A read that waits for earlier writes of its queue pair: it has not been issued. -/
def OpenAccess.parked (o : OpenAccess) (port qp : Nat) : Bool :=
  o.op == 1 && o.left == 0 && o.got.isEmpty && o.module.isNone && o.ofQp port qp && (match locate o.addr with
    | .host _ => false
    | _ => true)

/-- Host writes have not been performed: the host's later reads wait (R282, R300). -/
def State.hostWritesOpen (s : State) : Bool := s.opens.any (fun o => o.who.kind == .host && o.op == 2)

/-- An access of the host that waits for its earlier writes (R282, R300, R398): it has not been issued. One of BAR2 that writes keeps its data beside
the offset past the register range. -/
def OpenAccess.hostParked (o : OpenAccess) : Bool :=
  o.who.kind == .host && o.left == 0 && o.module.isNone && (o.op == 1 || !o.got.isEmpty)

/-- A host access waits while an earlier write of the host has not been performed: posted writes are performed in arrival order (R398). -/
def State.hostBehind (s : State) (o : OpenAccess) : Bool :=
  s.opens.any (fun x => x.who.kind == .host && x.op == 2 && (!x.hostParked || decide (x.id < o.id)))

/-- A write of the host through BAR2 waits. -/
def State.parkHostWrite (s : State) (rq : Requester) (a : Nat) (b : List Byte) (w : Waiter) : State :=
  let one : OpenAccess := ⟨s.nextId, rq, none, a, b.length, 2, w, none, none, 0, [(regSize, b)], 0⟩
  { s with opens := s.opens ++ [one], nextId := s.nextId + 1 }

/-- A host write has been performed (R400): its granules are poisoned if its data is, and an error is counted. -/
def State.hostStored (s : State) (a n : Nat) (poison : Bool) (status : Nat) : State :=
  if status ≠ stOk ∧ status ≠ stPoisoned then s.bump Fld.HOST_STATUS_BAR_ERRORS 0
  else if poison then (granulesOf a n).foldl State.poisonGranule s else s

/-- A write of the host is issued: one that ends at once is judged here. -/
def State.issueHostWrite (s : State) (rq : Requester) (a : Nat) (b : List Byte) (ep : Bool) : State :=
  match s.issueWrite rq none a b (.hostWrite ep) with
  | (s, .done st _) => s.hostStored a b.length ep st
  | (s, .open) => s

/-- An access that waited is issued. -/
def State.unpark (s : State) (o : OpenAccess) : State :=
  let s := { s with opens := s.opens.filter (fun x => x.id != o.id) }
  match o.waiter with
  | .rdma port qp tag win => (match s.issueRead o.who none o.addr o.len o.waiter with
    | (s, .done st b) => (if s.rwinOpen win then s else s.setFld Fld.ETH_RWIN_CTL_BUSY win 0).rdmaAnswer port qp tag 1 o.addr st b
    | (s, .open) => s)
  | .hostRead => (match s.issueRead o.who none o.addr o.len o.waiter with
    | (s, .done st b) => s.hostAnswered st b
    | (s, .open) => s)
  | .hostWrite ep => s.issueHostWrite o.who o.addr ((o.got.map (·.2)).flatten) ep
  | _ => (s.issueRead o.who none o.addr o.len o.waiter).1

/-- The host's waiting accesses of memory go on, in the order of their arrival; those of registers are a beat's. -/
def State.unparkHost (s : State) : State :=
  (s.opens.filter OpenAccess.hostParked).foldl (fun s o => if o.isReg || s.hostBehind o then s else s.unpark o) s

/-- A host write has been performed, and the accesses that waited for it follow. -/
def State.hostWritten (s : State) (o : OpenAccess) (poison : Bool) (status : Nat) : State :=
  (s.hostStored o.addr o.len poison status).unparkHost

/-- An RDMA request's access completes; reads that waited for it follow; BUSY reads 0 once none is in progress (R282, R410). -/
def State.rdmaDone (s : State) (o : OpenAccess) (port qp tag win status : Nat) (data : List Byte) : State :=
  let s := if o.op = 2 ∧ s.opens.any (fun x => x.waiter == o.waiter) then s else s.rdmaAnswer port qp tag o.op o.addr status data
  let s := if s.qpWrites port qp then s else (s.opens.filter (fun x => x.parked port qp)).foldl State.unpark s
  if s.rwinOpen win then s else s.setFld Fld.ETH_RWIN_CTL_BUSY win 0

/-- Writes of a request that wait for their homes are awaited by the request's own waiter. -/
def State.claimOpens (s : State) (first : Nat) (w : Waiter) : State :=
  { s with opens := s.opens.map (fun o => if o.id ≥ first ∧ o.waiter = .plain then { o with waiter := w } else o) }

/-! ## Sources of fetches and loads (R68, R469) -/

/-- The security processor as a requester. -/
def secRq : Requester := ⟨.security, 0, 0xFE⟩

def State.loadOf (s : State) (load : Bool) : Option Fetch := if load then s.boot.load else s.boot.fetch
def State.setLoad (s : State) (load : Bool) (f : Option Fetch) : State :=
  if load then { s with boot := { s.boot with load := f } } else { s with boot := { s.boot with fetch := f } }

/-- Data of the source, or an error response or poisoned data, which tears it. -/
def State.loadData (s : State) (load : Bool) (status : Nat) (b : List Byte) : State :=
  match s.loadOf load with
  | some f => s.setLoad load (some (if status = stOk then { f with data := f.data ++ b } else { f with torn := true }))
  | none => s

/-- The source is read from where the data so far ends, in parts of at most 256 bytes, until a part has to wait. -/
def State.loadReads (s : State) (load : Bool) : Nat → State
  | 0 => s
  | n + 1 =>
    match s.loadOf load with
    | none => s
    | some f =>
      if f.torn ∨ f.data.length ≥ f.len then s
      else match s.issueRead secRq none (f.base + f.data.length) (min 256 (f.len - f.data.length)) (.boot load) with
        | (s, .open) => s
        | (s, .done st b) => State.loadReads (s.loadData load st b) load n

/-- The source has delivered everything, or failed. -/
def Fetch.ended (f : Fetch) : Bool := f.torn || decide (f.len ≤ f.data.length)

/-- An open access ends with a status and data; a second answer finds nothing (R293, R361). -/
def State.finishAccess (s : State) (id status : Nat) (data : List Byte) : State :=
  match s.opens.find? (fun o => o.id == id) with
  | none => s
  | some o =>
    let s := { s with opens := s.opens.filter (fun x => x.id != id) }
    let s := match o.waiter with
      | .plain => s.plainDone o status
      | .cpuLoad c rd size sx => s.cpuLoaded c rd size sx (o.op == 3) status data
      | .cpuFetch c => s.cpuFetched c status
      | .copy r dst => s.copyData r o.addr dst status data
      | .launch r => s.launchData r o.addr status data
      | .wait r => s.waitValue r o.addr status data
      | .feed k e f => s.feedData k e f o.addr status data
      | .ring c => (s.slotRead c status data).fetchSlots c 17
      | .record r => s.recordPart r status
      | .append kind i => (s.ringDone kind i (status == stOk)).ringDrain kind i 65536
      | .packet m tag _ => if s.packetWaits m tag then s else s.answerPacket m tag o.op status data
      | .rdma port qp tag win => s.rdmaDone o port qp tag win status data
      | .hostRead => s.hostAnswered status data
      | .hostWrite ep => s.hostWritten o ep status
      | .zero die => if s.zeroBusy die then s else s.setFld Fld.LLM_ZERO_GO die 0
      | .circuit c => s.returnCredit c
      | .boot l => (s.loadData l status data).loadReads l (2 ^ 24 + 1)
    if o.who.kind = .cpu ∧ o.ctx.isNone then s.tryFence o.who.unit else s

/-- R367: from a failed request on, the issuer's requests to the module are answered with an error until its next COMPLETE. -/
def State.breakIssuer (s : State) (o : OpenAccess) : State :=
  match o.module with
  | some m =>
    let k := (issuerOf o.who o.ctx, m)
    if s.broken.contains k then s else { s with broken := s.broken ++ [k] }
  | none => s

/-- R294, R367: the open accesses that satisfy p are answered with an error: DEAD_ENDPOINT where no route is left, else ACCESS_ERROR. -/
def State.dropAccesses (s : State) (p : OpenAccess → Bool) : State :=
  (s.opens.filter p).foldl (fun s o => (s.breakIssuer o).finishAccess o.id (s.lostStatus (o.module.getD 0)) []) s

/-- R405: the open accesses to the host are answered with HOST_LOST. -/
def State.dropHostAccesses (s : State) : State :=
  (s.opens.filter (fun o => match locate o.addr with
    | .host _ => o.module.isNone
    | _ => false)).foldl (fun s o => s.finishAccess o.id stHostLost []) s

/-- An answer's line and data in its place among those of lower and higher lines. -/
def insertPart (x : Nat × List Byte) : List (Nat × List Byte) → List (Nat × List Byte)
  | [] => [x]
  | y :: rest => if x.1 ≤ y.1 then x :: y :: rest else y :: insertPart x rest

/-- NC_CMP, NC_DATA (R313): an answer to a non-caching requester, status in off. The access completes once every line's home has answered. -/
def State.ncAnswer (s : State) (code : Nat) (m : Msg) : State :=
  let s := s.deliver { m with code := code }
  match s.opens.find? (fun o => o.id == m.tag) with
  | none => s
  | some o =>
    let got := insertPart (m.line, m.data) o.got
    let st := worse o.worst m.off
    if o.left ≤ 1 then s.finishAccess o.id st ((got.map (·.2)).flatten)
    else { s with opens := s.opens.map (fun x => if x.id = o.id then { x with left := x.left - 1, got := got, worst := st } else x) }

def execNcCmp (m : Msg) (s : State) : Host.Outcome State Fault Refusal := answer (s.ncAnswer mNCCmp m)
def execNcData (m : Msg) (s : State) : Host.Outcome State Fault Refusal := answer (s.ncAnswer mNCData m)

end Sys2Proof.Machine
end

