-- ==== Sys2Proof/Machine/CohRows.lean ====
section
/-! DEFINITION. The rows of the coherence protocol (R313, R316 to R320, R325, R326, R330): each delivers the message of its operand, with
the row's own code, to its home or agent. -/

namespace Sys2Proof.Machine

/-- The message of a row: its own code, and data of a whole line where the code carries one. -/
def rowMsg (code : Nat) (m : Msg) : Msg :=
  let whole := code == mNCWr || code == mPutM || code == mPutO || decide (mRspOD ≤ code ∧ code ≤ mDataM)
  { m with code := code, data := if whole then (m.data ++ List.replicate 64 0).take 64 else m.data }

/-- A request row whose message no agent has sent yet is the agent's own event too (R315, R316): a miss, a store to a shared copy, or a
replacement. -/
def State.agentEvent (s : State) (m : Msg) : State :=
  let l := s.line m.agent m.line
  if m.code = mRdS ∧ l.st = .inv then s.setLine m.agent m.line { Line.empty with st := .isD }
  else if m.code = mRdX ∧ l.st = .inv then s.setLine m.agent m.line { Line.empty with st := .imD }
  else if m.code = mUpg ∧ l.st = .shared then s.toState m.agent m.line .smA
  else if m.code = mUpg ∧ l.st = .owned then s.toState m.agent m.line .omA
  else s

/-- A request of a caching agent. A Put of a line that the agent holds in M or O, which it has not sent yet, is the replacement of that line:
it carries the line's data. -/
def State.agentRequest (s : State) (code : Nat) (m : Msg) : State :=
  let m := rowMsg code m
  if m.agent ≥ 96 ∨ (homeOf m.line).isNone then s
  else if s.net.contains m then s.request m
  else
    let l := s.line m.agent m.line
    if (code = mPutM ∧ l.st = .modified) ∨ (code = mPutO ∧ l.st = .owned) then
      let put := { msg code m.line m.agent with data := l.data, poison := l.poison }
      (s.replace m.agent m.line).request put
    else (s.agentEvent m).request m

/-- A request of a non-caching requester: a partial one lies within its line. -/
def State.ncRequest (s : State) (code : Nat) (m : Msg) : State :=
  if m.off + max m.len m.data.length ≤ 64 ∨ code = mNCAtom then s.request { rowMsg code m with agent := ncAgent } else s

/-- A response of an agent reaches its home; at a fenced base die it is discarded (R330). -/
def State.response (s : State) (code : Nat) (m : Msg) : State :=
  let m := rowMsg code m
  let s := s.deliver m
  if m.agent ≥ 96 ∨ (homeOf m.line).isNone ∨ s.homeFenced m.line then s else s.homeResponse m

/-- CMP_ACK (R312, R319). -/
def State.ackRow (s : State) (m : Msg) : State :=
  let m := rowMsg mCmpAck m
  let s := s.deliver m
  if m.agent ≥ 96 ∨ (homeOf m.line).isNone ∨ s.homeFenced m.line then s else s.cmpAck m

/-- A message for an agent. -/
def State.toAgent (s : State) (code : Nat) (m : Msg) (act : State → Msg → State) : State :=
  let m := rowMsg code m
  let s := s.deliver m
  if m.agent < 96 ∧ (homeOf m.line).isSome then act s m else s

def execRdS (m : Msg) (s : State) : Host.Outcome State Fault Refusal := answer (s.agentRequest mRdS m)
def execRdX (m : Msg) (s : State) : Host.Outcome State Fault Refusal := answer (s.agentRequest mRdX m)
def execUpg (m : Msg) (s : State) : Host.Outcome State Fault Refusal := answer (s.agentRequest mUpg m)
def execPutM (m : Msg) (s : State) : Host.Outcome State Fault Refusal := answer (s.agentRequest mPutM m)
def execPutO (m : Msg) (s : State) : Host.Outcome State Fault Refusal := answer (s.agentRequest mPutO m)
def execNcRd (m : Msg) (s : State) : Host.Outcome State Fault Refusal := answer (s.ncRequest mNCRd m)
def execNcWr (m : Msg) (s : State) : Host.Outcome State Fault Refusal := answer (s.ncRequest mNCWr { m with off := 0 })
def execNcWrP (m : Msg) (s : State) : Host.Outcome State Fault Refusal := answer (s.ncRequest mNCWrP m)
def execNcAtom (m : Msg) (s : State) : Host.Outcome State Fault Refusal := answer (s.ncRequest mNCAtom m)
def execZeroL (m : Msg) (s : State) : Host.Outcome State Fault Refusal := answer (s.ncRequest mZeroL m)
def execHomeMemoryData (line : Nat) (s : State) : Host.Outcome State Fault Refusal :=
  answer (if s.homeFenced line then s else s.memoryData line)
def execRspI (m : Msg) (s : State) : Host.Outcome State Fault Refusal := answer (s.response mRspI m)
def execRspS (m : Msg) (s : State) : Host.Outcome State Fault Refusal := answer (s.response mRspS m)
def execRspV (m : Msg) (s : State) : Host.Outcome State Fault Refusal := answer (s.response mRspV m)
def execRspOd (m : Msg) (s : State) : Host.Outcome State Fault Refusal := answer (s.response mRspOD m)
def execRspSd (m : Msg) (s : State) : Host.Outcome State Fault Refusal := answer (s.response mRspSD m)
def execRspId (m : Msg) (s : State) : Host.Outcome State Fault Refusal := answer (s.response mRspID m)
def execCmpAck (m : Msg) (s : State) : Host.Outcome State Fault Refusal := answer (s.ackRow m)
end Sys2Proof.Machine
end

