-- ==== Sys2Proof/Machine/FrameCode.lean ====
section
/-! DEFINITION. Frames and packets as bytes (R349, R350, R351, R361): the CRC-32 of a frame, the Reed–Solomon code of its four lanes, its control field,
and packets in units of 32 bytes. -/

namespace Sys2Proof.Machine

/-! ## CRC-32 -/

/-- One bit of CRC-32 with the IEEE 802.3 polynomial, reflected. -/
def crcBit (c : Nat) : Nat := if c % 2 = 1 then c / 2 ^^^ 0xEDB88320 else c / 2

def crcByte (c : Nat) (b : Byte) : Nat := (List.range 8).foldl (fun c _ => crcBit c) (c ^^^ b.toNat)

def crc32 (b : List Byte) : Nat := b.foldl crcByte 0xFFFFFFFF ^^^ 0xFFFFFFFF

/-! ## RS(224, 208) over the field of R224 (R349)

Generator roots α^0 to α^15, and the byte at position i of a codeword at degree 223 − i (DEDUCED, log 80). Polynomials are lists of coefficients,
the lowest degree first. -/

/-- Degree-1 factors multiplied up: the generator, highest degree first. -/
def rsGen : Nat → List Nat
  | 0 => [1]
  | n + 1 =>
    let g := rsGen n
    List.zipWith (· ^^^ ·) (g ++ [0]) (0 :: g.map (gfMul (gfPow 2 n)))

/-- The 16 check bytes of a lane. -/
def rsCheck (b : List Nat) : List Nat :=
  let g := (rsGen 16).drop 1
  b.foldl (fun r x =>
    let f := x ^^^ r.headD 0
    if f = 0 then r.drop 1 ++ [0] else List.zipWith (· ^^^ ·) (r.drop 1 ++ [0]) (g.map (gfMul f))) (List.replicate 16 0)

/-- A polynomial whose coefficients come highest degree first, at x. -/
def gfEval (x : Nat) (b : List Nat) : Nat := b.foldl (fun acc c => if acc = 0 then c else gfMul acc x ^^^ c) 0

/-- The syndromes S_0 to S_15 of a lane. -/
def laneSyndromes (b : List Nat) : List Nat := (List.range 16).map (fun i => gfEval (gfPow 2 i) b)

def gfInv (a : Nat) : Nat := gfPow a 254

def coef (p : List Nat) (i : Nat) : Nat := p[i]?.getD 0

def polyAdd : List Nat → List Nat → List Nat
  | [], q => q
  | p, [] => p
  | a :: p, b :: q => (a ^^^ b) :: polyAdd p q

/-- The search for the error locator: the locator so far, the one before its last change of length, that one's discrepancy, the number of
errors, and the steps since. -/
structure Locator where
  cur : List Nat
  old : List Nat
  disc : Nat
  errors : Nat
  gap : Nat
  deriving DecidableEq, Repr

/-- Syndrome n is taken into the locator (Berlekamp and Massey's step). -/
def Locator.step (syn : List Nat) (v : Locator) (n : Nat) : Locator :=
  let d := (List.range (v.errors + 1)).foldl (fun acc i => acc ^^^ gfMul (coef v.cur i) (coef syn (n - i))) 0
  if d = 0 then { v with gap := v.gap + 1 }
  else
    let next := polyAdd v.cur (List.replicate v.gap 0 ++ v.old.map (gfMul (gfMul d (gfInv v.disc))))
    if 2 * v.errors ≤ n then ⟨next, v.cur, d, n + 1 - v.errors, 1⟩ else { v with cur := next, gap := v.gap + 1 }

def locator (syn : List Nat) : Locator := (List.range 16).foldl (Locator.step syn) ⟨[1], [1], 1, 0, 1⟩

/-- The value of the error at degree d, where the locator has a root there (Forney's rule). -/
def errorAt (syn : List Nat) (loc : List Nat) (d : Nat) : Option Nat :=
  let y := gfInv (gfPow 2 d)
  if gfEval y loc.reverse ≠ 0 then none
  else
    let omega := (List.range 16).map (fun i => (List.range (i + 1)).foldl (fun acc j => acc ^^^ gfMul (coef loc j) (coef syn (i - j))) 0)
    let deriv := loc.zipIdx.map (fun c => if c.2 % 2 = 1 then c.1 else 0)
    some (gfMul (gfPow 2 d) (gfMul (gfEval y omega.reverse) (gfInv (gfEval y (deriv.drop 1).reverse))))

/-- A received lane of 224 bytes: its 208 protected bytes, and whether bytes were corrected; none beyond 8 byte errors. -/
def decodeLane (b : List Nat) : Option (List Nat × Bool) :=
  let syn := laneSyndromes b
  if syn.all (· == 0) then some (b.take 208, false)
  else
    let v := locator syn
    if v.errors > 8 then none
    else
      let fixed := b.zipIdx.map (fun c => c.1 ^^^ (errorAt syn v.cur (223 - c.2)).getD 0)
      if (laneSyndromes fixed).all (· == 0) then some (fixed.take 208, true) else none

/-! ## Lanes (R349) -/

/-- Bytes dealt to four lanes in turn. -/
def deal : List Nat → List Nat × List Nat × List Nat × List Nat
  | a :: b :: c :: d :: rest =>
    let r := deal rest
    (a :: r.1, b :: r.2.1, c :: r.2.2.1, d :: r.2.2.2)
  | _ => ([], [], [], [])

def undeal : List Nat → List Nat → List Nat → List Nat → List Nat
  | a :: p, b :: q, c :: r, d :: t => a :: b :: c :: d :: undeal p q r t
  | _, _, _, _ => []

def bytesOf (l : List Nat) : List Byte := l.map (BitVec.ofNat 8)

/-- The 896 bytes of a frame, lane after lane, for its 832 protected bytes (DESIGN CHOICE, log 80). -/
def encodeLanes (b : List Byte) : List Byte :=
  let r := deal (b.map (·.toNat))
  bytesOf (r.1 ++ rsCheck r.1 ++ r.2.1 ++ rsCheck r.2.1 ++ r.2.2.1 ++ rsCheck r.2.2.1 ++ r.2.2.2 ++ rsCheck r.2.2.2)

/-- The protected bytes of 896 received ones, and whether bytes were corrected. -/
def decodeLanes (b : List Byte) : Option (List Byte × Bool) :=
  if b.length ≠ 896 then none
  else
    let n := b.map (·.toNat)
    match decodeLane (n.take 224), decodeLane ((n.drop 224).take 224), decodeLane ((n.drop 448).take 224), decodeLane (n.drop 672) with
    | some p, some q, some r, some t => some (bytesOf (undeal p.1 q.1 r.1 t.1), p.2 || q.2 || r.2 || t.2)
    | _, _, _, _ => none

/-! ## The control field (R350, R351) -/

def padTo (n : Nat) (b : List Byte) : List Byte := (b ++ List.replicate n 0).take n

def LinkMsg.bytes (m : LinkMsg) : List Byte := leBytes 1 m.kind ++ leBytes 1 m.arg8 ++ leBytes 2 m.arg16

def messageAt (b : List Byte) (off : Nat) (met : Nat × Nat) : LinkMsg := ⟨fieldAt b off 1, fieldAt b (off + 1) 1, fieldAt b (off + 2) 2, met⟩

/-- The protected bytes that the CRC covers: the payload and control bytes 0x00 to 0x1B. -/
def Frame.covered (f : Frame) : List Byte :=
  padTo 800 f.payload ++ leBytes 1 f.typ ++ leBytes 1 f.gen ++ leBytes 2 f.seq ++ leBytes 2 f.circ ++ leBytes 2 f.inst ++ leBytes 2 f.index
  ++ leBytes 2 0 ++ leBytes 8 f.time ++ padTo 8 ((f.msgs.map LinkMsg.bytes).flatten)

def Frame.bytes (f : Frame) : List Byte := encodeLanes (f.covered ++ leBytes 4 (crc32 f.covered))

/-- The frame that 896 received bytes are, where it is good, and whether bytes were corrected. -/
def decodeFrame (raw : List Byte) (n : FrameNote) : Option (Frame × Bool) :=
  match decodeLanes raw with
  | none => none
  | some (b, corrected) =>
    let c := b.drop 800
    if fieldAt c 0x1C 4 ≠ crc32 (b.take 828) then none
    else some (⟨fieldAt c 0 1, fieldAt c 1 1, fieldAt c 2 2, fieldAt c 4 2, fieldAt c 6 2, fieldAt c 8 2, fieldAt c 0xC 8,
      [messageAt c 0x14 n.met0, messageAt c 0x18 n.met1], b.take 800⟩, corrected)

/-! ## Packets (R361) -/

/-- A packet's header and its data, in whole units. -/
def Packet.bytes (x : Packet) : List Byte :=
  leBytes 2 x.dest ++ leBytes 2 x.src ++ leBytes 1 x.typ ++ leBytes 1 x.flags ++ leBytes 1 x.hops ++ leBytes 1 x.epoch ++ leBytes 1 x.part
  ++ leBytes 1 x.status ++ leBytes 1 x.op ++ leBytes 1 0 ++ leBytes 2 x.len ++ leBytes 2 0 ++ leBytes 4 x.tag ++ leBytes 4 0 ++ leBytes 8 x.addr
  ++ padTo (32 * (x.units - 1)) x.data

/-- Data bytes that follow a header: of WRITE, ATOMIC, DATA and NOTICE, LEN, and never more than 256. -/
def headerData (b : List Byte) : Nat :=
  let t := fieldAt b 4 1
  if t = pkWrite ∨ t = pkAtomic ∨ t = pkData ∨ t = pkNotice then min 256 (fieldAt b 0xC 2) else 0

def packetAt (b : List Byte) : Packet :=
  ⟨fieldAt b 0 2 % 4096, fieldAt b 2 2 % 4096, fieldAt b 4 1, fieldAt b 5 1, fieldAt b 6 1, fieldAt b 7 1, fieldAt b 8 1, fieldAt b 9 1,
   fieldAt b 0xA 1, fieldAt b 0xC 2, fieldAt b 0x10 4, fieldAt b 0x18 8, (b.drop 32).take (headerData b)⟩

/-- The packets whose last byte has come among bytes received, and the bytes of one that has yet to end. A unit at which a header of no type
stands carries none (DEDUCED, log 80). -/
def unpack : Nat → List Byte → List Packet × List Byte
  | 0, b => ([], b)
  | n + 1, b =>
    if b.length < 32 then ([], b)
    else
      let t := fieldAt b 4 1
      if t = 0 ∨ t > 7 then unpack n (b.drop 32)
      else
        let m := 32 + (headerData b + 31) / 32 * 32
        if b.length < m then ([], b)
        else
          let r := unpack n (b.drop m)
          (packetAt b :: r.1, r.2)

end Sys2Proof.Machine
end

