-- ==== Sys2Proof/Machine/TimeBase.lean ====
section
/-! DEFINITION. Fabric time and its source (R80 to R87): the states of the time base and the events that move it. -/

namespace Sys2Proof.Machine

def tbUnlocked : Nat := 0
def tbAcquiring : Nat := 1
def tbLocked : Nat := 2
def tbHoldover : Nat := 3

/-- Units of 0.04 ps in a ns. -/
def phaseNs : Int := 25000

/-- The error is more than n ns. -/
def State.errorAbove (s : State) (n : Nat) : Bool := decide (s.time.phase.natAbs > n * 25000)

/-- The phase error in ps, truncated, as HUB_FT_STATUS.PHASE_ERR holds it: signed, saturating at 32 bits. -/
def phaseErrField (phase : Int) : Nat := ofInt 32 (max (-2147483648) (min 2147483647 (phase.tdiv 25)))

/-- A measurement of the phase error, in units of 0.04 ps. -/
def State.setPhase (s : State) (phase : Int) : State :=
  ({ s with time := { s.time with phase := phase } }).setFld Fld.HUB_FT_STATUS_PHASE_ERR 0 (phaseErrField phase)

def State.tbState (s : State) : Nat := s.fld Fld.HUB_FT_STATUS_STATE

/-- Enters a state of the time base; the run of good beats starts anew in ACQUIRING. -/
def State.enterTb (s : State) (st : Nat) : State :=
  let s := if st = tbAcquiring then { s with time := { s.time with good := 0 } } else s
  let s := if st = tbHoldover then { s with time := { s.time with since := s.ft } } else s
  s.setFld Fld.HUB_FT_STATUS_STATE 0 st

/-- R84, R85: the beat count is set, in any state, to ACQUIRING with STEPPED. PTP stamps of the count before it are void. -/
def State.setTime (s : State) (ft : Nat) (phase : Int) : State :=
  let s := ({ s with time := { s.time with ft := ft % 2 ^ 64, ptp := { s.time.ptp with waiting := none, last := none, asked := none } } }).setPhase phase
  let s := (s.raise Fld.HUB_FT_STATUS_STEPPED).setFld Fld.HUB_FT_STATUS_SOURCE_IN_USE 0 (s.fld Fld.HUB_FT_CTL_SOURCE)
  s.enterTb tbAcquiring

/-- The source's time in ps, as the phase error gives it. -/
def State.sourcePs (s : State) : Int := (s.ft : Int) * 8000 - s.time.phase.tdiv 25

/-- R85: in UNLOCKED, with no partition running, fabric time is set from a source that gives time: PTP or the fabric. The sideband
source gives it only at an epoch pulse. -/
def State.setFromSource (s : State) : State :=
  let src := s.fld Fld.HUB_FT_CTL_SOURCE
  if s.tbState = tbUnlocked ∧ !s.anyPartRuns ∧ s.time.present ∧ (src = 2 ∨ src = 3) then
    let t := s.sourcePs
    let ft := (t.tdiv 8000 % 2 ^ 64).toNat
    s.setTime ft ((t.tdiv 8000 * 8000 - t) * 25)
  else s

/-- UNLOCKED, from which the time is set at once where R85 permits it. -/
def State.unlock (s : State) : State := (s.enterTb tbUnlocked).setFromSource

/-- A measurement against a source that is present: UNLOCKED above 64 ns in the states that R84 names. -/
def State.measure (s : State) (phase : Int) : State :=
  let s := ({ s with time := { s.time with present := true } }).setPhase phase
  if s.errorAbove 64 ∧ s.tbState ≠ tbUnlocked then s.unlock else s.setFromSource

/-- R84: the source is lost. LOCKED becomes HOLDOVER; no other state is left by a loss. -/
def State.sourceLost (s : State) : State :=
  let s := ({ s with time := { s.time with present := false } }).raise Fld.HUB_FT_STATUS_REF_LOST
  if s.tbState = tbLocked then s.enterTb tbHoldover else s

/-- Beats between epoch pulses. -/
def epochBeats : Nat := 125000000

/-- EPOCH_PULSE (R81, R83, R85): with the sideband source, a load that ARM_EPOCH armed, in any state, while no partition runs; otherwise an edge more than one
beat from its expected beat sets EPOCH_MISS, and another gives a measured phase error. -/
def State.epochPulse (s : State) (ps : Int) : State :=
  if s.flag Fld.HUB_FT_CTL_ARM_EPOCH ∧ s.fld Fld.HUB_FT_CTL_SOURCE = 1 ∧ !s.anyPartRuns then
    let v := s.fld Fld.HUB_FT_LOAD_VALUE
    let s := { s with time := { s.time with loaded := some v } }
    (s.setTime v 0).setFld Fld.HUB_FT_CTL_ARM_EPOCH 0 0
  else if s.fld Fld.HUB_FT_CTL_SOURCE = 1 then
    match s.time.loaded with
    | none => s
    | some l =>
      let d := (((s.ft : Int) - l) % epochBeats).toNat
      if d ≤ 1 ∨ d ≥ epochBeats - 1 then s.measure (ps * 25) else s.raise Fld.HUB_FT_STATUS_EPOCH_MISS
  else s

/-- R85: the write would set ARM_EPOCH or change the source in use. -/
def State.ftCtlChanges (s : State) (w : Nat) : Bool :=
  let src := s.fld Fld.HUB_FT_CTL_SOURCE
  let new := getBits w 4 2
  src != new || ((src == 3 || new == 3) && s.fld Fld.HUB_FT_CTL_PORT != getBits w 8 4)
  || ((src == 2 || new == 2) && s.fld Fld.HUB_FT_CTL_ETH_PORT != getBits w 3 1)

/-- A write of HUB_FT_CTL (R85): refused as a whole while a partition runs if it sets ARM_EPOCH or changes the source in use; a source
change takes the time base to UNLOCKED (R84). -/
def State.writeFtCtl (s : State) (w : Nat) : State :=
  let arm := bit w 1
  let change := s.ftCtlChanges w
  if s.anyPartRuns ∧ (arm ∨ change) then s
  else
    let s := ((s.setFld Fld.HUB_FT_CTL_PORT 0 (getBits w 8 4)).setFld Fld.HUB_FT_CTL_SOURCE 0 (getBits w 4 2)).setFld
      Fld.HUB_FT_CTL_ETH_PORT 0 (getBits w 3 1)
    let s := if arm then s.raise Fld.HUB_FT_CTL_ARM_EPOCH else s
    if change then
      let s := { s with time := { s.time with present := false, loaded := none, ptp := Ptp.init } }
      (s.setFld Fld.HUB_FT_STATUS_SOURCE_IN_USE 0 (getBits w 4 2)).unlock
    else s

/-- A measurement in ps by the hub of a source that is there (R84): as `measure` has it, and HOLDOVER ends in LOCKED where the error is within 64 ns. -/
def State.sourceReturn (s : State) (ps : Int) : State :=
  let s := s.measure (ps * 25)
  if s.tbState = tbHoldover then s.enterTb tbLocked else s

/-! ## PTP (R82) -/

def State.setPtp (s : State) (p : Ptp) : State := { s with time := { s.time with ptp := p } }

/-- A MAC time stamp, in ps of the PTP scale: fabric time and HUB_FT_PTP_BASE, with the ps into the beat. -/
def State.ptpStamp (s : State) (sub : Nat) : Int := (s.ft : Int) * 8000 + sub + (s.fld Fld.HUB_FT_PTP_BASE_BASE_NS : Int) * 1000

/-- A Sync that left the master at t1 and arrived at t2: with a path delay the phase error is t2 − t1 less that delay. A Delay_Req follows, whose
departure is stamped (DESIGN CHOICE, log 63). -/
def State.ptpSync (s : State) (port : Nat) (t1 t2 : Int) : State :=
  let p := s.time.ptp
  let s := s.setPtp { p with waiting := none, last := some (t1, t2), asked := some (p.seq, s.ptpStamp 0), seq := (p.seq + 1) % 2 ^ 16 }
  let s := s.emit (.ptpDelayReq port p.seq)
  match p.delay with
  | some d => s.sourceReturn (t2 - t1 - d)
  | none => s

/-- The Delay_Resp to the Delay_Req in flight: the path delay is half the sum of the two ways (end-to-end mechanism). -/
def State.ptpDelay (s : State) (seq : Nat) (t4 : Int) : State :=
  let p := s.time.ptp
  match p.asked, p.last with
  | some (q, t3), some (t1, t2) =>
    if q = seq then s.setPtp { p with asked := none, delay := some (((t2 - t1) + (t4 - t3)) / 2) } else s
  | _, _ => s

/-- PTP_MESSAGE (R81, R82): a message on the selected port, which arrives `sub` ps into the beat. -/
def State.ptpMessage (s : State) (port sub : Nat) (m : PtpMsg) : State :=
  if s.fld Fld.HUB_FT_CTL_SOURCE = 2 ∧ s.fld Fld.HUB_FT_CTL_ETH_PORT = port then
    match m with
    | .sync t => s.ptpSync port ((t : Int) * 1000) (s.ptpStamp sub)
    | .syncTwoStep q => s.setPtp { s.time.ptp with waiting := some (q, s.ptpStamp sub) }
    | .followUp q t => (match s.time.ptp.waiting with
      | some (w, t2) => if w = q then s.ptpSync port ((t : Int) * 1000) t2 else s
      | none => s)
    | .delayResp q t => s.ptpDelay q ((t : Int) * 1000)
  else s

/-- R84: 10 ms are 1,250,000 beats. -/
def State.holdoverTimeout (s : State) : State :=
  if s.tbState = tbHoldover ∧ s.ft ≥ s.time.since + 1250000 then s.unlock else s

/-- R84: within 1 ns for 125,000 beats in a row. -/
def State.lockAchieved (s : State) : State :=
  if s.tbState = tbAcquiring ∧ s.time.good ≥ 125000 then s.enterTb tbLocked else s

/-- R86: with a source that is present, while a partition runs, slewing has brought the error within 64 ns. -/
def State.slewConverged (s : State) (ps : Int) : State :=
  let s := s.setPhase (ps * 25)
  if s.tbState = tbUnlocked ∧ s.anyPartRuns ∧ s.fld Fld.HUB_FT_CTL_SOURCE ≠ 0 ∧ s.time.present ∧ !s.errorAbove 64 then
    (s.setFld Fld.HUB_FT_STATUS_SOURCE_IN_USE 0 (s.fld Fld.HUB_FT_CTL_SOURCE)).enterTb tbAcquiring
  else s

/-- R85, R86: one beat's slew. At the full 10 ppm while ACQUIRING with an error above 1 ns, and in UNLOCKED while a partition runs with a
source present; in LOCKED the hub keeps the error down at a rate the spec leaves open, and here holds it. -/
def State.slew (s : State) : State :=
  let st := s.tbState
  if (st = tbAcquiring ∧ s.errorAbove 1) ∨ (st = tbUnlocked ∧ s.anyPartRuns ∧ s.time.present) then
    let p := s.time.phase
    s.setPhase (if p > 0 then max 0 (p - 2) else min 0 (p + 2))
  else s

/-- One beat of the time base (R80, R84): the count, the slew, and the run of beats within 1 ns. -/
def State.tickTime (s : State) : State :=
  let s := { s with time := { s.time with ft := (s.time.ft + 1) % 2 ^ 64 } }
  let s := s.slew
  { s with time := { s.time with good := if s.tbState = tbAcquiring ∧ !s.errorAbove 1 then s.time.good + 1 else 0 } }

def execEpochPulse (ps : Int) (s : State) : Host.Outcome State Fault Refusal := answer (s.epochPulse ps)
def execPtpMessage (port sub : Nat) (m : PtpMsg) (s : State) : Host.Outcome State Fault Refusal := answer (s.ptpMessage port sub m)
/-- REF10M_EDGE_LOSS (R84, R536). -/
def execRef10mEdgeLoss (s : State) : Host.Outcome State Fault Refusal :=
  answer (if s.fld Fld.HUB_FT_CTL_SOURCE = 1 then s.sourceLost else s)
/-- PTP_SYNC_LOSS (R84). -/
def execPtpSyncLoss (s : State) : Host.Outcome State Fault Refusal :=
  answer (if s.fld Fld.HUB_FT_CTL_SOURCE = 2 then s.sourceLost else s)
def execHoldoverTimeout (s : State) : Host.Outcome State Fault Refusal := answer s.holdoverTimeout
/-- PHASE_ERROR_EXCEEDED (R84): the hub measures an error above 64 ns. -/
def execPhaseErrorExceeded (ps : Int) (s : State) : Host.Outcome State Fault Refusal := answer (s.measure (ps * 25))
def execLockAchieved (s : State) : Host.Outcome State Fault Refusal := answer s.lockAchieved
def execSourceReturn (ps : Int) (s : State) : Host.Outcome State Fault Refusal := answer (s.sourceReturn ps)
def execSlewConverged (ps : Int) (s : State) : Host.Outcome State Fault Refusal := answer (s.slewConverged ps)

end Sys2Proof.Machine
end

