-- ==== Sys2Proof/Machine/Fabric.lean ====
section
/-! DEFINITION. Fabric ports (chapter 13): states and losses, frames, slot frames at ingress, link messages, retry of packet frames, and
the sending of notices. -/

namespace Sys2Proof.Machine

/-! ## Notices as bytes (R376) -/

def noticeKind (n : Notice) : Nat := fieldAt n 0 1
def noticeArg (n : Notice) : Nat := fieldAt n 1 1
def noticeSrc (n : Notice) : Nat := fieldAt n 2 2
def noticeModule (n : Notice) : Nat := fieldAt n 6 2
def noticeGroup (n : Notice) : Nat := fieldAt n 8 4
def noticeTarget (n : Notice) : Nat := fieldAt n 0x10 8

def nkPropose : Nat := 1
def nkAccept : Nat := 2
def nkRefuse : Nat := 3
def nkCommit : Nat := 4
def nkAbort : Nat := 5
def nkLoss : Nat := 0x10
def nkMembership : Nat := 0x11
def nkAbortCircuits : Nat := 0x12
def nkReset : Nat := 0x13

/-- Header of the image last switched in (R47). -/
def State.lastHdr (s : State) : Option Header := (lastImage s.img.full s.img.update).map (·.hdr)

/-- Header of the image in force, or, during a start, of the one that is to take effect (R352, R471). -/
def State.groupHdr (s : State) : Option Header :=
  match s.lastHdr with
  | some h => some h
  | none => (lastImage (heldImage s.img.holdFull) (heldImage s.img.holdUpdate)).map (·.hdr)

def State.groupId (s : State) : Nat := ((s.groupHdr).map (·.groupId)).getD 0

/-- A notice's 128 bytes: kind, ARG8, destination, module, S, and LIST. -/
def State.notice (s : State) (kind arg dest module target : Nat) (list : List Byte) : Notice :=
  leBytes 1 kind ++ leBytes 1 arg ++ leBytes 2 s.selfModule ++ leBytes 2 dest ++ leBytes 2 module ++ leBytes 4 s.groupId
  ++ leBytes 4 (s.fld Fld.HUB_SIMG_GEN_GENERATION) ++ leBytes 8 target ++ leBytes 8 s.ft ++ padTo 40 list ++ List.replicate 56 0

def State.toNoticeRing (s : State) (n : Notice) : State := s.ringAppend 2 0 (padTo 128 n)

/-- A notice leaves for a module; one for the module itself goes to its own ring, and one for a removed module is discarded (R375). -/
def State.sendNotice (s : State) (dest : Nat) (n : Notice) : State :=
  if dest = s.selfModule then s.toNoticeRing n
  else if s.removed dest then s.bump Fld.FAB_STATUS_DISCARDS 0
  else (s.sendPacket { basePacket pkNotice 128 0 0 (padTo 128 n) with dest := dest }).1

/-- A notice to the fabric manager, where FAB_FM names one. -/
def State.tellManager (s : State) (kind arg module target : Nat) (list : List Byte) : State :=
  if s.flag Fld.FAB_FM_VALID then
    let fm := s.fld Fld.FAB_FM_MODULE
    s.sendNotice fm (s.notice kind arg fm module target list)
  else s

/-! ## Losses (R353, R367, R374) -/

def psDown : Nat := 0
def psDisabled : Nat := 1
def psTraining : Nat := 2
def psMismatch : Nat := 3
def psUp : Nat := 4

def State.portState (s : State) (p : Nat) : Nat := s.fld Fld.FAB_PORT_STATUS_STATE p
def State.setPortState (s : State) (p st : Nat) : State := s.setFld Fld.FAB_PORT_STATUS_STATE p st

/-- Destinations of ROUTES entries that can be reached. -/
def State.reached (s : State) : List Nat := ((routes s.tables).filter (fun r => (s.nextPort r.dest).isSome)).map (·.dest)

/-- An ERROR answers another module's request. -/
def State.refusePacket (s : State) (x : Packet) (status : Nat) : State := s.respondTo x.src x.tag pkError status []

/-- A count of responses and notices discarded. -/
def State.discardPacket (s : State) : State := s.bump Fld.FAB_STATUS_DISCARDS 0

/-- Every command pending on a circuit ends with DEAD_ENDPOINT, its tokens discarded with their credits (R105, R373, R374). The instances that a
fabric circuit's segment has sent, holds or has accepted go with them: all credits stand at its producer (DEDUCED, log 80). -/
def State.killCircuit (s : State) (c : Nat) : State :=
  let s := (s.circ c).pend.foldl (fun s r => s.failCmd r stDead) s
  match s.circEntry c with
  | none => s
  | some ce =>
    if ce.src / 4096 ≠ 5 ∧ ce.dst / 4096 ≠ 5 then s
    else
      let s := { s with contribs := s.contribs.filter (fun t => t.circ != c) }
      let s := s.setSeg c { Segment.init with resync := true }
      let x := s.circ c
      s.setCirc c { x with flight := [], returning := 0, notes := [], held := 0, credits := if ce.src / 4096 = 5 then x.credits else ce.credits }

/-- A packet that a lost port has not delivered follows the next candidate of its destination (R365, R374); the module's own carries the route epoch
in force (R366). -/
def State.reroute (s : State) (x : Packet) : State :=
  if x.src = s.selfModule then
    match s.sendPacket x with
    | (s, some _) => s
    | (s, none) => s.discardPacket
  else match s.nextPort x.dest with
    | some q => s.queuePacket q x
    | none => s.discardPacket

/-- A trace packet of class FABRIC: subtype, MODULE in bits [15:0] and port in bits [23:16] of DATA. -/
def State.fabricTrace (s : State) (port sub module : Nat) : State :=
  s.packet 4 ⟨⟨s.ft, 0, 4, port, none, 0xFFFF, 0xFFFF, 0, module + port * 2 ^ 16⟩, 6, sub⟩

/-- PORT_LOSS (R367, R374): a port that was UP declares a loss, with the cause of R353. Its requests are answered; responses and notices follow their
next candidates, and a response whose frame had no acknowledgement is sent again (DEDUCED, log 80). -/
def State.portLoss (s : State) (p cause : Nat) : State :=
  let had := s.reached
  let v := s.port p
  let s := ((s.setPortState p psDown).setFld Fld.FAB_PORT_STATUS_SLOT_LIVE p 0).raise Fld.FAB_PORT_STATUS_LOSS p
  let s := (s.setFld Fld.FAB_PORT_STATUS_LOSS_CAUSE p cause).raise Fld.HUB_STICKY_FABRIC_LOSS
  let s := s.setFld Fld.FAB_STATUS_EPOCH 0 (s.fld Fld.FAB_STATUS_EPOCH + 1)
  let s := s.setPort p { Port.init with arrived := v.arrived }
  let s := s.dropAccesses (fun o => o.port == some p)
  let sent := (v.retry.map (·.ends)).flatten
  let transit := (sent ++ v.waiting).filter (fun x => x.vc == 0 && x.src != s.selfModule)
  let s := transit.foldl (fun s x => s.refusePacket x (s.lostStatus x.dest)) s
  let s := (sent.filter (fun x => x.vc == 1) ++ v.waiting.filter (fun x => x.vc != 0)).foldl State.reroute s
  let lost := had.filter (fun m => (s.nextPort m).isNone)
  let s := if lost.isEmpty then s else s.raise Fld.FAB_STATUS_ROUTE_LOST
  let s := s.dropAccesses (fun o => match o.module with
    | some m => lost.contains m
    | none => false)
  let s := ((circuits s.tables).filter (fun c => c.src == 0x5000 + p || c.dst == 0x5000 + p)).foldl (fun s c => s.killCircuit c.id) s
  let nbr := s.fld Fld.FAB_PORT_STATUS_NBR_MODULE p
  let s := s.fabricTrace p 0x80 nbr
  let s := s.tellManager nkLoss 0 nbr 0 (leBytes 1 p ++ leBytes 1 cause)
  if s.fld Fld.HUB_FT_CTL_SOURCE = 3 ∧ s.fld Fld.HUB_FT_CTL_PORT = p then s.sourceLost else s

/-- A loss of an UP port; other ports have none to declare. -/
def State.loseIfUp (s : State) (p cause : Nat) : State := if s.portUp p then s.portLoss p cause else s

/-! ## Link states (R352, R353) -/

/-- RETRAIN: training starts from DOWN or MISMATCH; boot says that a start asks for it. -/
def State.retrain (s : State) (p : Nat) (boot : Bool := false) : State :=
  if s.portState p = psDown ∨ s.portState p = psMismatch then
    let v := s.port p
    let s := ((s.setPortState p psTraining).raise Fld.FAB_PORT_CTL_RETRAIN p).setPort p { v with trainBeat := s.ft, boot := boot }
    let h := s.groupHdr
    s.emit (.training p ((h.map (·.moduleId)).getD 0) s.groupId ((h.map (·.generation)).getD 0))
  else s

/-- Training ends in a state. -/
def State.endTraining (s : State) (p st : Nat) : State := (s.setPortState p st).setFld Fld.FAB_PORT_CTL_RETRAIN p 0

/-- A write of DISABLE: 1 disables the port, after a loss if it was UP; 0 takes a DISABLED port to DOWN. -/
def State.writeDisable (s : State) (p : Nat) (on : Bool) : State :=
  let s := s.setFld Fld.FAB_PORT_CTL_DISABLE p (if on then 1 else 0)
  if on then (s.loseIfUp p 4).endTraining p psDisabled
  else if s.portState p = psDisabled then s.setPortState p psDown else s

/-- TRAINING_COMPLETE: the neighbour's values are recorded; the same GROUP_ID takes the port to UP, and after a start's
training its slots are live (R354). -/
def State.trainingComplete (s : State) (p module nport group : Nat) : State :=
  if s.portState p ≠ psTraining then s
  else
    let s := (s.setFld Fld.FAB_PORT_STATUS_NBR_MODULE p module).setFld Fld.FAB_PORT_STATUS_NBR_PORT p nport
    if group = s.groupId then
      let v := s.port p
      let s := (s.endTraining p psUp).setPort p { Port.init with arrived := v.arrived, lastGood := s.ft, ackBeat := s.ft }
      if v.boot then s.raise Fld.FAB_PORT_STATUS_SLOT_LIVE p else s
    else s.endTraining p psMismatch

/-- TRAINING_TIMEOUT: 50 ms are 6,250,000 beats. -/
def State.trainingTimeout (s : State) (p : Nat) : State :=
  if s.portState p = psTraining ∧ s.ft ≥ (s.port p).trainBeat + 6250000 then s.endTraining p psDown else s

def State.portSilence (s : State) (p : Nat) : State :=
  if s.ft ≥ (s.port p).lastGood + 125 then s.loseIfUp p 1 else s

def State.portBadLimit (s : State) (p : Nat) : State :=
  if ((s.port p).bad.filter (fun b => decide (s.ft < b + 125000))).length ≥ 64 then s.loseIfUp p 2 else s

/-! ## Link messages (R351, R358, R362, R363) -/

/-- Distance from a to b modulo 2^16; below 2^15, b is at or after a. -/
def seqDist (a b : Nat) : Nat := (b + 2 ^ 16 - a % 2 ^ 16) % 2 ^ 16

/-- PKT_ACK: frames up to and including SEQ leave the retry buffer. -/
def State.pktAck (s : State) (p seq : Nat) : State :=
  let v := s.port p
  let open1 := fun (q : Nat) => decide (0 < seqDist seq q ∧ seqDist seq q < 2 ^ 15)
  s.setPort p { v with retry := v.retry.filter (fun x => open1 x.seq), again := v.again.filter open1, ackBeat := s.ft }

/-- PKT_RETRY: frames from SEQ on are to be sent again. -/
def State.pktRetry (s : State) (p seq : Nat) : State :=
  let v := s.port p
  s.setPort p { v with again := (v.retry.map (·.seq)).filter (fun q => decide (seqDist seq q < 2 ^ 15)) }

/-- PKT_RETRY_TIMEOUT: 2 µs are 250 beats. -/
def State.pktTimeout (s : State) (p : Nat) : State :=
  let v := s.port p
  if v.retry.isEmpty ∨ s.ft < v.ackBeat + 250 then s else s.setPort p { v with ackBeat := s.ft, again := v.retry.map (·.seq) }

/-- VC_CREDIT: units return, up to the neighbour's buffers of R362. -/
def State.vcCredit (s : State) (p vc n : Nat) : State :=
  let v := s.port p
  if vc > 2 then s else s.setPort p (v.setCredit vc (min (if vc = 2 then 256 else 2048) (v.credit vc + n)))

/-- A verdict or credit of a fabric circuit reaches a segment at its egress port: transits relay it to their ingress port. -/
def State.segmentMsg (s : State) (p : Nat) (m : LinkMsg) (act : State → CircEntry → State) : State :=
  match s.circEntry m.arg16 with
  | none => s
  | some ce =>
    if ce.dst ≠ 0x5000 + p then s
    else if ce.src / 4096 = 5 then s.pushMsg (ce.src % 4096) m
    else act s ce

/-- What a contribution met at its adder reaches its command (R250, R251): a status ends it, flags join its summary. -/
def State.contribNote (s : State) (r : CmdRef) (note : Nat × Nat) : State :=
  let s := s.updCmd r (fun m => { m with flags := m.flags ||| note.2 })
  if note.1 = 0 then s else s.failCmd r note.1

/-- CIRCUIT_CREDIT: n credits reach the producer, those of contributions with what they met. -/
def State.circuitCredit (s : State) (p circ n : Nat) (note : Nat × Nat) : State :=
  s.segmentMsg p ⟨4, n, circ, note⟩ (fun s ce =>
    let x := s.circ ce.id
    let g := s.seg ce.id
    let s := s.setCirc ce.id (x.addCredits s.ft (min n (ce.credits - x.credits)))
    let s := s.setSeg ce.id { g with owed := g.owed.drop n }
    (g.owed.take n).foldl (fun s r => s.contribNote r note) s)

/-- Period index bits [7:0] a is at or before b, modulo 2^8. -/
def instUpTo (a b : Nat) : Bool := decide ((b + 256 - a % 256) % 256 < 128)

/-- INST_ACK: instances up to ARG8 are good, and their commands are looked at. -/
def State.instAck (s : State) (p circ inst : Nat) : State :=
  s.segmentMsg p ⟨5, inst, circ, (0, 0)⟩ (fun s ce =>
    let g := s.seg ce.id
    let good := g.sent.filter (fun t => instUpTo t.inst inst)
    let s := s.setSeg ce.id { g with sent := g.sent.filter (fun t => !instUpTo t.inst inst) }
    (good.map (·.tok.cmd)).eraseDups.foldl (fun s r => s.pendCheck ce.id r) s)

/-- INST_NAK: the instance of ARG8 and every later one are to be sent again. -/
def State.instNak (s : State) (p circ inst : Nat) : State :=
  s.segmentMsg p ⟨6, inst, circ, (0, 0)⟩ (fun s ce =>
    let g := s.seg ce.id
    let again := g.sent.filter (fun t => instUpTo inst t.inst)
    s.setSeg ce.id { g with sent := g.sent.filter (fun t => !instUpTo inst t.inst), resend := again ++ g.resend })

/-- INSTANCE_ACK_TIMEOUT: instances unacknowledged for 4 periods are to be sent again, with every later one. -/
def State.instTimeout (s : State) (circ : Nat) : State :=
  match s.circEntry circ with
  | some ce => if ce.dst / 4096 = 5 ∧ ce.src / 4096 ≠ 5 then s.expireInsts ce else s
  | none => s

/-! ## Slot frames at ingress (R357, R358) -/

/-- The period index of the ingress instance whose window a frame of this beat falls in. -/
def State.frameWindow (s : State) (ce : CircEntry) (e : SlotEntry) : Option Nat :=
  if s.ft + 4 < e.start then none
  else
    let n := (s.ft + 4 - e.start) / 2 ^ ce.k
    if s.ft < n * 2 ^ ce.k + e.start + e.length + 4 then some n else none

/-- A frame of this beat with an INST falls in that instance's window; the window of the instance before may still be open. -/
def State.inWindow (s : State) (ce : CircEntry) (e : SlotEntry) (inst : Nat) : Bool :=
  match s.frameWindow ce e with
  | none => false
  | some n => inst == n % 2 ^ 16
      || (decide (0 < n) && inst == (n - 1) % 2 ^ 16 && decide (s.ft < (n - 1) * 2 ^ ce.k + e.start + e.length + 4))

/-- Segments that a port's ingress feeds, with their ingress slot. -/
def State.ingressSegs (s : State) (p : Nat) : List (CircEntry × SlotEntry) :=
  (circuits s.tables).filterMap (fun c => if c.src = 0x5000 + p then ((s.hops c.id).head?).map (fun e => (c, e)) else none)

/-- The consumer asks for an instance again (R358). -/
def State.nak (s : State) (p : Nat) (ce : CircEntry) (inst : Nat) : State :=
  if ce.dst / 4096 = 5 then s else s.pushMsg p ⟨6, inst % 256, ce.id, (0, 0)⟩

/-- A frame of the ingress instance whose window this beat falls in was not accepted. -/
def State.spoilSeg (s : State) (p : Nat) (x : CircEntry × SlotEntry) : State :=
  match s.frameWindow x.1 x.2 with
  | none => s
  | some n =>
    let g := s.seg x.1.id
    let i := n % 2 ^ 16
    if g.done = some i ∨ (g.inst = i ∧ g.missing) then s
    else (s.setSeg x.1.id { g with inst := i, frames := [], missing := true, hold := none }).nak p x.1 i

/-- A frame that is not good fell in an ingress instance's window. -/
def State.spoil (s : State) (p : Nat) : State := (s.ingressSegs p).foldl (fun s x => s.spoilSeg p x) s

/-- The window of an instance has closed, and frames of it are missing (R357, R358). -/
def State.closeWindow (s : State) (p : Nat) (x : CircEntry × SlotEntry) : State :=
  let g := s.seg x.1.id
  if g.frames.isEmpty ∨ slotFrameCount x.2.bytes ≤ g.frames.length ∨ s.inWindow x.1 x.2 g.inst then s
  else (s.setSeg x.1.id { g with frames := [], missing := true }).nak p x.1 g.inst

/-- Payload bytes of the frames in order of index. -/
def framesData (frames : List (Nat × List Byte)) (n bytes : Nat) : List Byte :=
  (((List.range n).map (fun i => padTo 800 (((frames.find? (fun f => f.1 == i)).map (·.2)).getD []))).flatten).take bytes

/-- Every frame of an instance has been accepted: a transit holds it for its egress; a consumer takes the next one in order, acknowledges
a duplicate, and asks again where one is missing (R357, R358) (DESIGN CHOICE, log 41). -/
def State.wholeInstance (s : State) (p : Nat) (ce : CircEntry) (e : SlotEntry) (inst : Nat) (tok : Token) : State :=
  let g := s.seg ce.id
  let x := s.circ ce.id
  if ce.dst / 4096 = 5 then s.setSeg ce.id { g with hold := some (inst, tok), done := some inst }
  else if tok.j > x.j ∧ !g.resync then s.nak p ce (match g.done with
    | some d => d + 1
    | none => inst)
  else
    let s := s.pushMsg p ⟨5, inst % 256, ce.id, (0, 0)⟩
    if tok.j < x.j then s
    else
      let s := s.setSeg ce.id { g with done := some inst, resync := false }
      let s := s.setCirc ce.id { x with j := tok.j + 1, held := if ce.dst / 4096 = 1 then x.held + 1 else x.held,
                                        flight := if e.last then x.flight else x.flight ++ [(1, { tok with since := s.ft + 1 })] }
      if e.last then s.deliverToken ce 1 tok else s

/-- A slot frame that passes every test of R357. -/
def State.acceptFrame (s : State) (p : Nat) (ce : CircEntry) (e : SlotEntry) (f : Frame) (n : FrameNote) : State :=
  let g := s.seg ce.id
  let total := slotFrameCount e.bytes
  let fresh := g.inst ≠ f.inst
  let s := if fresh ∧ !g.frames.isEmpty ∧ g.frames.length < total then s.nak p ce g.inst else s
  let have1 := if fresh then [] else g.frames
  let frames := if f.index < total ∧ !have1.any (fun x => x.1 == f.index) then have1 ++ [(f.index, f.payload)] else have1
  let g : Segment := { g with inst := f.inst, frames := frames, poison := n.poison || (!fresh && g.poison),
                              missing := if fresh then false else g.missing }
  let s := s.setSeg ce.id g
  if frames.length = total ∧ have1.length < total then
    s.wholeInstance p ce e f.inst
      ⟨framesData frames total e.bytes, g.poison, n.pieces, n.op, n.ord, foreignCmd, foreignCmd.ctx, 0xFF, 0, (0xFFFF, 0xFFFF), 0⟩
  else s

/-- A sticky count of discarded slot frames. -/
def State.mismatch (s : State) (cnt ovf : Field) (p : Nat) : State :=
  let s := s.bump cnt p
  if s.fld cnt p = 2 ^ 48 - 1 then s.raise ovf p else s

/-- A good slot frame (R357). One that fails the GEN test is a frame of its circuit's instance that was not accepted (R358). -/
def State.slotFrame (s : State) (p : Nat) (f : Frame) (n : FrameNote) : State :=
  let seg := (s.ingressSegs p).find? (fun x => x.1.id == f.circ)
  if f.gen ≠ s.fld Fld.HUB_SIMG_GEN_GENERATION % 256 then
    let s := s.mismatch Fld.FAB_GEN_MISMATCH_COUNT Fld.FAB_GEN_MISMATCH_OVF p
    match seg with
    | some x => s.spoilSeg p x
    | none => s
  else
    let bad := s.mismatch Fld.FAB_SLOT_MISMATCH_COUNT Fld.FAB_SLOT_MISMATCH_OVF p
    match seg with
    | none => bad
    | some (ce, e) => if s.inWindow ce e f.inst ∧ !s.slotDown p then s.acceptFrame p ce e f n else bad

/-! ## Packet frames (R361 to R363, R365) -/

/-- The units of a packet that leaves a receive buffer return. -/
def State.freeUnits (s : State) (p : Nat) (x : Packet) : State := s.pushMsg p ⟨3, x.vc, x.units, (0, 0)⟩

/-- R365, R375: a packet for another module goes on by this module's entry; one that cannot is answered with ERROR, or discarded. -/
def State.forward (s : State) (x : Packet) : State :=
  let refuse := fun (status : Nat) => if x.vc = 0 then s.refusePacket x status else s.discardPacket
  if s.removed x.dest ∨ s.removed x.src then refuse stDead
  else if x.hops = 0 then refuse stAccessError
  else match s.nextPort x.dest with
    | none => refuse stAccessError
    | some q => s.queuePacket q { x with hops := x.hops - 1 }

/-- R366: the packet's route epoch is older than the highest seen from its source. -/
def State.stale (s : State) (x : Packet) : Bool :=
  match s.epochs.find? (fun e => e.1 == x.src) with
  | some e => decide (128 ≤ (x.epoch + 256 - e.2 % 256) % 256)
  | none => false

def State.seeEpoch (s : State) (x : Packet) : State :=
  { s with epochs := (x.src, x.epoch) :: s.epochs.filter (fun e => e.1 != x.src) }

/-- A packet for this module passes its checks, or is discarded: a removed source (R375), an old epoch (R366). -/
def State.admitRequest (s : State) (x : Packet) : State × Bool :=
  if s.removed x.src then (if x.vc = 0 then s.refusePacket x stDead else s.discardPacket, false)
  else if s.stale x then (s, false)
  else (s.seeEpoch x, true)

/-- A packet whose last byte has arrived: a notice for another module goes on at once; the rest wait to be acted on. -/
def State.packetArrives (s : State) (p : Nat) (x : Packet) : State :=
  if x.typ = pkNotice ∧ x.dest ≠ s.selfModule then (s.forward x).freeUnits p x
  else
    let v := s.port p
    s.setPort p { v with arrived := v.arrived ++ [x] }

/-- PKT_RETRY is raised, and frames are discarded until the resent one comes. -/
def State.askRetry (s : State) (p : Nat) : State :=
  let v := s.port p
  ((s.setPort p { v with discarding := true }).pushMsg p ⟨2, 0, v.rxSeq, (0, 0)⟩).portRetry p

/-- A good packet frame: the packets that end in it arrive. -/
def State.packetFrame (s : State) (p : Nat) (f : Frame) : State :=
  let v := s.port p
  if f.seq = v.rxSeq then
    let r := unpack (v.rx.length + f.payload.length) (v.rx ++ f.payload)
    let s := s.setPort p { v with rxSeq := (v.rxSeq + 1) % 2 ^ 16, discarding := false, rx := r.2 }
    r.1.foldl (fun s x => s.packetArrives p x) (s.pushMsg p ⟨1, 0, f.seq, (0, 0)⟩)
  else if seqDist f.seq v.rxSeq < 2 ^ 15 then s.pushMsg p ⟨1, 0, seqDist 1 v.rxSeq, (0, 0)⟩
  else if v.discarding then s
  else s.askRetry p

/-! ## Time on links (R370, R371) -/

/-- A time value or echo updates the port's measurements; the port that is the source steers fabric time. ps is the time of the frame's arrival after
the current beat began. -/
def State.frameTime (s : State) (p : Nat) (f : Frame) (ps : Nat) (n : FrameNote) : State :=
  let now : Int := (s.ft : Int) * 8000 + ps
  if n.echo then
    let low := f.time / 2 ^ 48
    let sent : Nat := s.ft - (s.ft + 2 ^ 16 - low) % 2 ^ 16
    let d : Int := (now - (sent : Int) * 8000 - ((f.time % 2 ^ 48 : Nat) : Int)) / 2
    s.setFld Fld.FAB_PORT_TIME_DELAY p (max 0 d).toNat
  else if f.time = 0 then s
  else
    let v := s.port p
    let s := s.setPort p { v with heard := some (f.time, (s.ft * 8000 + ps)) }
    let err := now - ((f.time : Int) * 8000 + s.fld Fld.FAB_PORT_TIME_DELAY p)
    let s := s.setFld Fld.FAB_PORT_TIME_PHASE_ERR p (ofInt 32 (max (-2147483648) (min 2147483647 err)))
    let s := if err.natAbs > 16000 then s.raise Fld.FAB_PORT_STATUS_TIME_WARN p else s
    if s.fld Fld.HUB_FT_CTL_SOURCE = 3 ∧ s.fld Fld.HUB_FT_CTL_PORT = p then s.measure (err * 25) else s

/-! ## A frame that a port receives (R349, R350, R357, R363) -/

/-- A link message (R351); one of kind 0 is empty. -/
def State.linkMsg (s : State) (p : Nat) (m : LinkMsg) : State :=
  match m.kind with
  | 1 => s.pktAck p m.arg16
  | 2 => s.pktRetry p m.arg16
  | 3 => s.vcCredit p m.arg8 m.arg16
  | 4 => s.circuitCredit p m.arg16 m.arg8 m.note
  | 5 => s.instAck p m.arg16 m.arg8
  | 6 => s.instNak p m.arg16 m.arg8
  | _ => s

def State.badFrame (s : State) (p : Nat) : State :=
  let v := s.port p
  let s := s.setPort p { v with bad := (v.bad.filter (fun b => decide (s.ft < b + 125000))) ++ [s.ft] }
  let s := s.bump Fld.FAB_PORT_ERR_BAD p
  let s := if s.fld Fld.FAB_PORT_ERR_BAD p = 0xFFFFFF then s.raise Fld.FAB_PORT_ERR_OVF p else s
  (s.spoil p).askRetry p

/-- A good frame: a keepalive, its time, its messages, and its slot or packet content. -/
def State.goodFrame (s : State) (p : Nat) (f : Frame) (corrected : Bool) (ps : Nat) (n : FrameNote) : State :=
  let v := s.port p
  let s := s.setPort p { v with lastGood := s.ft }
  let s := if corrected then
      let s := s.bump Fld.FAB_PORT_ERR_CORRECTED p
      if s.fld Fld.FAB_PORT_ERR_CORRECTED p = 0x7FFFFF then s.raise Fld.FAB_PORT_ERR_OVF p else s
    else s
  let s := f.msgs.foldl (fun s m => s.linkMsg p m) (s.frameTime p f ps n)
  if f.typ = 2 then s.slotFrame p f n else if f.typ = 1 then s.packetFrame p f else s

/-- FABRIC_FRAME: 896 bytes arrive at a port, ps after the current beat began. -/
def State.fabricFrame (s : State) (p : Nat) (raw : List Byte) (ps : Nat) (n : FrameNote) : State :=
  if !s.portUp p then s
  else match decodeFrame raw n with
    | none => s.badFrame p
    | some (f, corrected) => s.goodFrame p f corrected ps n

/-! ## The frame that a port sends in a beat (R349, R352, R357, R360 to R363, R370) -/

/-- A slot of the image in force occupies the port's egress at this beat: it is no free beat. -/
def State.slotBeat (s : State) (p : Nat) : Bool :=
  (slots s.tables).any (fun e => e.kind == 7 && e.res == p && e.dir == 0 && (match s.circEntry e.circ with
    | some c => decide (e.start ≤ s.ft % 2 ^ c.k) && decide (s.ft % 2 ^ c.k < e.start + e.length)
    | none => false))

/-- Packets enter a frame with some bytes of room: the packets to judge, those that stay, the payload so far, and the packets that end in it. A packet
without credits waits, and later ones of other channels pass it. -/
def Port.pack (v : Port) (room : Nat) : List Packet → List Packet → List Byte → List Packet → Port × List Byte × List Packet
  | [], kept, b, ends => ({ v with egress := kept }, b, ends)
  | x :: rest, kept, b, ends =>
    if room = 0 ∨ kept.any (fun y => y.vc == x.vc) ∨ v.credit x.vc < x.units then v.pack room rest (kept ++ [x]) b ends
    else
      let v := v.setCredit x.vc (v.credit x.vc - x.units)
      if x.bytes.length ≤ room then v.pack (room - x.bytes.length) rest kept (b ++ x.bytes) (ends ++ [x])
      else { v with begun := some (x, x.bytes.drop room) }.pack 0 rest kept (b ++ x.bytes.take room) ends

/-- The payload of the next new packet frame, with the packets that end in it. -/
def Port.nextPayload (v : Port) : Port × List Byte × List Packet :=
  match v.begun with
  | some (x, b) => { v with begun := none }.pack (800 - b.length) v.egress [] b [x]
  | none => v.pack 800 v.egress [] [] []

def idleFrame : Frame := ⟨0, 0, 0, 0, 0, 0, 0, [], []⟩

/-- The frame of a free beat: a packet frame that is asked for again, a new one, or an idle one. -/
def Port.freeBeat (v : Port) (ft : Nat) : Port × Frame :=
  match v.again with
  | q :: rest => ({ v with again := rest }, match v.retry.find? (fun x => x.seq == q) with
    | some x => { idleFrame with typ := 1, seq := q, payload := x.payload }
    | none => idleFrame)
  | [] =>
    let r := v.nextPayload
    if v.retry.length ≥ 256 ∨ r.2.1.isEmpty then (v, idleFrame)
    else
      let b := padTo 800 r.2.1
      ({ r.1 with seq := (v.seq + 1) % 2 ^ 16, retry := v.retry ++ [⟨v.seq, b, r.2.2⟩], ackBeat := if v.retry.isEmpty then ft else v.ackBeat },
       { idleFrame with typ := 1, seq := v.seq, payload := b })

/-- The frame of a beat: of the instance that is leaving; an idle one in a slot beat; or a free beat's. -/
def Port.beatFrame (v : Port) (ft : Nat) (slot : Bool) : Port × Frame × FrameNote :=
  match v.slotQ with
  | x :: rest => ({ v with slotQ := rest }, x.1, x.2)
  | [] => if slot then (v, idleFrame, .none) else ((v.freeBeat ft).1, (v.freeBeat ft).2, .none)

/-- TIME of a frame sent at ft, 2 ns after the beat began (R356, R370), and whether it is an echo. -/
def Port.timeField (v : Port) (ft : Nat) : Nat × Bool :=
  if ft % 64 = 0 then (ft, false)
  else if ft % 64 = 32 then match v.heard with
    | some (t, arrival) => (t % 2 ^ 16 * 2 ^ 48 + (ft * 8000 + 2000 - arrival) % 2 ^ 48, true)
    | none => (0, false)
  else (0, false)

/-- A port that is UP sends its frame of the beat, with two waiting link messages. -/
def State.portFrame (s : State) (p : Nat) : State :=
  if !s.portUp p then s
  else
    let v := s.port p
    let r := v.beatFrame s.ft (s.slotBeat p)
    let m := v.msgs.take 2
    let t := v.timeField s.ft
    let met := fun (i : Nat) => ((m[i]?).map (·.note)).getD (0, 0)
    let f := { r.2.1 with gen := s.fld Fld.HUB_SIMG_GEN_GENERATION % 256, time := t.1, msgs := m }
    (s.setPort p { r.1 with msgs := v.msgs.drop 2 }).emit (.frame p f.bytes { r.2.2 with met0 := met 0, met1 := met 1, echo := t.2 })

/-- Windows of a port's ingress instances that have closed as the beat begins. -/
def State.portWindows (s : State) (p : Nat) : State :=
  if !s.portUp p then s else (s.ingressSegs p).foldl (fun s x => s.closeWindow p x) s

def execFabricFrame (port : Nat) (f : FrameIn) (s : State) : Host.Outcome State Fault Refusal :=
  answer (s.fabricFrame port f.raw f.ps f.note)
def execPktAck (port seq : Nat) (s : State) : Host.Outcome State Fault Refusal := answer (if s.portUp port then s.pktAck port seq else s)
def execPktRetry (port seq : Nat) (s : State) : Host.Outcome State Fault Refusal := answer (if s.portUp port then s.pktRetry port seq else s)
def execPktRetryTimeout (port : Nat) (s : State) : Host.Outcome State Fault Refusal := answer (if s.portUp port then s.pktTimeout port else s)
def execVcCredit (port vc n : Nat) (s : State) : Host.Outcome State Fault Refusal := answer (if s.portUp port then s.vcCredit port vc n else s)
def execCircuitCredit (port circ : Nat) (n : Nat × (Nat × Nat)) (s : State) : Host.Outcome State Fault Refusal :=
  answer (if s.portUp port then s.circuitCredit port circ n.1 n.2 else s)
def execInstAck (port circ inst : Nat) (s : State) : Host.Outcome State Fault Refusal := answer (if s.portUp port then s.instAck port circ inst else s)
def execInstNak (port circ inst : Nat) (s : State) : Host.Outcome State Fault Refusal := answer (if s.portUp port then s.instNak port circ inst else s)
def execInstanceAckTimeout (circ : Nat) (s : State) : Host.Outcome State Fault Refusal := answer (s.instTimeout circ)
/-- RETRAIN: a write of FAB_PORT_CTL.RETRAIN. -/
def execRetrain (rq : Requester) (port : Nat) (s : State) : Host.Outcome State Fault Refusal :=
  answer (if port < 16 then s.gated rq .FAB_PORT_CTL port (fun s => s.retrain port) else s)
/-- PORT_DISABLE: a write of FAB_PORT_CTL.DISABLE. -/
def execPortDisable (rq : Requester) (port : Nat) (on : Bool) (s : State) : Host.Outcome State Fault Refusal :=
  answer (if port < 16 then s.gated rq .FAB_PORT_CTL port (fun s => s.writeDisable port on) else s)
def execTrainingComplete (port module nport group : Nat) (s : State) : Host.Outcome State Fault Refusal :=
  answer (s.trainingComplete port module nport group)
def execTrainingTimeout (port : Nat) (s : State) : Host.Outcome State Fault Refusal := answer (s.trainingTimeout port)
def execPortSilenceTimeout (port : Nat) (s : State) : Host.Outcome State Fault Refusal := answer (s.portSilence port)
def execPortBadFrameLimit (port : Nat) (s : State) : Host.Outcome State Fault Refusal := answer (s.portBadLimit port)
def execTrainingSequenceReceived (port : Nat) (s : State) : Host.Outcome State Fault Refusal := answer (s.loseIfUp port 3)

end Sys2Proof.Machine
end

