-- ==== Sys2Proof/Machine/Host.lean ====
section
/-! DEFINITION. The PCI Express endpoint (R398 to R407): BAR2, losses of the host, attachment, and completions. -/

namespace Sys2Proof.Machine

/-! ## BAR0 and BAR2 (R399 to R401) -/

/-- A BAR access answered with Unsupported Request, or dropped: counted (DEDUCED, log 45). -/
def State.barError (s : State) (isWrite : Bool) : State :=
  let s := s.bump Fld.HOST_STATUS_BAR_ERRORS 0
  if isWrite then s else s.emit (.hostAnswer 1 [])

/-- Device address of a BAR2 offset. -/
def State.bar2Addr (s : State) (off : Nat) : Nat := s.fld Fld.HOST_BAR2_BASE * 2 ^ 28 + off % 2 ^ 28

def State.bar2Rq (s : State) : Requester := ⟨.host, 0, s.fld Fld.HOST_BAR2_PART⟩

/-- The window is open, and the address is not a register. -/
def State.bar2Open (s : State) (off : Nat) : Bool :=
  s.flag Fld.HOST_BAR2_EN && s.hostUp && !(match locate (s.bar2Addr off) with
    | .reg _ => true
    | _ => false)

/-- BAR2_READ: a volatile read at the point of coherence, after the host's earlier writes (R282). -/
def State.bar2Read (s : State) (off n : Nat) : State :=
  if !s.bar2Open off then s.barError false
  else if s.hostWritesOpen then s.openAccess s.bar2Rq none (s.bar2Addr off) n 1 .hostRead
  else match s.issueRead s.bar2Rq none (s.bar2Addr off) n .hostRead with
    | (s, .done st b) => s.hostAnswered st b
    | (s, .open) => s

/-- BAR2_WRITE: a posted write, performed after those that arrived before it (R398); with EP set, every granule that it touches becomes poisoned. -/
def State.bar2Write (s : State) (off : Nat) (b : List Byte) (ep : Bool) : State :=
  if !s.bar2Open off then s.barError true
  else
    let a := s.bar2Addr off
    if s.hostWritesOpen then s.parkHostWrite s.bar2Rq a b (.hostWrite ep) else s.issueHostWrite s.bar2Rq a b ep

/-- A write of HOST_BAR2 (R401): a BASE in the host aperture is refused. -/
def State.writeBar2 (s : State) (w mask : Nat) : State :=
  let v := s.stored .HOST_BAR2 0 w mask
  match locate (getBits v 28 24 * 2 ^ 28) with
  | .host _ => s.raise Fld.HOST_STATUS_BAD_BASE
  | _ => s.storePlain .HOST_BAR2 0 w mask

/-! ## Loss and attachment (R404 to R407) -/

def hcLinkDown : Nat := 1
def hcReset : Nat := 2
def hcFlr : Nat := 3
def hcBme : Nat := 4
def hcD3 : Nat := 5
def hcDetach : Nat := 6
def hcChipReset : Nat := 7

/-- HOST_LOSS (R405): the completion of a host read in progress will be discarded. -/
def State.hostLoss (s : State) (cause : Nat) : State :=
  let s := s.setFld Fld.HOST_ATTACH_STATE 0 0
  let s := s.setFld Fld.HOST_ATTACH_GENERATION 0 (s.fld Fld.HOST_ATTACH_GENERATION + 1)
  let s := (s.setFld Fld.HOST_ATTACH_CAUSE 0 cause).raise Fld.HOST_STATUS_LOST
  let s := (s.raise Fld.HUB_STICKY_HOST_LOST).setFld Fld.HOST_BAR2_EN 0 0
  let s := s.dropHostAccesses
  let s := { s with opens := s.opens.map (fun o => if o.waiter = .hostRead then { o with waiter := .plain } else o) }
  ((circuits s.tables).filter (fun c => c.src / 4096 == 7 || c.dst / 4096 == 7)).foldl (fun s c =>
    (s.circ c.id).pend.foldl (fun s r => s.failCmd r stHostLost) s) s

/-- HOST_LINK_DOWN: the link leaves DL_Active. -/
def State.hostLinkDown (s : State) : State :=
  if s.flag Fld.HOST_STATUS_DL_ACTIVE then
    { (((s.setFld Fld.HOST_STATUS_DL_ACTIVE 0 0).setFld Fld.HOST_STATUS_SPEED 0 0).setFld Fld.HOST_STATUS_WIDTH 0 0).hostLoss hcLinkDown
      with bme := false }
  else s

/-- PERST_N or a hot reset resets the endpoint: its link goes down with it. -/
def State.perst (s : State) : State :=
  { (((s.setFld Fld.HOST_STATUS_DL_ACTIVE 0 0).setFld Fld.HOST_STATUS_SPEED 0 0).setFld Fld.HOST_STATUS_WIDTH 0 0).hostLoss hcReset
    with bme := false }

/-- HOST_LINK_UP: the link is DL_Active and the host has enumerated the function, which sets Bus Master Enable. -/
def State.hostLinkUp (s : State) (speed width : Nat) : State :=
  { ((s.setFld Fld.HOST_STATUS_DL_ACTIVE 0 1).setFld Fld.HOST_STATUS_SPEED 0 speed).setFld Fld.HOST_STATUS_WIDTH 0 width with bme := true }

def State.bmeClear (s : State) : State := if s.bme then { s.hostLoss hcBme with bme := false } else s

/-- HOST_ATTACH.DETACH: ignored while DETACHED. -/
def State.detach (s : State) : State := if s.hostUp then s.hostLoss hcDetach else s

/-- HOST_ATTACH.ATTACH (R406): the first failing condition in its order. -/
def State.attach (s : State) : State :=
  if s.hostUp then s.setFld Fld.HOST_ATTACH_RESULT 0 3
  else if s.fld Fld.HOST_ATTACH_GEN_ACK_GEN ≠ s.fld Fld.HOST_ATTACH_GENERATION then s.setFld Fld.HOST_ATTACH_RESULT 0 1
  else if !s.flag Fld.HOST_STATUS_DL_ACTIVE ∨ !s.bme then s.setFld Fld.HOST_ATTACH_RESULT 0 2
  else (s.setFld Fld.HOST_ATTACH_RESULT 0 0).setFld Fld.HOST_ATTACH_STATE 0 1

/-- A write of HOST_ATTACH: DETACH acts before ATTACH, as a loss does (R407). -/
def State.writeAttach (s : State) (w : Nat) : State :=
  let s := if bit w 1 then s.detach else s
  if bit w 0 then s.attach else s

/-! ## Completions (R403) -/

/-- The open access is a read of host memory, or a write that a read behind it completes (R284). -/
def State.hostReadOpen (s : State) (id : Nat) : Bool :=
  s.opens.any (fun o => o.id == id && o.op != 3 && !o.hostParked && o.module.isNone && (match locate o.addr with
    | .host _ => true
    | _ => false))

/-- Status of a completion: successful, poisoned (EP), or an error. -/
def completionStatus (code : Nat) : Nat := if code = 0 then stOk else if code = 1 then stPoisoned else stAccessError

def State.hostCompletion (s : State) (id code : Nat) (data : List Byte) : State :=
  if !s.hostReadOpen id then s
  else
    let wrote := s.opens.any (fun o => o.id == id && o.op == 2)
    s.finishAccess id (if wrote ∧ code ≤ 1 then stOk else completionStatus code) (if wrote then [] else data)

/-- MSI-X: a vector whose mask clears while it is pending is sent (R402, R523). -/
def State.msixUnmask (s : State) (v : Nat) : State :=
  if !s.flag Fld.HOST_MSIX_DATA_MASK v ∧ bit (s.fld Fld.HOST_PBA_PENDING) v then
    (s.setFld Fld.HOST_PBA_PENDING 0 (without (s.fld Fld.HOST_PBA_PENDING) v)).emit
      (.msix v (s.fld Fld.HOST_MSIX_ADDR_ADDRESS v * 4) (s.fld Fld.HOST_MSIX_DATA_DATA v))
  else s

def execBar2Read (off n : Nat) (s : State) : Host.Outcome State Fault Refusal := answer (s.bar2Read off n)
def execBar2Write (off : Nat) (data : List Byte) (ep : Bool) (s : State) : Host.Outcome State Fault Refusal := answer (s.bar2Write off data ep)
def execHostBar2Write (rq : Requester) (w : Nat) (s : State) : Host.Outcome State Fault Refusal :=
  answer (s.gated rq .HOST_BAR2 0 (fun s => s.writeBar2 w (2 ^ 64 - 1)))
def execHostLinkDown (s : State) : Host.Outcome State Fault Refusal := answer s.hostLinkDown
def execPerst (s : State) : Host.Outcome State Fault Refusal := answer s.perst
/-- FLR clears Bus Master Enable with the function's configuration. -/
def execFlr (s : State) : Host.Outcome State Fault Refusal := answer { s.hostLoss hcFlr with bme := false }
def execBmeClear (s : State) : Host.Outcome State Fault Refusal := answer s.bmeClear
def execD3Entry (s : State) : Host.Outcome State Fault Refusal := answer (s.hostLoss hcD3)
def execDetach (rq : Requester) (s : State) : Host.Outcome State Fault Refusal := answer (s.gated rq .HOST_ATTACH 0 State.detach)
def execAttach (rq : Requester) (s : State) : Host.Outcome State Fault Refusal := answer (s.gated rq .HOST_ATTACH 0 State.attach)
def execHostCompletion (id code : Nat) (data : List Byte) (s : State) : Host.Outcome State Fault Refusal :=
  answer (s.hostCompletion id code data)
def execHostCompletionTimeout (id : Nat) (s : State) : Host.Outcome State Fault Refusal :=
  answer (if s.hostReadOpen id then s.finishAccess id stAccessError [] else s)
def execHostLinkUp (speed width : Nat) (s : State) : Host.Outcome State Fault Refusal := answer (s.hostLinkUp speed width)

end Sys2Proof.Machine
end

