-- ==== Sys2Proof/Machine/Eth.lean ====
section
/-! DEFINITION. The Ethernet ports (R408 to R414): receive classification, receive and transmit queues, RDMA windows, circuits over
queue pairs, and the NVMe over Fabrics initiator. -/

namespace Sys2Proof.Machine

/-- Requester of a receive or transmit queue: the partition of the CPU core that owns it (R414). -/
def State.ethRq (s : State) (port core : Nat) : Requester := ⟨.eth, port, s.partOfCpu core⟩

/-! ## Classification (R413) -/

/-- A port's 40-byte hash key, bytes in order: ETH_HASH_KEYi holds bytes 8i to 8i + 7. -/
def State.hashKey (s : State) (port : Nat) : List Byte :=
  ((List.range 5).map (fun i => leBytes 8 (s.reg .ETH_HASH_KEY (port * 5 + i)).toNat)).flatten

/-- Toeplitz hash: for each set bit of the input, highest first, the 32 bits of the key that begin at its place. -/
def toeplitz (key input : List Byte) : Nat :=
  let k := beNat key
  let b := input.take 36
  let v := beNat b
  let n := 8 * b.length
  (List.range n).foldl (fun h i => if bit v (n - 1 - i) then h ^^^ getBits k (288 - i) 32 else h) 0

/-- A rule matches a frame. -/
def State.ruleMatches (s : State) (port e : Nat) (f : EthFrame) : Bool :=
  let i := port * 512 + e
  let ipv := s.fld Fld.ETH_STEER_MATCH_IPV i
  let proto := s.fld Fld.ETH_STEER_MATCH_PROTO i
  let vlan := s.fld Fld.ETH_STEER_MATCH_VLAN i
  s.flag Fld.ETH_STEER_MATCH_VALID i && (ipv == 0 || ipv == f.ipv) && (proto == 0 || proto == f.proto)
  && (vlan == 0xFFF || vlan == f.vlan) && decide (s.fld Fld.ETH_STEER_MATCH_DPORT_LO i ≤ f.dport)
  && decide (f.dport ≤ s.fld Fld.ETH_STEER_MATCH_DPORT_HI i)

/-- A rule is ignored when its queue range passes 255. -/
def State.ruleValid (s : State) (port e : Nat) : Bool :=
  let i := port * 512 + e
  s.fld Fld.ETH_STEER_ACT_KIND i != 2
  || decide (s.fld Fld.ETH_STEER_ACT_QUEUE i + 2 ^ s.fld Fld.ETH_STEER_ACT_HASH_LOG2 i ≤ 256)

/-- The first valid entry that matches. -/
def State.steer (s : State) (port : Nat) (f : EthFrame) : Option Nat :=
  (List.range 512).find? (fun e => s.ruleMatches port e f && s.ruleValid port e)

def State.rxDrop (s : State) (port : Nat) : State := s.bump Fld.ETH_STATUS_RX_DROPS port

/-! ## Receive and transmit queues (R414) -/

/-- Address of descriptor n of a ring. -/
def ringSlot (base l n : Nat) : Nat := base * 4096 + n % 2 ^ l * 16

/-- A frame is delivered to a receive queue; one that finds no posted buffer, or whose accesses fail, is dropped and counted. -/
def State.deliverFrame (s : State) (port q rule hash : Nat) (f : EthFrame) : State :=
  let i := port * 256 + q
  let head := s.fld Fld.ETH_RXQ_PTR_HEAD i
  if !s.flag Fld.ETH_RXQ_EN i ∨ head = s.fld Fld.ETH_RXQ_PTR_TAIL i then s.rxDrop port
  else
    let rq := s.ethRq port (s.fld Fld.ETH_RXQ_CORE i)
    let d := ringSlot (s.fld Fld.ETH_RXQ_BASE i) (s.fld Fld.ETH_RXQ_LOG2_ENTRIES i) head
    match s.readLocal rq d 16 with
    | (s, st, b) =>
      if st ≠ stOk then s.rxDrop port
      else
        let len := fieldAt b 8 2
        let data := f.data.take len
        let status := if f.data.length > len then 1 else if f.csumOk then 0 else 2
        let w := if data.isEmpty then (s, stOk) else s.writeLocal rq none (getBits (fieldAt b 0 8) 0 52) data
        if w.2 ≠ stOk then w.1.rxDrop port
        else
          let word := data.length + rule * 2 ^ 16 + status * 2 ^ 28 + hash % 2 ^ 32 * 2 ^ 32
          let v := w.1.writeLocal rq none (d + 8) (leBytes 8 word)
          if v.2 ≠ stOk then v.1.rxDrop port
          else (v.1.setFld Fld.ETH_RXQ_PTR_HEAD i (head + 1)).msi Fld.ETH_RXQ_MSI_FILE Fld.ETH_RXQ_MSI_EN Fld.ETH_RXQ_MSI_IDENTITY i

/-- Steps 4 and 5 of R413. A frame that no hash group takes has a free HASH. -/
def State.steerFrame (s : State) (port : Nat) (f : EthFrame) : State :=
  let free := s.free % 2 ^ 32
  match s.steer port f with
  | some e =>
    let i := port * 512 + e
    let q := s.fld Fld.ETH_STEER_ACT_QUEUE i
    match s.fld Fld.ETH_STEER_ACT_KIND i with
    | 1 => s.spend.deliverFrame port q e free f
    | 2 =>
      let h := toeplitz (s.hashKey port) f.flow
      s.deliverFrame port (q + h % 2 ^ s.fld Fld.ETH_STEER_ACT_HASH_LOG2 i) e h f
    | _ => s
  | none =>
    if s.flag Fld.ETH_STEER_CTL_DEFAULT_EN port then s.spend.deliverFrame port (s.fld Fld.ETH_STEER_CTL_DEFAULT port) 0x3FF free f
    else s.rxDrop port

/-- ETH_RX_FRAME (R413) (DESIGN CHOICE, log 46). -/
def State.ethRx (s : State) (port : Nat) (f : EthFrame) : State :=
  if !s.flag Fld.ETH_STATUS_LINK_UP port then s
  else if !f.fcsOk then s.bump Fld.ETH_STATUS_FCS_DROPS port
  else match f.ptp with
    | some (sub, m) =>
      if s.fld Fld.HUB_FT_CTL_ETH_PORT = port ∧ s.fld Fld.HUB_FT_CTL_SOURCE = 2 then (s.ptpMessage port sub m).steerFrame port f
      else if f.roce then s else s.steerFrame port f
    | none => if f.roce then s else s.steerFrame port f

/-- Posted descriptors are consumed in order, each frame sent; a frame whose accesses fail is not sent. -/
def State.sendFrames (s : State) (port q : Nat) : Nat → State
  | 0 => s
  | n + 1 =>
    let i := port * 256 + q
    let head := s.fld Fld.ETH_TXQ_PTR_HEAD i
    if head = s.fld Fld.ETH_TXQ_PTR_TAIL i then s
    else
      let rq := s.ethRq port (s.fld Fld.ETH_TXQ_CORE i)
      let d := s.readLocal rq (ringSlot (s.fld Fld.ETH_TXQ_BASE i) (s.fld Fld.ETH_TXQ_LOG2_ENTRIES i) head) 16
      let b := d.2.2
      let s := d.1
      let len := fieldAt b 8 2
      let s := if d.2.1 ≠ stOk ∨ len = 0 then s
        else
          let r := s.readLocal rq (getBits (fieldAt b 0 8) 0 52) len
          if r.2.1 = stOk then r.1.emit (.ethFrame port r.2.2 (bit (fieldAt b 8 8) 16)) else r.1
      State.sendFrames (s.setFld Fld.ETH_TXQ_PTR_HEAD i (head + 1)) port q n

/-- The frames that TAIL has passed are sent while the queue is in use and the link is up; the MSI follows the last. -/
def State.drainTx (s : State) (port q : Nat) : State :=
  let i := port * 256 + q
  let n := (s.fld Fld.ETH_TXQ_PTR_TAIL i + 2 ^ 32 - s.fld Fld.ETH_TXQ_PTR_HEAD i) % 2 ^ 32
  if !s.flag Fld.ETH_TXQ_EN i ∨ !s.flag Fld.ETH_STATUS_LINK_UP port ∨ n = 0 then s
  else (s.sendFrames port q n).msi Fld.ETH_TXQ_MSI_FILE Fld.ETH_TXQ_MSI_EN Fld.ETH_TXQ_MSI_IDENTITY i

def State.writeTxTail (s : State) (port q tail : Nat) : State :=
  (s.setFld Fld.ETH_TXQ_PTR_TAIL (port * 256 + q) tail).drainTx port q

/-- A write of ETH_RXQ or ETH_TXQ (R414, R415): L outside 4 to 16 leaves L, and EN = 1 for a core that may not own the queue leaves the
register. -/
def State.writeEthQueue (s : State) (r : Reg) (i w mask : Nat) : State :=
  let v := s.stored r i w mask
  let core := getBits v 56 7
  let link := s.fld Fld.HUB_SIMG_STATUS_PERSONALITY == 1
  if bit v 63 && (decide (core > 95) || (link && decide (core > 1))) then s
  else
    let old := getBits (s.reg r i).toNat 0 5
    let l := getBits v 0 5
    s.setReg r i (BitVec.ofNat 64 (if 4 ≤ l ∧ l ≤ 16 then v else putBits v 0 5 old))

/-! ## RDMA windows (R409, R410) -/

/-- The window of a request, its device address and the partition it presents; none where a check of R410 fails. -/
def State.rdmaWindow (s : State) (port rkey va n : Nat) (perm : Field) : Option (Nat × Nat × Requester) :=
  let w := rkey % 256
  if rkey / 256 % 2 ^ 24 = s.fld Fld.ETH_RWIN_CTL_KEY w ∧ s.flag Fld.ETH_RWIN_CTL_VALID w ∧ bit (s.fld Fld.ETH_RWIN_CTL_PORTS w) port ∧
      s.flag perm w ∧ va + n ≤ s.fld Fld.ETH_RWIN_CTL_SIZE w * 4096 then
    some (w, s.fld Fld.ETH_RWIN_BASE_ADDR w * 4096 + va, ⟨.eth, port, s.fld Fld.ETH_RWIN_CTL_PART w⟩)
  else none

/-- Parts of at most 256 bytes. -/
def parts256 (a n : Nat) : List (Nat × Nat) :=
  (List.range ((n + 255) / 256)).map (fun i => (a + 256 * i, min 256 (n - 256 * i)))

/-- The parts of an RDMA read; each waits while an earlier write of its queue pair has not been performed (R282). -/
def State.rdmaReadParts (s : State) (rq : Requester) (port qp tag w : Nat) : List (Nat × Nat) → State
  | [] => s
  | p :: rest =>
    let s := if s.qpWrites port qp then s.openAccess rq none p.1 p.2 1 (.rdma port qp tag w)
      else match s.issueRead rq none p.1 p.2 (.rdma port qp tag w) with
        | (s, .done st b) => s.rdmaAnswer port qp tag 1 p.1 st b
        | (s, .open) => s
    State.rdmaReadParts s rq port qp tag w rest

/-- The parts of an RDMA write: the worst status of those that ended at once, and whether any is open. -/
def State.rdmaWriteParts (s : State) (rq : Requester) (wt : Waiter) (b : List Byte) : List (Nat × Nat) → State × Nat × Bool
  | [] => (s, stOk, false)
  | p :: rest =>
    let r := s.issueWrite rq none p.1 (b.take p.2) wt
    let t := State.rdmaWriteParts r.1 rq wt (b.drop p.2) rest
    match r.2 with
    | .done st _ => (t.1, worse st t.2.1, t.2.2)
    | .open => (t.1, t.2.1, true)

def State.rdmaRead (s : State) (port qp tag rkey va n : Nat) : State :=
  match s.rdmaWindow port rkey va n Fld.ETH_RWIN_CTL_READ with
  | none => s.rdmaAnswer port qp tag 1 va stAccessError []
  | some (w, a, rq) => if n = 0 then s.rdmaAnswer port qp tag 1 a stOk [] else s.rdmaReadParts rq port qp tag w (parts256 a n)

def State.rdmaWrite (s : State) (port qp tag rkey va : Nat) (data : List Byte) : State :=
  match s.rdmaWindow port rkey va data.length Fld.ETH_RWIN_CTL_WRITE with
  | none => s.rdmaAnswer port qp tag 2 va stAccessError []
  | some (w, a, rq) =>
    let wt := Waiter.rdma port qp tag w
    let r := s.rdmaWriteParts rq wt data (parts256 a data.length)
    let t := r.1.claimOpens s.nextId wt
    if r.2.1 ≠ stOk then
      let os : List OpenAccess := t.opens.map (fun o => if o.waiter = wt then { o with waiter := .plain } else o)
      ({ t with opens := os }).rdmaAnswer port qp tag 2 a r.2.1 []
    else if t.opens.any (fun o => o.waiter == wt) then t
    else t.rdmaAnswer port qp tag 2 a stOk []

/-- Compare-and-Swap (operation 9) or Fetch-and-Add (operation 1) of 8 bytes; RoCEv2 requires alignment (DESIGN CHOICE, log 47). -/
def State.rdmaAtomic (s : State) (port qp tag rkey va : Nat) (cas : Bool) (x cmp : Nat) : State :=
  match s.rdmaWindow port rkey va 8 Fld.ETH_RWIN_CTL_ATOMIC with
  | none => s.rdmaAnswer port qp tag 3 va stAccessError []
  | some (w, a, rq) =>
    if va % 8 ≠ 0 then s.rdmaAnswer port qp tag 3 va stAccessError []
    else match s.issueAtomic rq none a 8 (if cas then 9 else 1) x cmp (.rdma port qp tag w) with
      | (s, .done st b) => s.rdmaAnswer port qp tag 3 a st b
      | (s, .open) => s

/-- A write of ETH_RWIN_CTL: BUSY while a request accepted under the previous value is in progress. -/
def State.writeRwinCtl (s : State) (w v mask : Nat) : State :=
  let s := s.storePlain .ETH_RWIN_CTL w v mask
  if s.rwinOpen w then s.raise Fld.ETH_RWIN_CTL_BUSY w else s

/-- A queue pair's rate falls, by how much the spec leaves open; 2^32 is the full rate. -/
def State.congestion (s : State) (port qp : Nat) : State :=
  let k := port * 2 ^ 16 + qp
  let old := Store.get (fun _ => 2 ^ 32) s.qpRates k
  { s.spend with qpRates := Store.set (fun _ => 2 ^ 32) s.qpRates k (s.free % max 1 old) }

/-! ## Circuits over queue pairs (R411) -/

def State.isEthCirc (s : State) (c : Nat) : Bool := match s.circEntry c with
  | some e => e.dst / 4096 == 6
  | none => false

/-- A peer's acknowledgement returns the oldest token's credit. -/
def State.rdmaAcked (s : State) (c : Nat) : State :=
  let x := s.circ c
  if s.isEthCirc c ∧ x.held ≠ 0 then s.setCirc c { x with held := x.held - 1, returning := x.returning + 1 } else s

/-- A queue pair that exhausts its retries ends the pending commands; the tokens it held return their credits. -/
def State.qpExhausted (s : State) (c : Nat) : State :=
  if s.isEthCirc c then
    let s := s.killCircuit c
    let x := s.circ c
    s.setCirc c { x with held := 0, credits := x.credits + x.held }
  else s

/-! ## NVMe over Fabrics (R412) -/

/-- Requester of the initiator's writes: class 15 (R239). -/
def nvmeRq : Requester := ⟨.dma, 1, 0xFE⟩

/-- Data of a read lands in HBM4 or LPDDR6 in whole granules; a failure fails the firmware's request alone. -/
def State.nvmeCompletion (s : State) (a : Nat) (data : List Byte) (ok : Bool) : State :=
  if !ok then s.emit (.nvme false)
  else if a % 32 ≠ 0 ∨ data.length % 32 ≠ 0 ∨ data.isEmpty ∨ !cacheable a then s.emit (.nvme false)
  else match s.writeLocal nvmeRq none a data with
    | (s, st) => s.emit (.nvme (st == stOk))

def State.ethLink (s : State) (port : Nat) (up : Bool) : State :=
  if port < 2 then
    let s := s.setFld Fld.ETH_STATUS_LINK_UP port (if up then 1 else 0)
    if up then (List.range 256).foldl (fun s q => s.drainTx port q) s else s
  else s

def execEthRxFrame (port : Nat) (f : EthFrame) (s : State) : Host.Outcome State Fault Refusal :=
  answer (if port < 2 then s.ethRx port f else s)
/-- An ECN-marked packet of a queue pair is answered with a congestion notification (R409). -/
def State.ecnMarked (s : State) (port qp : Nat) (ecn : Bool) : State := if ecn then s.emit (.congestion port qp) else s

def execRdmaWrite (port qp : Nat) (tag : Nat × Bool) (rkey va : Nat) (data : List Byte) (s : State) : Host.Outcome State Fault Refusal :=
  answer (if port < 2 then (s.ecnMarked port qp tag.2).rdmaWrite port qp tag.1 rkey va data else s)
def execRdmaRead (port qp : Nat) (tag : Nat × Bool) (rkey va n : Nat) (s : State) : Host.Outcome State Fault Refusal :=
  answer (if port < 2 then (s.ecnMarked port qp tag.2).rdmaRead port qp tag.1 rkey va n else s)
def execRdmaAtomic (port qp : Nat) (tag : Nat × Bool) (rkey va : Nat) (cas : Bool) (x cmp : Nat) (s : State) : Host.Outcome State Fault Refusal :=
  answer (if port < 2 then (s.ecnMarked port qp tag.2).rdmaAtomic port qp tag.1 rkey va cas x cmp else s)
def execCongestionNotification (port qp : Nat) (s : State) : Host.Outcome State Fault Refusal :=
  answer (if port < 2 ∧ qp < 8192 then s.congestion port qp else s)
def execRdmaAck (circ : Nat) (s : State) : Host.Outcome State Fault Refusal := answer (s.rdmaAcked circ)
def execQpRetryExhausted (circ : Nat) (s : State) : Host.Outcome State Fault Refusal := answer (s.qpExhausted circ)
def execNvmeofCompletion (addr : Nat) (data : List Byte) (ok : Bool) (s : State) : Host.Outcome State Fault Refusal :=
  answer (s.nvmeCompletion addr data ok)
def execRwinCtlWrite (rq : Requester) (win w : Nat) (s : State) : Host.Outcome State Fault Refusal :=
  answer (if win < 256 then s.gated rq .ETH_RWIN_CTL win (fun s => s.writeRwinCtl win w (2 ^ 64 - 1)) else s)
def execTxqTailWrite (rq : Requester) (port q tail : Nat) (s : State) : Host.Outcome State Fault Refusal :=
  answer (if port < 2 ∧ q < 256 then s.gated rq .ETH_TXQ_PTR (port * 256 + q) (fun s => s.writeTxTail port q tail) else s)
def execEthLinkUp (port : Nat) (s : State) : Host.Outcome State Fault Refusal := answer (s.ethLink port true)
def execEthLinkDown (port : Nat) (s : State) : Host.Outcome State Fault Refusal := answer (s.ethLink port false)

end Sys2Proof.Machine
end

