-- ==== Sys2Proof/Machine/Recovery.lean ====
section
/-! DEFINITION. Fences of contexts, engines and partitions, engine recovery, and partition resets (R442 to R455, R460 to R464). -/

namespace Sys2Proof.Machine

/-! ## What a fence discards (R443 steps 3 and 4, R445) -/

/-- Contexts that a fence covers. -/
def State.domainCtxs (s : State) : Domain → List Nat
  | .context c => [c]
  | .engine e => let v := s.recov (s.enginePart e); if v.engine = e ∧ v.stage = 1 then v.suspects else []
  | .partition p => (s.ctxIds.filter (fun c => s.partOfCtx c == p && (s.ctx c).st != .free))
  | .diePair _ => []
  | .chip => s.ctxIds.filter (fun c => (s.ctx c).st != .free)

/-- CPU cores that a fence covers. -/
def State.domainCpus (s : State) : Domain → List Nat
  | .partition p => match partOf s.tables p with
    | some e => bitsOf 96 e.cpus
    | none => []
  | .chip => List.range 96
  | _ => []

/-- Something of a context is outstanding: an access, a walk, a firing, or an engine's work. -/
def State.ctxOutstanding (s : State) (c : Nat) : Bool :=
  s.ctxOpens c || s.walks.any (fun w => w.ctx == c) || s.firingsRun c || s.enginesHold c

/-- A line of a completion record that the fence is to write is in a transaction: the record waits for it (R306) (DESIGN CHOICE, log 24). -/
def State.recordsBusy (s : State) (c : Nat) : Bool :=
  (s.ctx c).buf.any (fun m => (linesOf (s.recordAt ⟨c, m.seq⟩) 256).any s.lineBusy)

/-- Nothing is outstanding in a domain, or its drain of 12,500 beats has ended. -/
def State.drainEnds (s : State) (f : Fence) : Bool :=
  decide (s.ft ≥ f.beat + 12500) || !((s.domainCtxs f.dom).any (fun c => s.ctxOutstanding c || s.recordsBusy c) || (s.domainCpus f.dom).any s.cpuOpens)

/-- A context's outstanding requests: their issuer no longer exists to receive an answer. -/
def State.dropCtxOpens (s : State) (c : Nat) : State :=
  { s with
    opens := s.opens.filter (fun o => !((o.ctx.map (·.ctx)) == some c) && o.waiter != .ring c)
    walks := s.walks.filter (fun w => w.ctx != c) }

/-- Each command of a list ends with a status; one that has ended already keeps its own. -/
def State.failAll (s : State) (c : Nat) (l : List Cmd) (status : Cmd → Nat) : State :=
  l.foldl (fun s m => s.fenceCmd ⟨c, m.seq⟩ (status m)) s

/-- The records of ended commands are written, in order (R214). -/
def State.retireAll (s : State) (c : Nat) (l : List Cmd) : State :=
  l.foldl (fun s m =>
    match s.cmd ⟨c, m.seq⟩ with
    | some m =>
      let s := if m.latched then s else s.latchEnd c m
      match s.cmd ⟨c, m.seq⟩ with
      | some m => s.retireNow c m
      | none => s
    | none => s) s

/-- Stager claims of a context go back (R266). -/
def State.revertClaims (s : State) (c : Nat) : State := s.doReverts (fun v => v.ctx == c || v.cmd.ctx == c)

/-- Descriptors that carry a context's id. -/
def State.ctxEntries (s : State) (c : Nat) : List (Nat × Nat × Entry) := s.installed.filter (fun e => e.2.2.ctx == c)

/-- Commands of other contexts whose descriptors belong to this one end with FENCED. -/
def State.failForeign (s : State) (c : Nat) : State :=
  ((s.ctxEntries c).filter (fun e => e.2.2.cmd.ctx != c)).foldl (fun s e => s.failCmd e.2.2.cmd stFenced) s

/-- Queues that a context owns. -/
def State.ownedQueues (s : State) (c : Nat) : List (Nat × Nat) :=
  (s.queues.filter (fun e => e.2.valid && e.2.owner == c)).map (fun e => (e.1 / 64, e.1 % 64))

/-- A fault's registers return to no fault (R348). -/
def State.clearFault (s : State) (c : Nat) : State := s.setFld Fld.HUB_CTX_FAULT_PENDING c 0

/-- Commands of a replay set that the replay has not fetched again are still sampled and incomplete: they stand in the buffer (R198, R464). -/
def State.recallKept (s : State) (c : Nat) : State :=
  let next := s.fld Fld.HUB_CTX_SEQ_NEXT c
  let behind := fun (q : Nat) => decide (seqSub q next < 2 ^ 31)
  s.updCtx c (fun x => { x with
    buf := x.buf ++ x.kept.filter (fun m => behind m.seq)
    ended := x.ended ++ x.keptEnded.filter behind
    kept := [], keptEnded := [] })

/-- The end of a context's fence (R198, R443, R448): statuses, reverts, records, queues, and FREE. -/
def State.closeCtx (s : State) (c : Nat) : State :=
  let s := s.recallKept c
  let x := s.ctx c
  let status := fun (m : Cmd) =>
    if x.endStatus = stFaulted ∧ !x.faults.any (fun f => f.cmd == (⟨c, m.seq⟩ : CmdRef)) then stFenced else x.endStatus
  let s := (s.dropCtxOpens c).failForeign c
  let s := s.failAll c x.buf status
  let s := (s.dropEntries (s.ctxEntries c)).revertClaims c
  let s := s.retireAll c x.buf
  let s := (s.ownedQueues c).foldl (fun s q => s.unconfigure q.1 q.2) s
  let s := (s.setCtx c Ctx.init).clearFault c
  ((s.setFld Fld.HUB_CTX_STATUS_STATE c 0).setFld Fld.HUB_CTX_CTL_END c 0).setFld Fld.HUB_CTX_CTL_PREEMPT c 0

/-! ## Engines (R160, R449 to R453) -/

/-- Engine reset (R160). -/
def State.engineReset (s : State) (e : Nat) : State :=
  let s := { s with cells := s.cells.filter (fun x => x.1 / 8192 != e) }
  ((s.setEngine e Engine.idle).progress e).unitEvent 0x800C 0 e 0

/-- One of the conditions of R449 holds. -/
def State.hangHolds (s : State) (e : Nat) : Bool :=
  let k := e / 4
  let g := s.engine e
  let has := fun (d : List Byte) (i : Nat) => let q := s.queue k (inQueue d i); decide (0 < q.tokens + q.heldIn)
  let mine := s.installed.filter (fun x => x.1 == k && descUnit x.2.2.desc == 1 && engineOf k x.2.2.desc == e)
  let bankAt := fun (b : Bank) (st : BankState) (ok : List Byte → Bool) => b.st == st && (match s.entry k b.entry with
    | some x => ok x.desc
    | none => false)
  let acc := fun (d : List Byte) => g.opnd.isSome || (has d 0 && has d 1)
  let out := fun (d : List Byte) => decide (0 < (s.queue k (outQueue d 0)).credits)
  (g.freeBank.isSome && mine.any (fun x => decide (0 < (s.queue k (inQueue x.2.2.desc 0)).tokens) && decide (0 < (s.queue k (inQueue x.2.2.desc 1)).tokens)))
  || bankAt g.bank0 .accumulating acc || bankAt g.bank1 .accumulating acc || bankAt g.bank0 .completed out || bankAt g.bank1 .completed out

/-- No context with work on the engine is suspended or pre-empted, nor is its die held: the cycles of a beat count (R418, R449). -/
def State.hangCounts (s : State) (e : Nat) : Bool :=
  !(s.suspectsOf e).any (fun c => (s.ctx c).st == .suspended || (s.ctx c).st == .preempted)
  && !s.coreHeld (e / 4) && !s.engineHung e
  && !s.traceHolds 3 1 (e / 4) 0xFFFF 0xFFFF

/-- A fence or reset of the engine's partition or of the chip runs (R464). -/
def State.hangBarred (s : State) (e : Nat) : Bool := s.fencing .chip || s.fencing (.partition (s.enginePart e)) || s.partLost (s.enginePart e)

/-- LIST of a RESET notice (R462). -/
def resetList (mask : Nat) (circs : List Nat) : List Byte :=
  leBytes 2 mask ++ ((List.range 19).map (fun i => leBytes 2 ((circs[i]?).getD 0xFFFF))).flatten

/-- A RESET report to the fabric manager, as many notices as its circuits need; each also stands in this module's own ring (R462). -/
def State.resetReport (s : State) (level mask : Nat) (circs : List Nat) : State :=
  (List.range (max 1 ((circs.length + 18) / 19))).foldl (fun s i =>
    let list := resetList mask (circs.drop (19 * i))
    let fm := s.fld Fld.FAB_FM_MODULE
    let s := s.tellManager nkReset level s.selfModule 0 list
    if s.flag Fld.FAB_FM_VALID ∧ fm ≠ s.selfModule then s.toNoticeRing (s.notice nkReset level fm s.selfModule 0 list) else s) s

def isFabric (ce : CircEntry) : Bool := ce.src / 4096 == 5 || ce.dst / 4096 == 5

/-- Fabric circuits for which a command is pending. -/
def State.fabricPend (s : State) (r : CmdRef) : List Nat :=
  ((circuits s.tables).filter (fun ce => isFabric ce && (s.circ ce.id).pend.contains r)).map (·.id)

/-- Steps 3 and 4 of R451 for one suspect. -/
def State.closeSuspect (s : State) (c : Nat) : State :=
  let x := s.ctx c
  let fab := x.buf.filter (fun m => !(s.fabricPend ⟨c, m.seq⟩).isEmpty)
  let circs := (fab.map (fun m => s.fabricPend ⟨c, m.seq⟩)).flatten.eraseDups
  let old := x.ended
  let s := (s.dropCtxOpens c).failForeign c
  let s := s.updCtx c (fun x => { x with ended := [], faults := [], saves := [], orders := [], covered := 0, haltAfter := false, fetch := none })
  let s := s.failAll c fab (fun _ => stFenced)
  let own := fun (y : Nat) => y == c
  let s := x.buf.foldl (fun s m =>
    (s.dropEntries ((s.cmdEntries ⟨c, m.seq⟩).filter (fun e => own e.2.2.ctx))).discardTokens ⟨c, m.seq⟩ own) s
  let s := ((s.dropEntries (s.ctxEntries c)).revertClaims c).retireAll c fab
  let s := (s.ownedQueues c).foldl (fun s q => s.updQueue q.1 q.2 Queue.clear) s
  let left := x.buf.filter (fun m => !fab.any (fun y => y.seq == m.seq))
  let s := (s.updCtx c (fun x => { x with kept := left, keptEnded := old, buf := [], ended := x.ended.filter (fun e => fab.any (fun m => m.seq == e)) })).clearFault c
  let done := (s.ctx c).done
  let s := ((s.writeLocal (s.cmdRq c) none (s.ringBase c + 8) (leBytes 4 done)).1).setFld Fld.HUB_CTX_SEQ_NEXT c done
  if circs.isEmpty then s else s.resetReport 1 (2 ^ s.partOfCtx c) circs

/-- The end of an engine recovery's fence: steps 1 to 4 of R451, then replay or the wait for it. -/
def State.closeEngine (s : State) (e : Nat) : State :=
  let p := s.enginePart e
  let v := s.recov p
  if v.engine ≠ e ∨ v.stage ≠ 1 then s
  else
    let s := s.engineReset e
    let s := (v.suspects.foldl State.closeSuspect s).setFld Fld.EN_HANG_RESET e 0
    if s.flag Fld.HUB_RECOV_CFG_AUTO_REPLAY then s.replayNext p else s.setRecov p { v with stage := 3 }

/-- R452: the replayed suspect hangs the engine again, and is guilty. -/
def State.guilty (s : State) (p e c : Nat) : State :=
  let k := e / 4
  let g := s.engine e
  let used := ([g.bank0, g.bank1].filter (fun b => b.st != .free)).filterMap (fun b => s.entry k b.entry)
  let any1 := (s.installed.filter (fun x => x.1 == k && descUnit x.2.2.desc == 1 && engineOf k x.2.2.desc == e)).map (fun x => x.2.2)
  let r := ((used ++ any1).head?).map (·.cmd)
  let s := s.bump Fld.EN_HANG_RECOVERIES e
  let s := { s with hangBeats := Store.set (fun _ => []) s.hangBeats e (Store.get (fun _ => []) s.hangBeats e ++ [s.ft]) }
  let s := (s.engineReset e).dropCtxOpens c
  let s := s.updCtx c (fun x => { x with st := .ending })
  let buf := (s.ctx c).buf
  let first := buf.filter (fun m => r == some (⟨c, m.seq⟩ : CmdRef))
  let rest := buf.filter (fun m => r != some (⟨c, m.seq⟩ : CmdRef))
  let s := (s.failAll c first (fun _ => stGuilty)).failAll c rest (fun _ => stFenced)
  let s := (((s.dropEntries (s.ctxEntries c)).revertClaims c).retireAll c first).retireAll c rest
  let s := s.setFld Fld.HUB_RECOV_STATUS_GUILTY p c
  (s.endCtx c).setFld Fld.HUB_CTX_STATUS_LAST_STATUS c stGuilty

/-! ## Partition resets (R454, R455) -/

/-- Fabric circuits for which a partition holds a segment, ascending. -/
def State.partFabric (s : State) (p : Nat) : List Nat :=
  (List.range 4096).filter (fun c => match s.circEntry c with
    | some ce => isFabric ce && ce.part == p
    | none => false)

/-- Step 1 of R454: the fence begins; lower levels within it are abandoned (R464). -/
def State.startPartReset (s : State) (p cause : Nat) : State :=
  if s.fencing .chip ∨ s.fencing (.partition p) then s
  else
    let s := (s.setFld Fld.HUB_PART_RESET_BUSY p 1).setFld Fld.HUB_PART_RESET_RESET p 1
    let s := (s.setFld Fld.HUB_PART_RESET_CAUSE p cause).bump Fld.HUB_PART_RESET_COUNT p
    let lower := fun (f : Fence) => match f.dom with
      | .context c => s.partOfCtx c == p
      | .engine e => s.enginePart e == p
      | _ => false
    let one : Fence := ⟨.partition p, s.ft, stFenced⟩
    let s := { s with fences := (s.fences.filter (fun f => !lower f)) ++ [one] }
    let s := s.setRecov p { Recov.idle with engine := (s.recov p).engine }
    let s := (((partOf s.tables p).map (fun e => bitsOf 16 e.clusters)).getD []).foldl (fun s c => s.unitEvent 0x800F 2 c 2) s
    s.resetReport 2 (2 ^ p) (s.partFabric p)

/-- Escalation: suppressed while a warm chip reset runs, and for a partition that is lost (R460). -/
def State.escalatePart (s : State) (p cause : Nat) : State :=
  if (partOf s.tables p).isNone ∨ p ≥ 16 ∨ s.partLost p then s else s.startPartReset p cause

/-- Reset of a CPU core below chip level (R328): its lines are written back or dropped, and it starts anew. -/
def State.resetCpu (s : State) (c : Nat) : State :=
  let lines := (s.agents.filter (fun e => e.1 / 2 ^ 46 == c)).map (fun e => e.1 % 2 ^ 46)
  let s := lines.foldl (fun s l => s.replace c l) s
  { s with
    cpus := Store.set (fun _ => Cpu.init) s.cpus c { Cpu.init with inReset := false }
    cpuRegs := s.cpuRegs.filter (fun x => x.1 / 32 != c)
    opens := s.opens.filter (fun o => !(o.who.kind == .cpu && o.who.unit == c && o.ctx.isNone))
    stalls := s.stalls.filter (fun x => x.cpu != c)
    resvs := s.resvs.filter (fun r => r.cpu != c) }

/-- Instances of a register return to their reset values. -/
def State.resetRegs (s : State) (r : Reg) (mine : Nat → Bool) : State :=
  { s with regs := s.regs.filter (fun x => !(x.1 / 2 ^ 20 == r.num && mine (x.1 % 2 ^ 20))) }

/-- A circuit as the image in force builds it (R105). -/
def CircEntry.fresh (ce : CircEntry) : Circ := { Circ.init with credits := if ce.src / 4096 = 5 then 0 else ce.credits }

def State.buildCirc (s : State) (ce : CircEntry) : State := (s.setCirc ce.id ce.fresh).setSeg ce.id Segment.init

/-- A word after a reset below chip level (R14): ST bits as they stood, every other field at its reset value. -/
def Reg.afterReset (r : Reg) (i : Nat) (old : Word) : Word :=
  BitVec.ofNat 64 (r.fields.foldl (fun w f => if f.acc = .st then putBits w f.lo f.width (getBits old.toNat f.lo f.width) else w) (r.resetWord i).toNat)

/-- Instances of a register are reset with their domain. -/
def State.domainReset (s : State) (r : Reg) (mine : Nat → Bool) : State :=
  (((s.regs.filter (fun x => x.1 / 2 ^ 20 == r.num && mine (x.1 % 2 ^ 20))).map (fun x => x.1 % 2 ^ 20))).foldl
    (fun s i => s.setReg r i (r.afterReset i (s.reg r i))) s

/-- Registers of the CL, CO and EN blocks (R518), with the instances of one cluster, core or engine. -/
def clusterRegs : List (Reg × Nat) :=
  [(.CL_CNT_SEL, 16), (.CL_CNT, 16), (.CL_EVT_PTR, 1), (.CL_EVT_CTL, 1), (.CL_EVT_MSI, 1), (.CL_EVT_REC, 4096)]
def coreRegs : List (Reg × Nat) :=
  [(.CO_QCFG, 64), (.CO_QSTAT, 64), (.CO_DESC_ERR, 1), (.CO_VFLAGS, 1), (.CO_SAVE_CFG, 1), (.CO_CNT_SEL, 8), (.CO_CNT, 8), (.CO_EVT_PTR, 1),
   (.CO_EVT_REC, 1024)]
def engineRegs : List (Reg × Nat) :=
  [(.EN_EXC, 1), (.EN_EXC_COORD, 1), (.EN_EXC_TAG, 1), (.EN_EXC_BEAT, 1), (.EN_HANG, 1), (.EN_EVT_PTR, 1), (.EN_EVT_REC, 256)]

/-- What a cluster, its cores and its engines hold is reset (R33, R454 step 4). Every register of their blocks takes its reset value, and ST bits stay:
OVF of a counter among them, since R14 and R447 keep ST bits where R454 has counters return to their reset values (DEDUCED, log 65). -/
def State.clearCluster (s : State) (cl : Nat) : State :=
  let core := fun (k : Nat) => clusterOfCore k == cl
  let s := { s with
    engines := s.engines.filter (fun x => x.1 / 32 != cl)
    cells := s.cells.filter (fun x => x.1 / 8192 / 32 != cl)
    hangRuns := s.hangRuns.filter (fun x => x.1 / 32 != cl)
    queues := s.queues.filter (fun q => !core (q.1 / 64))
    entries := s.entries.filter (fun q => !core (q.1 / 64))
    firings := s.firings.filter (fun f => !core f.core)
    vec := s.vec.filter (fun v => !core v.1)
    sels := s.sels.filter (fun x => !((x.1 / 2 ^ 20 == 1 && core (x.1 % 2 ^ 20 / 64)) || (x.1 / 2 ^ 20 == 2 && x.1 % 2 ^ 20 / 64 == cl)))
    evtMsi := s.evtMsi.filter (fun x => x.1 != cl) }
  let s := clusterRegs.foldl (fun s r => s.domainReset r.1 (fun i => i / r.2 == cl)) s
  let s := coreRegs.foldl (fun s r => s.domainReset r.1 (fun i => core (i / r.2))) s
  engineRegs.foldl (fun s r => s.domainReset r.1 (fun i => i / r.2 / 32 == cl)) s

/-- Cores, engines, rings and counters of a cluster after a partition reset (R454 step 4). -/
def State.resetCluster (s : State) (cl : Nat) : State :=
  ((List.range 32).foldl (fun s i => s.engineReset (32 * cl + i)) s).clearCluster cl

/-- Step 5 of R454. -/
def State.rebuildPart (s : State) (p : Nat) : State :=
  let mine := fun (c : Nat) => s.partOfCirc c == p
  let s := { s with contribs := s.contribs.filter (fun t => !mine t.circ), retired := Store.set (fun _ => (0, 0)) s.retired p (0, 0) }
  let s := ((circuits s.tables).filter (fun ce => ce.part == p)).foldl State.buildCirc s
  let s := (s.setFld Fld.HUB_SLIP_COUNT_SLIPS p 0).setFld Fld.HUB_SLIP_MAX_RUN p 0
  let s := (s.resetRegs .HUB_AUDIT_A (fun i => i == p)).resetRegs .HUB_AUDIT_B (fun i => i == p)
  ((s.resetRegs .HUB_AUDIT_C (fun i => i == p)).resetRegs .HUB_AUDIT_D (fun i => i == p)).resetRegs .HUB_AUDIT_E (fun i => i == p)

/-- Every context of a partition ends with FENCED (R454 step 2). -/
def State.closeCtxs (s : State) (p : Nat) : State :=
  (s.domainCtxs (.partition p)).foldl (fun s c =>
    (s.updCtx c (fun x => { x with st := .ending, endStatus := stFenced, replayTo := none })).closeCtx c) s

/-- The end of a partition's fence, and its reset. -/
def State.closePartition (s : State) (p : Nat) : State :=
  let s := s.closeCtxs p
  let s := (s.domainCpus (.partition p)).foldl State.resetCpu s
  let s := (((partOf s.tables p).map (fun e => bitsOf 16 e.clusters)).getD []).foldl State.resetCluster s
  let s := s.rebuildPart p
  (s.setFld Fld.HUB_PART_RESET_BUSY p 0).setFld Fld.HUB_PART_RESET_RESET p 0

/-- A request for a partition reset (R455): a partition that does not exist is ignored; one that is lost is refused (R392). -/
def State.requestPartReset (s : State) (p cause : Nat) : State :=
  if p ≥ 16 ∨ (partOf s.tables p).isNone then s else if s.partLost p then s else s.startPartReset p cause

/-! ## Declaring a hang (R449, R450, R460, R511) -/

/-- A dump is RUNNING (R509). -/
def State.beginDump (s : State) (d : Dump) : State :=
  ((({ s with dump := some d }).setFld Fld.DBG_DUMP_STATUS_STATE 0 1).setFld Fld.DBG_DUMP_STATUS_TIMEOUTS 0 0).setFld Fld.DBG_DUMP_STATUS_ENTRIES 0 0

/-- ON_HANG: a dump of the hung engine and its core begins, unless one runs. -/
def State.dumpOnHang (s : State) (e : Nat) : State :=
  if s.flag Fld.DBG_DUMP_CTL_ON_HANG ∧ s.dump.isNone then
    let en := 0x180_0000 + 0x2000 * e
    let co := 0x100_0000 + 0x1_0000 * (e / 4)
    let one : Dump := ⟨s.ft, [(co, co + 0x1_0000), (en, en + 0x2000)], 0, 0, 0, 0, false⟩
    s.beginDump one
  else s

/-- Recoveries of an engine within the preceding second. -/
def State.recentHangs (s : State) (e : Nat) : Nat :=
  ((Store.get (fun _ => []) s.hangBeats e).filter (fun b => decide (s.ft < b + 125000000))).length

/-- A hang is declared on an engine. -/
def State.declareHang (s : State) (e : Nat) : State :=
  let p := s.enginePart e
  let s := (s.raise Fld.EN_HANG_HUNG e).raise Fld.HUB_STICKY_HANG
  let s := s.unitEvent 0x800B 0 e (s.fld Fld.EN_HANG_IDLE e)
  if p ≥ 16 then (s.engineReset e).setFld Fld.EN_HANG_RESET e 0
  else if s.recentHangs e ≥ 2 then s.escalatePart p 4
  else
    let s := s.dumpOnHang e
    let v := s.recov p
    if v.stage = 0 then s.beginRecovery p e (s.suspectsOf e) [] []
    else match v.current with
      | some c => if v.engine = e then s.guilty p e c else s.setRecov p { v with queue := v.queue ++ [(e, s.suspectsOf e)] }
      | none => s.setRecov p { v with queue := v.queue ++ [(e, s.suspectsOf e)] }

/-- ENGINE_HANG (DEDUCED, log 25). -/
def State.engineHang (s : State) (e : Nat) : State :=
  if e < 512 ∧ 2 ^ 20 ≤ Store.get (fun _ => 0) s.hangRuns e ∧ s.hangHolds e ∧ !s.engineHung e ∧ !s.hangBarred e then s.declareHang e else s

/-- EN_HANG.RESET (R465): as if a hang were declared; merged into a recovery of the engine that runs or waits (R464). -/
def State.hangReset (s : State) (e : Nat) : State :=
  if s.engineHung e ∨ s.hangBarred e then s else (s.setFld Fld.EN_HANG_RESET e 1).declareHang e

/-- REPLAY (R451 step 5): cleared when replay begins; ignored unless AWAITING. -/
def State.replayWrite (s : State) (p : Nat) : State := if (s.recov p).stage = 3 then s.replayNext p else s

/-- SUSPECT_REPLAY_COMPLETE (R452): the replay set has completed, or the context has halted and runs nothing more. -/
def State.replayDone (s : State) (p : Nat) : State :=
  let v := s.recov p
  match v.current with
  | none => s
  | some c =>
    let x := s.ctx c
    let all := x.buf.isEmpty && s.fld Fld.HUB_CTX_SEQ_NEXT c == x.replayTo.getD (s.fld Fld.HUB_CTX_SEQ_NEXT c)
    let halted := x.st == .halted && !x.buf.any (·.started)
    if (x.st == .running && all) || halted then
      let s := s.updCtx c (fun x => { x with st := .preempting, haltAfter := halted, replayTo := none })
      (s.setRecov p { v with suspects := v.suspects.filter (· != c), innocent := v.innocent ++ [c], current := none }).replayNext p
    else s

/-! ## Bounds (R460): 5 ms, 20 ms and 250 ms -/

def State.ctxEndTimeout (s : State) (c : Nat) : State :=
  match (s.ctx c).fenceBeat with
  | some b => if (s.ctx c).st = .ending ∧ s.ft ≥ b + 625000 then s.escalatePart (s.partOfCtx c) 3 else s
  | none => s

def State.recoveryTimeout (s : State) (p : Nat) : State :=
  let v := s.recov p
  if (v.stage = 1 ∨ v.stage = 2) ∧ s.ft ≥ v.since + 2500000 then s.escalatePart p 4 else s

/-- COMMAND_END: a claim that the command left behind is reverted first (R266). -/
def execCommandEnd (c seq : Nat) (s : State) : Host.Outcome State Fault Refusal :=
  answer ((s.doReverts (fun v => v.cmd == (⟨c, seq⟩ : CmdRef))).commandEnd ⟨c, seq⟩)
def execEngineHang (e : Nat) (s : State) : Host.Outcome State Fault Refusal := answer (s.engineHang e)
def execHangReset (rq : Requester) (e : Nat) (s : State) : Host.Outcome State Fault Refusal :=
  answer (if e < 512 then s.gated rq .EN_HANG e (fun s => s.hangReset e) else s)
def execReplay (rq : Requester) (p : Nat) (s : State) : Host.Outcome State Fault Refusal :=
  answer (if p < 16 then s.gated rq .HUB_RECOV_CTL p (fun s => s.replayWrite p) else s)
def execSuspectReplayComplete (p : Nat) (s : State) : Host.Outcome State Fault Refusal := answer (s.replayDone p)
def execPartitionReset (rq : Requester) (p : Nat) (s : State) : Host.Outcome State Fault Refusal :=
  answer (if p < 16 then s.gated rq .HUB_PART_RESET p (fun s => s.requestPartReset p 1) else s)
def execContextEndTimeout (c : Nat) (s : State) : Host.Outcome State Fault Refusal := answer (s.ctxEndTimeout c)
def execRecoveryTimeout (p : Nat) (s : State) : Host.Outcome State Fault Refusal := answer (s.recoveryTimeout p)

end Sys2Proof.Machine
end

