-- ==== Sys2Proof/Machine/Reset.lean ====
section
/-! DEFINITION. Warm chip resets (R456, R457), failed starts (R477), losses of power (R541 to R544), and the end of a fence's drain
(R443). -/

namespace Sys2Proof.Machine

/-! ## Starts as a whole -/

/-- HUB_BOOT.STAGE: 1 to 9, or 0xA in Winter mode (DEDUCED, log 28). -/
def State.stage (s : State) : Nat := s.fld Fld.HUB_BOOT_STAGE

/-- The start in progress has reached UP: an image is in force. -/
def State.isUp (s : State) : Bool := s.stage == 9 && s.img.full.isSome

/-- A warm chip reset runs, from its request until its start has reached UP or Winter mode (R464). -/
def State.chipResetting (s : State) : Bool := s.fencing .chip || (!s.boot.cold && !s.isUp && s.stage != 0xA)

/-- Writes a byte of the OTP array. -/
def Boot.setOtp (b : Boot) (off : Nat) (v : Byte) : Boot := { b with otp := Store.set (fun _ => 0) b.otp off v }
def Boot.otpByte (b : Boot) (off : Nat) : Byte := Store.get (fun _ => 0) b.otp off
/-- The 1 KiB of a generation. -/
def Boot.otpGen (b : Boot) (g : Nat) : List Byte := (List.range 1024).map (fun i => b.otpByte (0x400 * g + i))

/-- A reset or a loss of power while a generation is programmed leaves it consumed: neither valid nor blank (R485, R489). -/
def Boot.consume (b : Boot) : Boot :=
  match b.prog with
  | some (g, _) => { b.setOtp (0x400 * g) (BitVec.ofNat 8 g) with prog := none }
  | none => b

/-- A boot log record (R479). -/
def State.bootRecord (s : State) (lastFail detail : Nat) (winter : Bool) : List Byte :=
  leBytes 4 s.boot.starts ++ [BitVec.ofNat 8 (s.fld Fld.HUB_BOOT_REASON), BitVec.ofNat 8 s.stage, BitVec.ofNat 8 lastFail,
    BitVec.ofNat 8 detail, BitVec.ofNat 8 (s.fld Fld.SEC_OTP_IN_FORCE), if winter then 1 else 0] ++ List.replicate 6 0

/-- The log keeps the last 16 records. -/
def State.logStart (s : State) (lastFail detail : Nat) (winter : Bool := false) : State :=
  let l := s.boot.log ++ [s.bootRecord lastFail detail winter]
  { s with boot := { s.boot with log := l.drop (l.length - 16) } }

/-- Registers that survive a warm chip reset (R527), and those whose surviving fields restart puts back. -/
def keptReg (key : Nat) : Bool :=
  [Reg.HUB_STICKY, Reg.HUB_ISO_REC, Reg.HUB_ISO_SRC, Reg.PWR_FAULT, Reg.PWR_POLICY_CLAMP].any (fun r => r.num == key / 2 ^ 20)

/-- Address past the last of a stack's usable bytes. -/
def stackEnd (k : Nat) : Nat := hbmBase + k * hbmStride + hbmUsable

/-- First addresses and addresses past the last of memory that a reset of every die loses (R234, R391, R447): core SRAM, the stacks of a fenced
pair that was not held in self-refresh, and slices that are not scratch. -/
def State.lostRanges (s : State) : List (Nat × Nat) :=
  let hbms := (List.range 8).filter (fun k => s.dieFenced (k / 2) && !bit (s.fld Fld.HUB_DIE_FENCE_HBM_HELD) (k / 2))
  let slices := (List.range 64).filter (fun i => sliceMode s.tables i != some 0)
  [(sramBase, sramBase + 128 * sramStride)] ++ hbms.map (fun k => (hbmBase + k * hbmStride, stackEnd k))
  ++ slices.map (fun i => (llmBase + i * 2 ^ 24, llmBase + (i + 1) * 2 ^ 24))

/-- DEDUCED (log 26): the counts of a core's coherence errors and lost lines pass a warm chip reset (R331: the flush of R329, which
counts lines in them, does not clear them). -/
def State.keepCounts (s t : State) (i : Nat) : State :=
  (t.setFld Fld.CPU_COH_ERR_CNT_LOST i (s.fld Fld.CPU_COH_ERR_CNT_LOST i)).setFld Fld.CPU_COH_ERR_CNT_ERRORS i
    (s.fld Fld.CPU_COH_ERR_CNT_ERRORS i)

/-- R246: a warm chip reset tests each way: of the disabled ones those that pass are enabled again. Which do is free (log 79). -/
def State.testWays (s t : State) : State :=
  (List.range 64).foldl (fun t i =>
    let off := s.fld Fld.LLM_SLICE_DISABLED i
    if off = 0 then t else t.spend.setFld Fld.LLM_SLICE_DISABLED i (off &&& t.free)) t

/-- What every die's reset leaves: what R447 keeps, and the rest at its reset values, as a start at stage ROM begins. -/
def State.resetDies (s : State) (cold : Bool) : State :=
  let b := s.boot.consume
  let boot : Boot := { b with
    cold := cold, starts := b.starts + 1, stageBeats := 0, source := 0, delivered := false, fetch := none, prog := none, armBeat := none
    reason := 0, tryNext := false, firmware := false, load := none }
  let img : ImgState := { ImgState.init with holdFull := s.img.holdFull, holdUpdate := s.img.holdUpdate, holdNext := s.img.holdNext }
  { State.reset with
    pending := s.pending, out := s.out, freeCtr := s.freeCtr, nextId := s.nextId
    time := { TimeBase.init with ft := s.ft }, regs := s.regs.filter (fun x => keptReg x.1)
    mem := s.mem, chk := s.chk, lost := s.lost, img := img, boot := boot, elec := s.elec }

/-- What a start's registers tell of what went before it: its reason, the failures, the host's attachment, and a load or a fetch that was torn
(R70, R469, R477). -/
def State.restartNotes (s t : State) (reason : Nat) : State :=
  let t := ((t.setFld Fld.HUB_BOOT_REASON 0 reason).setFld Fld.HUB_BOOT_LAST_FAIL 0 (s.fld Fld.HUB_BOOT_LAST_FAIL)).setFld
    Fld.HUB_BOOT_START_COUNT 0 (s.fld Fld.HUB_BOOT_START_COUNT)
  let t := t.setFld Fld.HUB_BOOT_FAILED 0 (s.fld Fld.HUB_BOOT_FAILED)
  let t := (t.setFld Fld.HOST_ATTACH_GENERATION 0 (s.fld Fld.HOST_ATTACH_GENERATION)).setFld Fld.HOST_ATTACH_CAUSE 0 (s.fld Fld.HOST_ATTACH_CAUSE)
  let t := t.setFld Fld.HUB_SIMG_STATUS_NEXT_PENDING 0 (if s.img.holdNext.isSome then 1 else 0)
  let t := if s.fld Fld.HUB_SIMG_STATUS_PHASE = 1 then t.setFld Fld.HUB_SIMG_STATUS_RESULT 0 0x1B else t
  if s.boot.fetch.isSome then t.setFld Fld.HUB_BOOT_CTL_RESULT 0 0x1B else t

/-- Every die is reset, and a start begins with a reason. Memory keeps its contents, but for the ranges that are lost (R16, R447). -/
def State.restart (s : State) (reason : Nat) (cold : Bool) : State :=
  let t := s.resetDies cold
  let t := s.lostRanges.foldl (fun t r => t.lose r.1 r.2) t
  let t := (List.range 96).foldl (fun t i => s.keepCounts t i) t
  s.restartNotes (if cold then t else s.testWays t) reason

/-- A start fails (R476, R477): counted, logged, and followed by a new start with reason START_RETRY, of the same kind (DEDUCED, log 27). -/
def State.startFail (s : State) (code detail : Nat) : State :=
  let s := ((s.bump Fld.HUB_BOOT_START_COUNT 0).raise Fld.HUB_BOOT_FAILED).setFld Fld.HUB_BOOT_LAST_FAIL 0 code
  let s := s.logStart code detail
  let s := { s with boot := { s.boot with startBeats := 0 } }
  s.restart 7 s.boot.cold

/-! ## Warm chip resets (R456, R457) -/

/-- The package is fenced as one domain; ports, Ethernet links and the host are lost. -/
def State.chipReset (s : State) (reason : Nat) : State :=
  if s.chipResetting ∨ !s.elec.powered ∨ s.elec.cycleReq then s
  else
    let one : Fence := ⟨.chip, s.ft, stFenced⟩
    let s := { s with fences := [one], recovs := [], boot := { s.boot with reason := reason, startBeats := 0 } }
    let s := (List.range 16).foldl (fun s c => s.unitEvent 0x800F 2 c 3) s
    let s := (List.range 16).foldl (fun s p => (s.setPortState p psDown).setPort p Port.init) s
    let s := { s.hostLoss hcChipReset with bme := false }
    let s := ((s.setFld Fld.HOST_STATUS_DL_ACTIVE 0 0).setFld Fld.HOST_STATUS_SPEED 0 0).setFld Fld.HOST_STATUS_WIDTH 0 0
    (s.ethLink 0 false).ethLink 1 false

/-- A dirty line of an agent is dropped (R329, R330): counted in LOST, which sticks at its maximum and then sets OVF (R331). -/
def State.countLostLine (s : State) (a : Nat) : State :=
  let s := s.bump Fld.CPU_COH_ERR_CNT_LOST a
  if s.fld Fld.CPU_COH_ERR_CNT_LOST a = 2 ^ 24 - 1 then s.raise Fld.CPU_COH_ERR_CNT_OVF a else s

/-- R329: a dirty line of agent a is written to its home; where the home is fenced it is lost, and counted. -/
def State.flushLine (s : State) (l : Line) (a line : Nat) : State :=
  if !l.st.dirty then s
  else if s.homeFenced line then s.countLostLine a
  else if l.data.length = 64 then s.writeLine cpuRq line l.data l.poison
  else s

def State.flushAgents (s : State) : State := s.agents.foldl (fun s e => s.flushLine e.2 (e.1 / 2 ^ 46) (e.1 % 2 ^ 46)) s

/-- A line's current data is at its home or on its way there or to its new owner, and in no agent (R316 to R318). -/
def Msg.carries (m : Msg) : Bool := m.data.length == 64 && [mRspOD, mRspSD, mRspID, mDataM].contains m.code

/-- R329: data on its way is written to its home too, and the copy of an agent that a GntM on its way makes the owner. -/
def State.flushNet (s : State) : State :=
  let s := s.homes.foldl (fun s e => match e.2.tx.bind (·.data) with
    | some d => if s.homeFenced e.1 then s else s.writeLine cpuRq e.1 d.1 d.2
    | none => s) s
  s.net.foldl (fun s m =>
    let l := s.line m.agent m.line
    if s.homeFenced m.line then s
    else if m.carries then s.writeLine cpuRq m.line m.data m.poison
    else if m.code = mGntM ∧ l.data.length = 64 then s.writeLine cpuRq m.line l.data l.poison
    else s) s

/-- The end of the chip's fence: agents are flushed, memory goes to self-refresh, and every die is reset. -/
def State.warmReset (s : State) : State := s.flushNet.flushAgents.restart s.boot.reason false

/-! ## The end of a drain (R443) -/

/-- R489: a reset of any level while a generation is programmed leaves it consumed. -/
def State.interruptProg (s : State) : State :=
  if s.boot.prog.isSome then
    let s := (s.setFld Fld.SEC_OTP_PROGRAMMING 0 0).setFld Fld.SEC_OTP_PROG_RESULT 0 8
    { s.setFld Fld.SEC_OTP_PROG_GO 0 0 with boot := s.boot.consume }
  else s

def State.closeDomain (s : State) : Domain → State
  | .context c => s.interruptProg.closeCtx c
  | .engine e => s.interruptProg.closeEngine e
  | .partition p => s.interruptProg.closePartition p
  | .diePair _ => s
  | .chip => s.warmReset

/-- FENCE_DRAIN_END of a domain that a fence covers: once nothing is outstanding, or after 12,500 beats (DESIGN CHOICE, log 24). -/
def State.fenceDrainEnd (s : State) (d : Domain) : State :=
  match s.fences.find? (fun f => f.dom == d) with
  | some f => if s.drainEnds f then ({ s with fences := s.fences.filter (fun g => g.dom != d) }).closeDomain d else s
  | none => s

/-! ## Bounds (R460): 250 ms and 4 s -/

def State.partResetTimeout (s : State) (p : Nat) : State :=
  match s.fences.find? (fun f => f.dom == .partition p) with
  | some f => if s.ft ≥ f.beat + 31250000 then s.chipReset 6 else s
  | none => s

/-- R461: the hub asks for a power cycle: ALERT_N, a PLDM event, and every die but the sideband controller held in reset. -/
def State.powerCycleRequest (s : State) : State :=
  let s := if s.fencing .chip then s.warmReset else s
  { s.emit (.pldmEvent 1) with elec := { s.elec with cycleReq := true } }

def State.chipResetTimeout (s : State) : State :=
  if s.chipResetting ∧ !s.elec.cycleReq ∧ s.boot.startBeats ≥ 500000000 then s.powerCycleRequest else s

/-! ## HUB_CHIP_RESET (R456) -/

def State.armReset (s : State) (w : Nat) : State :=
  if bit w 0 then { s.raise Fld.HUB_CHIP_RESET_ARM with boot := { s.boot with armBeat := some s.ft } }
  else { s.setFld Fld.HUB_CHIP_RESET_ARM 0 0 with boot := { s.boot with armBeat := none } }

def State.armExpiry (s : State) : State :=
  match s.boot.armBeat with
  | some b => if s.ft ≥ b + 125000 then { s.setFld Fld.HUB_CHIP_RESET_ARM 0 0 with boot := { s.boot with armBeat := none } } else s
  | none => s

/-- GO within 125,000 beats of the write of ARM; at any other time it is ignored. -/
def State.resetGo (s : State) : State :=
  match s.boot.armBeat with
  | some b => if s.ft ≤ b + 125000 then s.chipReset 2 else s
  | none => s

/-- A write of HUB_CHIP_RESET: ARM is stored, and a GO acts on an ARM that was written before it. -/
def State.writeChipReset (s : State) (w mask : Nat) : State :=
  let t := if bit mask 0 then s.armReset w else s
  if bit (w &&& mask) 1 then (match s.boot.armBeat with
    | some b => if s.ft ≤ b + 125000 then t.chipReset 2 else t
    | none => t) else t

/-! ## RESET_N, and power (R539 to R544) -/

/-- THERMTRIP_N is asserted: RESET_N has no effect. -/
def State.resetAssert (s : State) : State :=
  if s.elec.trip then s
  else ({ s with elec := { s.elec with resetLow := true } }).chipReset 3

/-- The main regulators are off: everything but the OTP array and the sideband is lost (R447, R489). -/
def State.powerOff (s : State) : State :=
  { State.reset with
    pending := s.pending, out := s.out, freeCtr := s.freeCtr
    boot := { Boot.init with otp := s.boot.consume.otp }
    elec := { s.elec with powered := false, cycleReq := false } }

/-- A loss of power of a module that runs; otherwise nothing is left to lose. -/
def State.losePower (s : State) : State := if s.elec.powered then s.powerOff else s

/-- POWER_GOOD: a cold start begins at stage ROM, unless something holds the main regulators off. -/
def State.powerGood (s : State) : State :=
  let e := s.elec
  if e.powered ∨ !e.input ∨ !e.housekeeping ∨ e.trip ∨ e.overvoltage ∨ e.regFail then s
  else { s.powerOff with elec := { e with powered := true, cycleReq := false } }

/-- INPUT_RISE: the housekeeping supply comes up, unless the overvoltage latch holds. -/
def State.inputRise (s : State) : State :=
  if s.elec.overvoltage then s else { s with elec := { s.elec with input := true, housekeeping := true } }

def State.inputLow (s : State) : State := let s := s.losePower; { s with elec := { s.elec with input := false } }

def State.inputHigh (s : State) : State :=
  let s := s.losePower
  { s with elec := { s.elec with overvoltage := true, housekeeping := false, input := false } }

def State.regulatorFail (s : State) : State :=
  if s.elec.powered then let s := s.powerOff; { s with elec := { s.elec with regFail := true } } else s

/-- INPUT_BELOW_10V: the latches release. -/
def State.inputGone (s : State) : State :=
  let s := s.losePower
  { s with elec := { s.elec with input := false, housekeeping := false, trip := false, overvoltage := false, regFail := false, cycleReq := false } }

/-- ALERT_N (R540). -/
def State.alert (s : State) : Bool :=
  s.flag Fld.PWR_FAULT_COOLANT_HIGH || s.flag Fld.PWR_FAULT_THERM_CRIT || s.flag Fld.PWR_FAULT_POWER_MODEL || s.flag Fld.HUB_BOOT_WINTER
  || s.elec.cycleReq || s.elec.regFail

def execFenceDrainEnd (d : Domain) (s : State) : Host.Outcome State Fault Refusal := answer (s.fenceDrainEnd d)
def execPartitionResetTimeout (p : Nat) (s : State) : Host.Outcome State Fault Refusal := answer (s.partResetTimeout p)
def execChipResetTimeout (s : State) : Host.Outcome State Fault Refusal := answer s.chipResetTimeout
def execChipResetArm (rq : Requester) (s : State) : Host.Outcome State Fault Refusal :=
  answer (s.gated rq .HUB_CHIP_RESET 0 (fun s => s.armReset 1))
def execChipResetArmExpiry (s : State) : Host.Outcome State Fault Refusal := answer s.armExpiry
def execChipResetGo (rq : Requester) (s : State) : Host.Outcome State Fault Refusal :=
  answer (s.gated rq .HUB_CHIP_RESET 0 State.resetGo)
def execResetNAssert (s : State) : Host.Outcome State Fault Refusal := answer s.resetAssert
def execResetNRelease (s : State) : Host.Outcome State Fault Refusal := answer { s with elec := { s.elec with resetLow := false } }
def execPowerGood (s : State) : Host.Outcome State Fault Refusal := answer s.powerGood
def execInputRise (s : State) : Host.Outcome State Fault Refusal := answer s.inputRise
def execInputUndervoltage (s : State) : Host.Outcome State Fault Refusal := answer s.inputLow
def execInputOvervoltage (s : State) : Host.Outcome State Fault Refusal := answer s.inputHigh
def execRegulatorFail (s : State) : Host.Outcome State Fault Refusal := answer s.regulatorFail
def execInputBelow10v (s : State) : Host.Outcome State Fault Refusal := answer s.inputGone

end Sys2Proof.Machine
end

