-- ==== Sys2Proof/Machine/DieLinks.lean ====
section
/-! DEFINITION. Die-to-die links, package clocks and the fencing of a die pair (chapter 14). -/

namespace Sys2Proof.Machine

/-- Link states (R388). -/
def lsUp : Nat := 2
def lsFenced : Nat := 3

def State.linkState (s : State) (l : Nat) : Nat := s.fld Fld.HUB_LINK_STATUS_STATE l

/-- The end that receives what the end of a number sends (R383). -/
def otherEnd (k : Nat) : Nat := if k % 2 = 0 then k + 1 else k - 1

/-- The base dies at the ends of a ring link (R382). -/
def ringEnds (r : Nat) : List Nat := if r = 0 then [0, 1] else if r = 1 then [1, 3] else if r = 2 then [3, 2] else [2, 0]

/-- The links of die pair n. -/
def pairLinks (n : Nat) : List Nat := [1 + n, 5 + n, 13 + n] ++ ((List.range 4).filter (fun r => (ringEnds r).contains n)).map (9 + ·)

/-- Causes in HUB_DIE_FENCE.CAUSE. -/
def dfLinkLoss : Nat := 1
def dfClock : Nat := 2
def dfDieReset : Nat := 3
def dfLaneTest : Nat := 4
def dfRevision : Nat := 5

/-! ## Fencing a die pair (R330, R390) -/

/-- R330: an agent's line of the pair: marked poisoned, and its dirty data dropped. -/
def droppedState : LineSt → LineSt
  | .modified => .excl
  | .owned => .shared
  | .omA => .smA
  | .miA => .iiA
  | .oiA => .iiA
  | x => x

/-- The line's home is on die pair n. -/
def linePair (line n : Nat) : Bool :=
  match homeOf line with
  | some h => decide (h < 8) && h / 2 == n
  | none => false

def State.poisonAgentLine (s : State) (a line : Nat) : State :=
  let l := s.line a line
  let s := if l.st.dirty then s.countLostLine a else s
  s.setLine a line { l with st := droppedState l.st, poison := 3 }

/-- Requests that a home holds and has not granted: that of a transaction which awaits memory or snoops, and those that wait. -/
def HomeLine.ungranted (h : HomeLine) : List Msg :=
  ((match h.tx with
    | some t => if t.st = .mem ∨ t.st = .snp then [t.req] else []
    | none => []) ++ h.waiting).filter (fun m => m.code != mVictim)

/-- Requests that a fenced home still holds are answered by the fenced link (R330, R390). -/
def State.answerHome (s : State) (line : Nat) : State :=
  let waiting := (s.home line).ungranted
  waiting.foldl (fun s m => s.fencedAnswer m) (s.setHome line HomeLine.init)

/-- A partition is lost: every incomplete command of its contexts ends with FENCED, and its recovery is abandoned; its clusters are held in reset,
on other dies too, and its credits are reclaimed (R36, R105, R390, R464). -/
def State.losePartition (s : State) (p : Nat) : State :=
  let s := s.setRecov p { Recov.idle with engine := (s.recov p).engine }
  let mine := fun (f : Fence) => match f.dom with
    | .engine e => s.enginePart e == p
    | _ => false
  let s := { s with fences := s.fences.filter (fun f => !mine f) }
  let s := (s.domainCtxs (.partition p)).foldl (fun s c =>
    let s := s.recallKept c
    let buf := (s.ctx c).buf
    let s := (s.dropCtxOpens c).failForeign c
    let s := s.failAll c buf (fun _ => stFenced)
    ((s.dropEntries (s.ctxEntries c)).revertClaims c).retireAll c buf) s
  let clusters := ((partOf s.tables p).map (fun e => bitsOf 16 e.clusters)).getD []
  (clusters.foldl State.clearCluster s).rebuildPart p

/-- Partitions that hold a cluster of tensor die n. -/
def State.partsOn (s : State) (n : Nat) : List Nat :=
  (List.range 16).filter (fun p => match partOf s.tables p with
    | some e => (List.range 16).any (fun c => bit e.clusters c && dieOfCluster c == n)
    | none => false)

/-- The fence of die pair n, with its cause (R390). A pair that is fenced already stays so. -/
def State.fenceDiePair (s : State) (n cause : Nat) : State :=
  if n ≥ 4 ∨ s.dieFenced n then s
  else
    let reach := ([1 + n, 5 + n] ++ ((List.range 4).filter (fun r => (ringEnds r).contains n)).map (9 + ·)).any (fun l => s.linkState l == lsUp)
    let s := (pairLinks n).foldl (fun s l => s.setFld Fld.HUB_LINK_STATUS_STATE l lsFenced) s
    let s := s.setFld Fld.HUB_DIE_FENCE_FENCED 0 (s.fld Fld.HUB_DIE_FENCE_FENCED ||| 2 ^ n)
    let s := (s.setFld Fld.HUB_DIE_FENCE_CAUSE 0 (putBits (s.fld Fld.HUB_DIE_FENCE_CAUSE) (4 * n) 4 cause)).raise Fld.HUB_STICKY_DIE_FENCED
    let s := (s.partsOn n).foldl State.losePartition s
    let s := (s.agents.filter (fun e => linePair (e.1 % 2 ^ 46) n)).foldl (fun s e => s.poisonAgentLine (e.1 / 2 ^ 46) (e.1 % 2 ^ 46)) s
    let s := (s.homes.filter (fun e => linePair e.1 n)).foldl (fun s e => s.answerHome e.1) s
    if reach then s.emit (.selfRefresh n) else s

/-! ## Losses (R388, R389) -/

/-- Unit of the package that a link's loss fences. -/
def State.linkFence (s : State) (l cause : Nat) : State :=
  if l = 0 then s.chipReset 5
  else if l ≤ 4 then s.fenceDiePair (l - 1) cause
  else if l ≤ 8 then s.fenceDiePair (l - 5) cause
  else if l ≤ 12 then s
  else s.fenceDiePair (l - 13) cause

/-- An UP link declares a loss, with the number of its event in R388. -/
def State.linkLoss (s : State) (l cause : Nat) : State :=
  if l ≥ 17 ∨ s.linkState l ≠ lsUp then s
  else
    let s := (s.raise Fld.HUB_LINK_STATUS_LOSS l).setFld Fld.HUB_LINK_STATUS_LOSS_CAUSE l cause
    (s.setFld Fld.HUB_LINK_STATUS_STATE l lsFenced).linkFence l (if cause = 4 then dfDieReset else if cause = 2 then dfClock else dfLinkLoss)

/-- 8 beats without a good flit at the receiving end of a direction. -/
def State.linkSilence (s : State) (l dir : Nat) : State :=
  if s.ft ≥ (s.dieLink (otherEnd (2 * l + dir % 2))).lastGood + 8 then s.linkLoss l 1 else s

/-- 32 resends in a row of one SEQ, or of one instance. -/
def State.linkRetryLimit (s : State) (l dir : Nat) : State :=
  let v := s.dieLink (2 * l + dir % 2)
  if v.retries ≥ 32 ∨ v.instRetries ≥ 32 then s.linkLoss l 3 else s

/-! ## Coherent flits (R385, R386) -/

/-- A count of HUB_LINK_ERR that reaches its greatest value sets OVF. -/
def State.linkCount (s : State) (f : Field) (l n : Nat) : State :=
  let s := s.bump f l n
  if s.fld f l = 2 ^ 24 - 1 then s.raise Fld.HUB_LINK_ERR_OVF l else s

/-- The flit that 272 bytes are, where its CRC matches: a header of 16 bytes ahead of the payload (R385). -/
def decodeFlit (raw : List Byte) : Option Flit :=
  if raw.length ≠ 272 ∨ fieldAt raw 0xC 4 ≠ crc32 (raw.take 12 ++ raw.drop 16) then none
  else some ⟨fieldAt raw 0 1, fieldAt raw 1 1 % 8, fieldAt raw 2 2, fieldAt raw 4 2, fieldAt raw 0xA 2 / 2 ^ 13, fieldAt raw 0xA 2 % 2 ^ 13⟩

/-- Errors on the way: places, and what each byte there is changed by. -/
def strike (raw : List Byte) (errs : List (Nat × Byte)) : List Byte :=
  errs.foldl (fun b e => b.set e.1 ((b[e.1]?).getD 0 ^^^ e.2)) raw

/-- The link carries the coherent plane (R382). -/
def coherentLink (l : Nat) : Bool := decide (l < 17) && !(decide (9 ≤ l) && decide (l ≤ 12))

/-- The sending end sends a coherent flit: a new one takes the next SEQ and a credit of its channel, and the last 512 are kept. -/
def DieLink.transmit (v : DieLink) (f : Flit) (ft : Nat) : DieLink :=
  if f.typ = 1 ∧ f.seq = v.seq then
    let one : Nat × Nat := (f.seq, f.vc)
    let l := v.sent ++ [one]
    { v with sent := l.drop (l.length - 512), seq := (v.seq + 1) % 2 ^ 16, credits := v.credits.set f.vc (v.credits.getD f.vc 0 - 1)
             ackBeat := if v.sent.isEmpty then ft else v.ackBeat }
  else v

/-- Sequence number a is at or before b, modulo 2^16. -/
def seq16Le (a b : Nat) : Bool := decide ((b + 2 ^ 16 - a % 2 ^ 16) % 2 ^ 16 < 2 ^ 15)

/-- ACK and CREDIT of a good flit reach the end that receives it. -/
def DieLink.acknowledge (v : DieLink) (f : Flit) (ft : Nat) : DieLink :=
  let v := { v with credits := v.credits.set f.creditVc (v.credits.getD f.creditVc 0 + f.credits) }
  if f.ack ≠ v.acked ∧ seq16Le v.acked f.ack then
    { v with acked := f.ack, sent := v.sent.filter (fun x => !seq16Le x.1 f.ack), retries := 0, ackBeat := ft }
  else v

/-- A good coherent flit is accepted only in SEQ order; a gap discards every flit until the missing SEQ comes. -/
def DieLink.accept (v : DieLink) (f : Flit) : DieLink :=
  if f.typ ≠ 1 then v
  else if f.seq = v.rxSeq then { v with rxSeq := (v.rxSeq + 1) % 2 ^ 16, discarding := false }
  else if seq16Le v.rxSeq f.seq then { v with discarding := true }
  else v

/-- COHERENT_FLIT: a flit, as it was sent and with the errors on its way, in a direction of an UP link. Every good flit, idle and tensor ones too,
shows that the link is alive, and returns ACK and CREDIT of the coherent plane (DEDUCED, log 44). -/
def State.coherentFlit (s : State) (l dir : Nat) (raw : List Byte) (errs : List (Nat × Byte)) : State :=
  if l ≥ 17 ∨ s.linkState l ≠ lsUp then s
  else
    let k := 2 * l + dir % 2
    let r := otherEnd k
    let s := match decodeFlit raw with
      | some f => if coherentLink l then s.setDieLink k ((s.dieLink k).transmit f s.ft) else s
      | none => s
    let v := s.dieLink r
    match decodeFlit (strike raw errs) with
    | some f => s.setDieLink r { (if coherentLink l then (v.acknowledge f s.ft).accept f else v) with lastGood := s.ft }
    | none => (s.setDieLink r { v with discarding := v.discarding || coherentLink l }).linkCount Fld.HUB_LINK_ERR_CRC_ERRORS l 1

/-- Beats in which 64 coherent positions of a link pass (R382, R384). -/
def resendBeats (l : Nat) : Nat := if l = 0 ∨ (5 ≤ l ∧ l ≤ 8) then 2 else 4

/-- FLIT_RESEND_TIMEOUT: the sender resends from ACK + 1. -/
def State.flitResend (s : State) (l dir : Nat) : State :=
  let k := 2 * l + dir % 2
  let v := s.dieLink k
  if l ≥ 17 ∨ s.linkState l ≠ lsUp ∨ v.sent.isEmpty ∨ s.ft < v.ackBeat + resendBeats l then s
  else
    let s := (s.setDieLink k { v with retries := v.retries + 1, ackBeat := s.ft }).emit (.flits l (dir % 2) v.sent)
    s.linkCount Fld.HUB_LINK_ERR_REPLAYS l v.sent.length

/-! ## Tensor instances (R387) -/

/-- TENSOR_INSTANCE_RECEIVE: the receiving end accepts an instance whole, or discards it; the sender keeps it meanwhile. -/
def State.instanceReceive (s : State) (l dir circ inst : Nat) (ok : Bool) : State :=
  if l = 0 ∨ l ≥ 17 ∨ (5 ≤ l ∧ l ≤ 8) ∨ s.linkState l ≠ lsUp then s
  else
    let k := 2 * l + dir % 2
    let v := s.dieLink k
    let one : Nat × Nat := (circ, inst % 2 ^ 16)
    let kept := if v.insts.contains one then v.insts else v.insts ++ [one]
    let again := if ok ∨ v.again.contains one then v.again else v.again ++ [one]
    let s := s.setDieLink k { v with insts := kept.drop (kept.length - 2), again := again }
    let r := otherEnd k
    let s := if ok then s.setDieLink r { s.dieLink r with lastGood := s.ft } else s.linkCount Fld.HUB_LINK_ERR_CRC_ERRORS l 1
    s.emit (.instVerdict l (dir % 2) ok circ (inst % 2 ^ 16))

/-- LINK_INST_ACK releases the instance at the sender. -/
def State.linkInstAck (s : State) (l dir circ inst : Nat) : State :=
  let k := 2 * l + dir % 2
  let v := s.dieLink k
  let mine := fun (x : Nat × Nat) => x.1 == circ && x.2 == inst % 2 ^ 16
  if v.insts.any mine then s.setDieLink k { v with insts := v.insts.filter (fun x => !mine x), instRetries := 0 } else s

/-- LINK_INST_NAK: the sender resends the instance in the slot's next instance. -/
def State.linkInstNak (s : State) (l dir circ inst : Nat) : State :=
  let k := 2 * l + dir % 2
  let v := s.dieLink k
  let one : Nat × Nat := (circ, inst % 2 ^ 16)
  if v.insts.contains one then
    s.setDieLink k { v with again := if v.again.contains one then v.again else v.again ++ [one], instRetries := v.instRetries + 1 }
  else s

/-! ## Clocks (R381) -/

/-- CLOCK_FAILURE of clock w: 0 to 3 the arithmetic PLL or clock of T0 to T3; 4 to 7 a clock of B0 to B3; 8 the CPU PLL or clock; 9 the network or
link PLL; 10 the beat PLL; 11 the reference. -/
def State.clockFailure (s : State) (w : Nat) : State :=
  let unlock := fun (s : State) => s.raise Fld.HUB_CLK_STATUS_UNLOCK_SEEN
  if w < 4 then
    (unlock (s.setFld Fld.HUB_CLK_STATUS_ARITH_LOCK 0 (without (s.fld Fld.HUB_CLK_STATUS_ARITH_LOCK) w))).fenceDiePair w dfClock
  else if w < 8 then s.fenceDiePair (w - 4) dfClock
  else if w = 8 then (unlock (s.setFld Fld.HUB_CLK_STATUS_CPU_LOCK 0 0)).chipReset 4
  else if w = 9 then (unlock (s.setFld Fld.HUB_CLK_STATUS_NET_LOCK 0 0)).chipReset 4
  else if w = 10 then (unlock (s.setFld Fld.HUB_CLK_STATUS_BEAT_LOCK 0 0)).chipReset 4
  else if w = 11 then (s.setFld Fld.HUB_CLK_STATUS_REF_PRESENT 0 0).chipReset 4
  else s

/-- HBM_SELF_REFRESH_CONFIRM of Bn's controllers (R390). -/
def State.selfRefreshConfirm (s : State) (n : Nat) : State :=
  if n < 4 ∧ s.dieFenced n then s.setFld Fld.HUB_DIE_FENCE_HBM_HELD 0 (s.fld Fld.HUB_DIE_FENCE_HBM_HELD ||| 2 ^ n) else s

def execCoherentFlit (link dir : Nat) (f : FlitIn) (s : State) : Host.Outcome State Fault Refusal :=
  answer (s.coherentFlit link dir f.raw f.errs)
def execFlitResendTimeout (link dir : Nat) (s : State) : Host.Outcome State Fault Refusal := answer (s.flitResend link dir)
def execTensorInstanceReceive (link dir circ inst : Nat) (ok : Bool) (s : State) : Host.Outcome State Fault Refusal :=
  answer (s.instanceReceive link dir circ inst ok)
def execLinkInstAck (link dir circ inst : Nat) (s : State) : Host.Outcome State Fault Refusal := answer (s.linkInstAck link dir circ inst)
def execLinkInstNak (link dir circ inst : Nat) (s : State) : Host.Outcome State Fault Refusal := answer (s.linkInstNak link dir circ inst)
def execLinkSilenceTimeout (link dir : Nat) (s : State) : Host.Outcome State Fault Refusal := answer (s.linkSilence link dir)
def execLinkRetryLimit (link dir : Nat) (s : State) : Host.Outcome State Fault Refusal := answer (s.linkRetryLimit link dir)
def execLinkResetIndication (link : Nat) (s : State) : Host.Outcome State Fault Refusal := answer (s.linkLoss link 4)
def execClockFailure (which : Nat) (s : State) : Host.Outcome State Fault Refusal := answer (s.clockFailure which)
def execHbmSelfRefreshConfirm (n : Nat) (s : State) : Host.Outcome State Fault Refusal := answer (s.selfRefreshConfirm n)

end Sys2Proof.Machine
end

