-- ==== Sys2Proof/Machine/Power.lean ====
section
/-! DEFINITION. Power, droop and thermal control (chapter 16). -/

namespace Sys2Proof.Machine

/-- Die number of tensor die n (R397). -/
def tensorDie (n : Nat) : Nat := n + 2

def State.updPwr (s : State) (f : Pwr → Pwr) : State := { s with pwr := f s.pwr }
def State.updDpwr (s : State) (d : Nat) (f : DiePwr → DiePwr) : State := s.setDpwr d (f (s.dpwr d))

/-! ## What is in force -/

def State.fallback (s : State) : Bool := s.flag Fld.PWR_FAULT_POWER_MODEL
def State.equinox (s : State) : Bool := s.flag Fld.PWR_MODE_EQUINOX

/-- Clock of tensor die n (R416, R438, R439): the lowest of the loops' settings; boost where nothing lowers it. -/
def State.dieMhz (s : State) (n : Nat) : Nat :=
  let v := s.dpwr (tensorDie n)
  if s.equinox then min (s.fld Fld.PWR_MODE_EQX_MHZ) v.thMhz
  else
    let m := min s.pwr.capMhz v.thMhz
    if m ≥ 3600 then max 3600 v.boost else m

/-- Issue duty of tensor die n: the lowest of the loops' settings, less 8 while a droop holds it (R426); 0 at the critical level (R427). -/
def State.dutyOf (s : State) (n : Nat) : Nat :=
  let v := s.dpwr (tensorDie n)
  let d := min (min s.pwr.capDuty s.pwr.limDuty) v.thDuty
  let d := if s.ft < v.droopTo then max 1 (d - 8) else d
  if s.fld Fld.PWR_TEMP_LEVEL (tensorDie n) = 3 then 0 else d

def State.cpuMhz (s : State) : Nat := min s.pwr.capCpu s.pwr.thCpu

/-- Boost is withheld by the thermal level, a droop event or the fallback (R433, R438). -/
def State.boostBarred (s : State) (n : Nat) : Bool :=
  let v := s.dpwr (tensorDie n)
  decide (s.fld Fld.PWR_TEMP_LEVEL (tensorDie n) ≠ 0) || (decide (v.lastDroop ≠ 0) && decide (s.ft + 1 < v.lastDroop + 12500)) || s.fallback

def State.boostOn (s : State) : Bool := s.flag Fld.PWR_MODE_BOOST_EN && !s.equinox

/-- Clocks, duties and the registers that show them, after any loop has acted. A die that may not boost leaves its boost clock at once. -/
def State.powerShow (s : State) : State :=
  let s := (List.range 4).foldl (fun s n =>
    if s.boostOn && !s.boostBarred n then s else s.updDpwr (tensorDie n) (fun v => { v with boost := 3600, boostOk := 3600 })) s
  let s := (List.range 4).foldl (fun s n => s.setDuty n (s.dutyOf n)) s
  let s := (((s.setFld Fld.PWR_CLK_T0_MHZ 0 (s.dieMhz 0)).setFld Fld.PWR_CLK_T1_MHZ 0 (s.dieMhz 1)).setFld Fld.PWR_CLK_T2_MHZ 0 (s.dieMhz 2)).setFld
    Fld.PWR_CLK_T3_MHZ 0 (s.dieMhz 3)
  let s := s.setFld Fld.PWR_CLK_CPU_MHZ 0 s.cpuMhz
  let s := s.setFld Fld.PWR_STATUS_DUTY 0 ((List.range 4).foldl (fun m n => min m (s.dutyOf n)) 64)
  let s := s.clampEpisode Fld.PWR_POLICY_CLAMP_CLOCK 3
    (s.equinox && (List.range 4).any (fun n => decide (s.dieMhz n < s.fld Fld.PWR_MODE_EQX_MHZ)))
  s.clampEpisode Fld.PWR_POLICY_CLAMP_BOOST 2 (s.boostOn && (List.range 4).any s.boostBarred)

/-- R422: EFFECTIVE and APPLIED_W; a software cap above EFFECTIVE is overridden (R433). -/
def State.capShow (s : State) : State :=
  let eff := min (min (s.fld Fld.PWR_CAP_SW_W) (s.fld Fld.PWR_CAP_TRAY_W)) (s.fld Fld.PWR_COOLANT_RATING_W)
  let s := (s.setFld Fld.PWR_CAP_EFFECTIVE_W 0 eff).setFld Fld.PWR_CAP_APPLIED_W 0 (if s.fallback then eff * 9 / 10 / 10 * 10 else eff)
  let s := s.setFld Fld.PWR_CAP_PENDING 0 (if s.pwr.swNext.isSome ∨ s.pwr.trayNext.isSome then 1 else 0)
  s.clampEpisode Fld.PWR_POLICY_CLAMP_CAP 4 (decide (eff < s.fld Fld.PWR_CAP_SW_W))

/-! ## Caps and modes (R422, R423, R437, R439) -/

/-- A cap lies within 900 to 2,400 W, and is a multiple of 10. -/
def capOk (v : Nat) : Bool := decide (900 ≤ v) && decide (v ≤ 2400) && decide (v % 10 = 0)

/-- The beat is a boundary of every schedule period in force. -/
def State.atBoundary (s : State) : Bool :=
  let k := ((circuits s.tables).map (·.k)).foldl max 6
  s.ft % 2 ^ k == 0

def State.capWrite (s : State) (v : Nat) : State :=
  if capOk v then (s.updPwr (fun p => { p with swNext := some v, capBeat := s.ft })).capShow else s

def State.trayCap (s : State) (v : Nat) : State :=
  if capOk v then (s.updPwr (fun p => { p with trayNext := some v, capBeat := s.ft })).capShow else s

def State.capApply (s : State) : State :=
  let p := s.pwr
  if !s.atBoundary ∨ s.ft ≤ p.capBeat then s
  else
    let s := match p.swNext with
      | some v => s.setFld Fld.PWR_CAP_SW_W 0 v
      | none => s
    let s := match p.trayNext with
      | some v => s.setFld Fld.PWR_CAP_TRAY_W 0 v
      | none => s
    (s.updPwr (fun p => { p with swNext := none, trayNext := none })).capShow

/-- A write of PWR_MODE (R434, R437, R439): ignored whole where EQX_MHZ is out of range. Whether a negative VOFFSET takes a supply below the
minimum is the voltage loop's own, a free value. -/
def State.modeWrite (s : State) (w mask : Nat) : State :=
  let v := s.stored .PWR_MODE 0 w mask
  let eqx := getBits v 8 12
  if eqx < 2400 ∨ eqx > 3600 ∨ eqx % 50 ≠ 0 then s
  else
    let mode := eqx * 2 ^ 8 + v % 8 / 2 * 2
    let old := s.fld Fld.PWR_MODE_EQX_MHZ * 2 ^ 8 + s.fld Fld.PWR_MODE_BOOST_EN * 4 + s.fld Fld.PWR_MODE_EQUINOX * 2
    let s := s.setFld Fld.PWR_MODE_VOFFSET 0 (getBits v 23 5)
    let s := s.updPwr (fun p => { p with
      modeNext := if mode = old then none else some mode
      modeBeat := s.ft
      fillNext := some (bit v 0) })
    (s.clampEpisode Fld.PWR_POLICY_CLAMP_VOLTAGE 1 (decide (getBits v 23 5 ≥ 16) && s.freeBit)).spend

def State.setMode (s : State) (mode : Nat) : State :=
  ((s.setFld Fld.PWR_MODE_EQX_MHZ 0 (mode / 2 ^ 8)).setFld Fld.PWR_MODE_BOOST_EN 0 (getBits mode 2 1)).setFld Fld.PWR_MODE_EQUINOX 0 (getBits mode 1 1)

def State.modeApply (s : State) : State :=
  match s.pwr.modeNext with
  | some m =>
    if !s.atBoundary ∨ s.ft ≤ s.pwr.modeBeat then s
    else (((s.setMode m).updPwr (fun p => { p with modeNext := none, capMhz := if bit m 1 then 3600 else p.capMhz }))).powerShow
  | none => s

/-- A rate lies within 1 to 1,000. -/
def rateOk (v : Nat) : Bool := decide (1 ≤ v) && decide (v ≤ 1000)

/-- A write of PWR_RAMP: a field out of range is ignored. -/
def State.rampWrite (s : State) (w mask : Nat) : State :=
  let v := s.stored .PWR_RAMP 0 w mask
  let old := (s.reg .PWR_RAMP 0).toNat
  let a := if rateOk (getBits v 0 10) then getBits v 0 10 else getBits old 0 10
  let b := if rateOk (getBits v 16 10) then getBits v 16 10 else getBits old 16 10
  s.updPwr (fun p => { p with rampNext := some (b * 2 ^ 16 + a) })

/-- RAMP_WRITE of FILLER_EN. -/
def State.fillerWrite (s : State) (w : Nat) : State := s.updPwr (fun p => { p with fillNext := some (bit w 0) })

/-- The POWER section takes effect (R60, R440, R474): pending writes are discarded. -/
def State.applyPower (s : State) (e : PowerEntry) : State :=
  let s := s.setFld Fld.PWR_CAP_SW_W 0 e.capW
  let eq := bit e.flags 1
  let s := s.setMode (e.eqxMhz * 2 ^ 8 + (if bit e.flags 2 && !eq then 4 else 0) + (if eq then 2 else 0))
  let s := s.setFld Fld.PWR_MODE_FILLER_EN 0 (e.flags % 2)
  let s := (s.setFld Fld.PWR_RAMP_AUTUMN_RATE 0 e.autumn).setFld Fld.PWR_RAMP_SPRING_RATE 0 e.spring
  let s := s.updPwr (fun p => { p with swNext := none, modeNext := none, rampNext := none, fillNext := none, capMhz := if eq then 3600 else p.capMhz })
  s.capShow.powerShow

/-! ## The cap loop (R424, R431, R432, R541) -/

/-- One step down, in the loop's order: tensor clocks, issue duty, CPU clock. -/
def Pwr.lower (p : Pwr) (equinox : Bool) : Pwr :=
  if !equinox && decide (p.capMhz > 2400) then { p with capMhz := p.capMhz - 50 }
  else if p.capDuty > 4 then { p with capDuty := p.capDuty - 1 }
  else if p.capCpu > 1200 then { p with capCpu := p.capCpu - 100 }
  else p

/-- One step back, in the reverse order. -/
def Pwr.restore (p : Pwr) : Pwr :=
  if p.capCpu < 3400 then { p with capCpu := p.capCpu + 100 }
  else if p.capDuty < 64 then { p with capDuty := p.capDuty + 1 }
  else if p.capMhz < 3600 then { p with capMhz := p.capMhz + 50 }
  else p

def Pwr.repeatStep (f : Pwr → Pwr) : Nat → Pwr → Pwr
  | 0, p => p
  | n + 1, p => Pwr.repeatStep f n (f p)

/-- R432: the estimator's fallback begins. -/
def State.enterFallback (s : State) : State :=
  if s.fallback then s
  else
    let s := (s.raise Fld.PWR_FAULT_POWER_MODEL).emit (.pldmEvent 0)
    (s.updPwr (fun p => { p with run15 := 0, sum15 := 0, run40 := 0 })).capShow

/-- R431: the sample's power in mW against the mean estimate, for samples of 300 W and more. M/Ē is a free value where Ē is 0. -/
def State.compareModel (s : State) (m e : Nat) : State :=
  if m < 300000 ∨ s.fallback then s
  else
    let diff := if e ≥ m then e - m else m - e
    let ratio := if e = 0 then s.free % 2 ^ 16 else m * 4096 / e
    let s := if e = 0 then s.spend else s
    let n15 := if diff * 100 > 15 * m then s.pwr.run15 + 1 else 0
    let sum := if diff * 100 > 15 * m then s.pwr.sum15 + ratio else 0
    let n40 := if diff * 100 > 40 * m then s.pwr.run40 + 1 else 0
    let s := s.updPwr (fun p => { p with run15 := n15, sum15 := sum, run40 := n40 })
    let s := if n15 ≥ 100 then
        let g := s.fld Fld.PWR_EST_GAIN * (sum / 100) / 4096
        ((s.setFld Fld.PWR_EST_GAIN 0 (min g (2 ^ 16 - 1))).bump Fld.PWR_EST_RECALS 0).updPwr (fun p => { p with run15 := 0, sum15 := 0 })
      else s
    if n40 ≥ 10 then s.enterFallback else s

/-- Duty to which the limiter gates work that a ramp or the budget holds back: the amount is its own, a free value from 1 to 63. -/
def State.limitWork (s : State) (held : Bool) : State :=
  if held then (s.updPwr (fun p => { p with limDuty := 1 + s.free % 63 })).spend else s.updPwr (fun p => { p with limDuty := 64 })

/-- The limiter in the fallback (R432): the ramps are judged on the sample, at rates per 100 µs. -/
def State.fallbackRamps (s : State) (m : Nat) : State :=
  let p := s.pwr
  let applied := s.fld Fld.PWR_CAP_APPLIED_W * 1000
  let l := if s.flag Fld.PWR_MODE_FILLER_EN then min applied (max (p.floor - s.fld Fld.PWR_RAMP_AUTUMN_RATE * 2400) m) else 0
  let s := s.limitWork (decide (m > max p.floor p.lastM + s.fld Fld.PWR_RAMP_SPRING_RATE * 2400) || decide (m > applied))
  (s.updPwr (fun p => { p with floor := l })).setFld Fld.PWR_STATUS_FILLER_W 0 ((l - m) / 1000)

/-- A trace packet of class POWER (R513), with each sample of the cap loop, whose values it holds. -/
def State.powerPacket (s : State) : State :=
  s.packet 3 ⟨⟨s.ft, 0, 3, 0, none, 0xFFFF, 0xFFFF, 0, (s.reg .PWR_STATUS 0).toNat / 2 ^ 21 * 2 ^ 21⟩, 7, 0⟩

/-- A sample of the cap loop: input power m in mW, input voltage in mV. How many steps the loop takes in a sample is its own, a free value: at
least one while the sample lies above the target. Between 44 and 46 V the mean input current is limited to 52.2 A as well
(DESIGN CHOICE, log 48). -/
def State.capStep (s : State) (m mv : Nat) : State :=
  let e := s.pwr.estSum / max 1 s.pwr.estCount
  let s := (s.setFld Fld.PWR_STATUS_MEAS_W 0 (min (m / 1000) 4095)).setFld Fld.PWR_STATUS_EST_W 0 (min (e / 1000) 4095)
  let s := s.compareModel m e
  let applied := s.fld Fld.PWR_CAP_APPLIED_W * 1000
  let target := if mv < 46000 then min applied (mv * 522 / 10) else applied
  let above := if m > applied then s.pwr.above + 1 else 0
  let n := s.free % 106
  let eq := s.equinox
  let s := (s.updPwr (fun p =>
    if m > target then Pwr.repeatStep (fun q => q.lower eq) (n + 1) p
    else if m < target then Pwr.repeatStep Pwr.restore n p
    else p)).spend
  let s := if above ≥ 50 then (s.updPwr (fun p => { p with capDuty := 4 })).raise Fld.PWR_FAULT_EXCURSION else s
  let s := if s.fallback then s.fallbackRamps m else s
  ((s.updPwr (fun p => { p with above := above, estSum := 0, estCount := 0, lastM := m })).powerShow).powerPacket

/-- CAP_LOOP_SAMPLE: the first one in 100 µs of fabric time is that period's sample (R416) (DESIGN CHOICE, log 76). -/
def State.capSample (s : State) (m mv : Nat) : State :=
  if s.pwr.sampled = s.ft / 12500 + 1 then s else (s.updPwr (fun p => { p with sampled := s.ft / 12500 + 1 })).capStep m mv

/-! ## The activity limiter (R426, R429, R430, R435, R436) -/

/-- Anticipated stretching: a die's estimate rises by more than 4 % of RATING in one update. -/
def State.armStretch (s : State) (d est : Nat) : State :=
  let v := s.dpwr d
  let rise := decide (est > v.est + s.fld Fld.PWR_COOLANT_RATING_W * 40) && !s.fallback
  s.setDpwr d { v with
    est := est, armed := if rise then s.ft + 125 else v.armed
    stretch := if rise && v.stretch.isNone then some s.ft else v.stretch }

/-- A microsecond's ramp step and estimate (R421, R425): the real work's estimate of each die, and the fixed term, in mW. -/
def State.activityStep (s : State) (ests : List Nat) (fixed : Nat) : State :=
  let p := s.pwr
  let s := match p.rampNext with
    | some v => (s.setFld Fld.PWR_RAMP_AUTUMN_RATE 0 (getBits v 0 10)).setFld Fld.PWR_RAMP_SPRING_RATE 0 (getBits v 16 10)
    | none => s
  let s := match p.fillNext with
    | some b => s.setFld Fld.PWR_MODE_FILLER_EN 0 (if b then 1 else 0)
    | none => s
  let s := s.updPwr (fun p => { p with rampNext := none, fillNext := none })
  let s := (List.range 10).foldl (fun s d => s.armStretch d (ests.getD d 0)) s
  let real := (((List.range 10).map (fun d => ests.getD d 0)).sum + fixed) * s.fld Fld.PWR_EST_GAIN / 4096
  if s.fallback then (s.updPwr (fun p => { p with estSum := p.estSum + real, estCount := p.estCount + 1, lastE := real })).powerShow
  else
    let applied := s.fld Fld.PWR_CAP_APPLIED_W * 1000
    let fill := s.flag Fld.PWR_MODE_FILLER_EN
    let most := min applied (max p.floor p.lastE + s.fld Fld.PWR_RAMP_SPRING_RATE * 24)
    let e := min real most
    let l := if fill then min applied (max (p.floor - s.fld Fld.PWR_RAMP_AUTUMN_RATE * 24) e) else 0
    let s := s.limitWork (decide (real > most))
    let s := s.setFld Fld.PWR_STATUS_FILLER_W 0 ((l - e) / 1000)
    (s.updPwr (fun p => { p with floor := l, lastE := max l e, estSum := p.estSum + max l e, estCount := p.estCount + 1 })).powerShow

/-- ACTIVITY_UPDATE: the first one in a microsecond of fabric time is that microsecond's step (R88) (DESIGN CHOICE, log 76). -/
def State.activity (s : State) (ests : List Nat) (fixed : Nat) : State :=
  if s.pwr.updated = s.ft / 125 + 1 then s
  else (s.updPwr (fun p => { p with updated := s.ft / 125 + 1 })).activityStep ests fixed

/-! ## Droop (R426) -/

def State.droopDetect (s : State) (d : Nat) : State :=
  if d ≥ 10 then s
  else
    let v := s.dpwr d
    ((s.setDpwr d { v with stretch := some (v.stretch.getD s.ft), lastDroop := s.ft + 1 }).bump Fld.PWR_STATUS_DROOP 0).powerShow

/-- Stretching ends, unless the limiter armed it for longer. -/
def State.droopRecover (s : State) (d : Nat) : State :=
  if d ≥ 10 ∨ s.ft < (s.dpwr d).armed then s else s.updDpwr d (fun v => { v with stretch := none })

/-- 2 µs are 250 beats; 100 µs are 12,500. -/
def State.droopLong (s : State) (d : Nat) : State :=
  match (s.dpwr d).stretch with
  | some b => if d < 10 ∧ s.ft > b + 250 then (s.updDpwr d (fun v => { v with droopTo := s.ft + 12500 })).powerShow else s
  | none => s

/-! ## Temperature (R420, R427, R428) -/

def thermEnter (t : Nat) : Nat := if t ≥ 115 then 3 else if t ≥ 105 then 2 else if t ≥ 95 then 1 else 0
def thermLeave (l : Nat) : Nat := if l = 3 then 110 else if l = 2 then 102 else 92

/-- The level after a reading, with hysteresis (DEDUCED, log 49). -/
def thermLevel (old t : Nat) : Nat :=
  let e := thermEnter t
  if e ≥ old then e
  else if t ≥ thermLeave old then old
  else if e ≥ old - 1 ∨ t ≥ thermLeave (old - 1) then old - 1
  else if e ≥ old - 2 ∨ t ≥ thermLeave (old - 2) then old - 2
  else e

/-- A die's temperature for R427: a tensor die also counts its base die, with 5 °C for each of its stacks that reads above 100 °C; and every
tensor die and the CPU die follow the hub. -/
def State.dieTemp (s : State) (ts : List Nat) (d : Nat) : Nat :=
  let own := ts.getD d 0
  let hot := (List.range 2).filter (fun i => decide (s.fld Fld.MEM_REFRESH_TEMP (2 * (d - 2) + i) > 100))
  let t := if 2 ≤ d ∧ d ≤ 5 then max own (ts.getD (d + 4) 0 + 5 * hot.length) else own
  if 1 ≤ d ∧ d ≤ 5 then max t (ts.getD 0 0) else t

/-- The thermal loop's step on a tensor die: lowered while the temperature stays at or above the entry value, restored one step every 100 µs
below the value at which the level is left. -/
def DiePwr.thermal (v : DiePwr) (level t : Nat) (restore : Bool) : DiePwr :=
  if level ≥ 2 ∧ t ≥ 105 then
    if v.thMhz > 2400 then { v with thMhz := v.thMhz - 50 } else { v with thDuty := max 1 (v.thDuty - 1) }
  else if level < 2 ∧ restore then
    if v.thDuty < 64 then { v with thDuty := v.thDuty + 1 } else if v.thMhz < 3600 then { v with thMhz := v.thMhz + 50 } else v
  else v

def State.thermalDie (s : State) (ts : List Nat) (restore : Bool) (d : Nat) : State :=
  let t := s.dieTemp ts d
  let l := thermLevel (s.fld Fld.PWR_TEMP_LEVEL d) t
  let s := (s.setFld Fld.PWR_TEMP_JUNCTION d (min (ts.getD d 0) 255)).setFld Fld.PWR_TEMP_LEVEL d l
  let s := if l ≥ 2 then s.raise Fld.PWR_FAULT_THERM_THROTTLE else s
  let s := if l ≥ 3 then s.raise Fld.PWR_FAULT_THERM_CRIT else s
  if 2 ≤ d ∧ d ≤ 5 then s.updDpwr d (fun v => v.thermal l t restore)
  else if d = 1 then
    s.updPwr (fun p =>
      if l = 3 then { p with thCpu := 1200 }
      else if l = 2 ∧ t ≥ 105 then { p with thCpu := max 1200 (p.thCpu - 100) }
      else if l < 2 ∧ restore then { p with thCpu := min 3400 (p.thCpu + 100) }
      else p)
  else s

/-- R428: a trip: the main regulators shut down, and the latch holds THERMTRIP_N. -/
def State.tripped (s : State) : State :=
  if s.elec.powered then let s := s.powerOff; { s with elec := { s.elec with trip := true } } else s

/-- THERMAL_SAMPLE: the highest reading of each die in °C, dies numbered as HUB_DIE_ID. A reading of 125 °C trips at once; for the rest the first one
in 10 µs of fabric time is that period's (R416) (DESIGN CHOICE, log 76). -/
def State.thermalSample (s : State) (ts : List Nat) : State :=
  if (ts.take 10).any (fun t => decide (t ≥ 125)) then s.tripped
  else if s.pwr.thermal = s.ft / 1250 + 1 then s
  else
    let s := s.updPwr (fun p => { p with thermal := s.ft / 1250 + 1 })
    let restore := decide (s.ft ≥ s.pwr.restored + 12500)
    let s := (List.range 10).foldl (fun s d => s.thermalDie ts restore d) s
    (if restore then s.updPwr (fun p => { p with restored := s.ft }) else s).powerShow

/-- RATING by the inlet temperature in units of 0.1 °C (R420). -/
def ratingOf (t : Nat) : Nat := if t ≤ 500 then 2400 else if t ≤ 550 then (2400 - 6 * (t - 500)) / 10 * 10 else 900

def State.coolant (s : State) (t : Nat) : State :=
  let s := (s.setFld Fld.PWR_COOLANT_INLET 0 t).setFld Fld.PWR_COOLANT_RATING_W 0 (ratingOf t)
  (if t > 550 then s.raise Fld.PWR_FAULT_COOLANT_HIGH else s).capShow

/-! ## Boost (R438) -/

/-- E lies at least 5 % below APPLIED_W. -/
def State.headroom (s : State) : Bool := decide (s.pwr.lastE * 100 ≤ s.fld Fld.PWR_CAP_APPLIED_W * 95000)

def State.boostStep (s : State) : State :=
  let s := (List.range 4).foldl (fun s n =>
    if !s.boostOn ∨ s.boostBarred n then s
    else s.updDpwr (tensorDie n) (fun v =>
      if s.headroom then { v with boostOk := v.boost, boost := min 3900 (v.boost + 50) }
      else if v.boost > v.boostOk then { v with boost := v.boostOk }
      else { v with boost := max 3600 (v.boost - 50), boostOk := max 3600 (v.boost - 50) })) s
  s.powerShow

/-- BOOST_UPDATE: the first one in 100 µs of fabric time is that period's step (R416) (DESIGN CHOICE, log 76). -/
def State.boostUpdate (s : State) : State :=
  if s.pwr.boosted = s.ft / 12500 + 1 then s else (s.updPwr (fun p => { p with boosted := s.ft / 12500 + 1 })).boostStep

/-- POWER_MODEL_CLEAR: the fallback ends. -/
def State.clearModel (s : State) : State :=
  if s.fallback then
    let s := (s.setFld Fld.PWR_FAULT_POWER_MODEL 0 0).setFld Fld.PWR_EST_GAIN 0 0x1000
    (s.updPwr (fun p => { p with run15 := 0, sum15 := 0, run40 := 0 })).capShow.powerShow
  else s

/-- What a beat ends: anticipated stretching, and the lower duty after a droop. -/
def State.powerBeat (s : State) : State :=
  let ended := fun (d : Nat) => (s.dpwr d).armed == s.ft && decide (s.ft ≠ 0)
  let s := ((List.range 10).filter ended).foldl (fun s d => s.updDpwr d (fun v => { v with stretch := none })) s
  if (List.range 4).any (fun n => (s.dpwr (tensorDie n)).droopTo == s.ft && decide (s.ft ≠ 0)) then s.powerShow else s

def execCapLoopSample (m mv : Nat) (s : State) : Host.Outcome State Fault Refusal := answer (s.capSample m mv)
def execActivityUpdate (ests : List Nat) (fixed : Nat) (s : State) : Host.Outcome State Fault Refusal := answer (s.activity ests fixed)
def execThermalSample (ts : List Nat) (s : State) : Host.Outcome State Fault Refusal := answer (s.thermalSample ts)
def execThermalTrip (s : State) : Host.Outcome State Fault Refusal := answer s.tripped
def execCoolantSample (t : Nat) (s : State) : Host.Outcome State Fault Refusal := answer (s.coolant t)
def execBoostUpdate (s : State) : Host.Outcome State Fault Refusal := answer s.boostUpdate
def execDroopDetect (d : Nat) (s : State) : Host.Outcome State Fault Refusal := answer (s.droopDetect d)
def execDroopRecover (d : Nat) (s : State) : Host.Outcome State Fault Refusal := answer (s.droopRecover d)
def execDroopLong (d : Nat) (s : State) : Host.Outcome State Fault Refusal := answer (s.droopLong d)
/-- The input has lain outside 46 to 58 V for 100 µs (R419). -/
def execInputRangeTimeout (s : State) : Host.Outcome State Fault Refusal := answer (if s.elec.powered then s.raise Fld.PWR_FAULT_INPUT_RANGE else s)
def execCapWrite (rq : Requester) (v : Nat) (s : State) : Host.Outcome State Fault Refusal :=
  answer (s.gated rq .PWR_CAP 0 (fun s => s.capWrite (v % 2 ^ 12)))
def execPldmTrayCap (v : Nat) (s : State) : Host.Outcome State Fault Refusal := answer (s.trayCap v)
def execCapApply (s : State) : Host.Outcome State Fault Refusal := answer s.capApply
def execPowerModeWrite (rq : Requester) (w : Nat) (s : State) : Host.Outcome State Fault Refusal :=
  answer (s.gated rq .PWR_MODE 0 (fun s => s.modeWrite w (2 ^ 64 - 1)))
def execPowerModeApply (s : State) : Host.Outcome State Fault Refusal := answer s.modeApply
def execRampWrite (rq : Requester) (filler : Bool) (w : Nat) (s : State) : Host.Outcome State Fault Refusal :=
  answer (if filler then s.gated rq .PWR_MODE 0 (fun s => s.fillerWrite w) else s.gated rq .PWR_RAMP 0 (fun s => s.rampWrite w (2 ^ 64 - 1)))
def execPowerModelClear (rq : Requester) (s : State) : Host.Outcome State Fault Refusal :=
  answer (s.gated rq .PWR_FAULT 0 State.clearModel)

end Sys2Proof.Machine
end

