-- ==== Sys2Proof/Machine/Solstice.lean ====
section
/-! DEFINITION. Runtime loads of images, the Solstice handshake and the switch (R52, R66 to R79, R103, R199, R354), and an image taking
effect at a start (R474). -/

namespace Sys2Proof.Machine

/-! ## Ranges of memory -/

/-- A range without those parts that a list of ranges covers. -/
def minusRange (r cut : Nat × Nat) : List (Nat × Nat) :=
  [(r.1, min r.2 cut.1), (max r.1 cut.2, r.2)].filter (fun x => decide (x.1 < x.2))

def minusRanges (rs : List (Nat × Nat)) (cuts : List (Nat × Nat)) : List (Nat × Nat) :=
  cuts.foldl (fun rs c => (rs.map (fun r => minusRange r c)).flatten) rs

/-- The addresses from lo to hi − 1 read as zero, with check bytes for it. -/
def State.zeroRange (s : State) (lo hi : Nat) : State :=
  let mine := fun (a : Nat) => decide (lo ≤ a) && decide (a < hi)
  { s with
    mem := s.mem.filter (fun x => !mine x.1), chk := s.chk.filter (fun x => !mine x.1)
    lost := (s.lost.map (fun r => (minusRange (r.1, r.2.1) (lo, hi)).map (fun x => (x.1, x.2, r.2.2)))).flatten }

/-- Bytes of the A regions of a content. -/
def rangesA (l : List Section) : List (Nat × Nat) :=
  ((regions l).filter (fun r => r.type == 3)).map (fun r => (r.base, r.base + r.size * 8192))

/-- R77: bytes whose type changes between W or S and A lose their contents. -/
def State.loseTypes (s : State) (old new : List Section) : State :=
  let a := rangesA old
  let b := rangesA new
  (minusRanges a b ++ minusRanges b a).foldl (fun s r => s.lose r.1 r.2) s

/-! ## An image takes effect (R73, R103, R354, R474) -/

def sliceRange (i : Nat) : Nat × Nat := (llmBase + i * 2 ^ 24, llmBase + (i + 1) * 2 ^ 24)

/-- Slices whose mode changes between two contents. -/
def changedSlices (old new : List Section) : List Nat := (List.range 64).filter (fun i => sliceMode old i != sliceMode new i)

/-- Slices' modes (R56, R77): no line of a die whose modes change stays cached. A slice that becomes scratch was zeroed before ACCEPT (R73). -/
def State.applySlices (s : State) (old new : List Section) : State :=
  let changed := changedSlices old new
  let s := { s with closing := 0 }
  let s := { s with ways := s.ways.filter (fun x => !changed.any (fun i => i / 16 == x.1 / 2 ^ 14 / 16)) }
  (List.range 64).foldl (fun s i => s.setFld Fld.LLM_SLICE_MODE i ((sliceMode new i).getD 0)) s

/-- Way masks (R57): all ways where no entry names a die and class. -/
def State.applyMasks (s : State) (new : List Section) : State :=
  (llmWays new).foldl (fun s e => s.setFld Fld.LLM_WAYS_WAY_MASK (e.die * 16 + e.cls) e.mask) (s.resetRegs .LLM_WAYS (fun _ => true))

/-- A counter counts from 0, and its OVF stays (R498, R499). -/
def State.zeroCounters (s : State) (r : Reg) (value : Field) : State :=
  ((s.regs.filter (fun x => x.1 / 2 ^ 20 == r.num)).map (fun x => x.1 % 2 ^ 20)).foldl (fun s i => s.setFld value i 0) s

/-- Counter sources (R61): a counter without an entry counts nothing. -/
def State.applyCounters (s : State) (new : List Section) : State :=
  let s := ((s.resetRegs .CO_CNT_SEL (fun _ => true)).resetRegs .CL_CNT_SEL (fun _ => true)).resetRegs .HUB_CNT_SEL (fun _ => true)
  let s := ((s.zeroCounters .CO_CNT Fld.CO_CNT_VALUE).zeroCounters .CL_CNT Fld.CL_CNT_VALUE).zeroCounters .HUB_CNT Fld.HUB_CNT_VALUE
  let s := { s with sels := [], selPend := [] }
  (counterEntries new).foldl (fun s e =>
    let g := counterRegs e.kind
    let i := e.unit * g.per + e.counter
    ((s.setFld g.event i e.event).setFld g.ovfEvent i (e.flags % 2)).applySel e.kind e.unit e.counter) s

/-- Circuits that the new content builds anew: those of a partition in SCOPE, and those that it changes or brings (R103). -/
def circRebuilt (old new : List Section) (scope : Nat) (e : CircEntry) : Bool :=
  bit scope e.part || !(circuits old).contains e
  || (slots old).filter (fun x => x.circ == e.id) != (slots new).filter (fun x => x.circ == e.id)

def State.applyCircs (s : State) (old new : List Section) (scope : Nat) : State :=
  let built := (circuits new).filter (circRebuilt old new scope)
  let gone := (circuits old).filter (fun e => !(circuits new).any (fun x => x.id == e.id))
  let mine := fun (c : Nat) => built.any (fun e => e.id == c) || gone.any (fun e => e.id == c)
  let s := { s with contribs := s.contribs.filter (fun t => !mine t.circ) }
  let s := gone.foldl (fun s e => (s.setCirc e.id Circ.init).setSeg e.id Segment.init) s
  built.foldl State.buildCirc s

/-- R199: contexts of partitions in SCOPE whose ring or cores the new content takes away end. -/
def State.applyContexts (s : State) (new : List Section) (scope : Nat) : State :=
  let stays := fun (c : Nat) =>
    let p := s.partOfCtx c
    (rings new).any (fun r => r.ring == c && r.part == p) && (bitsOf 128 (s.coreMask c)).all (fun k => holdsCluster new p (clusterOfCore k))
  let ends := (s.ctxs.filter (fun x => x.2.st != .free && bit scope (s.partOfCtx x.1) && !stays x.1)).map (·.1)
  ends.foldl (fun s c => (s.updCtx c (fun x => { x with st := .ending, endStatus := stFenced, replayTo := none })).closeCtx c) s

/-- CPU cores of a mask leave reset. -/
def State.releaseCpus (s : State) (cores : Nat) : State :=
  (bitsOf 96 cores).foldl (fun s c => if (s.cpu c).inReset then s.updCpu c (fun x => { x with inReset := false }) else s) s

/-- R33: a core in no partition is held in reset, unless it is the module's. -/
def State.holdCpus (s : State) (cores : Nat) : State :=
  ((List.range 96).filter (fun c => decide (2 ≤ c) && !bit cores c && !(s.cpu c).inReset)).foldl
    (fun s c => (s.resetCpu c).updCpu c (fun x => { x with inReset := true })) s

/-- Clusters that the old content places in a partition and the new one in none (R33). -/
def leftClusters (old new : List Section) : List Nat :=
  (List.range 16).filter (fun c => (partOfCluster old c).isSome && (partOfCluster new c).isNone)

/-- Every table flips from the old content to the new. A cluster that leaves every partition is held in reset (R33), and the CPU cores of a
partition that a fenced die keeps from starting stay in it (R67). -/
def State.applyTables (s : State) (old raw : List Section) (self scope : Nat) (atSwitch : Bool) : State :=
  let l := loadTables self raw
  let new := l.1
  let s := s.applyContexts new scope
  let s := { s with img := { s.img with tables := new } }
  let s := s.bump Fld.FAB_STATUS_BAD_ENTRIES 0 l.2
  let s := s.applyCircs old new scope
  let s := (s.applySlices old new).applyMasks new
  let s := if atSwitch then s.loseTypes old new else s
  let s := match (powers new).head? with
    | some e => s.applyPower e
    | none => s
  let s := s.applyCounters new
  let s := s.setFld Fld.TRC_CTL_LOSSLESS 0 (if (traceEntries new).any (fun t => bit t.flags 0) then 1 else 0)
  let s := (List.range 16).foldl (fun s p => if s.portUp p then s.raise Fld.FAB_PORT_STATUS_SLOT_LIVE p else s) s
  let s := (leftClusters old new).foldl State.clearCluster s
  let started := (parts new).filter (fun e => decide (e.id ≥ 16) || !s.partLost e.id)
  (s.holdCpus (orAll (·.cpus) (parts new))).releaseCpus (orAll (·.cpus) started)

/-- The identity registers show the image in force (R78, R79). -/
def State.identify (s : State) : State :=
  match s.lastHdr, s.img.full with
  | some h, some f =>
    let s := (s.setFld Fld.HUB_SIMG_ID_IMAGE_ID 0 h.imageId).setFld Fld.HUB_SIMG_BASE_BASE_IMAGE_ID 0 f.hdr.imageId
    let s := (s.setFld Fld.HUB_SIMG_VER_IMAGE_VERSION 0 h.version).setFld Fld.HUB_SIMG_VER_SECURITY_VERSION 0 h.secVersion
    let s := (s.setFld Fld.HUB_SIMG_GEN_MODULE_ID 0 h.moduleId).setFld Fld.HUB_SIMG_GEN_GENERATION 0 h.generation
    let s := (s.setFld Fld.HUB_SIMG_STATUS_PERSONALITY 0 h.personality).setFld Fld.HUB_SIMG_STATUS_KEY_SLOT 0 h.keySlot
    (List.range 8).foldl (fun s i => s.setFld Fld.HUB_SIMG_DIGEST_DIGEST i (fieldAt h.digest (8 * i) 8)) s
  | _, _ => s

/-! ## What validation is judged against -/

/-- A root key hash of the OTP generation in force, if its slot is valid (R483). -/
def State.keyHash (s : State) (i : Nat) : Option (List Byte) :=
  if bit (s.fld Fld.SEC_OTP_KEY_VALID) i then some (((s.boot.otpGen (s.fld Fld.SEC_OTP_IN_FORCE)).drop (0x40 + 0x40 * i)).take 64) else none

def State.imgEnv (s : State) (updateAllowed runtime held : Bool) : ImgEnv :=
  { keyHash0 := s.keyHash 0, keyHash1 := s.keyHash 1, rollback := s.fld Fld.SEC_OTP_ANTI_ROLLBACK
    firmware := s.fld Fld.HUB_FW_VER_FW_VERSION, fenced := s.fld Fld.HUB_DIE_FENCE_FENCED, full := s.img.full, update := s.img.update
    updateAllowed := updateAllowed, runtime := runtime, held := held }

/-- R67: partitions of a content that hold a cluster of a fenced die. -/
def State.lostOf (s : State) (l : List Section) : Nat :=
  (parts l).foldl (fun a e =>
    if e.id < 16 ∧ (List.range 16).any (fun c => bit e.clusters c && s.dieFenced (dieOfCluster c)) then a ||| 2 ^ e.id else a) 0

/-! ## Loads (R68 to R71) -/

def State.phase (s : State) : Nat := s.fld Fld.HUB_SIMG_STATUS_PHASE
def State.setPhaseOf (s : State) (v : Nat) : State := s.setFld Fld.HUB_SIMG_STATUS_PHASE 0 v
def State.simgResult (s : State) (v : Nat) : State := s.setFld Fld.HUB_SIMG_STATUS_RESULT 0 v

/-- LOAD: the copy of the source begins. BUSY while a load or a Solstice is in progress or a next image is pending (R64, R75). It runs
only once the module is up. -/
def State.simgLoad (s : State) : State :=
  if !s.isUp then s
  else if s.phase ≥ 1 ∨ s.flag Fld.HUB_SIMG_STATUS_NEXT_PENDING then s.simgResult 0x15
  else
    let one : Fetch := ⟨0, s.fld Fld.HUB_SIMG_SRC_ADDR * 64, s.fld Fld.HUB_SIMG_CTL_LENGTH, [], false⟩
    let s := (s.raise Fld.HUB_SIMG_CTL_LOAD).setPhaseOf 1
    (s.setLoad true (some one)).loadReads true (2 ^ 24 + 1)

/-- A load ends without a staged copy. SCOPE, which R78 defines for a staged image, keeps its last value (DESIGN CHOICE, log 64). -/
def State.loadEnds (s : State) (code : Nat) : State :=
  let s := ((s.setLoad true none).simgResult code).setPhaseOf 0
  let s := { s with img := { s.img with staged := none, holdStaged := none } }
  (s.setFld Fld.HUB_SIMG_STATUS_STAGED_VALID 0 0).setFld Fld.HUB_SIMG_CTL_LOAD 0 0

/-- The copied image is judged (R64, R68): staged, or discarded with SIMG_REJECT (R66). SCOPE leaves out partitions that a fenced die
keeps from starting (R67). -/
def State.judgeLoad (s : State) (f : Fetch) : State :=
  let env := s.imgEnv true true false
  let code := validateImage env f.data f.len
  if code ≠ 0 then (s.loadEnds code).raise Fld.HUB_STICKY_SIMG_REJECT
  else
    let im := parseImage f.data
    let lost := s.lostOf (contentOf env im)
    let scope := (bitsOf 16 im.hdr.scope).foldl (fun a p => if bit lost p then a else a + 2 ^ p) 0
    let s := ((s.setLoad true none).simgResult 0).setPhaseOf 2
    let s := { s with img := { s.img with staged := some im, holdStaged := some (f.data, f.len) } }
    let s := (s.setFld Fld.HUB_SIMG_STATUS_SCOPE 0 scope).raise Fld.HUB_SIMG_STATUS_STAGED_VALID
    s.setFld Fld.HUB_SIMG_CTL_LOAD 0 0

/-- SIMG_LOAD_COMPLETE: the source is read whole, or torn (R70). -/
def State.simgLoaded (s : State) : State :=
  match s.boot.load with
  | some f =>
    if s.phase ≠ 1 ∨ !f.ended then s else if f.torn then s.loadEnds 0x1B else s.judgeLoad f
  | none => s

/-- The Solstice in progress ends, and the staged copy stays (R66, R74): ring sampling resumes. -/
def State.solsticeEnds (s : State) (code : Nat) : State :=
  let s := { s with img := { s.img with solstice := none }, closing := 0 }
  let s := (s.simgResult code).setPhaseOf 2
  (s.setFld Fld.HUB_SIMG_CTL_PROPOSE 0 0).setFld Fld.HUB_SIMG_STATUS_QUIESCED 0 0

/-- ABORT by phase (R70, R71, R74): a load, the staged copy, or a Solstice below PHASE 5. -/
def State.simgAbort (s : State) : State :=
  match s.phase with
  | 1 => s.loadEnds 0x1A
  | 2 => s.loadEnds 0x1A
  | 3 => s.solsticeEnds 0x1A
  | 4 => s.solsticeEnds 0x1A
  | _ => s

/-! ## The handshake (R72 to R75) -/

/-- REFUSE of a proposal of the fabric manager, with the code. -/
def State.refuse (s : State) (code t : Nat) : State := s.tellManager nkRefuse code 0 t []

/-- Codes 0x15 to 0x17 against the staged image: 0 where every check passes. A proposal that names no group is local. -/
def State.proposalCode (s : State) (t : Nat) (group : Option (Nat × List Byte)) : Nat :=
  if s.phase ≥ 3 then 0x15
  else match s.img.staged with
    | none => 0x17
    | some im =>
      if t % 2 ^ 20 ≠ 0 ∨ t < s.ft + 125000 then 0x16
      else match group with
        | some g => if g.1 ≠ im.hdr.groupId ∨ g.2 ≠ im.hdr.groupDigest then 0x17 else 0
        | none => if im.hdr.members > 1 then 0x17 else 0

/-- Slices whose mode the staged image changes. -/
def State.stagedSlices (s : State) : List Nat :=
  match s.img.staged with
  | some im => changedSlices s.tables (contentOf (s.imgEnv true true false) im)
  | none => []

/-- A proposal that passes its checks: PHASE 3. Slices whose mode changes begin to be written back (R73). -/
def State.beginSolstice (s : State) (t : Nat) (sole : Bool) : State :=
  let slices := s.stagedSlices
  let s := { s with img := { s.img with solstice := some ⟨t, sole, false, s.ft⟩ }, closing := (slices.map (fun i => 2 ^ i)).sum }
  let s := slices.foldl State.closeSlice s
  (s.setFld Fld.HUB_SOLSTICE_TARGET 0 t).setPhaseOf 3

/-- A second local proposal with the same S changes nothing (R75). -/
def State.localAgain (s : State) (t : Nat) : Bool :=
  match s.img.solstice with
  | some x => x.sole && x.s == t && decide (3 ≤ s.phase)
  | none => false

/-- PROPOSE by software, at HUB_SOLSTICE.TARGET (DEDUCED, log 16). -/
def State.simgPropose (s : State) : State :=
  let t := s.fld Fld.HUB_SOLSTICE_TARGET
  let code := s.proposalCode t none
  if s.localAgain t then s
  else if code ≠ 0 then s.simgResult code else (s.raise Fld.HUB_SIMG_CTL_PROPOSE).beginSolstice t true

/-- A second proposal is the first: same S and same digest (R75). -/
def State.sameProposal (s : State) (t : Nat) (digest : List Byte) : Bool :=
  match s.img.solstice, s.img.staged with
  | some x, some im => x.s == t && !x.sole && im.hdr.groupDigest == digest && decide (3 ≤ s.phase)
  | _, _ => false

/-- A PROPOSE notice of the fabric manager: TARGET takes its S on receipt (R78). -/
def State.noticePropose (s : State) (t group : Nat) (digest : List Byte) : State :=
  if s.sameProposal t digest then
    if s.phase ≥ 4 then s.tellManager nkAccept 0 0 t [] else s
  else
    let code := s.proposalCode t (some (group, digest))
    let s := s.setFld Fld.HUB_SOLSTICE_TARGET 0 t
    if code ≠ 0 then (s.simgResult code).refuse code t else s.beginSolstice t false

/-- R199: no context of the partition holds an incomplete command. -/
def State.partIdle (s : State) (p : Nat) : Bool :=
  s.ctxs.all (fun x => s.partOfCtx x.1 != p || (x.2.buf.isEmpty && x.2.fetch.isNone))
  && (circuits s.tables).all (fun e => e.part != p || ((s.circ e.id).ready.isEmpty && (s.circ e.id).flight.isEmpty))
  && s.contribs.all (fun t => s.partOfCirc t.circ != p)

/-- Slices whose mode the staged image changes are written back, and have no way that is being disabled (R73, R245). -/
def State.slicesReady (s : State) : Bool :=
  (bitsOf 64 s.closing).all (fun i => s.sliceClean i && s.health.all (fun h => h.1 / 16 != i || !h.2.disabling))

/-- Those that become scratch are zeroed (R73, R77). -/
def State.zeroSlices (s : State) : State :=
  ((bitsOf 64 s.closing).filter (fun i => sliceMode s.tables i != some 0)).foldl (fun s i => s.zeroRange (sliceRange i).1 (sliceRange i).2) s

/-- SOLSTICE_QUIESCED (R73): the partitions in SCOPE are idle, their audits balance, and the slices are written back: PHASE 4. The
module of a local Solstice commits to itself. QUIESCED takes the bits of SCOPE here, and loses them when the Solstice ends or at S + 1
(DESIGN CHOICE, log 64). -/
def State.solsticeQuiesced (s : State) : State :=
  let scope := s.fld Fld.HUB_SIMG_STATUS_SCOPE
  match s.img.solstice, s.img.staged with
  | some x, some _ =>
    if s.phase = 3 ∧ s.ft ≤ x.s - 62500 ∧ s.slicesReady
        ∧ (bitsOf 16 scope).all (fun p => s.partIdle p && (s.auditSums p).balance) then
      let s := { s with img := { s.img with solstice := some { x with committed := x.sole } } }.zeroSlices
      let s := (s.setPhaseOf 4).setFld Fld.HUB_SIMG_STATUS_QUIESCED 0 scope
      if x.sole then s else s.tellManager nkAccept 0 0 x.s []
    else s
  | _, _ => s

/-- SOLSTICE_ACCEPT_DEADLINE, at S − 62,500: NOT_QUIESCED. -/
def State.acceptDeadline (s : State) : State :=
  match s.img.solstice with
  | some x =>
    if s.phase = 3 ∧ s.ft ≥ x.s - 62500 then
      let s := s.solsticeEnds 0x18
      if x.sole then s else s.refuse 0x18 x.s
    else s
  | none => s

/-- A COMMIT notice for the Solstice that was accepted. -/
def State.noticeCommit (s : State) (t : Nat) : State :=
  match s.img.solstice with
  | some x => if s.phase = 4 ∧ x.s = t then { s with img := { s.img with solstice := some { x with committed := true } } } else s
  | none => s

/-- An ABORT notice at PHASE 3 or 4 (R74). -/
def State.noticeAbort (s : State) : State := if s.phase = 3 ∨ s.phase = 4 then s.solsticeEnds 0x1A else s

/-- SOLSTICE_CUTOFF, at S − 12,500: armed, or abandoned. -/
def State.solsticeCutoff (s : State) : State :=
  match s.img.solstice with
  | some x =>
    if s.ft ≥ x.s - 12500 ∧ (s.phase = 3 ∨ s.phase = 4) then
      if s.phase = 4 ∧ x.committed ∧ s.tbState ≥ tbLocked then s.setPhaseOf 5 else s.solsticeEnds 0x19
    else s
  | none => s

/-- SOLSTICE_SWITCH, at S: every unit flips its bank. -/
def State.solsticeSwitch (s : State) : State :=
  match s.img.solstice, s.img.staged with
  | some x, some im =>
    if s.phase = 5 ∧ s.ft ≥ x.s then
      let old := s.tables
      let scope := s.fld Fld.HUB_SIMG_STATUS_SCOPE
      let img := if im.hdr.kind = 2 then { s.img with update := some im, staged := none }
        else { s.img with full := some im, update := none, staged := none }
      let s := { s with img := img }
      s.applyTables old (inForceSections img.full img.update) im.hdr.moduleId scope true
    else s
  | _, _ => s

/-- SOLSTICE_POINTER_STORE, at S + 1 (R73, R76): the staged copy becomes the copy in force, and PHASE 0. -/
def State.pointerStore (s : State) : State :=
  match s.img.solstice with
  | some x =>
    if s.phase = 5 ∧ s.ft ≥ x.s + 1 ∧ s.img.staged.isNone then
      let img := s.img
      let held := if img.update.isSome then { img with holdUpdate := img.holdStaged } else { img with holdFull := img.holdStaged, holdUpdate := none }
      let s := { s with img := { held with holdStaged := none, solstice := none } }
      let s := ((s.setPhaseOf 0).simgResult 0).setFld Fld.HUB_SIMG_STATUS_STAGED_VALID 0 0
      ((s.setFld Fld.HUB_SIMG_CTL_PROPOSE 0 0).setFld Fld.HUB_SIMG_STATUS_QUIESCED 0 0).identify
    else s
  | none => s

/-! ## Registers and notices -/

/-- A write of HUB_SIMG_CTL: LENGTH, then the bits that act (R78). The spec gives no order among bits of one write: ABORT acts first, then LOAD,
then PROPOSE (DESIGN CHOICE, log 64). -/
def State.writeSimgCtl (s : State) (w mask : Nat) : State :=
  let s := s.setFld Fld.HUB_SIMG_CTL_LENGTH 0 (Field.store Fld.HUB_SIMG_CTL_LENGTH (s.reg .HUB_SIMG_CTL 0).toNat w mask / 2 ^ 32)
  let v := w &&& mask
  let s := if bit v 1 then s.simgAbort else s
  let s := if bit v 0 then s.simgLoad else s
  if bit v 2 then s.simgPropose else s

/-- R377: the notice is one of the fabric manager's for this group. -/
def State.fromManager (s : State) (n : Notice) : Bool :=
  s.flag Fld.FAB_FM_VALID && noticeSrc n == s.fld Fld.FAB_FM_MODULE && noticeGroup n == s.groupId

/-- R377: a notice that a member acts on only for the fabric manager: accepted, written to the ring and acted on, or discarded. -/
def State.managed (s : State) (kind : Nat) (n : Notice) (act : State → State) : State :=
  if noticeKind n ≠ kind then s
  else if s.fromManager n then (act s).toNoticeRing n
  else s.discardPacket

/-- A notice that every member writes to its ring. -/
def State.ringed (s : State) (kind : Nat) (n : Notice) : State := if noticeKind n = kind then s.toNoticeRing n else s

/-- The NOTICE packet has been consumed: its buffer's credits return (R362), and it is traced (R513). -/
def State.takeNotice (s : State) (port : Nat) (n : Notice) : State :=
  let v := s.port port
  match v.arrived.find? (fun x => x.typ == pkNotice && x.data == n) with
  | some x => ((s.setPort port { v with arrived := v.arrived.erase x }).freeUnits port x).fabricTrace port (noticeKind n) (noticeModule n)
  | none => s.fabricTrace port (noticeKind n) (noticeModule n)

def execSimgLoad (rq : Requester) (s : State) : Host.Outcome State Fault Refusal := answer (s.gated rq .HUB_SIMG_CTL 0 State.simgLoad)
def execSimgAbort (rq : Requester) (s : State) : Host.Outcome State Fault Refusal := answer (s.gated rq .HUB_SIMG_CTL 0 State.simgAbort)
def execSimgPropose (rq : Requester) (s : State) : Host.Outcome State Fault Refusal := answer (s.gated rq .HUB_SIMG_CTL 0 State.simgPropose)
def execSimgLoadComplete (s : State) : Host.Outcome State Fault Refusal := answer s.simgLoaded
def execSolsticeQuiesced (s : State) : Host.Outcome State Fault Refusal := answer s.solsticeQuiesced
def execSolsticeAcceptDeadline (s : State) : Host.Outcome State Fault Refusal := answer s.acceptDeadline
def execSolsticeCutoff (s : State) : Host.Outcome State Fault Refusal := answer s.solsticeCutoff
def execSolsticeSwitch (s : State) : Host.Outcome State Fault Refusal := answer s.solsticeSwitch
def execSolsticePointerStore (s : State) : Host.Outcome State Fault Refusal := answer s.pointerStore
def execNoticePropose (port : Nat) (n : Notice) (s : State) : Host.Outcome State Fault Refusal :=
  answer ((s.takeNotice port n).managed nkPropose n (fun s => s.noticePropose (noticeTarget n) (noticeGroup n) ((n.drop 0x40).take 64)))
def execNoticeAccept (port : Nat) (n : Notice) (s : State) : Host.Outcome State Fault Refusal :=
  answer ((s.takeNotice port n).ringed nkAccept n)
def execNoticeRefuse (port : Nat) (n : Notice) (s : State) : Host.Outcome State Fault Refusal :=
  answer ((s.takeNotice port n).ringed nkRefuse n)
def execNoticeCommit (port : Nat) (n : Notice) (s : State) : Host.Outcome State Fault Refusal :=
  answer ((s.takeNotice port n).managed nkCommit n (fun s => s.noticeCommit (noticeTarget n)))
def execNoticeAbort (port : Nat) (n : Notice) (s : State) : Host.Outcome State Fault Refusal :=
  answer ((s.takeNotice port n).managed nkAbort n State.noticeAbort)

end Sys2Proof.Machine
end

