-- ==== Sys2Proof/Machine/Notices.lean ====
section
/-! DEFINITION. LOSS, MEMBERSHIP, ABORT_CIRCUITS and RESET notices as they arrive (R373, R375 to R377, R462, R463), and the notices that
software sends (R378). -/

namespace Sys2Proof.Machine

/-- R294: the module's open accesses to m end with DEAD_ENDPOINT. -/
def State.endAccessesTo (s : State) (m : Nat) : State :=
  (s.opens.filter (fun o => o.module == some m)).foldl (fun s o => s.finishAccess o.id stDead []) s

/-- R375: packets to or from a removed module that wait in a port are discarded, and requests among them answered with DEAD_ENDPOINT. -/
def State.purgePort (s : State) (m p : Nat) : State :=
  let v := s.port p
  let gone := v.egress.filter (fun x => x.dest == m || x.src == m)
  let s := s.setPort p { v with egress := v.egress.filter (fun x => !(x.dest == m || x.src == m)) }
  gone.foldl (fun s x => if x.vc = 0 then (if x.src = s.selfModule then s else s.refusePacket x stDead) else s.discardPacket) s

/-- R375: ACTION 1 removes a module, ACTION 2 restores it (DEDUCED, log 43). -/
def State.membership (s : State) (m action : Nat) : State :=
  if m ≥ 4096 then s
  else
    let w := s.fld Fld.FAB_REMOVED_REMOVED (m / 64)
    if action = 1 then
      let s := (s.setFld Fld.FAB_REMOVED_REMOVED (m / 64) (w ||| 2 ^ (m % 64))).endAccessesTo m
      (List.range 16).foldl (fun s p => s.purgePort m p) s
    else if action = 2 then s.setFld Fld.FAB_REMOVED_REMOVED (m / 64) (without w (m % 64))
    else s

/-- The circuit ids of an ABORT_CIRCUITS notice. -/
def abortList (n : Notice) : List Nat := ((List.range 20).map (fun i => fieldAt n (0x20 + 2 * i) 2)).filter (· != 0xFFFF)

/-- R373: every segment that the module holds of the circuits named. -/
def State.abortCircuits (s : State) (n : Notice) : State :=
  (abortList n).foldl (fun s c => if (s.circEntry c).isSome then s.killCircuit c else s) s

/-- R463: the partitions that a RESET request names and that exist. -/
def State.resetMask (s : State) (n : Notice) : List Nat :=
  (bitsOf 16 (fieldAt n 0x20 2)).filter (fun p => (partOf s.tables p).isSome)

/-- A RESET notice: a request from the fabric manager (R463), or a report to it (R462). -/
def State.resetNotice (s : State) (n : Notice) : State :=
  if s.fromManager n then
    if noticeArg n = 2 ∧ !(s.resetMask n).isEmpty then ((s.resetMask n).foldl (fun s p => s.requestPartReset p 2) s).toNoticeRing n
    else s.discardPacket
  else if s.flag Fld.FAB_FM_VALID ∧ s.fld Fld.FAB_FM_MODULE = s.selfModule ∧ noticeGroup n = s.groupId then s.toNoticeRing n
  else s.discardPacket

/-- R377: a notice for this module, by its kind. -/
def State.actNotice (s : State) (n : Notice) : State :=
  let k := noticeKind n
  if k = nkPropose then s.managed k n (fun s => s.noticePropose (noticeTarget n) (noticeGroup n) ((n.drop 0x40).take 64))
  else if k = nkCommit then s.managed k n (fun s => s.noticeCommit (noticeTarget n))
  else if k = nkAbort then s.managed k n State.noticeAbort
  else if k = nkMembership then s.managed k n (fun s => s.membership (noticeModule n) (noticeArg n))
  else if k = nkAbortCircuits then s.managed k n (fun s => s.abortCircuits n)
  else if k = nkReset then s.resetNotice n
  else s.ringed k n

/-! ## Sending (R378) -/

def noticeKinds : List Nat :=
  [nkPropose, nkAccept, nkRefuse, nkCommit, nkAbort, nkLoss, nkMembership, nkAbortCircuits, nkReset]

/-- A reserved KIND, or a nonzero reserved byte (R376). -/
def badNotice (n : Notice) : Bool :=
  let used := if noticeKind n = nkPropose then (n.drop 0x20).take 32 else n.drop 0x48
  !noticeKinds.contains (noticeKind n) || used.any (· != 0)

/-- The hub fills in SRC, GROUP_ID, GENERATION and BEAT. -/
def State.fillNotice (s : State) (n : Notice) : Notice :=
  n.take 2 ++ leBytes 2 s.selfModule ++ (n.drop 4).take 4 ++ leBytes 4 s.groupId ++ leBytes 4 (s.fld Fld.HUB_SIMG_GEN_GENERATION)
  ++ (n.drop 0x10).take 8 ++ leBytes 8 s.ft ++ n.drop 0x20

/-- Modules with a ROUTES entry, in ascending order. -/
def State.routed (s : State) : List Nat := (List.range 4096).filter (fun m => (s.routeOf m).isSome)

/-- One copy: false where it has no route and is skipped. A copy for the module itself is delivered here (R365). -/
def State.sendCopy (s : State) (n : Notice) (m : Nat) : State × Bool :=
  if m = s.selfModule then (s.actNotice n, true)
  else if (s.nextPort m).isSome then (s.sendNotice m n, true)
  else (s, false)

def State.sendCopies (s : State) (n : Notice) : List Nat → State × Bool
  | [] => (s, true)
  | m :: rest =>
    let r := s.sendCopy n m
    let t := State.sendCopies r.1 n rest
    (t.1, r.2 && t.2)

/-- GO: the notice at ADDR is read, judged and sent; RESULT is 0 OK, 1 NO_ROUTE or 2 BAD_NOTICE. -/
def State.sendGo (s : State) : State :=
  let a := s.fld Fld.FAB_NSEND_ADDR * 128
  let r := s.readLocal (unitRq 0xFE) a 128
  let s := r.1
  if r.2.1 ≠ stOk ∨ badNotice r.2.2 then s.setFld Fld.FAB_NSEND_RESULT 0 2
  else
    let n := s.fillNotice r.2.2
    let dests := if s.flag Fld.FAB_NSEND_BROADCAST then s.routed else [fieldAt n 4 2 % 4096]
    let t := s.sendCopies n dests
    t.1.setFld Fld.FAB_NSEND_RESULT 0 (if t.2 then 0 else 1)

/-- A write of FAB_NSEND. GO clears when the last copy has left, within the write (DEDUCED, log 42). -/
def State.writeNsend (s : State) (w mask : Nat) : State :=
  let v := s.stored .FAB_NSEND 0 w mask
  let s := (s.setFld Fld.FAB_NSEND_BROADCAST 0 (getBits v 62 1)).setFld Fld.FAB_NSEND_ADDR 0 (getBits v 7 45)
  if bit (w &&& mask) 63 then s.sendGo else s

/-- LOSS: a neighbour's report, written to the ring. -/
def execNoticeLoss (port : Nat) (n : Notice) (s : State) : Host.Outcome State Fault Refusal :=
  answer ((s.takeNotice port n).ringed nkLoss n)
/-- MEMBERSHIP. -/
def execNoticeMembership (port : Nat) (n : Notice) (s : State) : Host.Outcome State Fault Refusal :=
  answer ((s.takeNotice port n).managed nkMembership n (fun s => s.membership (noticeModule n) (noticeArg n)))
/-- ABORT_CIRCUITS. -/
def execNoticeAbortCircuits (port : Nat) (n : Notice) (s : State) : Host.Outcome State Fault Refusal :=
  answer ((s.takeNotice port n).managed nkAbortCircuits n (fun s => s.abortCircuits n))
/-- RESET. -/
def execNoticeReset (port : Nat) (n : Notice) (s : State) : Host.Outcome State Fault Refusal :=
  answer (if noticeKind n = nkReset then (s.takeNotice port n).resetNotice n else s.takeNotice port n)
/-- FAB_NSEND. -/
def execNoticeSend (rq : Requester) (w : Nat) (s : State) : Host.Outcome State Fault Refusal :=
  answer (s.gated rq .FAB_NSEND 0 (fun s => s.writeNsend w (2 ^ 64 - 1)))

end Sys2Proof.Machine
end

