-- ==== Sys2Proof/Machine/Observe.lean ====
section
/-! DEFINITION. Observability (chapter 19): register words as they read, counter selectors, periodic samples, crash dumps and the trace port. -/

namespace Sys2Proof.Machine

/-! ## What a register reads as (R13, R18) -/

/-- CO_QCFG (R190). -/
def Queue.cfgWord (q : Queue) : Nat :=
  (if q.valid then 2 ^ 63 else 0) + q.depth % 2 ^ 7 * 2 ^ 56 + q.scaleUnits % 2 ^ 10 * 2 ^ 46 + q.slotUnits % 2 ^ 10 * 2 ^ 36
  + q.base / 256 % 2 ^ 13 * 2 ^ 8

/-- CO_QSTAT (R190). -/
def Queue.statWord (q : Queue) : Nat :=
  q.consumer % 256 * 2 ^ 56 + q.producer % 256 * 2 ^ 48 + (q.heldIn + q.heldOut) % 2 ^ 7 * 2 ^ 16 + q.tokens % 2 ^ 7 * 2 ^ 8 + q.credits % 2 ^ 7

/-- The word of a register. -/
def State.regWord (s : State) (r : Reg) (i : Nat) : Nat :=
  match r with
  | .HUB_FT => s.ft % 2 ^ 64
  | .CO_QCFG => (s.queue (i / 64) (i % 64)).cfgWord
  | .CO_QSTAT => (s.queue (i / 64) (i % 64)).statWord
  -- R252: DISABLED reads zero in scratch mode; the ways stay disabled (R245)
  | .LLM_SLICE => if s.flag Fld.LLM_SLICE_MODE i then (s.reg r i).toNat else (s.reg r i).toNat % 2 ^ 48
  | r => (s.reg r i).toNat

/-- The word at an offset: 0 where none is defined (R18). -/
def State.wordAt (s : State) (off : Nat) : Nat :=
  match regAt off with
  | some (r, i) => s.regWord r i
  | none => 0

/-! ## Counter selectors (R498) -/

/-- The selector register of a unit kind. -/
def selReg : Nat → Reg
  | 1 => .CO_CNT_SEL
  | 2 => .CL_CNT_SEL
  | _ => .HUB_CNT_SEL

/-- A selector write is stored and waits to take effect. -/
def State.writeSel (s : State) (kind unit i w mask : Nat) : State :=
  let s := s.storePlain (selReg kind) (unit * (counterRegs kind).per + i) w mask
  let key := selKey kind unit i
  { s with selPend := key :: s.selPend.filter (· != key) }

/-- A unit of a kind, and a counter that it has. -/
def selExists (kind unit i : Nat) : Bool :=
  match kind with
  | 1 => decide (unit < 128) && decide (i < 8)
  | 2 => decide (unit < 16) && decide (i < 16)
  | 3 => decide (unit = 0) && decide (i < 32)
  | _ => false

/-- A hub selector takes effect at the next beat that is a multiple of 64. -/
def State.hubSelApply (s : State) : State := if s.ft % 64 = 0 then s.applyUnit 3 0 else s

/-! ## Periodic samples (R502) -/

/-- One record of 320 bytes. -/
def State.sampleRecord (s : State) (kind unit : Nat) : List Byte :=
  let n := if kind = 3 then 32 else 16
  leBytes 8 s.ft ++ leBytes 1 kind ++ leBytes 1 unit ++ leBytes 1 n ++ List.replicate 53 0
  ++ ((List.range 32).map (fun i => leBytes 8 (if i < n then s.latchWord kind unit i else 0))).flatten

/-- Units that a sample covers: the hub, then clusters in ascending order. -/
def State.sampleUnits (s : State) : List (Nat × Nat) :=
  (if s.flag Fld.HUB_SMP_CFG_HUB then [(3, 0)] else []) ++ (bitsOf 16 (s.fld Fld.HUB_SMP_CFG_CLUSTERS)).map (fun c => (2, c))

/-- The records of a beat, from index n on; false once a write fails. -/
def State.writeSamples (s : State) (n : Nat) : List (List Byte) → State × Bool
  | [] => (s, true)
  | b :: rest =>
    match s.recordWrite (unitRq 0xFE) (s.fld Fld.HUB_SMP_RING_BASE * 4096 + n % 2 ^ s.fld Fld.HUB_SMP_RING_LOG2_RECORDS * 320) b with
    | (s, true) => State.writeSamples s ((n + 1) % 2 ^ 32) rest
    | (s, false) => (s, false)

/-- SAMPLE_TICK: once at a beat that is a multiple of 2^PERIOD_LOG2. -/
def State.sampleTick (s : State) : State :=
  if !s.flag Fld.HUB_SMP_CFG_EN ∨ s.ft % 2 ^ s.fld Fld.HUB_SMP_CFG_PERIOD_LOG2 ≠ 0 ∨ s.sampleUnits.isEmpty ∨ s.trc.sampled = s.ft + 1 then s
  else
    let s := { s with trc := { s.trc with sampled := s.ft + 1 } }
    let units := s.sampleUnits
    let head := s.fld Fld.HUB_SMP_PTR_HEAD
    let used := (head + 2 ^ 32 - s.fld Fld.HUB_SMP_PTR_TAIL) % 2 ^ 32
    if used + units.length > 2 ^ s.fld Fld.HUB_SMP_RING_LOG2_RECORDS then s.bump Fld.HUB_SMP_CFG_DROPS 0
    else match s.writeSamples head (units.map (fun u => s.sampleRecord u.1 u.2)) with
      | (s, true) =>
        (s.setFld Fld.HUB_SMP_PTR_HEAD 0 (head + units.length)).msi Fld.HUB_SMP_MSI_FILE Fld.HUB_SMP_MSI_EN Fld.HUB_SMP_MSI_IDENTITY 0
      | (s, false) => s.bump Fld.HUB_SMP_CFG_DROPS 0

/-! ## Crash dumps (R508 to R511) -/

/-- The unit of its block that an offset lies in, told apart over all blocks. -/
def unitKey (off : Nat) : Nat :=
  let stride := match blockAt off with
    | some .cpu => 0x1000
    | some .td => 0x4_0000
    | some .bd => 0x4_0000
    | some .cl => 0x1_0000
    | some .co => 0x1_0000
    | some .en => 0x2000
    | some .mem => 0x1000
    | _ => 0x400_0000
  let base := ((blockTable.find? (fun b => decide (b.1 ≤ off) && decide (off < b.2.1))).map (·.1)).getD 0
  base + (off - base) / stride * stride

/-- The die pair that holds the register at an offset (R390). -/
def pairAt (off : Nat) : Option Nat :=
  match blockAt off with
  | some .td => some ((off - 0x50_0000) / 0x4_0000)
  | some .bd => some ((off - 0x60_0000) / 0x4_0000)
  | some .cl => some (dieOfCluster ((off - 0x80_0000) / 0x1_0000))
  | some .co => some (dieOfCluster (clusterOfCore ((off - 0x100_0000) / 0x1_0000)))
  | some .en => some (dieOfCluster (clusterOfCore (coreOfEngine ((off - 0x180_0000) / 0x2000))))
  | some .mem => if off - 0x1C0_0000 < 0x8000 then some ((off - 0x1C0_0000) / 0x2000) else none
  | some .llm => match regAt off with
    | some (.LLM_SLICE, i) => some (i / 16)
    | some (.LLM_WAYS, i) => some (i / 16)
    | some (.LLM_WAY_REC, i) => some (i / 16)
    | some (.LLM_ZERO, i) => some i
    | some (.LLM_ERR_REC, i) => some i
    | some (.LLM_ERR_BEAT, i) => some i
    | _ => none
  | _ => none

/-- STATUS of an entry (R509, R510): 0 OK, 1 TIMEOUT, 2 SKIPPED, 3 FENCED, 4 ERROR. -/
def State.dumpStatus (s : State) (d : Dump) (off : Nat) (timeout : Bool) : Nat :=
  if (pairAt off).any s.dieFenced then 3
  else if d.unit = unitKey off ∧ d.inRow ≥ 4 then 2
  else if timeout then 1
  else if s.regFenced off then 4
  else 0

/-- One register of a dump: its entry of 16 bytes at DEST, unless the entries would pass LIMIT (DESIGN CHOICE, log 50). -/
def State.dumpOne (s : State) (d : Dump) (off : Nat) (timeout : Bool) : State × Dump :=
  if d.full then (s, d)
  else if 16 + 16 * (d.entries + 1) > s.fld Fld.DBG_DUMP_CTL_LIMIT * 2 ^ 16 then (s, { d with full := true })
  else
    let st := s.dumpStatus d off timeout
    let a := s.fld Fld.DBG_DUMP_DEST_ADDR * 2 ^ 16 + 16 + 16 * d.entries
    let b := leBytes 8 (off + st * 2 ^ 32) ++ leBytes 8 (if st = 0 then s.wordAt off else 0)
    let row := if d.unit = unitKey off then d.inRow else 0
    let d := { d with
      entries := d.entries + 1
      timeouts := d.timeouts + (if st = 1 then 1 else 0)
      unit := unitKey off
      inRow := if st = 1 then row + 1 else if st = 0 ∨ st = 4 then 0 else row }
    let s := if cacheable a then (s.writeLocal (unitRq 0xFE) none a b).1 else s
    ((s.setFld Fld.DBG_DUMP_STATUS_ENTRIES 0 d.entries).setFld Fld.DBG_DUMP_STATUS_TIMEOUTS 0 d.timeouts, d)

/-- Offsets of the registers defined in a range, in ascending order. -/
def definedIn (r : Nat × Nat) : List Nat :=
  ((List.range ((r.2 - r.1) / 8)).map (fun j => r.1 + 8 * j)).filter (fun o => (regAt o).isSome)

/-- Registers of a dump still to be read, up to an offset. -/
def Dump.before (d : Dump) (stop : Nat) : List Nat := ((d.ranges.map definedIn).flatten).filter (fun o => decide (o < stop))

/-- The registers before an offset are read, in ascending order. -/
def State.dumpTo (s : State) (d : Dump) (stop : Nat) : State × Dump :=
  let r := (d.before stop).foldl (fun x o => State.dumpOne x.1 x.2 o false) (s, d)
  (r.1, { r.2 with ranges := r.2.ranges.filterMap (fun g => if stop < g.2 then some (max stop g.1, g.2) else none) })

/-- REGISTER_READ_TIMEOUT: the dump's read of the register at an offset has no answer within 10 µs. -/
def State.readTimeout (s : State) (off : Nat) : State :=
  match s.dump with
  | none => s
  | some d =>
    if (d.before (2 ^ 26)).contains off then
      let r := s.dumpTo d off
      let t := r.1.dumpOne r.2 off true
      { t.1 with dump := some { t.2 with ranges := t.2.ranges.map (fun g => (max g.1 (off + 8), g.2)) } }
    else s

/-- DUMP_COMPLETE: the rest is read, the header's words are written, the second last, and GO clears. -/
def State.dumpComplete (s : State) : State :=
  match s.dump with
  | none => s
  | some d =>
    let r := s.dumpTo d (2 ^ 26)
    let s := r.1
    let a := s.fld Fld.DBG_DUMP_DEST_ADDR * 2 ^ 16
    let s := if cacheable a then (s.writeLocal (unitRq 0xFE) none a (leBytes 8 d.start ++ leBytes 8 s.ft)).1 else s
    let s := (s.setFld Fld.DBG_DUMP_STATUS_STATE 0 (if r.2.full then 3 else 2)).setFld Fld.DBG_DUMP_CTL_GO 0 0
    { s with dump := none }

/-- Ranges of the blocks whose bits are set in BLOCKS. -/
def dumpRanges (blocks : Nat) : List (Nat × Nat) :=
  (bitsOf 16 blocks).filterMap (fun b => (blockTable[b]?).map (fun x => (x.1, x.2.1)))

/-- A write of DBG_DUMP_CTL; a GO while a dump runs is ignored (R510). -/
def State.writeDumpCtl (s : State) (w mask : Nat) : State :=
  let v := s.stored .DBG_DUMP_CTL 0 w mask
  let s := ((s.setFld Fld.DBG_DUMP_CTL_ON_HANG 0 (getBits v 62 1)).setFld Fld.DBG_DUMP_CTL_LIMIT 0 (getBits v 24 24)).setFld
    Fld.DBG_DUMP_CTL_BLOCKS 0 (getBits v 0 16)
  if bit (w &&& mask) 63 ∧ s.dump.isNone then
    (s.raise Fld.DBG_DUMP_CTL_GO).beginDump ⟨s.ft, dumpRanges (s.fld Fld.DBG_DUMP_CTL_BLOCKS), 0, 0, 0, 0, false⟩
  else s

/-! ## Trace port (R512, R514, R515) -/

/-- A frame of up to 45 packets leaves. -/
def State.traceFrame (s : State) : State :=
  let t := s.trc
  if t.buf.isEmpty ∨ !s.flag Fld.TRC_STATUS_LINK_UP then s
  else
    let rest := t.buf.drop 45
    let s := s.emit (.traceFrame t.seq (s.fld Fld.TRC_STATUS_DROPS) (t.buf.take 45))
    ({ s with trc := { t with buf := rest, first := s.ft, seq := (t.seq + 1) % 2 ^ 32 } }).traceUpdate

/-- A full frame leaves at once. -/
def State.traceFull (s : State) : State := if s.trc.buf.length ≥ 45 then s.traceFrame else s

/-- TRACE_FRAME_FLUSH: 1 µs (125 beats) after its first packet. -/
def State.traceFlush (s : State) : State := if s.ft ≥ s.trc.first + 125 then s.traceFrame else s.traceFull

def State.traceLink (s : State) (up : Bool) : State := (s.setFld Fld.TRC_STATUS_LINK_UP 0 (if up then 1 else 0)).traceUpdate

/-- CNT_SEL_WRITE. -/
def execCntSelWrite (rq : Requester) (kind unit i w : Nat) (s : State) : Host.Outcome State Fault Refusal :=
  answer (if selExists kind unit i then
    s.gated rq (selReg kind) (unit * (counterRegs kind).per + i) (fun s => s.writeSel kind unit i w (2 ^ 64 - 1)) else s)
/-- HUB_CNT_SEL_APPLY. -/
def execHubCntSelApply (s : State) : Host.Outcome State Fault Refusal := answer s.hubSelApply
def execSampleTick (s : State) : Host.Outcome State Fault Refusal := answer s.sampleTick
/-- DUMP: a write of DBG_DUMP_CTL that sets GO. -/
def execDump (rq : Requester) (w : Nat) (s : State) : Host.Outcome State Fault Refusal :=
  answer (s.gated rq .DBG_DUMP_CTL 0 (fun s => s.writeDumpCtl (w ||| 2 ^ 63) (2 ^ 64 - 1)))
def execRegisterReadTimeout (off : Nat) (s : State) : Host.Outcome State Fault Refusal := answer (s.readTimeout off)
def execDumpComplete (s : State) : Host.Outcome State Fault Refusal := answer s.dumpComplete
def execTraceFrameFlush (s : State) : Host.Outcome State Fault Refusal := answer s.traceFlush
def execTraceLinkDown (s : State) : Host.Outcome State Fault Refusal := answer (s.traceLink false)
def execTraceLinkUp (s : State) : Host.Outcome State Fault Refusal := answer (s.traceLink true)

end Sys2Proof.Machine
end

