-- ==== Sys2Proof/Machine/Start.lean ====
section
/-! DEFINITION. Starts (R466 to R482), the OTP array (R483 to R490), attestation (R491 to R494) and PLDM (R538). -/

namespace Sys2Proof.Machine

/-! ## The OTP array (R483 to R487) -/

/-- R485: 1 KiB that make a valid generation g. -/
def genValid (g : Nat) (b : List Byte) : Bool :=
  fieldAt b 0 1 == g && fieldAt b 1 1 == 1 && fieldAt b 0x3FC 4 == crc32 (b.take 0x3FC)

def genBlank (b : List Byte) : Bool := allZero b

/-- Generations that are valid, and blank, ascending. -/
def Boot.validGens (b : Boot) : List Nat := (List.range 4).filter (fun g => genValid g (b.otpGen g))
def Boot.blankGens (b : Boot) : List Nat := (List.range 4).filter (fun g => genBlank (b.otpGen g))

/-- The generation in force. -/
def State.otpInForce (s : State) : List Byte := s.boot.otpGen (s.fld Fld.SEC_OTP_IN_FORCE)

/-- FETCH_S (R487) in beats. -/
def State.fetchBeats (s : State) : Nat :=
  let v := fieldAt s.otpInForce 0x11 1
  (if v = 0 then 30 else v) * 125000000

/-- Sources in the order of BOOT_POLICY (R487): 0 sideband, 1 host. -/
def State.sources (s : State) : List Nat :=
  match fieldAt s.otpInForce 0x10 1 % 4 with
  | 0 => [0, 1]
  | 1 => [1, 0]
  | 2 => [0]
  | _ => [1]

/-- The source being tried (R468); none once every one has been abandoned. -/
def State.sourceNow (s : State) : Option Nat := s.sources[s.boot.source]?

/-- A SPARE_LANES entry (R486). -/
structure SpareLane where
  link : Nat
  bundle : Nat
  dir : Nat
  lane : Nat
  spare : Nat
  deriving DecidableEq, Repr

def State.spareLanes (s : State) : List SpareLane :=
  let g := s.otpInForce
  ((List.range 128).map (fun i =>
    let a := 0x100 + 4 * i
    (⟨fieldAt g a 1, fieldAt g (a + 1) 1, fieldAt g (a + 2) 1 / 128, fieldAt g (a + 2) 1 % 128, fieldAt g (a + 3) 1⟩ : SpareLane))).filter
      (fun e => e.link != 0xFF)

/-! ## Stages (R466, R476 to R478) -/

/-- Stage n is in progress, and the module can go on with it. -/
def State.atStage (s : State) (n : Nat) : Bool := s.stage == n && s.elec.powered && !s.elec.cycleReq && !s.fencing .chip

/-- A start that began with START_COUNT equal to 3 (R477). -/
def State.winterStart (s : State) : Bool := s.fld Fld.HUB_BOOT_START_COUNT == 3

def State.enterStage (s : State) (n : Nat) : State :=
  { s.setFld Fld.HUB_BOOT_STAGE 0 n with boot := { s.boot with stageBeats := 0, source := 0, delivered := false } }

/-- A failure whose check code HUB_SIMG_STATUS.RESULT holds (R476): it is read in the start that follows. -/
def State.imageFail (s : State) (code : Nat) : State := (s.startFail 0x25 code).simgResult code

/-- ROM: the OTP generation in force, repair, the reference (ref: present), and the device identity key. The start leaves the stage once
RESET_N is released (R539). -/
def State.stageRom (s : State) (ref : Bool) : State :=
  if !s.atStage 1 ∨ s.elec.resetLow then s
  else
    let l := s.boot.validGens
    match l.getLast? with
    | none => s.startFail 0x20 0
    | some g =>
      let b := s.boot.otpGen g
      let s := (s.setFld Fld.SEC_OTP_IN_FORCE 0 g).setFld Fld.SEC_OTP_GEN_VALID 0 (l.foldl (fun m i => m + 2 ^ i) 0)
      let s := (s.setFld Fld.SEC_OTP_ANTI_ROLLBACK 0 (fieldAt b 4 4)).setFld Fld.SEC_OTP_KEY_VALID 0 (fieldAt b 0x18 1)
      let s := s.setFld Fld.HUB_SERIAL_SERIAL 0 (fieldAt b 8 8)
      let s := (List.range 4).foldl (fun s i => s.setFld Fld.SEC_DEVKEY_KEY i (getBits Config.deviceKey.toNat (64 * i) 64)) s
      if ref then (s.setFld Fld.HUB_CLK_STATUS_REF_PRESENT 0 1).enterStage 2 else s.startFail 0x21 0

/-- HOLD: LPDDR6 channel 0 is trained, and at a cold start written with zeros; a Winter start writes nothing. -/
def State.stageHold (s : State) (ok : Bool) : State :=
  if !s.atStage 2 then s
  else if !ok then s.startFail 0x26 0
  else
    let s := if s.boot.cold && !s.winterStart then s.zeroRange lpddrBase (lpddrBase + lpddrUsable) else s
    s.enterStage 3

/-! ## Firmware (R467, R471, R472) -/

/-- R472: the checks of a firmware container, against its delivered length. -/
def verifyFirmware (env : ImgEnv) (b : List Byte) (len : Nat) : Nat :=
  let t := fieldAt b 8 4
  firstFail [(1, decide (b.length < 192) || fieldAt b 0 4 != 0x57465A54 || fieldAt (sigBlock b) 0 4 != 0x47495354),
    (2, fieldAt b 4 2 != 1), (3, decide (t > 16 * 2 ^ 20) || t % 64 != 0 || t != len), (4, chkKeySlot env b), (5, chkSignature b),
    (6, decide (fieldAt b 0x10 4 < env.rollback))]

/-- The copy of the firmware hold in force. -/
def Boot.firmwareHeld (b : Boot) : Option (List Byte) :=
  match b.fwPtr with
  | some 0 => b.fw0
  | some _ => b.fw1
  | none => none

/-- A verified copy is written to the free copy, and the pointer store makes it the one in force (R467). -/
def Boot.storeFirmware (b : Boot) (d : List Byte) : Boot :=
  if b.fwPtr = some 0 then { b with fw1 := some d, fwPtr := some 1 } else { b with fw0 := some d, fwPtr := some 0 }

/-- The code of the firmware in force. -/
def State.firmwareCode (s : State) : Nat :=
  let b := s.boot.firmwareHeld.getD []
  verifyFirmware (s.imgEnv true false true) b b.length

/-- The firmware that runs (R472, R495). -/
def State.runFirmware (s : State) : State :=
  let b := s.boot.firmwareHeld.getD []
  let s := (s.setFld Fld.HUB_FW_VER_FW_VERSION 0 (fieldAt b 0xC 4)).setFld Fld.HUB_FW_VER_SECURITY_VERSION 0 (fieldAt b 0x10 4)
  let d := imageDigest b
  (List.range 8).foldl (fun s i => s.setFld Fld.HUB_FW_DIGEST_DIGEST i (fieldAt d (8 * i) 8)) s

/-- A Winter start has run its three stages (R480, R481): ports DISABLED, and CPU cores 0 to 7 run if the firmware passed. -/
def State.enterWinter (s : State) (code : Nat) : State :=
  let s := { s with boot := { s.boot with firmware := code == 0 } }
  let s := if code = 0 then s.runFirmware.releaseCpus 0xFF else s
  let s := (List.range 16).foldl (fun s p => s.setPortState p psDisabled) s
  let s := (s.enterStage 0xA).raise Fld.HUB_BOOT_WINTER
  s.logStart (s.fld Fld.HUB_BOOT_LAST_FAIL) code true

/-- FIRMWARE: at a cold start, once a source has delivered it (in Winter, or once none remains); then it is verified in its hold. -/
def State.stageFirmware (s : State) : State :=
  if !s.atStage 3 then s
  else if s.winterStart then
    if s.boot.cold ∧ !s.boot.delivered ∧ s.sourceNow.isSome then s else s.enterWinter s.firmwareCode
  else if s.boot.cold ∧ !s.boot.delivered then s
  else
    let code := s.firmwareCode
    if code = 0 then s.runFirmware.enterStage 4 else s.startFail 0x23 code

/-! ## Images (R466, R470, R473) -/

/-- What the held copies are judged against: an update against the full image it goes with, a pending next image against both. -/
def State.heldEnv (s : State) (updateAllowed held : Bool) : ImgEnv :=
  { s.imgEnv updateAllowed false held with full := heldImage s.img.holdFull, update := heldImage s.img.holdUpdate }

/-- A full image that is the first, judged against none. -/
def State.firstEnv (s : State) (held : Bool) : ImgEnv := { s.imgEnv false false held with full := none, update := none }

/-- Result of a judgement of the full image and the update in force. -/
def State.judgeHeld (s : State) (judge : ImgEnv → List Byte → Nat → Nat) : Nat :=
  match s.img.holdFull with
  | none => 1
  | some f =>
    let c := judge (s.firstEnv !s.boot.cold) f.1 f.2
    if c ≠ 0 then c
    else match s.img.holdUpdate with
      | some u => judge (s.heldEnv true true) u.1 u.2
      | none => 0

/-- A pending next image that fails is discarded (R470). -/
def State.dropNext (s : State) (code : Nat) : State :=
  let s := { s with img := { s.img with holdNext := none }, boot := { s.boot with tryNext := false } }
  ((s.setFld Fld.HUB_SIMG_STATUS_NEXT_PENDING 0 0).simgResult code).raise Fld.HUB_STICKY_SIMG_REJECT

/-- IMAGE: at a cold start, once a source has delivered the image; at a warm start, a pending next image first. -/
def State.stageImage (s : State) : State :=
  if !s.atStage 4 ∨ (s.boot.cold ∧ !s.boot.delivered) then s
  else
    let s := match s.img.holdNext with
      | some n =>
        let c := validateOuter (s.heldEnv false false) n.1 n.2
        if c = 0 then { s with boot := { s.boot with tryNext := true } } else s.dropNext c
      | none => s
    if s.boot.tryNext then s.enterStage 5
    else
      let c := s.judgeHeld validateOuter
      if c = 0 then s.enterStage 5 else s.imageFail c

/-- VALIDATE: a pending next image that passes takes the place of the image in force by the pointer store of R76; contents that lose
their code or mode by it are lost (R77, R234). -/
def State.takeNext (s : State) : State :=
  let old := inForceSections (heldImage s.img.holdFull) (heldImage s.img.holdUpdate)
  let new := inForceSections (heldImage s.img.holdNext) none
  let s := s.loseTypes old new
  let s := ((List.range 64).filter (fun i => sliceMode old i == some 0 && sliceMode new i != some 0)).foldl (fun s i =>
    s.lose (sliceRange i).1 (sliceRange i).2) s
  let s := { s with img := { s.img with holdFull := s.img.holdNext, holdUpdate := none, holdNext := none }, boot := { s.boot with tryNext := false } }
  s.setFld Fld.HUB_SIMG_STATUS_NEXT_PENDING 0 0

/-- Checks 0x08 to 0x14. -/
def innerCode (env : ImgEnv) (b : List Byte) (_len : Nat) : Nat := validateInner env b

def State.stageValidate (s : State) : State :=
  if !s.atStage 6 then s
  else if s.boot.tryNext then
    let c := validateInner (s.heldEnv false false) ((s.img.holdNext.map (·.1)).getD [])
    if c = 0 then s.takeNext.enterStage 7
    else
      let s := s.dropNext c
      let d := s.judgeHeld validateImage
      if d = 0 then s.enterStage 7 else s.imageFail d
  else
    let c := s.judgeHeld innerCode
    if c = 0 then s.enterStage 7 else s.imageFail c

/-! ## Lane self-test and revisions (R394 to R396) -/

/-- Lanes of a bundle, or of the credit sub-link: data lanes, data spares, the clock lane and its spare. -/
def dataLanes (bundle : Nat) : List Nat := if bundle = 0xFE then List.range 4 else List.range 68
def spareLanesOf (bundle : Nat) : List Nat := if bundle = 0xFE then [4, 5] else [68, 69, 70, 71]
def clockLane (bundle : Nat) : Nat := if bundle = 0xFE then 6 else 72

/-- Spares given to lanes in ascending order: the lowest that is left; none where they run out. -/
def assignSpares : List Nat → List Nat → Option (List (Nat × Nat))
  | [], _ => some []
  | _ :: _, [] => none
  | d :: ds, p :: ps => (assignSpares ds ps).map (fun l => (d, p) :: l)

/-- The lanes in use of one direction of a bundle: replaced lanes with their spares; none if it is not full. -/
def chooseLanes (bundle : Nat) (otp : List (Nat × Nat)) (fails : List Nat) : Option (List (Nat × Nat)) :=
  let kept := otp.filter (fun e => (dataLanes bundle).contains e.1 && (spareLanesOf bundle).contains e.2 && !fails.contains e.2)
  let bad := (dataLanes bundle).filter (fun l => (fails.contains l || otp.any (fun e => e.1 == l)) && !kept.any (fun e => e.1 == l))
  let left := (spareLanesOf bundle).filter (fun p => !fails.contains p && !kept.any (fun e => e.2 == p))
  let clk := clockLane bundle
  let clkBad := fails.contains clk || otp.any (fun e => e.1 == clk)
  match assignSpares bad left with
  | some l => if clkBad then (if fails.contains (clk + 1) then none else some (kept ++ l ++ [(clk, clk + 1)])) else some (kept ++ l)
  | none => none

/-- Directions and bundles of a link, the credit sub-links among them. -/
def linkParts (l : Nat) : List (Nat × Nat) :=
  ((List.range (linkBundles l) ++ [0xFE]).map (fun b => [(b, 0), (b, 1)])).flatten

/-- Self-test of one link: BAD_LANES, SPARES_USED, MAP_CHANGED; and FENCED where a bundle is not full. -/
def State.testLink (s : State) (fails : List Lane) (l : Nat) : State :=
  let mine := fails.filter (fun x => x.link == l)
  let map := s.spareLanes.filter (fun e => e.link == l)
  let s := s.setFld Fld.HUB_LINK_STATUS_BAD_LANES l (min 0xFF mine.eraseDups.length)
  let chosen := (linkParts l).map (fun p =>
    let otp := (map.filter (fun e => e.bundle == p.1 && e.dir == p.2)).map (fun e => (e.lane, e.spare))
    (p.1, otp, chooseLanes p.1 otp ((mine.filter (fun x => x.bundle == p.1 && x.dir == p.2)).map (·.lane))))
  let used := (chosen.map (fun c => ((c.2.2.getD []).filter (fun e => e.1 != clockLane c.1)).length)).sum
  let s := s.setFld Fld.HUB_LINK_STATUS_SPARES_USED l (min 0xFF used)
  let same := fun (a b : List (Nat × Nat)) => a.all b.contains && b.all a.contains
  let s := if chosen.any (fun c => !same c.2.1 (c.2.2.getD [])) then s.raise Fld.HUB_LINK_STATUS_MAP_CHANGED l else s
  if chosen.any (fun c => c.2.2.isNone) then s.setFld Fld.HUB_LINK_STATUS_STATE l lsFenced else s

/-- The die answered, with the major that the hub supports (R526). -/
def State.dieAccepted (s : State) (d : Nat) : Bool := s.flag Fld.HUB_DIE_ID_PRESENT d && s.fld Fld.HUB_DIE_ID_MAJOR d == 0x41

/-- The lowest minor among dies whose major the hub supports. -/
def State.lowMinor (s : State) (dies : List Nat) : Nat :=
  (((dies.filter s.dieAccepted).map (fun d => s.fld Fld.HUB_DIE_ID_MINOR d)).min?).getD 1

/-- R525: a die that answers gives its major and minor; one that does not reads with PRESENT 0. -/
def State.reportDie (s : State) (d : DieRev) : State :=
  if d.die ≥ 10 then s
  else if d.present then (s.setFld Fld.HUB_DIE_ID_MAJOR d.die d.major).setFld Fld.HUB_DIE_ID_MINOR d.die d.minor
  else s.setFld Fld.HUB_DIE_ID_PRESENT d.die 0

/-- R396: what the dies report; a pair with a die of another major is fenced. No major of a die that does not answer can be accepted
(DEDUCED, log 62). -/
def State.revisions (s : State) (dies : List DieRev) : State :=
  let s := dies.foldl State.reportDie s
  let s := s.setFld Fld.HUB_REV_EFFECTIVE_TD_MINOR 0 (s.lowMinor [2, 3, 4, 5])
  let s := s.setFld Fld.HUB_REV_EFFECTIVE_BD_MINOR 0 (s.lowMinor [6, 7, 8, 9])
  (List.range 4).foldl (fun s n =>
    if s.dieAccepted (2 + n) && s.dieAccepted (6 + n) then s else s.fenceDiePair n dfRevision) s

/-- The self-test of all 17 links. -/
def State.testLinks (s : State) (fails : List Lane) : State := (List.range 17).foldl (fun s l => s.testLink fails l) s

/-- Links that failed it fence their domains. -/
def State.fenceFailedLinks (s : State) : State :=
  ((List.range 17).filter (fun l => s.linkState l == lsFenced)).foldl (fun s l => s.linkFence l dfLaneTest) s

/-- LINKS: the lanes that fail self-test, and what dies report that differs from A1. -/
def State.stageLinks (s : State) (fails : List Lane) (dies : List DieRev) : State :=
  if !s.atStage 5 then s
  else
    let s := s.testLinks fails
    if s.linkState 0 = lsFenced then s.startFail 0x27 0
    else
      let s := s.fenceFailedLinks.revisions dies
      if !s.dieAccepted 1 then s.startFail 0x28 0 else s.enterStage 6

/-! ## MEMORY, PORTS and UP -/

/-- MEMORY: HBM4 stacks of pairs that are not fenced, and LPDDR6 channels 1 to 31, are trained, and at a cold start written with zeros. -/
def State.stageMemory (s : State) (ok : Bool) : State :=
  if !s.atStage 7 then s
  else if !ok then s.startFail 0x29 0
  else
    let hbms := ((List.range 8).filter (fun k => !s.dieFenced (k / 2))).map (fun k => (hbmBase + k * hbmStride, stackEnd k))
    let chans := (List.range 31).map (fun k => (lpddrBase + (k + 1) * lpddrStride, lpddrBase + (k + 1) * lpddrStride + lpddrUsable))
    let s := if s.boot.cold then (hbms ++ chans).foldl (fun s r => s.zeroRange r.1 r.2) s else s
    s.enterStage 8

/-- PORTS: RETRAIN on every fabric port that is not disabled, and the Ethernet ports whose links come up (a mask)
(DESIGN CHOICE, log 70). -/
def State.stagePorts (s : State) (eth : Nat) : State :=
  if !s.atStage 8 then s
  else
    let s := (List.range 16).foldl (fun s p => s.retrain p true) s
    let s := (bitsOf 2 eth).foldl (fun s p => s.ethLink p true) s
    s.enterStage 9

/-- UP (R474): the image takes effect, with POWER, COUNTERS and TRACE; START_COUNT clears and the log is written. Fabric time is set where
R85 permits it. -/
def State.stageUp (s : State) : State :=
  if !s.atStage 9 ∨ s.img.full.isSome then s
  else
    let full := heldImage s.img.holdFull
    let update := heldImage s.img.holdUpdate
    let s := s.setFromSource
    let s := { s with img := { s.img with full := full, update := update } }
    let s := s.applyTables [] (inForceSections full update) ((s.lastHdr.map (·.moduleId)).getD 0) 0xFFFF false
    let s := s.identify.setFld Fld.HUB_BOOT_START_COUNT 0 0
    s.logStart 0 0

/-- Bounds of the stages in beats: of a cold start from the stage's beginning, of a warm start from the start's request (R457). -/
def State.stageBound (s : State) : Nat :=
  let fetch := s.fetchBeats * s.sources.length
  125000 * (if s.boot.cold then
    match s.stage with
    | 1 => 50
    | 2 => 300
    | 3 => fetch / 125000 + 200
    | 4 => fetch / 125000 + 800
    | 5 => 5
    | 6 => 300
    | 7 => 3000
    | 8 => 50
    | _ => 100
  else
    match s.stage with
    | 1 => 85
    | 2 => 85
    | 3 => 400
    | 4 => 900
    | 5 => 905
    | 6 => 1200
    | 7 => 3000
    | 8 => 3050
    | _ => 3500)

/-- STAGE_TIMEOUT (R478): the start timer measures the stage against its bound. -/
def State.stageTimeout (s : State) : State :=
  let late := if s.boot.cold then s.boot.stageBeats ≥ s.stageBound else s.boot.startBeats ≥ s.stageBound
  if !s.isUp ∧ s.stage ≤ 9 ∧ s.elec.powered ∧ !s.elec.cycleReq ∧ !s.fencing .chip ∧ late then s.startFail 0x2A 0 else s

/-- FETCH_SOURCE_TIMEOUT (R468): the source being tried has not delivered a whole object within FETCH_S seconds. -/
def State.sourceTimeout (s : State) : State :=
  if (s.atStage 3 ∨ (s.atStage 4 ∧ !s.winterStart)) ∧ s.boot.cold ∧ !s.boot.delivered ∧ s.sourceNow.isSome
      ∧ s.boot.stageBeats ≥ s.fetchBeats * (s.boot.source + 1) then
    let s := { s with boot := { s.boot with source := s.boot.source + 1 } }
    if s.sourceNow.isSome ∨ s.winterStart then s else s.startFail (if s.stage = 3 then 0x22 else 0x24) 0
  else s

/-! ## Fetches (R468 to R470) -/

def State.bootResult (s : State) (v : Nat) : State := (s.setFld Fld.HUB_BOOT_CTL_RESULT 0 v).setFld Fld.HUB_BOOT_CTL_FETCH 0 0

/-- The object is delivered to the stage that waits for it, by the source being tried. -/
def State.markDelivered (s : State) (source : Nat) : State :=
  if s.sourceNow = some source then { s with boot := { s.boot with delivered := true } } else s

/-- A whole firmware object: verified into the free copy, or refused with the code; at stage FIRMWARE of a cold start a failure fails the
start. -/
def State.firmwareArrives (s : State) (source : Nat) (d : List Byte) (len : Nat) : State :=
  let code := verifyFirmware (s.imgEnv true false true) d len
  let s := s.bootResult code
  let waits := s.atStage 3 && s.boot.cold && s.sourceNow == some source
  if code = 0 then
    let s := { s with boot := s.boot.storeFirmware d }
    if waits then s.markDelivered source else s
  else if waits && !s.winterStart then s.startFail 0x23 code
  else s

/-- A whole image for stage IMAGE of a cold start or for Winter mode: written as the full image in force, or refused with the code. -/
def State.imageArrives (s : State) (source : Nat) (d : List Byte) (len : Nat) : State :=
  let code := validateOuter (s.firstEnv false) d len
  let s := s.bootResult code
  let waits := s.atStage 4 && s.boot.cold && s.sourceNow == some source
  if code = 0 then
    let s := { s with img := { s.img with holdFull := some (d, len), holdUpdate := none } }
    if waits then s.markDelivered source else s
  else if waits then s.imageFail code
  else s

/-- A whole next image: placed in the pending copy, or refused with the code. -/
def State.nextArrives (s : State) (d : List Byte) (len : Nat) : State :=
  let code := if s.phase ≥ 1 then 0x15 else validateOuter (s.imgEnv false false false) d len
  let s := s.bootResult code
  if code = 0 then ({ s with img := { s.img with holdNext := some (d, len) } }).raise Fld.HUB_SIMG_STATUS_NEXT_PENDING else s

/-- A fetch of an object is accepted, or refused with BUSY (R469, R470). -/
def State.fetchAccepted (s : State) (object : Nat) : Bool :=
  match object with
  | 1 => true
  | 2 => (s.atStage 4 && s.boot.cold) || s.stage == 0xA
  | _ => s.isUp && s.phase == 0

/-- FETCH of an object with the LENGTH and SRC that the registers hold. -/
def State.startFetch (s : State) (object : Nat) : State :=
  let len := s.fld Fld.HUB_BOOT_CTL_LENGTH
  if s.boot.fetch.isSome then s
  else if !s.fetchAccepted object then s.bootResult 0x15
  else if object = 3 ∧ len = 0 then
    let s := { s with img := { s.img with holdNext := none } }
    (s.setFld Fld.HUB_SIMG_STATUS_NEXT_PENDING 0 0).bootResult 0
  else
    let a := s.fld Fld.HUB_BOOT_SRC_ADDR * 64
    let base := if s.flag Fld.HUB_BOOT_SRC_KIND then a else hostBase + a
    let one : Fetch := ⟨object, base, len, [], false⟩
    ((s.raise Fld.HUB_BOOT_CTL_FETCH).setLoad false (some one)).loadReads false (2 ^ 24 + 1)

/-- A FETCH row: LENGTH and OBJECT are written with the bit. -/
def State.fetchRow (s : State) (object len : Nat) : State :=
  ((s.setFld Fld.HUB_BOOT_CTL_LENGTH 0 len).setFld Fld.HUB_BOOT_CTL_OBJECT 0 object).startFetch object

/-- FETCH_COMPLETE: the source is read whole, or torn. -/
def State.fetchComplete (s : State) : State :=
  match s.boot.fetch with
  | some f =>
    if !f.ended then s
    else
      let s := s.setLoad false none
      if f.torn then s.bootResult 0x1B
      else match f.object with
        | 1 => s.firmwareArrives 1 f.data f.len
        | 2 => s.imageArrives 1 f.data f.len
        | _ => s.nextArrives f.data f.len
  | none => s

/-- PLDM_COMPONENT: component 1 or 2 of a package is applied as a fetch (R468). -/
def State.pldmComponent (s : State) (comp : Nat) (d : List Byte) : State :=
  if !s.elec.powered ∨ (comp ≠ 1 ∧ comp ≠ 2) then s
  else if !s.fetchAccepted comp then s.setFld Fld.HUB_BOOT_CTL_RESULT 0 0x15
  else if comp = 1 then s.firmwareArrives 0 d d.length
  else s.imageArrives 0 d d.length

/-- LEAVE_WINTER (R482). -/
def State.leaveWinter (s : State) : State :=
  if s.flag Fld.HUB_BOOT_WINTER then (s.setFld Fld.HUB_BOOT_START_COUNT 0 0).chipReset 8 else s

/-- A write of HUB_BOOT_CTL: LENGTH and OBJECT, then the bits that act. OBJECT 0 names no object: nothing is fetched. -/
def State.writeBootCtl (s : State) (w mask : Nat) : State :=
  let st := (s.reg .HUB_BOOT_CTL 0).toNat
  let st := Field.store Fld.HUB_BOOT_CTL_OBJECT (Field.store Fld.HUB_BOOT_CTL_LENGTH st w mask) w mask
  let s := s.setReg .HUB_BOOT_CTL 0 (BitVec.ofNat 64 st)
  let v := w &&& mask
  let s := if bit v 1 then s.leaveWinter else s
  if bit v 0 ∧ s.fld Fld.HUB_BOOT_CTL_OBJECT ≠ 0 then s.startFetch (s.fld Fld.HUB_BOOT_CTL_OBJECT) else s

/-! ## Programming (R488, R489) -/

/-- Signature blocks under which the firmware and images in force were accepted: SECURITY_VERSION and KEY_SLOT. -/
def State.acceptedUnder (s : State) : List (Nat × Nat) :=
  let fw := (s.boot.firmwareHeld.map (fun b => (fieldAt b 0x10 4, fieldAt (sigBlock b) 4 1))).toList
  let im := (s.img.holdFull.toList ++ s.img.holdUpdate.toList).map (fun x => (fieldAt x.1 0x24 4, fieldAt (sigBlock x.1) 4 1))
  fw ++ im

/-- Checks 0x01 to 0x07 of a container. -/
def State.otpCode (s : State) (b : List Byte) : Nat :=
  let new := (b.drop 64).take 1024
  let old := s.otpInForce
  let target := fieldAt b 5 1
  let above := s.boot.blankGens.filter (fun g => decide (s.fld Fld.SEC_OTP_IN_FORCE < g))
  let keys := fieldAt new 0x18 8
  firstFail [
    (1, fieldAt b 0 4 != 0x544F5A54 || fieldAt b 4 1 != 1 || reservedSet b [(6, 58)] || fieldAt (sigBlock b) 0 4 != 0x47495354
        || reservedSet (sigBlock b) [(5, 27)] || b.length != 1216),
    (2, chkKeySlot (s.imgEnv true false true) b), (3, chkSignature b), (4, above.isEmpty), (5, above.head? != some target),
    (6, !genValid target new || (new.drop 8).take 8 != (old.drop 8).take 8 || (new.drop 0x300).take 252 != (old.drop 0x300).take 252
        || decide (fieldAt new 4 4 < fieldAt old 4 4) || (List.range 64).any (fun i => bit keys i && !bit (fieldAt old 0x18 8) i)),
    (7, s.acceptedUnder.any (fun x => decide (x.1 < fieldAt new 4 4) || !bit keys x.2))]

/-- GO: the container is judged, and programming begins or PROG_RESULT takes the code. One that cannot be read is no container
(DEDUCED, log 30). -/
def State.otpGo (s : State) : State :=
  if s.flag Fld.SEC_OTP_PROGRAMMING then s
  else
    let a := s.fld Fld.SEC_OTP_PROG_ADDR * 64
    let inMem := (channelOf a).isSome && (channelOf (a + 1215)).isSome
    let r := if inMem then s.readLocal secRq a 1216 else (s, stAccessError, [])
    let s := r.1
    let code := if r.2.1 = stOk then s.otpCode r.2.2 else 1
    if code ≠ 0 then (s.setFld Fld.SEC_OTP_PROG_RESULT 0 code).setFld Fld.SEC_OTP_PROG_GO 0 0
    else
      let one : Nat × List Byte := (fieldAt r.2.2 5 1, (r.2.2.drop 64).take 1024)
      { (s.raise Fld.SEC_OTP_PROG_GO).raise Fld.SEC_OTP_PROGRAMMING with boot := { s.boot with prog := some one } }

/-- A write of SEC_OTP_PROG. -/
def State.writeOtpProg (s : State) (w mask : Nat) : State :=
  let st := Field.store Fld.SEC_OTP_PROG_ADDR (s.reg .SEC_OTP_PROG 0).toNat w mask
  let s := s.setReg .SEC_OTP_PROG 0 (BitVec.ofNat 64 st)
  if bit (w &&& mask) 63 then s.otpGo else s

/-- Every byte of a generation is written. -/
def Boot.writeGen (b : Boot) (g : Nat) (d : List Byte) : Boot :=
  (List.range 1024).foldl (fun b i => b.setOtp (0x400 * g + i) (d.getD i 0)) b

/-- OTP_PROGRAMMING_COMPLETE: the verify read agrees, or WRITE_FAIL. -/
def State.otpComplete (s : State) (ok : Bool) : State :=
  match s.boot.prog with
  | some (g, d) =>
    let b := if ok then { s.boot.writeGen g d with prog := none } else s.boot.consume
    let s := { s with boot := b }
    ((s.setFld Fld.SEC_OTP_PROG_RESULT 0 (if ok then 0 else 8)).setFld Fld.SEC_OTP_PROGRAMMING 0 0).setFld Fld.SEC_OTP_PROG_GO 0 0
  | none => s

/-! ## Attestation (R491 to R494) -/

/-- D of a held copy, or zeros. -/
def heldDigest (h : Option (List Byte × Nat)) : List Byte := (h.map (fun x => imageDigest x.1)).getD (List.replicate 64 0)

/-- The value of a measurement block (R493), none where there is no such block. -/
def State.measurement (s : State) (i : Nat) : Option (List Byte) :=
  match i with
  | 1 => some Config.romDigest
  | 2 => some (((List.range 8).map (fun j => leBytes 8 (s.fld Fld.HUB_FW_DIGEST_DIGEST j))).flatten)
  | 3 => some (leBytes 4 (s.fld Fld.HUB_FW_VER_SECURITY_VERSION))
  | 4 => some (if s.isUp then heldDigest s.img.holdFull else List.replicate 64 0)
  | 5 => some (if s.isUp then heldDigest s.img.holdUpdate else List.replicate 64 0)
  | 6 => some (leBytes 1 (s.fld Fld.SEC_OTP_IN_FORCE) ++ sha512 s.otpInForce)
  | 7 => some (((List.range 10).map (fun d => leBytes 8 (s.reg .HUB_DIE_ID d).toNat)).flatten)
  | 8 => some [BitVec.ofNat 8 (s.fld Fld.HUB_BOOT_WINTER), BitVec.ofNat 8 (s.fld Fld.HUB_SIMG_STATUS_PERSONALITY)]
  | 16 => some s.boot.log.flatten
  | _ => none

/-- DMTF value types (R493). -/
def measureType (i : Nat) : Nat :=
  match i with
  | 1 => 0
  | 2 => 1
  | 3 => 7
  | 4 => 3
  | 5 => 3
  | 6 => 2
  | 7 => 2
  | 8 => 5
  | _ => 9

/-- One block: index, value type, length and value. -/
def State.measureBlock (s : State) (i : Nat) : List Byte :=
  match s.measurement i with
  | some v => [BitVec.ofNat 8 i, BitVec.ofNat 8 (measureType i)] ++ leBytes 2 v.length ++ v
  | none => []

def measureIndices : List Nat := [1, 2, 3, 4, 5, 6, 7, 8, 16]

/-- The responder runs once the boot ROM has brought the sideband up. -/
def State.responds (s : State) : Bool := s.elec.powered && !s.elec.cycleReq && decide (1 < s.stage)

/-- GET_MEASUREMENTS of index 0 (how many), 0xFF (every block) or one block: 0 answered, 1 no such block. -/
def State.spdmMeasure (s : State) (i : Nat) (nonce : List Byte) (signed : Bool) : State :=
  if !s.responds then s
  else
    let l := if i = 0 then [] else if i = 0xFF then measureIndices else [i]
    if l.any (fun j => (s.measurement j).isNone) then s.emit (.spdm 1 [] [])
    else
      let d := if i = 0 then [BitVec.ofNat 8 measureIndices.length] else (l.map s.measureBlock).flatten
      s.emit (.spdm 0 d (if signed then Config.deviceSignature (nonce ++ d) else []))

def State.spdmChallenge (s : State) (nonce : List Byte) : State :=
  if !s.responds then s
  else
    let d := (measureIndices.map s.measureBlock).flatten
    s.emit (.spdm 0 d (Config.deviceSignature (nonce ++ d)))

/-- Version (1.3 only), capabilities (CHAL, MEAS with signatures, MEAS_FRESH, PUB_KEY_ID) or algorithms (Ed25519, SHA-512, DMTF): 0
answered, 1 not supported. The codes of what is answered are the model's. -/
def State.spdmNegotiate (s : State) (what version : Nat) : State :=
  if !s.responds then s
  else match what with
    | 0 => s.emit (.spdm 0 [0x13] [])
    | 1 => if version = 0x13 then s.emit (.spdm 0 [1, 2, 3, 4] []) else s.emit (.spdm 1 [] [])
    | _ => if version = 0x13 then s.emit (.spdm 0 [1, 2, 3] []) else s.emit (.spdm 1 [] [])

/-! ## PLDM (R428, R538, R540) -/

/-- Causes of ALERT_N: COOLANT_HIGH, THERM_CRIT, POWER_MODEL, WINTER, the power-cycle request, a failed regulator. -/
def State.alertCauses (s : State) : Nat :=
  let b := fun (x : Bool) (i : Nat) => if x then 2 ^ i else 0
  b (s.flag Fld.PWR_FAULT_COOLANT_HIGH) 0 + b (s.flag Fld.PWR_FAULT_THERM_CRIT) 1 + b (s.flag Fld.PWR_FAULT_POWER_MODEL) 2
  + b (s.flag Fld.HUB_BOOT_WINTER) 3 + b s.elec.cycleReq 4 + b s.elec.regFail 5

/-- A monitoring request: 0 HUB_BOOT.STAGE, 1 THERMTRIP_N, 2 ALERT_N, 3 the boot log, 4 the causes of ALERT_N; any other reads a sensor whose
value the spec does not give. After a trip it reports that alone; code 1 says that a state is not available (DESIGN CHOICE, log 29). -/
def State.pldmRequest (s : State) (what : Nat) : State :=
  if !s.elec.housekeeping then s
  else if what = 1 then s.emit (.pldm 0 (if s.elec.trip then 1 else 0))
  else if s.elec.trip ∨ (!s.elec.powered ∧ what ≠ 2 ∧ what ≠ 4) then s.emit (.pldm 1 0)
  else match what with
    | 0 => s.emit (.pldm 0 s.stage)
    | 2 => s.emit (.pldm 0 (if s.alert then 1 else 0))
    | 3 => s.emit (.bootLog s.boot.log.flatten)
    | 4 => s.emit (.pldm 0 s.alertCauses)
    | _ => (s.emit (.pldm 0 s.free)).spend

def execStageRom (ref : Bool) (s : State) : Host.Outcome State Fault Refusal := answer (s.stageRom ref)
def execStageHold (ok : Bool) (s : State) : Host.Outcome State Fault Refusal := answer (s.stageHold ok)
def execStageFirmware (s : State) : Host.Outcome State Fault Refusal := answer s.stageFirmware
def execStageImage (s : State) : Host.Outcome State Fault Refusal := answer s.stageImage
def execStageLinks (fails : List Lane) (dies : List DieRev) (s : State) : Host.Outcome State Fault Refusal := answer (s.stageLinks fails dies)
def execStageValidate (s : State) : Host.Outcome State Fault Refusal := answer s.stageValidate
def execStageMemory (ok : Bool) (s : State) : Host.Outcome State Fault Refusal := answer (s.stageMemory ok)
def execStagePorts (eth : Nat) (s : State) : Host.Outcome State Fault Refusal := answer (s.stagePorts eth)
def execStageUp (s : State) : Host.Outcome State Fault Refusal := answer s.stageUp
def execStageTimeout (s : State) : Host.Outcome State Fault Refusal := answer s.stageTimeout
def execFetchSourceTimeout (s : State) : Host.Outcome State Fault Refusal := answer s.sourceTimeout
def execPldmComponent (comp : Nat) (data : List Byte) (s : State) : Host.Outcome State Fault Refusal := answer (s.pldmComponent comp data)
def execFetchFirmware (rq : Requester) (len : Nat) (s : State) : Host.Outcome State Fault Refusal :=
  answer (s.gated rq .HUB_BOOT_CTL 0 (fun s => s.fetchRow 1 len))
def execFetchImage (rq : Requester) (len : Nat) (s : State) : Host.Outcome State Fault Refusal :=
  answer (s.gated rq .HUB_BOOT_CTL 0 (fun s => s.fetchRow 2 len))
def execFetchNextImage (rq : Requester) (len : Nat) (s : State) : Host.Outcome State Fault Refusal :=
  answer (s.gated rq .HUB_BOOT_CTL 0 (fun s => s.fetchRow 3 len))
def execFetchComplete (s : State) : Host.Outcome State Fault Refusal := answer s.fetchComplete
def execLeaveWinter (rq : Requester) (s : State) : Host.Outcome State Fault Refusal := answer (s.gated rq .HUB_BOOT_CTL 0 State.leaveWinter)
def execOtpProgram (rq : Requester) (w : Nat) (s : State) : Host.Outcome State Fault Refusal :=
  answer (s.gated rq .SEC_OTP_PROG 0 (fun s => s.writeOtpProg (w ||| 2 ^ 63) (2 ^ 64 - 1)))
def execOtpProgrammingComplete (ok : Bool) (s : State) : Host.Outcome State Fault Refusal := answer (s.otpComplete ok)
def execSpdmNegotiate (what version : Nat) (s : State) : Host.Outcome State Fault Refusal := answer (s.spdmNegotiate what version)
def execSpdmChallenge (nonce : List Byte) (s : State) : Host.Outcome State Fault Refusal := answer (s.spdmChallenge nonce)
def execSpdmGetMeasurements (i : Nat) (nonce : List Byte) (signed : Bool) (s : State) : Host.Outcome State Fault Refusal :=
  answer (s.spdmMeasure i nonce signed)
def execPldmRequest (what : Nat) (s : State) : Host.Outcome State Fault Refusal := answer (s.pldmRequest what)

end Sys2Proof.Machine
end

