-- ==== Sys2Proof/Machine/RegWrite.lean ====
section
/-! DEFINITION. Reads and writes of registers at their offsets (R13, R14, R17, R18, R34, R524, R531), and what the write of each register with
an action of its own does. -/

namespace Sys2Proof.Machine

/-- A field that a write of the register's word leaves to its own action. -/
def Field.actsAlone (f : Field) : Bool := f.acc == .w1s

/-- RW fields store, W1C and ST bits clear (R14). -/
def State.storeFields (s : State) (r : Reg) (i w mask : Nat) : State :=
  s.setReg r i (BitVec.ofNat 64 ((r.fields.filter (fun f => !f.actsAlone)).foldl (fun acc f => f.store acc w mask) (s.reg r i).toNat))

/-- As storeFields, but a field keeps its value where the new one lies outside its range. -/
def State.storeRanged (s : State) (r : Reg) (i w mask : Nat) (f : Field) (lo hi : Nat) : State :=
  let old := s.fld f i
  let s := s.storeFields r i w mask
  if lo ≤ s.fld f i ∧ s.fld f i ≤ hi then s else s.setFld f i old

/-- A counter's OVF stays set while VALUE stands at its greatest value (R499). -/
def State.storeCount (s : State) (r : Reg) (i w mask : Nat) (value ovf : Field) : State :=
  let s := s.storeFields r i w mask
  if s.fld value i = 2 ^ 48 - 1 then s.raise ovf i else s

/-- HUB_TLBI (R338, R348): a set of GO while GO is 1 is ignored. -/
def State.writeTlbi (s : State) (p w mask : Nat) : State :=
  let go := s.flag Fld.HUB_TLBI_GO p
  let s := s.storeFields .HUB_TLBI p w mask
  if bit (w &&& mask) 63 ∧ !go then (s.raise Fld.HUB_TLBI_GO p).tlbiDrop p else s

/-- HUB_FT_CTL (R85): refused as a whole while a partition runs if it arms or changes the source in use. -/
def State.writeFtCtlWord (s : State) (w mask : Nat) : State :=
  if mask % 2 ^ 32 = 0 then s
  else
    let v := s.stored .HUB_FT_CTL 0 w mask
    s.writeFtCtl (v / 4 * 4 + (w &&& mask) / 2 % 2 * 2)

/-- A write of a register that has an action of its own, or none where the access types say all. -/
def State.writeHub (s : State) (r : Reg) (i w mask : Nat) : Option State :=
  let v := w &&& mask
  match r with
  | .HUB_CTX_CTL => some (s.ctxCtl i v)
  | .HUB_CTX_RING => some (if (s.ctx i).st = .free then s.storeFields r i w mask else s)
  | .HUB_CTX_CPL => some (if (s.ctx i).st = .free then s.storeFields r i w mask else s)
  | .HUB_CTX_SAVE => some (if (s.ctx i).st = .free then s.storeFields r i w mask else s)
  | .HUB_CTX_ATP => some (if (s.ctx i).st = .free then s.storeFields r i w mask else s)
  | .HUB_CTX_CORES0 => some (if (s.ctx i).st = .free then s.storeFields r i w mask else s)
  | .HUB_CTX_CORES1 => some (if (s.ctx i).st = .free then s.storeFields r i w mask else s)
  | .HUB_CTX_SEQ => some (if (s.ctx i).st = .free then s.storeFields r i w mask else s)
  | .HUB_SIMG_CTL => some (s.writeSimgCtl w mask)
  | .HUB_BOOT_CTL => some (s.writeBootCtl w mask)
  | .HUB_CHIP_RESET => some (s.writeChipReset w mask)
  | .HUB_AUDIT_SNAP => some (s.auditRequest v)
  | .HUB_FT_CTL => some (s.writeFtCtlWord w mask)
  | .HUB_SLIP_MAX =>
    let t := s.storeFields r i w mask
    some (if v % 2 ^ 16 ≠ 0 then t.setFld Fld.HUB_SLIP_MAX_RUN i 0 else t)
  | .HUB_CNT_SEL => some (s.writeSel 3 0 i w mask)
  | .HUB_CNT => some (s.storeCount r i w mask Fld.HUB_CNT_VALUE Fld.HUB_CNT_OVF)
  | .HUB_SMP_CFG => some (s.storeRanged r i w mask Fld.HUB_SMP_CFG_PERIOD_LOG2 10 26)
  | .HUB_TT_CFG => some (s.storeRanged r i w mask Fld.HUB_TT_CFG_LOG2_ENTRIES 10 30)
  | .HUB_FLT_RING => some (s.storeRanged r i w mask Fld.HUB_FLT_RING_LOG2_RECORDS 4 16)
  | .HUB_TT_CTL => some (if bit v 0 then s.tileFence i else s)
  | .HUB_TLBI => some (s.writeTlbi i w mask)
  | .HUB_TLBI_VA => some (s.storeRanged r i w mask Fld.HUB_TLBI_VA_LOG2_PAGES 0 45)
  | .HUB_PART_RESET => some (if bit v 0 then s.requestPartReset i 1 else s)
  | .HUB_RECOV_CTL => some (if bit v 0 then s.replayWrite i else s)
  | _ => none

/-- As writeHub, for the blocks of the tensor plane and memory. -/
def State.writeUnit (s : State) (r : Reg) (i w mask : Nat) : Option State :=
  let v := w &&& mask
  match r with
  | .CL_CNT_SEL => some (s.writeSel 2 (i / 16) (i % 16) w mask)
  | .CL_CNT => some (s.storeCount r i w mask Fld.CL_CNT_VALUE Fld.CL_CNT_OVF)
  | .CO_CNT_SEL => some (s.writeSel 1 (i / 8) (i % 8) w mask)
  | .CO_CNT => some (s.storeCount r i w mask Fld.CO_CNT_VALUE Fld.CO_CNT_OVF)
  | .CO_SAVE_CFG => some (if bit mask 0 then s.writeSaveCfg i (w % 8) else s)
  | .EN_HANG =>
    let t := s.storeFields r i w mask
    some (if bit v 62 then t.hangReset i else t)
  | .MEM_REFRESH => some (if bit mask 4 then s.writeFloor i (getBits w 4 2) else s)
  | .LLM_SLICE => some (s.wayReenable i (getBits v 48 16))
  | .LLM_ZERO => some (s.writeLlmZero i (s.stored .LLM_ZERO i w mask / 2 * 2 + v % 2))
  | _ => none

/-- As writeHub, for the blocks of the module's links, power, trust and observation. -/
def State.writeOuter (s : State) (r : Reg) (i w mask : Nat) : Option State :=
  let v := w &&& mask
  match r with
  | .FAB_PORT_CTL =>
    let on := bit (s.stored .FAB_PORT_CTL i w mask) 1
    let t := if on = s.flag Fld.FAB_PORT_CTL_DISABLE i then s else s.writeDisable i on
    some (if bit v 0 then t.retrain i else t)
  | .FAB_NSEND => some (s.writeNsend w mask)
  | .HOST_BAR2 => some (s.writeBar2 w mask)
  | .HOST_ATTACH => some (s.writeAttach v)
  | .HOST_MSIX_DATA => some ((s.storeFields r i w mask).msixUnmask i)
  | .ETH_RXQ => some (s.writeEthQueue r i w mask)
  | .ETH_TXQ => some (s.writeEthQueue r i w mask)
  | .ETH_TXQ_PTR => some (if mask % 2 ^ 32 = 0 then s else s.writeTxTail (i / 256) (i % 256) (w % 2 ^ 32))
  | .ETH_RWIN_CTL => some (s.writeRwinCtl i w mask)
  | .PWR_CAP => some (if bit mask 0 then s.capWrite (w % 2 ^ 12) else s)
  | .PWR_MODE => some (if mask % 2 ^ 32 = 0 then s else s.modeWrite w mask)
  | .PWR_RAMP => some (if mask % 2 ^ 32 = 0 then s else s.rampWrite w mask)
  | .PWR_FAULT =>
    let t := if bit v 0 then s.clearModel else s
    some (t.storeFields r i w (mask / 2 * 2))
  | .SEC_OTP_PROG => some (s.writeOtpProg w mask)
  | .DBG_DUMP_CTL => some (s.writeDumpCtl w mask)
  | .TRC_CTL => some (s.storeFields r i w mask).traceUpdate
  | _ => none

/-- A write of a register's word under a mask. -/
def State.writeReg (s : State) (r : Reg) (i w mask : Nat) : State :=
  (((s.writeHub r i w mask).orElse (fun _ => s.writeUnit r i w mask)).orElse (fun _ => s.writeOuter r i w mask)).getD (s.storeFields r i w mask)

/-- A register access is of a whole word or of an aligned half (R13). -/
def regSizeOk (off size : Nat) : Bool := (size == 8 && off % 8 == 0) || (size == 4 && off % 4 == 0)

/-- REGISTER_WRITE: a write at an offset by a requester: its status. An offset that defines no register ignores it (R18).
A reset of a partition that is lost is refused with FENCED (R392, R455). -/
def State.regWrite (s : State) (rq : Requester) (off size value : Nat) : State × Nat :=
  if !regSizeOk off size then (s, stAccessError)
  else match s.judgeReg rq off true with
    | (s, some e) => (s, e)
    | (s, none) => match regAt off with
      | some (r, i) =>
        let v := writeValue off size value
        let m := writeMask off size
        (s.writeReg r i v m, if r = .HUB_PART_RESET ∧ bit (v &&& m) 0 ∧ s.partLost i then stFenced else stOk)
      | none => (s, stOk)

/-- A read at an offset by a requester: status and value. No register has a side effect on read (R508) (DEDUCED, log 11). -/
def State.regRead (s : State) (rq : Requester) (off size : Nat) : State × Nat × Nat :=
  if !regSizeOk off size then (s, stAccessError, 0)
  else match s.judgeReg rq off false with
    | (s, some e) => (s, e, 0)
    | (s, none) =>
      let w := s.wordAt off
      (s, stOk, if size = 4 then w / 2 ^ (off % 8 * 8) % 2 ^ 32 else w)

def execRegisterWrite (rq : Requester) (off size value : Nat) (s : State) : Host.Outcome State Fault Refusal :=
  answer (s.regWrite rq off size value).1
/-- ARM_EPOCH: a write of HUB_FT_CTL that sets ARM_EPOCH. -/
def execArmEpoch (rq : Requester) (w : Nat) (s : State) : Host.Outcome State Fault Refusal :=
  answer (s.gated rq .HUB_FT_CTL 0 (fun s => s.writeFtCtlWord (w ||| 2) (2 ^ 64 - 1)))
/-- FT_SOURCE_WRITE: a write of HUB_FT_CTL. -/
def execFtSourceWrite (rq : Requester) (w : Nat) (s : State) : Host.Outcome State Fault Refusal :=
  answer (s.gated rq .HUB_FT_CTL 0 (fun s => s.writeFtCtlWord w (2 ^ 64 - 1)))
/-- TLBI: a write of HUB_TLBI that sets GO. -/
def execTlbi (rq : Requester) (p w : Nat) (s : State) : Host.Outcome State Fault Refusal :=
  answer (if p < 16 then s.gated rq .HUB_TLBI p (fun s => s.writeTlbi p (w ||| 2 ^ 63) (2 ^ 64 - 1)) else s)

end Sys2Proof.Machine
end

