-- ==== Sys2Proof/Machine/Cpu.lean ====
section
/-! DEFINITION. CPU cores as issuers (R281, R292, R293, R296 to R298, R315, R316, R321, R323, R324, R327, R339): what a load, store, atomic
operation, cache operation or barrier of a core does, and the rows that change a line of an agent, which wake its waiting operations. -/

namespace Sys2Proof.Machine

/-! ## Operations -/

def CpuOp.addr : CpuOp → Nat
  | .load a _ _ _ _ => a
  | .store a _ _ => a
  | .amo _ a _ _ _ _ _ _ => a
  | .lr a _ _ _ _ => a
  | .sc a _ _ _ _ _ => a
  | .zero a => a / 64 * 64
  | .flush a => a / 64 * 64

def CpuOp.size : CpuOp → Nat
  | .load _ n _ _ _ => n
  | .store _ n _ => n
  | .amo _ _ n _ _ _ _ _ => n
  | .lr _ n _ _ _ => n
  | .sc _ n _ _ _ _ => n
  | .zero _ => 64
  | .flush _ => 64

/-- Bytes that an operation can have. -/
def CpuOp.sizeOk : CpuOp → Bool
  | .load _ n _ _ _ => n == 1 || n == 2 || n == 4 || n == 8
  | .store _ n _ => n == 1 || n == 2 || n == 4 || n == 8
  | .amo aop _ n _ _ _ _ _ => (n == 4 || n == 8) && decide (aop ≤ 9)
  | .lr _ n _ _ _ => n == 4 || n == 8
  | .sc _ n _ _ _ _ => n == 4 || n == 8
  | .zero _ => true
  | .flush _ => true

/-- The exception of an AMO, LR or SC that is not naturally aligned. -/
def CpuOp.alignTrap : CpuOp → Option Nat
  | .amo _ a n _ _ _ _ _ => if a % n = 0 then none else some trapStoreAlign
  | .lr a n _ _ _ => if a % n = 0 then none else some trapLoadAlign
  | .sc a n _ _ _ _ => if a % n = 0 then none else some trapStoreAlign
  | _ => none

/-- The classes of FENCE (R281): I 8, O 4, R 2, W 1. Register range and host aperture are of the device classes. -/
def classOf (a : Nat) (reads writes : Bool) : Nat :=
  let dev := match locate a with
    | .reg _ => true
    | .host _ => true
    | _ => false
  ((if reads then 2 else 0) + if writes then 1 else 0) * if dev then 4 else 1

def CpuOp.cls : CpuOp → Nat
  | .load a _ _ _ _ => classOf a true false
  | .store a _ _ => classOf a false true
  | .amo _ a _ _ _ _ _ _ => classOf a true true
  | .lr a _ _ _ _ => classOf a true false
  | .sc a _ _ _ _ _ => classOf a true true
  | .zero a => classOf a false true
  | .flush _ => 0

/-- An acquire mark (R288). -/
def CpuOp.acquires : CpuOp → Bool
  | .amo _ _ _ _ _ _ aq _ => aq
  | .lr _ _ _ aq _ => aq
  | _ => false

/-- A release mark (R288). -/
def CpuOp.releases : CpuOp → Bool
  | .amo _ _ _ _ _ _ _ rl => rl
  | .sc _ _ _ _ _ rl => rl
  | _ => false

/-- The aq bit, by which RVWMO orders (R280). -/
def CpuOp.aqBit : CpuOp → Bool
  | .sc _ _ _ _ aq _ => aq
  | op => op.acquires

/-- The rl bit, by which RVWMO orders (R280). -/
def CpuOp.rlBit : CpuOp → Bool
  | .lr _ _ _ _ rl => rl
  | op => op.releases

/-- The marks as a packet's VC_FLAGS carry them (R361). -/
def CpuOp.mark (op : CpuOp) : Nat := (if op.acquires then 4 else 0) + if op.releases then 8 else 0

/-- The core's requests carry its partition (R34). -/
def State.coreRq (s : State) (c : Nat) : Requester := ⟨.cpu, c, s.partOfCpu c⟩

/-! ## Barriers (R281, R289) -/

/-- The remote window of an address. -/
def windowOf (a : Nat) : Option Nat :=
  match locate a with
  | .remote w _ => some w
  | _ => none

/-- The module that an address targets through its window. -/
def State.targetOf (s : State) (a : Nat) : Option Nat := (windowOf a).bind (fun w => (s.window w).map (·.module))

def isHost (a : Nat) : Bool :=
  match locate a with
  | .host _ => true
  | _ => false

/-- R289: the earlier access is not yet far enough for a later one at address a: a local one not performed, a remote one that has not left
the module unless the later one follows it to the same module, a host one unless the later one goes elsewhere. -/
def State.holdsBack (s : State) (id a : Nat) : Bool :=
  s.stalls.any (fun x => x.id == id) ||
  s.opens.any (fun o => o.id == id && (match o.module with
    | some m => s.targetOf a != some m && s.ports.any (fun p => p.2.waiting.any (fun x => x.tag == id && x.src == s.selfModule))
    | none => !isHost o.addr || isHost a))

/-- A barrier or mark puts an operation behind the access that the hold names. -/
def Hold.covers (h : Hold) (id : Nat) (nc : Bool) (op : CpuOp) : Bool :=
  (if h.only then h.bound == id else decide (h.bound ≤ id)) && (h.classes &&& op.cls != 0) && (h.classes < 16 || (!nc && cacheable op.addr))

/-- A barrier puts the operation behind an earlier access. -/
def State.barred (s : State) (c id : Nat) (nc : Bool) (op : CpuOp) : Bool :=
  (s.cpu c).order.any (fun h => h.covers id nc op && s.holdsBack h.id op.addr)

/-- The marks that the operation's packet carries (R361): its own, and RELEASE where it follows an access to the same module that a barrier puts
before it (R282, R289) (DEDUCED, log 77). -/
def State.opMark (s : State) (c id : Nat) (nc : Bool) (op : CpuOp) : Nat :=
  let behind := (s.cpu c).order.any (fun h => h.covers id nc op
    && s.opens.any (fun o => o.id == h.id && o.module.isSome && o.module == s.targetOf op.addr))
  op.mark ||| if behind then 8 else 0

/-- A load or a store, which its line's miss entry keeps in order with others by the bytes that they share; other operations act on whole lines. -/
def CpuOp.plain : CpuOp → Bool
  | .load _ _ _ _ _ => true
  | .store _ _ _ => true
  | _ => false

/-- Two ranges of bytes meet. -/
def bytesMeet (a n b m : Nat) : Bool := decide (a < b + m) && decide (b < a + n)

/-- Two operations of a core that keep their order (R285). -/
def CpuOp.conflicts (x y : CpuOp) : Bool :=
  if x.plain && y.plain then bytesMeet x.addr x.size y.addr y.size
  else (linesOf x.addr x.size).any (fun l => (linesOf y.addr y.size).contains l)

/-- R285: an earlier operation of the core that waits, or an open access of it, touches the operation's bytes. -/
def State.behind (s : State) (c id : Nat) (op : CpuOp) : Bool :=
  s.stalls.any (fun x => x.cpu == c && decide (x.id < id) && x.op.conflicts op)
  || s.opens.any (fun o => o.who.kind == .cpu && o.who.unit == c && o.ctx.isNone && decide (o.id < id) && bytesMeet o.addr o.len op.addr op.size)

/-- Class of an open access. -/
def OpenAccess.cls (o : OpenAccess) : Nat := classOf o.addr (o.op != 2) (o.op != 1)

/-- Ids of the core's accesses of the classes pred that are open or wait. -/
def State.earlierIds (s : State) (c pred : Nat) : List Nat :=
  let opens := s.opens.filter (fun o => o.who.kind == .cpu && o.who.unit == c && o.ctx.isNone && (o.cls &&& pred != 0))
  let waits := s.stalls.filter (fun x => x.cpu == c && (x.op.cls &&& pred != 0))
  opens.map (·.id) ++ waits.map (·.id)

/-- Holds join those of accesses that are still open or wait. -/
def State.addHolds (s : State) (c : Nat) (l : List Hold) : State :=
  let kept := (s.cpu c).order.filter (fun h => s.opens.any (fun o => o.id == h.id) || s.stalls.any (fun x => x.id == h.id))
  s.updCpu c (fun x => { x with order := kept ++ l })

/-- A barrier: every earlier access of the classes pred comes before later ones of the classes succ (DEDUCED, log 32). -/
def State.barrier (s : State) (c pred succ : Nat) : State :=
  s.addHolds c ((s.earlierIds c pred).map (fun id => ⟨id, succ, s.nextId, false⟩))

/-- FENCE.TSO orders what RVWMO gives it, and has no effect toward package-model observers (R281): reads before reads and writes, and writes
before writes, of cacheable memory through PMA pages. -/
def State.barrierTso (s : State) (c : Nat) : State :=
  let ids := fun (pred : Nat) => (s.stalls.filter (fun x => x.cpu == c && !x.nc && cacheable x.op.addr && (x.op.cls &&& pred != 0))).map (·.id)
  s.addHolds c ((ids 2).map (fun id => ⟨id, 16 + 3, s.nextId, false⟩) ++ (ids 1).map (fun id => ⟨id, 16 + 1, s.nextId, false⟩))

/-- The core's operations that wait on cacheable memory, which RVWMO orders. -/
def State.waitingRv (s : State) (c : Nat) (p : CpuOp → Bool) : List Nat :=
  (s.stalls.filter (fun x => x.cpu == c && !x.nc && cacheable x.op.addr && p x.op)).map (·.id)

/-- R280, R287, R288: every earlier access comes before an operation with a release mark, and one with an acquire mark before every later access.
Under RVWMO the rl bit of LR and the aq bit of SC count as well, and an operation with rl comes before a later one with aq. -/
def State.markHolds (s : State) (c id : Nat) (op : CpuOp) : State :=
  let rv : List Nat := if op.rlBit then s.waitingRv c (fun _ => true) else if op.aqBit then s.waitingRv c CpuOp.rlBit else []
  let before : List Hold := (if op.releases then (s.earlierIds c 15).map (fun i => ⟨i, 15, id, true⟩) else [])
    ++ rv.map (fun i => ⟨i, 16 + 15, id, true⟩)
  let after : List Hold := if op.acquires then [⟨id, 15, id + 1, false⟩] else if op.aqBit then [⟨id, 16 + 15, id + 1, false⟩] else []
  if before.isEmpty && after.isEmpty then s else s.addHolds c (before ++ after)

/-! ## Reservations (R324) -/

/-- A core holds one reservation: an LR or SC ends the one before. -/
def State.dropReserved (s : State) (c : Nat) : State :=
  let s := { s with resvs := s.resvs.filter (fun r => r.cpu != c) }
  let lines := (s.agents.filter (fun e => e.1 / 2 ^ 46 == c && e.2.reserved)).map (fun e => e.1 % 2 ^ 46)
  lines.foldl (fun s l => s.setLine c l { s.line c l with reserved := false }) s

/-- Two addresses are served by one home or endpoint. -/
def sameServer (l m : Nat) : Bool :=
  match homeOf l, homeOf m with
  | some a, some b => a == b
  | none, none => sameUnit (l * 64) (m * 64)
  | _, _ => false

/-- A reservation at a home or endpoint: the oldest of 256 is dropped. -/
def State.addResv (s : State) (c line : Nat) : State :=
  let mine := s.resvs.filter (fun r => sameServer r.line line)
  let l := if mine.length ≥ 256 then (match mine.head? with
    | some r => s.resvs.erase r
    | none => s.resvs) else s.resvs
  { s with resvs := l ++ [⟨c, line⟩] }

/-! ## Lines in the agent (R315, R316, R323, R324, R327) -/

/-- Load: Hit. -/
def LineSt.readable : LineSt → Bool
  | .shared => true
  | .excl => true
  | .modified => true
  | .owned => true
  | .smA => true
  | .omA => true
  | _ => false

/-- Store: Hit. -/
def LineSt.writable : LineSt → Bool
  | .excl => true
  | .modified => true
  | _ => false

/-- Every line that n bytes at a touch is in a state of a kind in the agent. -/
def State.allLines (s : State) (c a n : Nat) (p : LineSt → Bool) : Bool := (linesOf a n).all (fun l => p (s.line c l).st)

/-- The agent asks for each line that it lacks. -/
def State.askLines (s : State) (c a n : Nat) (own : Bool) : State := (linesOf a n).foldl (fun s l => s.agentAsk c l own) s

/-- One of the granules touched is marked poisoned. -/
def State.touchesPoison (s : State) (c a n : Nat) : Bool :=
  (granulesOf a n).any (fun g => bit (s.line c (g / 64)).poison (g / 32 % 2))

/-- Bytes of lines that the agent holds. -/
def State.cachedBytes (s : State) (c a n : Nat) : List Byte :=
  (List.range n).map (fun i => (s.line c ((a + i) / 64)).data.getD ((a + i) % 64) 0)

/-- Bytes are written into lines that the agent owns: they become M, and reservations kept for them elsewhere end. -/
def State.writeCached (s : State) (c a : Nat) (b : List Byte) : State :=
  (linesOf a b.length).foldl (fun s l =>
    let x := s.line c l
    let data := (List.range 64).map (fun i => if a ≤ l * 64 + i ∧ l * 64 + i < a + b.length then b.getD (l * 64 + i - a) 0 else x.data.getD i 0)
    (s.setLine c l { x with st := .modified, data := data }).clearResv l) s

/-- A line with any poisoned granule: a store to it is discarded and reported (R327). -/
def State.poisonedLine (s : State) (c a n : Nat) : Bool := (linesOf a n).any (fun l => (s.line c l).poison != 0)

def State.storeCached (s : State) (c a : Nat) (b : List Byte) : State :=
  if s.poisonedLine c a b.length then s.coverCpu c stAccessError else s.writeCached c a b

/-- An operation on cacheable memory through a PMA page: false where it waits for its line. -/
def State.cachedOp (s : State) (c : Nat) (op : CpuOp) : State × Bool :=
  let a := op.addr
  let n := op.size
  match op with
  | .load _ _ rd sx fetch =>
    if s.allLines c a n LineSt.readable then
      let st := if s.touchesPoison c a n then stPoisoned else stOk
      (if fetch then s.cpuFetched c st else s.cpuLoaded c rd n sx false st (s.cachedBytes c a n), true)
    else (s.askLines c a n false, false)
  | .lr _ _ rd _ _ =>
    if s.allLines c a n LineSt.readable then
      if s.touchesPoison c a n then (s.trapCpu c trapLoad, true)
      else
        let s := s.dropReserved c
        let l := a / 64
        ((s.setLine c l { s.line c l with reserved := true }).setXreg c rd (loadValue n true (s.cachedBytes c a n)), true)
    else (s.askLines c a n false, false)
  | .store _ _ v =>
    if s.allLines c a n LineSt.writable then (s.storeCached c a (leBytes n v), true) else (s.askLines c a n true, false)
  | .zero _ =>
    if s.allLines c a n LineSt.writable then (s.storeCached c a (List.replicate 64 0), true) else (s.askLines c a n true, false)
  | .amo aop _ _ v cmp rd _ _ =>
    if s.allLines c a n LineSt.writable then
      if s.touchesPoison c a n then (s.trapCpu c trapStore, true)
      else
        let old := s.cachedBytes c a n
        let new := leBytes n (atomicResult aop (8 * n) (leNat old) v cmp)
        ((s.writeCached c a new).setXreg c rd (loadValue n true old), true)
    else (s.askLines c a n true, false)
  | .sc _ _ v rd _ _ =>
    if s.allLines c a n LineSt.writable then
      let ok := (s.line c (a / 64)).reserved && !s.poisonedLine c a n
      let s := if (s.line c (a / 64)).reserved then s.storeCached c a (leBytes n v) else s
      ((s.dropReserved c).setXreg c rd (if ok then 0 else 1), true)
    else (s.askLines c a n true, false)
  | .flush _ =>
    match (s.line c (a / 64)).st with
    | .inv => (s, true)
    | .shared => (s.replace c (a / 64), true)
    | .excl => (s.replace c (a / 64), true)
    | .modified => (s.replace c (a / 64), true)
    | .owned => (s.replace c (a / 64), true)
    | _ => (s, false)

/-! ## Elsewhere (R298, R302, R321, R323, R324) -/

/-- A load or fetch has its answer, or has an error response. -/
def State.loadDone (s : State) (c rd n : Nat) (sx fetch : Bool) (st : Nat) (b : List Byte) : State :=
  if fetch then s.cpuFetched c st else s.cpuLoaded c rd n sx false st b

def fetchWaiter (c rd n : Nat) (sx fetch : Bool) : Waiter := if fetch then .cpuFetch c else .cpuLoad c rd n sx

/-- The access of a core to a register of this module, by offset, as the requester that it presents: a window of the module to itself
presents the window's partition (R43). -/
def State.registerOf (s : State) (c a : Nat) (write : Bool) : Option (Requester × Nat) :=
  match locate a with
  | .reg off => some (s.coreRq c, off)
  | .remote w x => match s.windowTarget (s.coreRq c) (if write then 2 else 1) a w x with
    | (_, .inr (e, t)) => if e.module = s.selfModule then (match locate t with
      | .reg off => some ({ s.coreRq c with part := e.dstPart }, off)
      | _ => none) else none
    | _ => none
  | _ => none

/-- A message of a core to a line's home through a page whose PBMT is NC or IO (R321). -/
def State.ncSend (s : State) (c a n op : Nat) (m : Msg) (w : Waiter) : State :=
  match s.judge (s.coreRq c) op a n with
  | (s, some e) => if op = 2 then s.coverCpu c e else (match w with
    | .cpuFetch _ => s.cpuFetched c e
    | _ => s.cpuLoaded c 0 n false (op == 3) e [])
  | (s, none) => (s.openAccess (s.coreRq c) none a n op w).send { m with off := a % 64, len := n, tag := s.nextId }

/-- A load or fetch of a range or page that is not cached. -/
def State.ncLoad (s : State) (c a n rd : Nat) (sx fetch : Bool) (mark : Nat) : State :=
  match s.registerOf c a false with
  | some (rq, off) =>
    let r := s.regRead rq off n
    if fetch then r.1.cpuFetched c stAccessError else r.1.cpuLoaded c rd n sx false r.2.1 (leBytes n r.2.2)
  | none =>
    if cacheable a ∧ (linesOf a n).length = 1 then s.ncSend c a n 1 (msg mNCRd (a / 64) ncAgent) (fetchWaiter c rd n sx fetch)
    else match s.issueRead (s.coreRq c) none a n (fetchWaiter c rd n sx fetch) mark with
      | (s, .done st b) => s.loadDone c rd n sx fetch st b
      | (s, .open) => s

/-- A store to a range or page that is not cached. -/
def State.ncStore (s : State) (c a : Nat) (b : List Byte) (mark : Nat) : State :=
  match s.registerOf c a true with
  | some (rq, off) =>
    let r := s.regWrite rq off b.length (leNat b)
    r.1.coverCpu c r.2
  | none =>
    if cacheable a ∧ (linesOf a b.length).length = 1 then
      s.ncSend c a b.length 2 { msg (if b.length = 64 then mNCWr else mNCWrP) (a / 64) ncAgent with data := b } .plain
    else match s.issueWrite (s.coreRq c) none a b .plain mark with
      | (s, .done st _) => s.coverCpu c st
      | (s, .open) => s

/-- An AMO of a range or page that is not cached. -/
def State.ncAmo (s : State) (c aop a n v cmp rd mark : Nat) : State :=
  if (s.registerOf c a true).isSome ∨ isHost a then s.trapCpu c trapStore
  else if cacheable a then
    s.ncSend c a n 3 { msg mNCAtom (a / 64) ncAgent with op := aop, data := leBytes n v ++ leBytes n cmp } (.cpuLoad c rd n true)
  else match s.issueAtomic (s.coreRq c) none a n aop v cmp (.cpuLoad c rd n true) mark with
    | (s, .done st b) => s.cpuLoaded c rd n true true st b
    | (s, .open) => s

/-- LR of a target that is not cached: the reservation lives at its home or endpoint; another module takes none. -/
def State.ncLr (s : State) (c a n rd mark : Nat) : State × Bool :=
  if (s.registerOf c a false).isSome ∨ isHost a then (s.trapCpu c trapLoad, true)
  else if cacheable a ∧ s.lineBusy (a / 64) then (s, false)
  else
    let s := s.dropReserved c
    match s.issueRead (s.coreRq c) none a n (.cpuLoad c rd n true) mark with
    | (s, .done st b) =>
      let s := if st = stOk ∧ (windowOf a).isNone then s.addResv c (a / 64) else s
      (s.cpuLoaded c rd n true false st b, true)
    | (s, .open) => (s, true)

/-- SC of a target that is not cached: it succeeds only if the reservation is still there. -/
def State.ncSc (s : State) (c a n v rd : Nat) : State × Bool :=
  if (s.registerOf c a true).isSome ∨ isHost a then (s.trapCpu c trapStore, true)
  else if cacheable a ∧ s.lineBusy (a / 64) then (s, false)
  else
    let held := s.resvs.contains ⟨c, a / 64⟩
    let s := s.dropReserved c
    if held then
      let r := s.writeLocal (s.coreRq c) none a (leBytes n v)
      ((r.1.coverCpu c r.2).setXreg c rd (if r.2 = stOk then 0 else 1), true)
    else (s.setXreg c rd 1, true)

/-- An operation on a target that is not cached: false where it waits. -/
def State.ncOp (s : State) (c : Nat) (op : CpuOp) (mark : Nat) : State × Bool :=
  match op with
  | .load a n rd sx fetch => (s.ncLoad c a n rd sx fetch mark, true)
  | .store a n v => (s.ncStore c a (leBytes n v) mark, true)
  | .amo aop a n v cmp rd _ _ => (s.ncAmo c aop a n v cmp rd mark, true)
  | .lr a n rd _ _ => s.ncLr c a n rd mark
  | .sc a n v rd _ _ => s.ncSc c a n v rd
  | .zero a => (s.ncStore c (a / 64 * 64) (List.replicate 64 0) mark, true)
  | .flush _ => (s, true)

/-! ## Issue, and waiting operations -/

/-- R34, R37: an access to cacheable memory that is refused. -/
def State.refuseOp (s : State) (c : Nat) (op : CpuOp) (st : Nat) : State :=
  match op with
  | .load _ n rd sx fetch => s.loadDone c rd n sx fetch st []
  | .lr _ n rd _ _ => s.cpuLoaded c rd n true false st []
  | .amo _ _ n _ _ rd _ _ => s.cpuLoaded c rd n true true st []
  | .store _ _ _ => s.coverCpu c st
  | .sc _ _ _ rd _ _ => (s.coverCpu c st).setXreg c rd 1
  | .zero _ => s.coverCpu c st
  | .flush _ => s

/-- Whether an operation reads only, for its right. -/
def CpuOp.access : CpuOp → Nat
  | .load _ _ _ _ _ => 1
  | .lr _ _ _ _ _ => 1
  | .amo _ _ _ _ _ _ _ _ => 3
  | _ => 2

def CpuOp.isFlush : CpuOp → Bool
  | .flush _ => true
  | _ => false

/-- An operation acts in the state that it finds: false where it waits. -/
def State.cpuDo (s : State) (c : Nat) (nc : Bool) (op : CpuOp) (mark : Nat) : State × Bool :=
  if cacheable op.addr && !nc then
    if op.isFlush then s.cachedOp c op
    else match s.judge (s.coreRq c) op.access op.addr op.size with
      | (s, some st) => (s.refuseOp c op st, true)
      | (s, none) => s.cachedOp c op
  else s.ncOp c op mark

/-- What holds an operation holds the accesses that it has opened, numbered from n on. -/
def State.follow (s : State) (c id n : Nat) : State :=
  let ids := (s.opens.filter (fun o => decide (n ≤ o.id) && o.who.kind == .cpu && o.who.unit == c && o.ctx.isNone)).map (·.id)
  let mine := (s.cpu c).order.filter (fun h => h.id == id)
  if ids.isEmpty || mine.isEmpty then s
  else s.updCpu c (fun x => { x with order := x.order ++ (mine.map (fun h => ids.map (fun i => { h with id := i }))).flatten })

/-- The operation acts unless a barrier or an earlier one holds it; one that does not end waits. -/
def State.attempt (s : State) (x : Stall) : State :=
  if s.barred x.cpu x.id x.nc x.op ∨ s.behind x.cpu x.id x.op then { s with stalls := s.stalls ++ [x] }
  else match s.cpuDo x.cpu x.nc x.op (s.opMark x.cpu x.id x.nc x.op) with
    | (t, true) => t.follow x.cpu x.id s.nextId
    | (t, false) => { t with stalls := t.stalls ++ [x] }

/-- The core executes: it is out of reset, and no FENCE.COMPLETE waits. -/
def State.cpuRuns (s : State) (c : Nat) : Bool := decide (c < 96) && !(s.cpu c).inReset && (s.cpu c).fenceRd.isNone

/-- A core issues an operation. -/
def State.cpuIssue (s : State) (c : Nat) (nc : Bool) (op : CpuOp) : State :=
  if !s.cpuRuns c ∨ !op.sizeOk then s
  else match op.alignTrap with
    | some t => s.trapCpu c t
    | none => (({ s with nextId := s.nextId + 1 }).markHolds c s.nextId op).attempt ⟨s.nextId, c, nc, op⟩

/-- The core's waiting operations act in program order, as far as they can. -/
def State.wakeCpu (s : State) (c : Nat) : State :=
  let mine := s.stalls.filter (fun x => x.cpu == c)
  if mine.isEmpty then s
  else
    let rest := s.stalls.filter (fun x => x.cpu != c)
    (mine.foldl State.attempt { s with stalls := rest }).tryFence c

/-- A prefetch on a miss asks for the line; it raises nothing. -/
def State.prefetch (s : State) (c a : Nat) (w : Bool) : State :=
  if !s.cpuRuns c ∨ !cacheable a then s
  else match s.judge (s.coreRq c) (if w then 2 else 1) (a / 64 * 64) 64 with
    | (s, some _) => s
    | (s, none) => if (s.line c (a / 64)).st = .inv then s.agentAsk c (a / 64) w else s

/-! ## Barrier instructions -/

/-- FENCE (R281). -/
def State.fence (s : State) (c pred succ : Nat) (tso : Bool) : State :=
  if !s.cpuRuns c then s
  else if tso then s.barrierTso c
  else s.barrier c (pred % 16) (succ % 16)

/-- FENCE.COMPLETE waits for every covered access; it also orders them (R292). -/
def State.fenceComplete (s : State) (c rd : Nat) : State :=
  if !s.cpuRuns c then s
  else ((s.barrier c 15 15).updCpu c (fun x => { x with fenceRd := some rd })).tryFence c

/-- R297: an encoding of custom-0 with funct3 0 or 1 that defines no instruction. -/
def xtzfenceBad (w : Nat) : Bool :=
  let f3 := getBits w 12 3
  decide (w % 128 = 0x0B) && decide (f3 ≤ 1) && (getBits w 15 17 != 0 || (f3 == 0 && getBits w 7 5 != 0))

def execCpuLoad (cpu addr size rd : Nat) (signed fetch nc : Bool) (s : State) : Host.Outcome State Fault Refusal :=
  answer (s.cpuIssue cpu nc (.load addr size rd signed fetch))
def execCpuStore (cpu addr size value : Nat) (nc : Bool) (s : State) : Host.Outcome State Fault Refusal :=
  answer (s.cpuIssue cpu nc (.store addr size value))
def execCpuAmo (cpu aop addr size value cmp rd : Nat) (nc aq rl : Bool) (s : State) : Host.Outcome State Fault Refusal :=
  answer (s.cpuIssue cpu nc (.amo aop addr size value cmp rd aq rl))
def execCpuLr (cpu addr size rd : Nat) (nc : Bool) (aqrl : Bool × Bool) (s : State) : Host.Outcome State Fault Refusal :=
  answer (s.cpuIssue cpu nc (.lr addr size rd aqrl.1 aqrl.2))
def execCpuSc (cpu addr size value rd : Nat) (nc : Bool) (aqrl : Bool × Bool) (s : State) : Host.Outcome State Fault Refusal :=
  answer (s.cpuIssue cpu nc (.sc addr size value rd aqrl.1 aqrl.2))
def execCboFlush (cpu addr : Nat) (s : State) : Host.Outcome State Fault Refusal := answer (s.cpuIssue cpu false (.flush addr))
/-- CBO.CLEAN acts as CBO.FLUSH (R315). -/
def execCboClean (cpu addr : Nat) (s : State) : Host.Outcome State Fault Refusal := answer (s.cpuIssue cpu false (.flush addr))
/-- CBO.INVAL acts as CBO.FLUSH (R315). -/
def execCboInval (cpu addr : Nat) (s : State) : Host.Outcome State Fault Refusal := answer (s.cpuIssue cpu false (.flush addr))
def execCboZero (cpu addr : Nat) (s : State) : Host.Outcome State Fault Refusal := answer (s.cpuIssue cpu false (.zero addr))
def execPrefetch (cpu addr : Nat) (w : Bool) (s : State) : Host.Outcome State Fault Refusal := answer (s.prefetch cpu addr w)
def execFence (cpu pred succ : Nat) (tso : Bool) (s : State) : Host.Outcome State Fault Refusal := answer (s.fence cpu pred succ tso)
/-- FENCE.ORDER: an ORDER over every access of the core (R297). -/
def execFenceOrder (cpu : Nat) (s : State) : Host.Outcome State Fault Refusal := answer (if s.cpuRuns cpu then s.barrier cpu 15 15 else s)
def execFenceComplete (cpu rd : Nat) (s : State) : Host.Outcome State Fault Refusal := answer (s.fenceComplete cpu rd)
def execXtzfenceIllegal (cpu word : Nat) (s : State) : Host.Outcome State Fault Refusal :=
  answer (if s.cpuRuns cpu ∧ xtzfenceBad word then s.trapCpu cpu trapIllegal else s)
/-- SFENCE.VMA acts on the hart's own translations alone, which lie in the hart: no device cache changes (R339). -/
def execSfenceVma (_cpu : Nat) (s : State) : Host.Outcome State Fault Refusal := answer s
/-- R296: an interrupt during FENCE.COMPLETE: the instruction does not retire, and what it covers stays to be covered. -/
def execCpuInterrupt (cpu : Nat) (s : State) : Host.Outcome State Fault Refusal :=
  answer (if (s.cpu cpu).fenceRd.isSome then s.updCpu cpu (fun x => { x with fenceRd := none }) else s)

/-! ## Rows that change an agent's line -/

def execSnpS (m : Msg) (s : State) : Host.Outcome State Fault Refusal := answer ((s.toAgent mSnpS m State.agentSnpS).wakeCpu m.agent)
def execSnpInv (m : Msg) (s : State) : Host.Outcome State Fault Refusal := answer ((s.toAgent mSnpInv m State.agentSnpInv).wakeCpu m.agent)
def execSnpRcl (m : Msg) (s : State) : Host.Outcome State Fault Refusal := answer ((s.toAgent mSnpRcl m State.agentSnpRcl).wakeCpu m.agent)
def execDataS (m : Msg) (s : State) : Host.Outcome State Fault Refusal :=
  answer ((s.toAgent mDataS m (fun s m => s.agentData m .shared)).wakeCpu m.agent)
def execDataE (m : Msg) (s : State) : Host.Outcome State Fault Refusal :=
  answer ((s.toAgent mDataE m (fun s m => s.agentData m .excl)).wakeCpu m.agent)
def execDataM (m : Msg) (s : State) : Host.Outcome State Fault Refusal := answer ((s.toAgent mDataM m State.agentDataM).wakeCpu m.agent)
def execGntM (m : Msg) (s : State) : Host.Outcome State Fault Refusal := answer ((s.toAgent mGntM m State.agentGntM).wakeCpu m.agent)
def execCmpPut (m : Msg) (s : State) : Host.Outcome State Fault Refusal := answer ((s.toAgent mCmpPut m State.agentCmpPut).wakeCpu m.agent)

end Sys2Proof.Machine
end

