-- ==== Sys2Proof/Machine/HostRegs.lean ====
section
/-! DEFINITION. Register accesses that a path of the coherent plane carries: the host's through BAR0 (R399, R300), and those that wait for a
beat (R34, R43). -/

namespace Sys2Proof.Machine

/-- The host as a requester of its own (R399). -/
def hostRq : Requester := ⟨.host, 0, 0xFE⟩

/-- A register access is performed: its status and data. -/
def State.regPerform (s : State) (rq : Requester) (op off n : Nat) (b : List Byte) : State × Nat × List Byte :=
  if op = 1 then
    let r := s.regRead rq off n
    (r.1, r.2.1, leBytes n r.2.2)
  else
    let r := s.regWrite rq off n (leNat b)
    (r.1, r.2, [])

/-- The access has been performed, and its requester takes the answer. One of the host waits for its earlier writes (R300, R398). -/
def State.regAccess (s : State) (o : OpenAccess) : State :=
  match o.got with
  | (off, b) :: _ =>
    if o.who.kind = .host ∧ s.hostBehind o then s
    else
      let r := s.regPerform o.who o.op off o.len b
      r.1.finishAccess o.id r.2.1 r.2.2
  | [] => s

/-- Register accesses that wait for a beat are performed in the order in which they were made. -/
def State.regAccesses (s : State) : State := (s.opens.filter OpenAccess.isReg).foldl State.regAccess s

/-- A BAR0 access (R399): one that is not naturally aligned, or not of 4 or 8 bytes, is refused and counted. It is performed only after the
host's earlier writes have been (R300, R398). Any other error is answered as R400 answers it at BAR2 (DEDUCED, log 71). -/
def State.bar0 (s : State) (write : Bool) (off size value : Nat) : State :=
  if !regSizeOk off size then s.barError write
  else if s.hostWritesOpen then
    let one : OpenAccess := ⟨s.nextId, hostRq, none, regBase + off, size, if write then 2 else 1, if write then .hostWrite false else .hostRead, none, none, 0,
      [(off, if write then leBytes size value else [])], 0⟩
    { s with opens := s.opens ++ [one], nextId := s.nextId + 1 }
  else if write then
    let r := s.regWrite hostRq off size value
    if r.2 = stOk then r.1 else r.1.barError true
  else
    let r := s.regPerform hostRq 1 off size []
    r.1.hostAnswered r.2.1 r.2.2

def execBar0AccessError (a : BarAccess) (s : State) : Host.Outcome State Fault Refusal :=
  answer (s.bar0 a.write a.off a.size a.value)

end Sys2Proof.Machine
end

