-- ==== Sys2Proof/Machine/Packets.lean ====
section
/-! DEFINITION. Packets of the module fabric as they are acted on (R43, R361, R362, R365 to R368): requests of other modules are performed and
answered, and responses end the accesses that await them. -/

namespace Sys2Proof.Machine

/-- The packet leaves its receive buffer: its credits return. -/
def State.takePacket (s : State) (port : Nat) (x : Packet) : State :=
  let v := s.port port
  if v.arrived.contains x then (s.setPort port { v with arrived := v.arrived.erase x }).freeUnits port x else s

def Packet.acquires (x : Packet) : Bool := bit x.flags 2
def Packet.releases (x : Packet) : Bool := bit x.flags 3
def Packet.isRequest (x : Packet) : Bool := decide (1 ≤ x.typ) && decide (x.typ ≤ 3)

/-- At the target a request counts as one of the partition it presents (R368). -/
def Packet.rq (x : Packet) : Requester := ⟨.remote, x.src, x.part⟩

/-- The access that a request of the packet opens. -/
def Packet.waiter (x : Packet) : Waiter := .packet x.src x.tag x.acquires

/-- Requests of the same source for this module that arrived at the port before one. -/
def State.packetsBefore (s : State) (port : Nat) (x : Packet) : List Packet :=
  ((s.port port).arrived.takeWhile (· != x)).filter (fun y => y.src == x.src && y.isRequest && y.dest == x.dest)

/-- Marks of the accesses of a module that are open here: ACQUIRE. -/
def State.openMarks (s : State) (module : Nat) : List Bool :=
  s.opens.filterMap (fun o => match o.waiter with
    | .packet m _ a => if m = module then some a else none
    | _ => none)

/-- R282, R287, R289: a request waits for a request of its module with an acquire mark before it; with a release mark for each one before it
(DEDUCED, log 77). -/
def State.packetHeld (s : State) (port : Nat) (x : Packet) : Bool :=
  x.isRequest && x.dest == s.selfModule &&
  ((s.packetsBefore port x).any Packet.acquires || (s.openMarks x.src).any id
    || (x.releases && (!(s.packetsBefore port x).isEmpty || !(s.openMarks x.src).isEmpty)))

/-- R31, R232: an ADD_OP waits for its line's home and for its beat of the share. -/
def State.packetBusy (s : State) (x : Packet) : Bool :=
  x.typ == pkAtomic && decide (x.op ≤ 4) && x.dest == s.selfModule && cacheable x.addr && !s.accessNow x.rq x.addr x.data.length

/-- R361, R365: a packet for another module is forwarded; one for this module, of the type that the command names, is acted on
(DEDUCED, log 40), and stays where it is while it has to wait. -/
def State.packetRow (s : State) (port typ : Nat) (x : Packet) (act : State → State) : State :=
  if x.typ ≠ typ ∨ s.packetHeld port x ∨ s.packetBusy x then s
  else
    let s := s.takePacket port x
    if x.dest ≠ s.selfModule then s.forward x
    else match s.admitRequest x with
      | (s, true) => act s
      | (s, false) => s

/-- R43: a request reaches no hub private range, host aperture or remote window of its target. -/
def Packet.inReach (x : Packet) (n : Nat) : Bool := decide (0x100_0000 ≤ x.addr) && decide (x.addr + n ≤ hostBase) && decide (0 < n)

/-- The register offset of an address. -/
def regOffset (a : Nat) : Option Nat :=
  match locate a with
  | .reg off => some off
  | _ => none

def State.packetRead (s : State) (x : Packet) : State :=
  if !x.inReach x.len ∨ x.len > 256 then s.answerPacket x.src x.tag 1 stAccessError []
  else match regOffset x.addr with
    | some off =>
      let r := s.regRead x.rq off x.len
      r.1.answerPacket x.src x.tag 1 r.2.1 (leBytes x.len r.2.2)
    | none => match s.issueRead x.rq none x.addr x.len x.waiter with
      | (s, .done st b) => s.answerPacket x.src x.tag 1 st b
      | (s, .open) => s

def State.packetWrite (s : State) (x : Packet) : State :=
  if !x.inReach x.data.length ∨ x.data.length > 256 then s.answerPacket x.src x.tag 2 stAccessError []
  else match regOffset x.addr with
    | some off =>
      let r := s.regWrite x.rq off x.data.length (leNat x.data)
      r.1.answerPacket x.src x.tag 2 r.2 []
    | none => match s.issueWrite x.rq none x.addr x.data x.waiter with
      | (s, .done st _) => s.answerPacket x.src x.tag 2 st []
      | (s, .open) => s

/-- An element has been added at an address: the count, and the flags of the adder (R251, R493). -/
def State.noteAdd (s : State) (a flags : Nat) : State :=
  match channelOf a with
  | some (ch, _) =>
    let s := s.countHub 5 (min ch 8) 1
    s.setReg .MEM_ADD_FLAGS ch (s.reg .MEM_ADD_FLAGS ch ||| BitVec.ofNat 64 flags)
  | none => s

/-- An ADD_OP of R247 on one element of HBM4 or LPDDR6: state, status, old value. -/
def State.packetAdd (s : State) (x : Packet) : State × Nat × Nat :=
  let n := addSize x.op
  if x.data.length ≠ n ∨ !cacheable x.addr ∨ x.addr % n ≠ 0 then (s, stAccessError, 0)
  else match s.judge x.rq 3 x.addr n with
    | (s, some e) => (s, e, 0)
    | (s, none) =>
      let s := (s.invalidateCopies (x.addr / 64)).clearResv (x.addr / 64)
      let g := x.addr / 32 * 32
      let r := (s.adderThrough g).readMem x.addr n .adder
      if r.2.1 then (r.1, stPoisoned, 0)
      else
        let old := leNat r.2.2
        let z := addElement x.op old (leNat x.data)
        let w := (r.1.noteAdd x.addr z.2).writeMem x.addr (leBytes n z.1)
        (w.1, if w.2 then stPoisoned else stOk, old)

/-- Bytes of an atomic operation's element: CAS carries two. -/
def Packet.atomSize (x : Packet) : Nat := if x.op = 0x19 then x.data.length / 2 else x.data.length

def State.packetAtomic (s : State) (x : Packet) : State :=
  let n := x.atomSize
  if !x.inReach n ∨ !(n == 4 || n == 8) then s.answerPacket x.src x.tag 3 stAccessError []
  else if 1 ≤ x.op ∧ x.op ≤ 4 then
    let r := s.packetAdd x
    r.1.answerPacket x.src x.tag 3 r.2.1 (leBytes n r.2.2)
  else if x.op < 0x10 ∨ x.op > 0x19 ∨ x.addr % n ≠ 0 ∨ (regOffset x.addr).isSome then s.answerPacket x.src x.tag 3 stAccessError []
  else
    let a := leNat (x.data.take n)
    let b := leNat ((x.data.drop n).take n)
    let r := if x.op = 0x19 then s.issueAtomic x.rq none x.addr n 9 b a x.waiter
      else s.issueAtomic x.rq none x.addr n (opOfPacket x.op) a 0 x.waiter
    match r with
    | (s, .done st d) => s.answerPacket x.src x.tag 3 st d
    | (s, .open) => s

/-- A response ends the access that it answers; one that none awaits is discarded (R367). -/
def State.packetResponse (s : State) (x : Packet) (status : Nat) : State :=
  match s.opens.find? (fun o => o.id == x.tag && o.module == some x.src) with
  | some o => s.finishAccess o.id status x.data
  | none => s.discardPacket

def execPacketRead (port : Nat) (p : Packet) (s : State) : Host.Outcome State Fault Refusal :=
  answer (s.packetRow port pkRead p (fun s => s.packetRead p))
def execPacketWrite (port : Nat) (p : Packet) (s : State) : Host.Outcome State Fault Refusal :=
  answer (s.packetRow port pkWrite p (fun s => s.packetWrite p))
def execPacketAtomic (port : Nat) (p : Packet) (s : State) : Host.Outcome State Fault Refusal :=
  answer (s.packetRow port pkAtomic p (fun s => s.packetAtomic p))
def execPacketData (port : Nat) (p : Packet) (s : State) : Host.Outcome State Fault Refusal :=
  answer (s.packetRow port pkData p (fun s => s.packetResponse p p.status))
def execPacketAck (port : Nat) (p : Packet) (s : State) : Host.Outcome State Fault Refusal :=
  answer (s.packetRow port pkAck p (fun s => s.packetResponse p stOk))
/-- An ERROR whose status names no error counts as ACCESS_ERROR. -/
def execPacketError (port : Nat) (p : Packet) (s : State) : Host.Outcome State Fault Refusal :=
  answer (s.packetRow port pkError p (fun s => s.packetResponse p (if p.status = stOk then stAccessError else p.status)))

end Sys2Proof.Machine
end

