-- ==== Sys2Proof/Machine/Beat.lean ====
section
/-! DEFINITION. BEAT: what a beat of the 125 MHz clock drives (R80): the time base, counts of cycles, and what waits for a beat. -/

namespace Sys2Proof.Machine

/-! ## Cycles in a beat (R380, R417, R426, R449) -/

/-- Whole cycles of a clock of some MHz in the beat that begins at ft (DEDUCED, log 52). -/
def cyclesIn (mhz ft : Nat) : Nat := (ft + 1) * mhz / 125 - ft * mhz / 125

/-- Cycles of a beat that a tensor die's clock runs, before gating. -/
def State.dieCycles (s : State) (n : Nat) : Nat :=
  let c := cyclesIn (s.dieMhz n) s.ft
  if (s.dpwr (tensorDie n)).stretch.isSome then c / 2 else c

/-- Of those, the ones that issue gating leaves (R417). -/
def State.openCycles (s : State) (n : Nat) : Nat := s.dieCycles n * s.dieDuty n / 64

/-- Engines with a running clock: those of clusters that are neither fenced nor held in reset (R33, R443). -/
def State.clockedEngines (s : State) : List Nat := (List.range 512).filter (fun e => !s.clusterFenced (clusterOfCore (e / 4)))

/-- The counted cycles of the beat (R418, R449): EN_HANG.IDLE counts them all, up to 2^20; toward a hang count those in a row during which
a condition of R449 holds (DEDUCED, log 23). -/
def State.hangBeat (s : State) (e : Nat) : State :=
  let n := e / 128
  let holds := s.hangHolds e
  let run := Store.get (fun _ => 0) s.hangRuns e
  let idle := s.fld Fld.EN_HANG_IDLE e
  let c := if s.hangCounts e && (s.dpwr (tensorDie n)).stretch.isNone then s.openCycles n else 0
  let run' := if holds then min (2 ^ 20) (run + c) else 0
  let s := if run' = run then s else { s with hangRuns := Store.set (fun _ => 0) s.hangRuns e run' }
  if c = 0 ∨ idle = 2 ^ 20 then s else s.setFld Fld.EN_HANG_IDLE e (min (2 ^ 20) (idle + c))

/-- A number of cycles of a beat that the spec leaves open. -/
def State.someCycles (s : State) (most : Nat) : State × Nat := (s.spend, s.free % (most + 1))

/-- Stalls of an engine, whose cycles within a beat are left open (R497): no operand token, no output credit. -/
def State.stallBeat (s : State) (most e : Nat) : State :=
  let a := s.someCycles most
  let b := (a.1.countEngine e 4 a.2).someCycles most
  b.1.countEngine e 5 b.2

/-- Cycle counters of a core on which a command is in execution (R496, R497). -/
def State.coreBeat (s : State) (k : Nat) : State :=
  let n := k / 32
  let c := s.dieCycles n
  let s := s.countCore k 0 0 c
  let s := (List.range 4).foldl (fun s g => s.stallBeat (s.openCycles n) (4 * k + g)) s
  let v := s.someCycles (s.openCycles n)
  let s := v.1.countCore k 0x0D 0 v.2
  let s := if s.walks.any (fun w => w.cache == k) then s.countCore k 0x13 0 c else s
  let s := s.countCore k 0x15 0 (c - s.openCycles n)
  let s := if (s.dpwr (tensorDie n)).stretch.isSome then s.countCore k 0x16 0 c else s
  if s.flag Fld.PWR_MODE_FILLER_EN then
    let f := s.someCycles c
    f.1.countCore k 0x17 0 f.2
  else s

/-- Cycle counters of a beat: cores, then clusters (16 cycles of the network clock), then the hub. -/
def State.cycleCounts (s : State) : State :=
  let s := ((List.range 128).filter s.coreBusy).foldl State.coreBeat s
  let s := (List.range 16).foldl (fun s c => s.countCluster c 0 0 16) s
  s.countHub 0 0 1

/-- COUNTER_OVF of counters that stuck (R499): a core's or cluster's event, or a trace packet of class EVENT for the hub. -/
def State.ovfEvents (s : State) : State :=
  s.ovfs.foldl (fun s o =>
    let r : EvRec := ⟨s.ft, 0x800D, o.1, o.2.1, none, 0xFFFF, 0xFFFF, 0, o.2.2⟩
    if o.1 = 3 then s.packet 3 ⟨{ r with code := 0, kind := 3 }, 3, 0x0D⟩ else s.event r) { s with ovfs := [] }

/-- A collector's MSI that waited for 125 beats (R507). -/
def State.waitingMsis (s : State) : State :=
  (s.evtMsi.filter (fun e => e.2.2)).foldl (fun s e => s.collectorMsi e.1) s

/-! ## The beat -/

/-- Beats of the start in progress: RESET_N low holds it (R541). -/
def State.bootBeat (s : State) : State :=
  if s.elec.resetLow then s
  else { s with boot := { s.boot with stageBeats := s.boot.stageBeats + 1, startBeats := s.boot.startBeats + 1 } }

/-- Cores whose operations wait. -/
def State.waitingCpus (s : State) : List Nat := (s.stalls.map (·.cpu)).eraseDups

/-- A beat: the ports send the frames of the one that ends, and the next one begins. None runs without power, or while a power cycle is requested (R461) (DESIGN CHOICE, log 9) (DESIGN CHOICE, log 51)
(DESIGN CHOICE, log 54). -/
def State.beat (s : State) : State :=
  if !s.elec.powered ∨ s.elec.cycleReq then s
  else
    let s := (List.range 16).foldl State.portFrame s
    let s := s.tickTime.bootBeat.regAccesses
    let s := s.doReverts (fun _ => true)
    let s := s.clockedEngines.foldl State.hangBeat s
    let s := s.cycleCounts
    let s := s.ovfEvents.waitingMsis
    let s := (List.range 16).foldl State.portWindows s
    let s := s.ctxIds.foldl State.restoreSaves s
    let s := s.waitingCpus.foldl State.wakeCpu s
    s.powerBeat.traceFull

def execBeat (s : State) : Host.Outcome State Fault Refusal := answer s.beat

end Sys2Proof.Machine
end

