-- ==== Sys2Proof/Machine/Dispatch.lean ====
section
/-! DEFINITION. exec: the meaning of each command, one arm per constructor. -/

namespace Sys2Proof.Machine

/-- The effect of a command on everything but the queue. -/
def exec (i : Instr) (s : State) : Host.Outcome State Fault Refusal :=
  match i with
  | .beat => Sys2Proof.Machine.execBeat s
  | .epochPulse ps => Sys2Proof.Machine.execEpochPulse ps s
  | .armEpoch rq w => Sys2Proof.Machine.execArmEpoch rq w s
  | .ftSourceWrite rq w => Sys2Proof.Machine.execFtSourceWrite rq w s
  | .ptpMessage port sub m => Sys2Proof.Machine.execPtpMessage port sub m s
  | .ref10mEdgeLoss => Sys2Proof.Machine.execRef10mEdgeLoss s
  | .ptpSyncLoss => Sys2Proof.Machine.execPtpSyncLoss s
  | .holdoverTimeout => Sys2Proof.Machine.execHoldoverTimeout s
  | .phaseErrorExceeded ps => Sys2Proof.Machine.execPhaseErrorExceeded ps s
  | .lockAchieved => Sys2Proof.Machine.execLockAchieved s
  | .sourceReturn ps => Sys2Proof.Machine.execSourceReturn ps s
  | .slewConverged ps => Sys2Proof.Machine.execSlewConverged ps s
  | .slotInstance circ slot => Sys2Proof.Machine.execSlotInstance circ slot s
  | .slipLimitReached circ => Sys2Proof.Machine.execSlipLimitReached circ s
  | .creditReturn circ => Sys2Proof.Machine.execCreditReturn circ s
  | .auditSnap rq w => Sys2Proof.Machine.execAuditSnap rq w s
  | .auditLatch => Sys2Proof.Machine.execAuditLatch s
  | .simgLoad rq => Sys2Proof.Machine.execSimgLoad rq s
  | .simgAbort rq => Sys2Proof.Machine.execSimgAbort rq s
  | .simgPropose rq => Sys2Proof.Machine.execSimgPropose rq s
  | .noticePropose port n => Sys2Proof.Machine.execNoticePropose port n s
  | .solsticeQuiesced => Sys2Proof.Machine.execSolsticeQuiesced s
  | .solsticeAcceptDeadline => Sys2Proof.Machine.execSolsticeAcceptDeadline s
  | .noticeAccept port n => Sys2Proof.Machine.execNoticeAccept port n s
  | .noticeRefuse port n => Sys2Proof.Machine.execNoticeRefuse port n s
  | .noticeCommit port n => Sys2Proof.Machine.execNoticeCommit port n s
  | .noticeAbort port n => Sys2Proof.Machine.execNoticeAbort port n s
  | .solsticeCutoff => Sys2Proof.Machine.execSolsticeCutoff s
  | .solsticeSwitch => Sys2Proof.Machine.execSolsticeSwitch s
  | .solsticePointerStore => Sys2Proof.Machine.execSolsticePointerStore s
  | .ringPoll c => Sys2Proof.Machine.execRingPoll c s
  | .commandStart c => Sys2Proof.Machine.execCommandStart c s
  | .nop c seq => Sys2Proof.Machine.execNop c seq s
  | .qcfg c seq => Sys2Proof.Machine.execQcfg c seq s
  | .qfree c seq => Sys2Proof.Machine.execQfree c seq s
  | .launch c seq => Sys2Proof.Machine.execLaunch c seq s
  | .write c seq => Sys2Proof.Machine.execWrite c seq s
  | .copy c seq => Sys2Proof.Machine.execCopy c seq s
  | .order c seq => Sys2Proof.Machine.execOrder c seq s
  | .complete c seq => Sys2Proof.Machine.execComplete c seq s
  | .wait c seq => Sys2Proof.Machine.execWait c seq s
  | .waitPoll c seq => Sys2Proof.Machine.execWaitPoll c seq s
  | .timestamp c seq => Sys2Proof.Machine.execTimestamp c seq s
  | .accessesCompleted c seq => Sys2Proof.Machine.execAccessesCompleted c seq s
  | .commandEnd c seq => Sys2Proof.Machine.execCommandEnd c seq s
  | .create rq c bits => Sys2Proof.Machine.execCreate rq c bits s
  | .preempt rq c bits => Sys2Proof.Machine.execPreempt rq c bits s
  | .engineSave e => Sys2Proof.Machine.execEngineSave e s
  | .preemptComplete c => Sys2Proof.Machine.execPreemptComplete c s
  | .saveSlotCopyOut e => Sys2Proof.Machine.execSaveSlotCopyOut e s
  | .resume rq c bits => Sys2Proof.Machine.execResume rq c bits s
  | .ctxEnd rq c bits => Sys2Proof.Machine.execCtxEnd rq c bits s
  | .fenceDrainEnd d => Sys2Proof.Machine.execFenceDrainEnd d s
  | .feederFire e => Sys2Proof.Machine.execFeederFire e s
  | .engineFire e => Sys2Proof.Machine.execEngineFire e s
  | .engineStep e => Sys2Proof.Machine.execEngineStep e s
  | .drainFire e b => Sys2Proof.Machine.execDrainFire e b s
  | .drainComplete e => Sys2Proof.Machine.execDrainComplete e s
  | .histogramDelivery k c seq => Sys2Proof.Machine.execHistogramDelivery k c seq s
  | .vectorFire k => Sys2Proof.Machine.execVectorFire k s
  | .vend k => Sys2Proof.Machine.execVend k s
  | .vadd k => Sys2Proof.Machine.execVadd k s
  | .vsub k => Sys2Proof.Machine.execVsub k s
  | .vmul k => Sys2Proof.Machine.execVmul k s
  | .vfma k => Sys2Proof.Machine.execVfma k s
  | .vmin k => Sys2Proof.Machine.execVmin k s
  | .vmax k => Sys2Proof.Machine.execVmax k s
  | .vaddsat k => Sys2Proof.Machine.execVaddsat k s
  | .vshr k => Sys2Proof.Machine.execVshr k s
  | .vcmplt k => Sys2Proof.Machine.execVcmplt k s
  | .vcmpeq k => Sys2Proof.Machine.execVcmpeq k s
  | .vsel k => Sys2Proof.Machine.execVsel k s
  | .vcvt k => Sys2Proof.Machine.execVcvt k s
  | .vrcp k => Sys2Proof.Machine.execVrcp k s
  | .vrsqrt k => Sys2Proof.Machine.execVrsqrt k s
  | .vexp2 k => Sys2Proof.Machine.execVexp2 k s
  | .vlog2 k => Sys2Proof.Machine.execVlog2 k s
  | .vredadd k => Sys2Proof.Machine.execVredadd k s
  | .vredmax k => Sys2Proof.Machine.execVredmax k s
  | .vld k => Sys2Proof.Machine.execVld k s
  | .vldb k => Sys2Proof.Machine.execVldb k s
  | .vst k => Sys2Proof.Machine.execVst k s
  | .moverFire k => Sys2Proof.Machine.execMoverFire k s
  | .tileResolve k entry f => Sys2Proof.Machine.execTileResolve k entry f s
  | .tileResolveRetry k entry f => Sys2Proof.Machine.execTileResolveRetry k entry f s
  | .tilePoisonedRead k entry f => Sys2Proof.Machine.execTilePoisonedRead k entry f s
  | .stagerFire k entry f => Sys2Proof.Machine.execStagerFire k entry f s
  | .stagerFlip k entry f => Sys2Proof.Machine.execStagerFlip k entry f s
  | .firingComplete k entry f => Sys2Proof.Machine.execFiringComplete k entry f s
  | .contributionArrive circ => Sys2Proof.Machine.execContributionArrive circ s
  | .contributionApply ep => Sys2Proof.Machine.execContributionApply ep s
  | .sramEndpointAccess rq addr op => Sys2Proof.Machine.execSramEndpointAccess rq addr op s
  | .llmScratchAccess rq addr op => Sys2Proof.Machine.execLlmScratchAccess rq addr op s
  | .saveCfgWrite rq k v => Sys2Proof.Machine.execSaveCfgWrite rq k v s
  | .cpuLoad cpu addr size rd signed fetch nc => Sys2Proof.Machine.execCpuLoad cpu addr size rd signed fetch nc s
  | .cpuStore cpu addr size value nc => Sys2Proof.Machine.execCpuStore cpu addr size value nc s
  | .cpuAmo cpu aop addr size value cmp rd nc aq rl => Sys2Proof.Machine.execCpuAmo cpu aop addr size value cmp rd nc aq rl s
  | .cpuLr cpu addr size rd nc aqrl => Sys2Proof.Machine.execCpuLr cpu addr size rd nc aqrl s
  | .cpuSc cpu addr size value rd nc aqrl => Sys2Proof.Machine.execCpuSc cpu addr size value rd nc aqrl s
  | .cboFlush cpu addr => Sys2Proof.Machine.execCboFlush cpu addr s
  | .cboClean cpu addr => Sys2Proof.Machine.execCboClean cpu addr s
  | .cboInval cpu addr => Sys2Proof.Machine.execCboInval cpu addr s
  | .cboZero cpu addr => Sys2Proof.Machine.execCboZero cpu addr s
  | .prefetch cpu addr w => Sys2Proof.Machine.execPrefetch cpu addr w s
  | .fence cpu pred succ tso => Sys2Proof.Machine.execFence cpu pred succ tso s
  | .fenceOrder cpu => Sys2Proof.Machine.execFenceOrder cpu s
  | .fenceComplete cpu rd => Sys2Proof.Machine.execFenceComplete cpu rd s
  | .xtzfenceIllegal cpu word => Sys2Proof.Machine.execXtzfenceIllegal cpu word s
  | .sfenceVma cpu => Sys2Proof.Machine.execSfenceVma cpu s
  | .rdS m => Sys2Proof.Machine.execRdS m s
  | .rdX m => Sys2Proof.Machine.execRdX m s
  | .upg m => Sys2Proof.Machine.execUpg m s
  | .ncRd m => Sys2Proof.Machine.execNcRd m s
  | .ncWr m => Sys2Proof.Machine.execNcWr m s
  | .ncWrP m => Sys2Proof.Machine.execNcWrP m s
  | .ncAtom m => Sys2Proof.Machine.execNcAtom m s
  | .zeroL m => Sys2Proof.Machine.execZeroL m s
  | .putM m => Sys2Proof.Machine.execPutM m s
  | .putO m => Sys2Proof.Machine.execPutO m s
  | .homeMemoryData line => Sys2Proof.Machine.execHomeMemoryData line s
  | .rspI m => Sys2Proof.Machine.execRspI m s
  | .rspS m => Sys2Proof.Machine.execRspS m s
  | .rspV m => Sys2Proof.Machine.execRspV m s
  | .rspOd m => Sys2Proof.Machine.execRspOd m s
  | .rspSd m => Sys2Proof.Machine.execRspSd m s
  | .rspId m => Sys2Proof.Machine.execRspId m s
  | .cmpAck m => Sys2Proof.Machine.execCmpAck m s
  | .snpS m => Sys2Proof.Machine.execSnpS m s
  | .snpInv m => Sys2Proof.Machine.execSnpInv m s
  | .snpRcl m => Sys2Proof.Machine.execSnpRcl m s
  | .dataS m => Sys2Proof.Machine.execDataS m s
  | .dataE m => Sys2Proof.Machine.execDataE m s
  | .dataM m => Sys2Proof.Machine.execDataM m s
  | .gntM m => Sys2Proof.Machine.execGntM m s
  | .cmpPut m => Sys2Proof.Machine.execCmpPut m s
  | .ncCmp m => Sys2Proof.Machine.execNcCmp m s
  | .ncData m => Sys2Proof.Machine.execNcData m s
  | .coherentShareBeat ch => Sys2Proof.Machine.execCoherentShareBeat ch s
  | .scrubRead ch => Sys2Proof.Machine.execScrubRead ch s
  | .memTempSample ch temp => Sys2Proof.Machine.execMemTempSample ch temp s
  | .refreshLevelApply ch => Sys2Proof.Machine.execRefreshLevelApply ch s
  | .refreshFloorWrite rq ch v => Sys2Proof.Machine.execRefreshFloorWrite rq ch v s
  | .llmWriteback stack => Sys2Proof.Machine.execLlmWriteback stack s
  | .wayDisable slice way uncorrectable bad => Sys2Proof.Machine.execWayDisable slice way uncorrectable bad s
  | .wayReenable rq slice mask => Sys2Proof.Machine.execWayReenable rq slice mask s
  | .llmZero rq die w => Sys2Proof.Machine.execLlmZero rq die w s
  | .tileFence rq p => Sys2Proof.Machine.execTileFence rq p s
  | .translationMiss w => Sys2Proof.Machine.execTranslationMiss w s
  | .pageWalk idx => Sys2Proof.Machine.execPageWalk idx s
  | .tlbi rq p w => Sys2Proof.Machine.execTlbi rq p w s
  | .tlbiDone p => Sys2Proof.Machine.execTlbiDone p s
  | .fabricFrame port f => Sys2Proof.Machine.execFabricFrame port f s
  | .pktAck port seq => Sys2Proof.Machine.execPktAck port seq s
  | .pktRetry port seq => Sys2Proof.Machine.execPktRetry port seq s
  | .pktRetryTimeout port => Sys2Proof.Machine.execPktRetryTimeout port s
  | .vcCredit port vc n => Sys2Proof.Machine.execVcCredit port vc n s
  | .circuitCredit port circ n => Sys2Proof.Machine.execCircuitCredit port circ n s
  | .instAck port circ inst => Sys2Proof.Machine.execInstAck port circ inst s
  | .instNak port circ inst => Sys2Proof.Machine.execInstNak port circ inst s
  | .instanceAckTimeout circ => Sys2Proof.Machine.execInstanceAckTimeout circ s
  | .packetRead port p => Sys2Proof.Machine.execPacketRead port p s
  | .packetWrite port p => Sys2Proof.Machine.execPacketWrite port p s
  | .packetAtomic port p => Sys2Proof.Machine.execPacketAtomic port p s
  | .packetData port p => Sys2Proof.Machine.execPacketData port p s
  | .packetAck port p => Sys2Proof.Machine.execPacketAck port p s
  | .packetError port p => Sys2Proof.Machine.execPacketError port p s
  | .noticeLoss port n => Sys2Proof.Machine.execNoticeLoss port n s
  | .noticeMembership port n => Sys2Proof.Machine.execNoticeMembership port n s
  | .noticeAbortCircuits port n => Sys2Proof.Machine.execNoticeAbortCircuits port n s
  | .noticeReset port n => Sys2Proof.Machine.execNoticeReset port n s
  | .noticeSend rq w => Sys2Proof.Machine.execNoticeSend rq w s
  | .retrain rq port => Sys2Proof.Machine.execRetrain rq port s
  | .portDisable rq port on => Sys2Proof.Machine.execPortDisable rq port on s
  | .trainingComplete port module nport group => Sys2Proof.Machine.execTrainingComplete port module nport group s
  | .trainingTimeout port => Sys2Proof.Machine.execTrainingTimeout port s
  | .portSilenceTimeout port => Sys2Proof.Machine.execPortSilenceTimeout port s
  | .portBadFrameLimit port => Sys2Proof.Machine.execPortBadFrameLimit port s
  | .trainingSequenceReceived port => Sys2Proof.Machine.execTrainingSequenceReceived port s
  | .coherentFlit link dir f => Sys2Proof.Machine.execCoherentFlit link dir f s
  | .flitResendTimeout link dir => Sys2Proof.Machine.execFlitResendTimeout link dir s
  | .tensorInstanceReceive link dir circ inst ok => Sys2Proof.Machine.execTensorInstanceReceive link dir circ inst ok s
  | .linkInstAck link dir circ inst => Sys2Proof.Machine.execLinkInstAck link dir circ inst s
  | .linkInstNak link dir circ inst => Sys2Proof.Machine.execLinkInstNak link dir circ inst s
  | .linkSilenceTimeout link dir => Sys2Proof.Machine.execLinkSilenceTimeout link dir s
  | .linkRetryLimit link dir => Sys2Proof.Machine.execLinkRetryLimit link dir s
  | .linkResetIndication link => Sys2Proof.Machine.execLinkResetIndication link s
  | .clockFailure which => Sys2Proof.Machine.execClockFailure which s
  | .hbmSelfRefreshConfirm n => Sys2Proof.Machine.execHbmSelfRefreshConfirm n s
  | .bar2Read off n => Sys2Proof.Machine.execBar2Read off n s
  | .bar2Write off data ep => Sys2Proof.Machine.execBar2Write off data ep s
  | .bar0AccessError a => Sys2Proof.Machine.execBar0AccessError a s
  | .hostBar2Write rq w => Sys2Proof.Machine.execHostBar2Write rq w s
  | .hostLinkDown => Sys2Proof.Machine.execHostLinkDown s
  | .perst => Sys2Proof.Machine.execPerst s
  | .flr => Sys2Proof.Machine.execFlr s
  | .bmeClear => Sys2Proof.Machine.execBmeClear s
  | .d3Entry => Sys2Proof.Machine.execD3Entry s
  | .detach rq => Sys2Proof.Machine.execDetach rq s
  | .attach rq => Sys2Proof.Machine.execAttach rq s
  | .hostCompletion id code data => Sys2Proof.Machine.execHostCompletion id code data s
  | .hostCompletionTimeout id => Sys2Proof.Machine.execHostCompletionTimeout id s
  | .ethRxFrame port f => Sys2Proof.Machine.execEthRxFrame port f s
  | .rdmaWrite port qp tag rkey va data => Sys2Proof.Machine.execRdmaWrite port qp tag rkey va data s
  | .rdmaRead port qp tag rkey va n => Sys2Proof.Machine.execRdmaRead port qp tag rkey va n s
  | .rdmaAtomic port qp tag rkey va cas x cmp => Sys2Proof.Machine.execRdmaAtomic port qp tag rkey va cas x cmp s
  | .congestionNotification port qp => Sys2Proof.Machine.execCongestionNotification port qp s
  | .rdmaAck circ => Sys2Proof.Machine.execRdmaAck circ s
  | .qpRetryExhausted circ => Sys2Proof.Machine.execQpRetryExhausted circ s
  | .nvmeofCompletion addr data ok => Sys2Proof.Machine.execNvmeofCompletion addr data ok s
  | .rwinCtlWrite rq win w => Sys2Proof.Machine.execRwinCtlWrite rq win w s
  | .txqTailWrite rq port q tail => Sys2Proof.Machine.execTxqTailWrite rq port q tail s
  | .capLoopSample m mv => Sys2Proof.Machine.execCapLoopSample m mv s
  | .activityUpdate ests fixed => Sys2Proof.Machine.execActivityUpdate ests fixed s
  | .thermalSample ts => Sys2Proof.Machine.execThermalSample ts s
  | .thermalTrip => Sys2Proof.Machine.execThermalTrip s
  | .coolantSample t => Sys2Proof.Machine.execCoolantSample t s
  | .boostUpdate => Sys2Proof.Machine.execBoostUpdate s
  | .droopDetect d => Sys2Proof.Machine.execDroopDetect d s
  | .droopRecover d => Sys2Proof.Machine.execDroopRecover d s
  | .droopLong d => Sys2Proof.Machine.execDroopLong d s
  | .inputRangeTimeout => Sys2Proof.Machine.execInputRangeTimeout s
  | .capWrite rq v => Sys2Proof.Machine.execCapWrite rq v s
  | .pldmTrayCap v => Sys2Proof.Machine.execPldmTrayCap v s
  | .capApply => Sys2Proof.Machine.execCapApply s
  | .powerModeWrite rq w => Sys2Proof.Machine.execPowerModeWrite rq w s
  | .powerModeApply => Sys2Proof.Machine.execPowerModeApply s
  | .rampWrite rq filler w => Sys2Proof.Machine.execRampWrite rq filler w s
  | .powerModelClear rq => Sys2Proof.Machine.execPowerModelClear rq s
  | .engineHang e => Sys2Proof.Machine.execEngineHang e s
  | .hangReset rq e => Sys2Proof.Machine.execHangReset rq e s
  | .replay rq p => Sys2Proof.Machine.execReplay rq p s
  | .suspectReplayComplete p => Sys2Proof.Machine.execSuspectReplayComplete p s
  | .partitionReset rq p => Sys2Proof.Machine.execPartitionReset rq p s
  | .contextEndTimeout c => Sys2Proof.Machine.execContextEndTimeout c s
  | .recoveryTimeout p => Sys2Proof.Machine.execRecoveryTimeout p s
  | .partitionResetTimeout p => Sys2Proof.Machine.execPartitionResetTimeout p s
  | .chipResetTimeout => Sys2Proof.Machine.execChipResetTimeout s
  | .chipResetArm rq => Sys2Proof.Machine.execChipResetArm rq s
  | .chipResetArmExpiry => Sys2Proof.Machine.execChipResetArmExpiry s
  | .chipResetGo rq => Sys2Proof.Machine.execChipResetGo rq s
  | .resetNAssert => Sys2Proof.Machine.execResetNAssert s
  | .resetNRelease => Sys2Proof.Machine.execResetNRelease s
  | .powerGood => Sys2Proof.Machine.execPowerGood s
  | .inputRise => Sys2Proof.Machine.execInputRise s
  | .inputUndervoltage => Sys2Proof.Machine.execInputUndervoltage s
  | .inputOvervoltage => Sys2Proof.Machine.execInputOvervoltage s
  | .regulatorFail => Sys2Proof.Machine.execRegulatorFail s
  | .stageRom ref => Sys2Proof.Machine.execStageRom ref s
  | .stageHold ok => Sys2Proof.Machine.execStageHold ok s
  | .stageFirmware => Sys2Proof.Machine.execStageFirmware s
  | .stageImage => Sys2Proof.Machine.execStageImage s
  | .stageLinks fails dies => Sys2Proof.Machine.execStageLinks fails dies s
  | .stageValidate => Sys2Proof.Machine.execStageValidate s
  | .stageMemory ok => Sys2Proof.Machine.execStageMemory ok s
  | .stagePorts eth => Sys2Proof.Machine.execStagePorts eth s
  | .stageUp => Sys2Proof.Machine.execStageUp s
  | .stageTimeout => Sys2Proof.Machine.execStageTimeout s
  | .fetchSourceTimeout => Sys2Proof.Machine.execFetchSourceTimeout s
  | .pldmComponent comp data => Sys2Proof.Machine.execPldmComponent comp data s
  | .fetchFirmware rq len => Sys2Proof.Machine.execFetchFirmware rq len s
  | .fetchImage rq len => Sys2Proof.Machine.execFetchImage rq len s
  | .fetchNextImage rq len => Sys2Proof.Machine.execFetchNextImage rq len s
  | .leaveWinter rq => Sys2Proof.Machine.execLeaveWinter rq s
  | .otpProgram rq w => Sys2Proof.Machine.execOtpProgram rq w s
  | .spdmNegotiate what version => Sys2Proof.Machine.execSpdmNegotiate what version s
  | .spdmChallenge nonce => Sys2Proof.Machine.execSpdmChallenge nonce s
  | .spdmGetMeasurements idx nonce signed => Sys2Proof.Machine.execSpdmGetMeasurements idx nonce signed s
  | .pldmRequest what => Sys2Proof.Machine.execPldmRequest what s
  | .cntSelWrite rq kind unit idx w => Sys2Proof.Machine.execCntSelWrite rq kind unit idx w s
  | .hubCntSelApply => Sys2Proof.Machine.execHubCntSelApply s
  | .sampleTick => Sys2Proof.Machine.execSampleTick s
  | .dump rq w => Sys2Proof.Machine.execDump rq w s
  | .registerReadTimeout off => Sys2Proof.Machine.execRegisterReadTimeout off s
  | .traceFrameFlush => Sys2Proof.Machine.execTraceFrameFlush s
  | .traceLinkDown => Sys2Proof.Machine.execTraceLinkDown s
  | .registerWrite rq off size value => Sys2Proof.Machine.execRegisterWrite rq off size value s
  | .hostLinkUp speed width => Sys2Proof.Machine.execHostLinkUp speed width s
  | .ethLinkUp port => Sys2Proof.Machine.execEthLinkUp port s
  | .ethLinkDown port => Sys2Proof.Machine.execEthLinkDown port s
  | .traceLinkUp => Sys2Proof.Machine.execTraceLinkUp s
  | .inputBelow10v => Sys2Proof.Machine.execInputBelow10v s
  | .otpProgrammingComplete ok => Sys2Proof.Machine.execOtpProgrammingComplete ok s
  | .simgLoadComplete => Sys2Proof.Machine.execSimgLoadComplete s
  | .fetchComplete => Sys2Proof.Machine.execFetchComplete s
  | .dumpComplete => Sys2Proof.Machine.execDumpComplete s
  | .cpuInterrupt cpu => Sys2Proof.Machine.execCpuInterrupt cpu s

end Sys2Proof.Machine
end

