-- ==== Sys2Proof/Safety.lean ====
section
/-! DEFINITION. What claims about a run are stated in: the canonical form of memory, the status fields that show a unit's state, and
what a command leaves alone. -/

namespace Sys2Proof.Machine

/-- Memory and its check bytes stand in their one canonical form: addresses strictly rising, no entry equal to what an unlisted address
reads as. -/
def Memory.wf (s : State) : Bool := Store.wf s.blank s.mem && Store.wf s.blankSyn s.chk

/-- The status fields that mirror a unit's state show it: HUB_CTX_STATUS.STATE of each context (R195) and TRC_STATUS.OCCUPANCY
(R514). -/
def StatusShown (s : State) : Prop :=
  (∀ c, c < 256 → s.fld Fld.HUB_CTX_STATUS_STATE c = (s.ctx c).st.code)
  ∧ s.fld Fld.TRC_STATUS_OCCUPANCY 0 = s.trc.units % 2 ^ Fld.TRC_STATUS_OCCUPANCY.width

/-- From s to t nothing but registers changed: memory, queues, contexts and every other unit stand as they stood. -/
def RegistersOnly (s t : State) : Prop := t = { s with regs := t.regs }

/-- Every register but those named, and the two that mirror a unit's state, reads as before. -/
def OtherRegistersKept (l : List Reg) (s t : State) : Prop :=
  ∀ r i, i < 2 ^ 20 → r ∉ l → r ≠ .HUB_CTX_STATUS → r ≠ .TRC_STATUS → t.reg r i = s.reg r i

/-- A register block takes a requester's write of a register: the block exists, the requester may write it (R34), and no fence or reset
holds it (R531). -/
def State.acceptsWrite (s : State) (rq : Requester) (r : Reg) (i : Nat) : Bool :=
  (blockAt (Reg.offset r i)).isSome && s.regGranted rq (Reg.offset r i) true && !s.regFenced (Reg.offset r i)

/-- Every byte of memory and every check byte reads as before. -/
def MemoryKept (s t : State) : Prop := (∀ a, t.byte a = s.byte a) ∧ ∀ g, t.syn g = s.syn g

end Sys2Proof.Machine
end

