-- ==== Sys2Proof/Certificates/Slice0/Obligations.lean ====
section
/-! DEFINITION. The statements about the block, for the provers. -/

open Sys2Proof Sys2Proof.Machine

/-- R81 to R86: an epoch pulse that ARM_EPOCH armed sets the beat count to HUB_FT_LOAD and the time base to ACQUIRING; one more than one
beat from its place sets EPOCH_MISS; a lost source takes LOCKED to HOLDOVER with REF_LOST; HOLDOVER that lasts 1,250,000 beats, and an
error above 64 ns, take the time base to UNLOCKED; a run of 125,000 good beats takes ACQUIRING to LOCKED; a source that returns within 64
ns takes HOLDOVER to LOCKED; and while a partition runs an error slewed to within 64 ns of a source that is present takes UNLOCKED to
ACQUIRING. -/
def Obligations.TimeBaseEventsMoveTheState : Prop :=
  (∀ (s : State) (ps : Int), s.flag Fld.HUB_FT_CTL_ARM_EPOCH = true → s.fld Fld.HUB_FT_CTL_SOURCE = 1 → s.anyPartRuns = false → ∃ t, exec
    (.epochPulse ps) s = .next t ∧ t.ft = s.fld Fld.HUB_FT_LOAD_VALUE ∧ t.tbState = tbAcquiring ∧ t.flag Fld.HUB_FT_CTL_ARM_EPOCH = false
    ∧ t.flag Fld.HUB_FT_STATUS_STEPPED = true ∧ t.time.phase = 0 ∧ MemoryKept s t)
  ∧ (∀ (s : State) (ps : Int) (l : Nat), s.flag Fld.HUB_FT_CTL_ARM_EPOCH = false → s.fld Fld.HUB_FT_CTL_SOURCE = 1 → s.time.loaded = some
    l → 1 < (((s.ft : Int) - l) % epochBeats).toNat → (((s.ft : Int) - l) % epochBeats).toNat < epochBeats - 1 → exec (.epochPulse ps) s =
    .next (s.raise Fld.HUB_FT_STATUS_EPOCH_MISS).mirror)
  ∧ (∀ (s : State), s.fld Fld.HUB_FT_CTL_SOURCE = 1 → s.tbState = tbLocked → ∃ t, exec .ref10mEdgeLoss s = .next t ∧ t.tbState =
    tbHoldover ∧ t.flag Fld.HUB_FT_STATUS_REF_LOST = true ∧ t.time.since = s.ft ∧ t.ft = s.ft ∧ MemoryKept s t)
  ∧ (∀ (s : State), s.fld Fld.HUB_FT_CTL_SOURCE = 2 → s.tbState = tbLocked → ∃ t, exec .ptpSyncLoss s = .next t ∧ t.tbState = tbHoldover ∧
    t.flag Fld.HUB_FT_STATUS_REF_LOST = true ∧ t.time.since = s.ft ∧ t.ft = s.ft ∧ MemoryKept s t)
  ∧ (∀ (s : State), s.tbState = tbHoldover → s.time.since + 1250000 ≤ s.ft → s.anyPartRuns = true → ∃ t, exec .holdoverTimeout s = .next t
    ∧ t.tbState = tbUnlocked ∧ t.ft = s.ft ∧ MemoryKept s t)
  ∧ (∀ (s : State) (ps : Int), 64000 < ps.natAbs → s.tbState ≠ tbUnlocked → s.anyPartRuns = true → ∃ t, exec (.phaseErrorExceeded ps) s =
    .next t ∧ t.tbState = tbUnlocked ∧ t.time.phase = ps * 25 ∧ t.ft = s.ft ∧ MemoryKept s t)
  ∧ (∀ (s : State), s.tbState = tbAcquiring → 125000 ≤ s.time.good → exec .lockAchieved s = .next (s.setFld Fld.HUB_FT_STATUS_STATE 0
    tbLocked).mirror)
  ∧ (∀ (s : State) (ps : Int), s.tbState = tbHoldover → ps.natAbs ≤ 64000 → ∃ t, exec (.sourceReturn ps) s = .next t ∧ t.tbState =
    tbLocked ∧ t.time.phase = ps * 25 ∧ t.time.present = true ∧ t.ft = s.ft ∧ MemoryKept s t)
  ∧ (∀ (s : State) (ps : Int), s.tbState = tbUnlocked → s.anyPartRuns = true → s.fld Fld.HUB_FT_CTL_SOURCE ≠ 0 → s.time.present = true →
    ps.natAbs ≤ 64000 → ∃ t, exec (.slewConverged ps) s = .next t ∧ t.tbState = tbAcquiring ∧ t.fld Fld.HUB_FT_STATUS_SOURCE_IN_USE =
    s.fld Fld.HUB_FT_CTL_SOURCE ∧ t.ft = s.ft ∧ MemoryKept s t)
  ∧ (∀ (s : State) (ps : Int), exec (.epochPulse ps) s = .next ((s.epochPulse ps)).mirror)
  ∧ (∀ (s : State), exec .ref10mEdgeLoss s = .next ((if s.fld Fld.HUB_FT_CTL_SOURCE = 1 then s.sourceLost else s)).mirror)
  ∧ (∀ (s : State), exec .ptpSyncLoss s = .next ((if s.fld Fld.HUB_FT_CTL_SOURCE = 2 then s.sourceLost else s)).mirror)
  ∧ (∀ (s : State), exec .holdoverTimeout s = .next (s.holdoverTimeout).mirror)
  ∧ (∀ (s : State) (ps : Int), exec (.phaseErrorExceeded ps) s = .next ((s.measure (ps * 25))).mirror)
  ∧ (∀ (s : State), exec .lockAchieved s = .next (s.lockAchieved).mirror)
  ∧ (∀ (s : State) (ps : Int), exec (.sourceReturn ps) s = .next ((s.sourceReturn ps)).mirror)
  ∧ (∀ (s : State) (ps : Int), exec (.slewConverged ps) s = .next ((s.slewConverged ps)).mirror)

/-- R85: while a partition runs, a write of HUB_FT_CTL that sets ARM_EPOCH is refused as a whole; with no partition running it arms, and
one that changes SOURCE takes the time base to UNLOCKED with the new source in use. R82: a Sync of the selected PTP port is measured with
the path delay held and followed by a Delay_Req; a two-step Sync waits for its Follow_Up; a Delay_Resp gives the path delay, half the sum
of the two ways. -/
def Obligations.TimeSourceWrites : Prop :=
  (∀ (s : State) (rq : Requester) (w : Nat), s.acceptsWrite rq .HUB_FT_CTL 0 = true → s.anyPartRuns = true → exec (.armEpoch rq w) s =
    .next (s).mirror)
  ∧ (∀ (s : State) (rq : Requester) (w : Nat), s.acceptsWrite rq .HUB_FT_CTL 0 = true → s.anyPartRuns = false → ∃ t, exec (.armEpoch rq w)
    s = .next t ∧ t.flag Fld.HUB_FT_CTL_ARM_EPOCH = true ∧ MemoryKept s t)
  ∧ (∀ (s : State) (rq : Requester) (w : Nat), s.acceptsWrite rq .HUB_FT_CTL 0 = true → s.anyPartRuns = false → getBits w 4 2 ≠ s.fld
    Fld.HUB_FT_CTL_SOURCE → s.time.present = false → ∃ t, exec (.ftSourceWrite rq w) s = .next t ∧ t.tbState = tbUnlocked ∧ t.fld
    Fld.HUB_FT_CTL_SOURCE = getBits w 4 2 ∧ t.fld Fld.HUB_FT_STATUS_SOURCE_IN_USE = getBits w 4 2 ∧ MemoryKept s t)
  ∧ (∀ (s : State) (port sub ns : Nat) (d : Int), s.fld Fld.HUB_FT_CTL_SOURCE = 2 → s.fld Fld.HUB_FT_CTL_ETH_PORT = port →
    s.time.ptp.delay = some d → exec (.ptpMessage port sub (.sync ns)) s = .next (((s.setPtp
    { s.time.ptp with waiting := none, last := some ((ns : Int) * 1000, s.ptpStamp sub), asked := some (s.time.ptp.seq, s.ptpStamp 0), seq := (s.time.ptp.seq + 1) % 2 ^ 16 }).emit
    (.ptpDelayReq port s.time.ptp.seq)).sourceReturn (s.ptpStamp sub - (ns : Int) * 1000 - d)).mirror)
  ∧ (∀ (s : State) (port sub q : Nat), s.fld Fld.HUB_FT_CTL_SOURCE = 2 → s.fld Fld.HUB_FT_CTL_ETH_PORT = port → exec (.ptpMessage port sub
    (.syncTwoStep q)) s = .next (s.setPtp { s.time.ptp with waiting := some (q, s.ptpStamp sub) }).mirror)
  ∧ (∀ (s : State) (port sub q t : Nat) (t1 t2 t3 : Int), s.fld Fld.HUB_FT_CTL_SOURCE = 2 → s.fld Fld.HUB_FT_CTL_ETH_PORT = port →
    s.time.ptp.asked = some (q, t3) → s.time.ptp.last = some (t1, t2) → exec (.ptpMessage port sub (.delayResp q t)) s = .next (s.setPtp
    { s.time.ptp with asked := none, delay := some (((t2 - t1) + ((t : Int) * 1000 - t3)) / 2) }).mirror)
  ∧ (∀ (s : State) (rq : Requester) (w : Nat), exec (.armEpoch rq w) s = .next ((s.gated rq .HUB_FT_CTL 0 (fun s => s.writeFtCtlWord (w
    ||| 2) (2 ^ 64 - 1)))).mirror)
  ∧ (∀ (s : State) (rq : Requester) (w : Nat), exec (.ftSourceWrite rq w) s = .next ((s.gated rq .HUB_FT_CTL 0 (fun s => s.writeFtCtlWord
    w (2 ^ 64 - 1)))).mirror)
  ∧ (∀ (s : State) (port sub : Nat) (m : PtpMsg), exec (.ptpMessage port sub m) s = .next ((s.ptpMessage port sub m)).mirror)

/-- R97: hop h of a circuit decides its instance once, at its first beat, and not again; an ingress hop of a fabric port transfers nothing
itself, and a transit forwards at its egress. R98: the rows apply in their order: fenced; to be sent again on a die link (R387); a port of
the path down; fabric time not held; traced losslessly or held; no credit; and else a token is launched or crosses. -/
def Obligations.SlotInstances : Prop :=
  (∀ (s : State) (c h : Nat) (ce : CircEntry) (e : SlotEntry), s.circEntry c = some ce → (s.hops c)[h]? = some e → s.ft % 2 ^ ce.k =
    e.start → (s.circ c).decided.contains (h, s.ft) = false → ce.src / 4096 ≠ 5 → exec (.slotInstance c h) s = .next ((s.setCirc c
    { s.circ c with decided := (h, s.ft) :: (s.circ c).decided.filter (fun d => d.1 != h) }).decideInstance ce e h (s.ft / 2 ^
    ce.k)).mirror)
  ∧ (∀ (s : State) (c h : Nat) (ce : CircEntry) (e : SlotEntry), s.circEntry c = some ce → (s.hops c)[h + 1]? = some e → s.ft % 2 ^ ce.k =
    e.start → (s.circ c).decided.contains (h + 1, s.ft) = false → ce.src / 4096 = 5 → ce.dst / 4096 ≠ 5 → exec (.slotInstance c (h + 1)) s
    = .next ((s.setCirc c { s.circ c with decided := (h + 1, s.ft) :: (s.circ c).decided.filter (fun d => d.1 != h + 1) }).decideInstance
    ce e (h + 1) (s.ft / 2 ^ ce.k)).mirror)
  ∧ (∀ (s : State) (c h : Nat) (ce : CircEntry) (e : SlotEntry), s.circEntry c = some ce → (s.hops c)[h + 1]? = some e → s.ft % 2 ^ ce.k =
    e.start → (s.circ c).decided.contains (h + 1, s.ft) = false → ce.src / 4096 = 5 → ce.dst / 4096 = 5 → exec (.slotInstance c (h + 1)) s
    = .next ((s.setCirc c { s.circ c with decided := (h + 1, s.ft) :: (s.circ c).decided.filter (fun d => d.1 != h + 1) }).transitEgress
    ce e (s.ft / 2 ^ ce.k)).mirror)
  ∧ (∀ (s : State) (c : Nat) (ce : CircEntry) (e : SlotEntry), s.circEntry c = some ce → (s.hops c)[0]? = some e → s.ft % 2 ^ ce.k =
    e.start → (s.circ c).decided.contains (0, s.ft) = false → ce.src / 4096 = 5 → exec (.slotInstance c 0) s = .next (s.setCirc c
    { s.circ c with decided := (0, s.ft) :: (s.circ c).decided.filter (fun d => d.1 != 0) }).mirror)
  ∧ (∀ (s : State) (c h : Nat) (ce : CircEntry) (e : SlotEntry), s.circEntry c = some ce → (s.hops c)[h]? = some e → s.ft % 2 ^ ce.k ≠
    e.start ∨ (s.circ c).decided.contains (h, s.ft) = true → exec (.slotInstance c h) s = .next (s).mirror)
  ∧ (∀ (s : State) (c h : Nat), s.circEntry c = none ∨ (s.hops c)[h]? = none → exec (.slotInstance c h) s = .next (s).mirror)
  ∧ (∀ (s : State) (ce : CircEntry) (e : SlotEntry) (h n : Nat), (s.epFenced ce.dst || (s.hops ce.id).any s.resFenced) = true →
    s.decideInstance ce e h n = s.fencedInstance ce e h n)
  ∧ (∀ (s : State) (ce : CircEntry) (e : SlotEntry) (h n : Nat), (s.epFenced ce.dst || (s.hops ce.id).any s.resFenced) = false →
    s.linkAgain ce.id (some e) = true → s.decideInstance ce e h n = s.linkResend ce.id n e)
  ∧ (∀ (s : State) (ce : CircEntry) (e : SlotEntry) (h n : Nat) (r : CmdRef), (s.epFenced ce.dst || (s.hops ce.id).any s.resFenced) =
    false → s.linkAgain ce.id (some e) = false → s.pathDown ce.id = true → s.concerned ce.id (s.tokenAt ce h) = some r → s.decideInstance
    ce e h n = s.failCmd r stDead)
  ∧ (∀ (s : State) (ce : CircEntry) (e : SlotEntry) (h n : Nat), (s.epFenced ce.dst || (s.hops ce.id).any s.resFenced) = false →
    s.linkAgain ce.id (some e) = false → s.pathDown ce.id = false → (e.kind = 7 ∧ s.timeHolds = true) ∨ s.slotTraced e = true ∨
    s.producerHeld ce = true → e.kind = 7 → s.timeHolds = true → s.slotTraced e = false → s.decideInstance ce e h n = s.idle ce e n
    (s.slotTraced e))
  ∧ (∀ (s : State) (ce : CircEntry) (e : SlotEntry) (n : Nat), (s.epFenced ce.dst || (s.hops ce.id).any s.resFenced) = false → s.linkAgain
    ce.id (some e) = false → s.pathDown ce.id = false → (e.kind == 7 && s.timeHolds) = false → s.slotTraced e = false → s.producerHeld ce
    = false → s.hasCredit ce = false → s.decideInstance ce e 0 n = s.moveToken ce e 0 n none true false)
  ∧ (∀ (s : State) (ce : CircEntry) (e : SlotEntry) (n : Nat), (s.epFenced ce.dst || (s.hops ce.id).any s.resFenced) = false → s.linkAgain
    ce.id (some e) = false → s.pathDown ce.id = false → (e.kind == 7 && s.timeHolds) = false → s.slotTraced e = false → s.producerHeld ce
    = false → s.hasCredit ce = true → s.decideInstance ce e 0 n = if ce.src / 4096 = 1 then s.moveToken ce e 0 n (s.tokenAt ce 0) true
    false else s.feedHop ce e n false)
  ∧ (∀ (s : State) (circ slot : Nat), exec (.slotInstance circ slot) s = .next ((s.slotInstance circ slot)).mirror)

/-- R102: a run of slips that has come to SLIP_LIMIT ends every command pending on the circuit with SLIP_LIMIT, recorded in HUB_SLIP_MAX
and, where its LAST slot is a cluster switch's, as an event of the cluster (that each of several pending commands ends is the model's
choice, assumption log 72). R96: a returned credit joins the free ones of a circuit inside the module, and counts from the next beat
(R97); from a fabric circuit's consumer segment it leaves as CIRCUIT_CREDIT (R358). R106, R107: a write of HUB_AUDIT_SNAP adds its
requests; at a beat that is a multiple of 64 every request of a partition in force is latched, and the request bits clear. -/
def Obligations.SlipsCreditsAudits : Prop :=
  (∀ (s u : State) (c : Nat) (ce : CircEntry) (e : SlotEntry), s.circEntry c = some ce → ce.slipLimit ≠ 0 → ce.slipLimit ≤ (s.circ c).run
    → (s.circ c).pend.isEmpty = false → s.lastSlot c = some e → (if ce.part < 16 then ((s.setCirc c { s.circ c with run := 0 }).raise
    Fld.HUB_SLIP_MAX_LIMIT_HIT ce.part).setFld Fld.HUB_SLIP_MAX_CIRCUIT ce.part c else s.setCirc c { s.circ c with run := 0 }) = u → exec
    (.slipLimitReached c) s = .next ((s.circ c).pend.foldl (fun u r => u.failCmd r stSlipLimit) (if e.kind = 1 then u.event ⟨u.ft, 0x800E,
    2, e.res, (s.circ c).pend.head?.map (·.ctx), 0xFFFF, 0xFFFF, ((s.circ c).pend.head?.map (·.seq)).getD 0, c⟩ else u)).mirror)
  ∧ (∀ (s : State) (c : Nat), ∀ ce, s.circEntry c = some ce → ce.slipLimit = 0 ∨ (s.circ c).run < ce.slipLimit ∨ (s.circ c).pend.isEmpty =
    true → exec (.slipLimitReached c) s = .next (s).mirror)
  ∧ (∀ (s : State) (c : Nat) (ce : CircEntry), s.circEntry c = some ce → ce.src / 4096 ≠ 5 → (s.circ c).returning ≠ 0 → exec
    (.creditReturn c) s = .next (s.setCirc c ({ s.circ c with returning := (s.circ c).returning - 1 }.addCredits s.ft 1)).mirror)
  ∧ (∀ (s : State) (c : Nat) (ce : CircEntry), s.circEntry c = some ce → ce.src / 4096 = 5 → ce.dst / 4096 ≠ 5 → 0 < (s.circ c).returning
    → exec (.creditReturn c) s = .next ((s.setCirc c
    { s.circ c with returning := (s.circ c).returning - 1, notes := (s.circ c).notes.drop 1 }).pushMsg (ce.src % 4096) ⟨4, 1, c, (s.circ
    c).notes.head?.getD (0, 0)⟩).mirror)
  ∧ (∀ (s : State) (c : Nat) (ce : CircEntry), s.circEntry c = some ce → ce.src / 4096 = 5 → ce.dst / 4096 = 1 → (s.circ c).returning = 0
    → s.occupied c < (s.circ c).held → exec (.creditReturn c) s = .next ((s.setCirc c
    { s.circ c with held := (s.circ c).held - 1 }).pushMsg (ce.src % 4096) ⟨4, 1, c, (0, 0)⟩).mirror)
  ∧ (∀ (s : State) (c : Nat), (s.circ c).returning = 0 → (s.circ c).held ≤ s.occupied c → exec (.creditReturn c) s = .next (s).mirror)
  ∧ (∀ (s : State) (rq : Requester) (w : Nat), s.acceptsWrite rq .HUB_AUDIT_SNAP 0 = true → exec (.auditSnap rq w) s = .next (s.setFld
    Fld.HUB_AUDIT_SNAP_SNAP 0 (s.fld Fld.HUB_AUDIT_SNAP_SNAP ||| w % 2 ^ 16)).mirror)
  ∧ (∀ (s : State), s.ft % 64 = 0 → exec .auditLatch s = .next ((((bitsOf 16 (s.fld Fld.HUB_AUDIT_SNAP_SNAP)).filter (fun p => (partOf
    s.tables p).isSome)).foldl State.auditLatch1 s).setFld Fld.HUB_AUDIT_SNAP_SNAP 0 0).mirror)
  ∧ (∀ (s : State), s.ft % 64 ≠ 0 → exec .auditLatch s = .next (s).mirror)
  ∧ (∀ (s : State) (circ : Nat), exec (.slipLimitReached circ) s = .next ((s.slipLimit circ)).mirror)
  ∧ (∀ (s : State) (circ : Nat), exec (.creditReturn circ) s = .next ((s.creditReturn circ)).mirror)
  ∧ (∀ (s : State) (rq : Requester) (w : Nat), exec (.auditSnap rq w) s = .next ((s.gated rq .HUB_AUDIT_SNAP 0 (fun s => s.auditRequest
    w))).mirror)
  ∧ (∀ (s : State), exec .auditLatch s = .next (s.auditLatch).mirror)

/-- R64, R75: LOAD of a module that is up, with no load or Solstice in progress and no next image pending, raises LOAD, takes PHASE to 1
and begins to read the source; otherwise RESULT is BUSY. R70, R71, R74: ABORT at PHASE 1 or 2 discards the copy, at PHASE 3 or 4 it ends
the Solstice with the copy still staged. A proposal that passes its checks begins a Solstice at TARGET; one that fails leaves its code in
RESULT. A load whose source has ended torn is TORN. -/
def Obligations.ImageLoads : Prop :=
  (∀ (s : State) (rq : Requester), s.acceptsWrite rq .HUB_SIMG_CTL 0 = true → s.isUp = true → s.phase = 0 → s.flag
    Fld.HUB_SIMG_STATUS_NEXT_PENDING = false → exec (.simgLoad rq) s = .next ((((s.raise Fld.HUB_SIMG_CTL_LOAD).setPhaseOf 1).setLoad true
    (some ⟨0, s.fld Fld.HUB_SIMG_SRC_ADDR * 64, s.fld Fld.HUB_SIMG_CTL_LENGTH, [], false⟩)).loadReads true (2 ^ 24 + 1)).mirror)
  ∧ (∀ (s : State) (rq : Requester), s.acceptsWrite rq .HUB_SIMG_CTL 0 = true → s.isUp = true → 1 ≤ s.phase → exec (.simgLoad rq) s =
    .next (s.simgResult 0x15).mirror)
  ∧ (∀ (s : State) (rq : Requester), s.acceptsWrite rq .HUB_SIMG_CTL 0 = true → s.phase = 2 → exec (.simgAbort rq) s = .next (s.loadEnds
    0x1A).mirror)
  ∧ (∀ (s : State) (rq : Requester), s.acceptsWrite rq .HUB_SIMG_CTL 0 = true → s.phase = 4 → exec (.simgAbort rq) s = .next
    (s.solsticeEnds 0x1A).mirror)
  ∧ (∀ (s : State) (rq : Requester), s.acceptsWrite rq .HUB_SIMG_CTL 0 = true → s.proposalCode (s.fld Fld.HUB_SOLSTICE_TARGET) none = 0 →
    s.localAgain (s.fld Fld.HUB_SOLSTICE_TARGET) = false → exec (.simgPropose rq) s = .next ((s.raise
    Fld.HUB_SIMG_CTL_PROPOSE).beginSolstice (s.fld Fld.HUB_SOLSTICE_TARGET) true).mirror)
  ∧ (∀ (s : State) (rq : Requester), s.acceptsWrite rq .HUB_SIMG_CTL 0 = true → s.proposalCode (s.fld Fld.HUB_SOLSTICE_TARGET) none ≠ 0 →
    s.localAgain (s.fld Fld.HUB_SOLSTICE_TARGET) = false → exec (.simgPropose rq) s = .next (s.simgResult (s.proposalCode (s.fld
    Fld.HUB_SOLSTICE_TARGET) none)).mirror)
  ∧ (∀ (s : State) (f : Fetch), s.loadOf true = some f → f.torn = true → s.phase = 1 → exec .simgLoadComplete s = .next (s.loadEnds
    0x1B).mirror)
  ∧ (∀ (s : State) (rq : Requester), exec (.simgLoad rq) s = .next ((s.gated rq .HUB_SIMG_CTL 0 State.simgLoad)).mirror)
  ∧ (∀ (s : State) (rq : Requester), exec (.simgAbort rq) s = .next ((s.gated rq .HUB_SIMG_CTL 0 State.simgAbort)).mirror)
  ∧ (∀ (s : State) (rq : Requester), exec (.simgPropose rq) s = .next ((s.gated rq .HUB_SIMG_CTL 0 State.simgPropose)).mirror)
  ∧ (∀ (s : State), exec .simgLoadComplete s = .next (s.simgLoaded).mirror)

/-- R73 to R75: a PROPOSE notice of the fabric manager that passes its checks begins a Solstice, COMMIT commits the one accepted, ABORT
ends it at PHASE 3 or 4; each is then written to the notice ring. ACCEPT and REFUSE are written to the ring. A notice that only the
manager may send is discarded when another sends it. -/
def Obligations.SolsticeNotices : Prop :=
  (∀ (s : State) (port : Nat) (n : Notice), noticeKind n = nkPropose → (s.takeNotice port n).fromManager n = true → (s.takeNotice port
    n).sameProposal (noticeTarget n) ((n.drop 0x40).take 64) = false → (s.takeNotice port n).proposalCode (noticeTarget n) (some
    (noticeGroup n, (n.drop 0x40).take 64)) = 0 → exec (.noticePropose port n) s = .next ((((s.takeNotice port n).setFld
    Fld.HUB_SOLSTICE_TARGET 0 (noticeTarget n)).beginSolstice (noticeTarget n) false).toNoticeRing n).mirror)
  ∧ (∀ (s : State) (port : Nat) (n : Notice), noticeKind n = nkPropose → (s.takeNotice port n).fromManager n = false → exec
    (.noticePropose port n) s = .next ((s.takeNotice port n).discardPacket).mirror)
  ∧ (∀ (s : State) (port : Nat) (n : Notice) (x : Solstice), noticeKind n = nkCommit → (s.takeNotice port n).fromManager n = true →
    (s.takeNotice port n).img.solstice = some x → (s.takeNotice port n).phase = 4 → x.s = noticeTarget n → exec (.noticeCommit port n) s =
    .next
    (({ s.takeNotice port n with img := { (s.takeNotice port n).img with solstice := some { x with committed := true } } }).toNoticeRing
    n).mirror)
  ∧ (∀ (s : State) (port : Nat) (n : Notice), noticeKind n = nkAbort → (s.takeNotice port n).fromManager n = true → (s.takeNotice port
    n).phase = 4 → exec (.noticeAbort port n) s = .next (((s.takeNotice port n).solsticeEnds 0x1A).toNoticeRing n).mirror)
  ∧ (∀ (s : State) (port : Nat) (n : Notice), noticeKind n = nkAccept → exec (.noticeAccept port n) s = .next ((s.takeNotice port
    n).toNoticeRing n).mirror)
  ∧ (∀ (s : State) (port : Nat) (n : Notice), noticeKind n = nkRefuse → exec (.noticeRefuse port n) s = .next ((s.takeNotice port
    n).toNoticeRing n).mirror)
  ∧ (∀ (s : State) (port : Nat) (n : Notice), exec (.noticePropose port n) s = .next (((s.takeNotice port n).managed nkPropose n (fun s =>
    s.noticePropose (noticeTarget n) (noticeGroup n) ((n.drop 0x40).take 64)))).mirror)
  ∧ (∀ (s : State) (port : Nat) (n : Notice), exec (.noticeCommit port n) s = .next (((s.takeNotice port n).managed nkCommit n (fun s =>
    s.noticeCommit (noticeTarget n)))).mirror)
  ∧ (∀ (s : State) (port : Nat) (n : Notice), exec (.noticeAbort port n) s = .next (((s.takeNotice port n).managed nkAbort n
    State.noticeAbort)).mirror)
  ∧ (∀ (s : State) (port : Nat) (n : Notice), exec (.noticeAccept port n) s = .next (((s.takeNotice port n).ringed nkAccept n)).mirror)
  ∧ (∀ (s : State) (port : Nat) (n : Notice), exec (.noticeRefuse port n) s = .next (((s.takeNotice port n).ringed nkRefuse n)).mirror)

/-- R73: once quiesced, its slices that change written back and those that become scratch zeroed, a member is at PHASE 4; at S - 62,500
one that is still at PHASE 3 ends with NOT_QUIESCED; at S - 12,500 a committed one with time locked is armed at PHASE 5, any other ends
with code 0x19; at S the staged image takes effect; at S + 1 its copy is the one in force and PHASE is 0. -/
def Obligations.SolsticeBeats : Prop :=
  (∀ (s : State) (x : Solstice) (im : Image), s.img.solstice = some x → s.img.staged = some im → s.phase = 3 → s.ft ≤ x.s - 62500 →
    s.slicesReady = true → ((bitsOf 16 (s.fld Fld.HUB_SIMG_STATUS_SCOPE)).all (fun p => s.partIdle p && (s.auditSums p).balance)) = true →
    x.sole = true → exec .solsticeQuiesced s = .next (((({ s with img := { s.img with solstice := some { x with committed := true } } } :
    State).zeroSlices.setPhaseOf 4).setFld Fld.HUB_SIMG_STATUS_QUIESCED 0 (s.fld Fld.HUB_SIMG_STATUS_SCOPE))).mirror)
  ∧ (∀ (s : State) (x : Solstice), s.img.solstice = some x → s.phase = 3 → x.s - 62500 ≤ s.ft → x.sole = true → exec
    .solsticeAcceptDeadline s = .next (s.solsticeEnds 0x18).mirror)
  ∧ (∀ (s : State) (x : Solstice), s.img.solstice = some x → x.s - 12500 ≤ s.ft → s.phase = 4 → x.committed = true → tbLocked ≤ s.tbState
    → exec .solsticeCutoff s = .next (s.setPhaseOf 5).mirror)
  ∧ (∀ (s : State) (x : Solstice), s.img.solstice = some x → x.s - 12500 ≤ s.ft → s.phase = 4 → x.committed = false → exec .solsticeCutoff
    s = .next (s.solsticeEnds 0x19).mirror)
  ∧ (∀ (s : State) (x : Solstice) (im : Image), s.img.solstice = some x → s.img.staged = some im → s.phase = 5 → x.s ≤ s.ft → im.hdr.kind
    ≠ 2 → exec .solsticeSwitch s = .next (({ s with img := { s.img with full := some im, update := none, staged := none } }).applyTables
    s.tables (inForceSections (some im) none) im.hdr.moduleId (s.fld Fld.HUB_SIMG_STATUS_SCOPE) true).mirror)
  ∧ (∀ (s : State) (x : Solstice), s.img.solstice = some x → s.phase = 5 → x.s + 1 ≤ s.ft → s.img.staged = none → ∃ t, exec
    .solsticePointerStore s = .next t ∧ t.img.solstice = none ∧ t.phase = 0 ∧ t.fld Fld.HUB_SIMG_STATUS_RESULT = 0 ∧ t.flag
    Fld.HUB_SIMG_STATUS_STAGED_VALID = false ∧ t.img.holdStaged = none)
  ∧ (∀ (s : State), exec .solsticeQuiesced s = .next (s.solsticeQuiesced).mirror)
  ∧ (∀ (s : State), exec .solsticeAcceptDeadline s = .next (s.acceptDeadline).mirror)
  ∧ (∀ (s : State), exec .solsticeCutoff s = .next (s.solsticeCutoff).mirror)
  ∧ (∀ (s : State), exec .solsticeSwitch s = .next (s.solsticeSwitch).mirror)
  ∧ (∀ (s : State), exec .solsticePointerStore s = .next (s.pointerStore).mirror)

/-- At its poll beat a context that runs samples its ring; the next command that may start starts, or, where a header check that needs its
records or queues fails, completes without starting (R205); NOP and ORDER finish at their start; WAIT and COMPLETE then wait; a command
whose effect is done and whose accesses have completed goes through the steps that write its record and retire it; until then COMMAND_END
changes nothing. -/
def Obligations.RingAndCommandStarts : Prop :=
  (∀ (s : State) (c : Nat), c < 256 → s.pollBeat c = true → s.ctxRuns c = true → s.partRuns (s.partOfCtx c) = true → s.quiescing
    (s.partOfCtx c) = false → (s.ctx c).fetch = none → exec (.ringPoll c) s = .next (s.sampleRing c).mirror)
  ∧ (∀ (s : State) (c : Nat), c < 256 → s.pollBeat c = true → s.ctxRuns c = true → s.partRuns (s.partOfCtx c) = true → s.quiescing
    (s.partOfCtx c) = false → (s.ctx c).fetch.isSome = true → exec (.ringPoll c) s = .next (s.bump Fld.HUB_CTX_STATUS_POLLS_SKIPPED
    c).mirror)
  ∧ (∀ (s : State) (c : Nat) (m : Cmd), (s.ctx c).next = some m → s.ctxRuns c = true → s.partRuns (s.partOfCtx c) = true → (s.ctx
    c).mayStart m = true → m.opcode ≠ 3 ∨ m.recordsRead = true → s.startReason m = 0 → exec (.commandStart c) s = .next (s.startCmd c
    m).mirror)
  ∧ (∀ (s : State) (c : Nat) (m : Cmd), (s.ctx c).next = some m → s.ctxRuns c = true → s.partRuns (s.partOfCtx c) = true → (s.ctx
    c).mayStart m = true → m.opcode ≠ 3 ∨ m.recordsRead = true → s.startReason m ≠ 0 → exec (.commandStart c) s = .next (s.failHeader ⟨c,
    m.seq⟩ (s.startReason m)).mirror)
  ∧ (∀ (s : State) (c q : Nat) (m : Cmd), s.acting ⟨c, q⟩ 0 = some m → exec (.nop c q) s = .next (s.updCmd ⟨c, q⟩ (fun m =>
    { m with finished := true })).mirror)
  ∧ (∀ (s : State) (c q : Nat) (m : Cmd), s.acting ⟨c, q⟩ 6 = some m → exec (.order c q) s = .next (s.updCmd ⟨c, q⟩ (fun m =>
    { m with finished := true })).mirror)
  ∧ (∀ (s : State) (c q : Nat) (m : Cmd), s.acting ⟨c, q⟩ 8 = some m → exec (.wait c q) s = .next (s.updCmd ⟨c, q⟩ (fun m =>
    { m with installed := true })).mirror)
  ∧ (∀ (s : State) (c q : Nat) (m : Cmd), s.acting ⟨c, q⟩ 7 = some m → exec (.complete c q) s = .next (s.updCmd ⟨c, q⟩ (fun m =>
    { m with installed := true })).mirror)
  ∧ (∀ (s : State) (c q : Nat) (m : Cmd), s.cmd ⟨c, q⟩ = some m → m.opcode = 7 → m.installed = true → m.finished = false → s.ctxOpens c =
    false → (s.ctx c).st = .running → (s.ctx c).covered = 0 → exec (.accessesCompleted c q) s = .next
    (((({ s with broken := s.broken.filter (fun b => b.1 != (0, c)) }).updCtx c (fun x => { x with covered := 0 })).finishCmd ⟨c,
    q⟩)).mirror)
  ∧ (∀ (s u : State) (c q : Nat) (m : Cmd), s.doReverts (fun v => v.cmd == (⟨c, q⟩ : CmdRef)) = u → u.cmd ⟨c, q⟩ = some m → (u.ctx c).st ≠
    .ending → (u.ctx c).st ≠ .free → u.effectDone ⟨c, q⟩ m = true → m.latched = true → exec (.commandEnd c q) s = .next (u.recordSteps ⟨c,
    q⟩ 3).mirror)
  ∧ (∀ (s u : State) (c q : Nat) (m : Cmd), s.doReverts (fun v => v.cmd == (⟨c, q⟩ : CmdRef)) = u → u.cmd ⟨c, q⟩ = some m → u.effectDone
    ⟨c, q⟩ m = false → exec (.commandEnd c q) s = .next (u).mirror)
  ∧ (∀ (s : State) (c : Nat), exec (.ringPoll c) s = .next ((s.ringPoll c)).mirror)
  ∧ (∀ (s : State) (c : Nat), exec (.commandStart c) s = .next ((s.commandStart c)).mirror)
  ∧ (∀ (s : State) (c seq : Nat), exec (.nop c seq) s = .next ((s.runDone ⟨c, seq⟩ 0)).mirror)
  ∧ (∀ (s : State) (c seq : Nat), exec (.order c seq) s = .next ((s.runDone ⟨c, seq⟩ 6)).mirror)
  ∧ (∀ (s : State) (c seq : Nat), exec (.wait c seq) s = .next ((s.runWait ⟨c, seq⟩)).mirror)
  ∧ (∀ (s : State) (c seq : Nat), exec (.complete c seq) s = .next ((s.runComplete ⟨c, seq⟩)).mirror)
  ∧ (∀ (s : State) (c seq : Nat), exec (.accessesCompleted c seq) s = .next ((s.accessesCompleted ⟨c, seq⟩)).mirror)
  ∧ (∀ (s : State) (c seq : Nat), exec (.commandEnd c seq) s = .next (((s.doReverts (fun v => v.cmd == (⟨c, seq⟩ : CmdRef))).commandEnd
    ⟨c, seq⟩)).mirror)

/-- QCFG and QFREE apply their records all or nothing, and a QFREE that names a busy queue ends BAD_COMMAND with reason QUEUE_BUSY; LAUNCH
installs the records of its payload; WRITE, COPY, WAIT and TIMESTAMP make their accesses; each then finishes, or goes on with the answer.
-/
def Obligations.CommandEffects : Prop :=
  (∀ (s t : State) (c q : Nat) (m : Cmd), s.acting ⟨c, q⟩ 1 = some m → s.qfreeBusy m = false → applyAll (fun s => s.checkQcfg c) (fun s =>
    s.applyQcfg c) 0 (cutEntries 16 (fieldAt m.slot 0x20 8) (m.slot.drop 0x40)) s = .inr t → exec (.qcfg c q) s = .next (t.updCmd ⟨c, q⟩
    (fun m => { m with finished := true })).mirror)
  ∧ (∀ (s : State) (c q : Nat) (m : Cmd), s.acting ⟨c, q⟩ 2 = some m → s.qfreeBusy m = true → exec (.qfree c q) s = .next (s.failHeader
    ⟨c, q⟩ 6).mirror)
  ∧ (∀ (s t : State) (c q : Nat) (m : Cmd), s.acting ⟨c, q⟩ 2 = some m → s.qfreeBusy m = false → applyAll (fun s => s.checkQfree c)
    State.applyQfree 0 (cutEntries 8 (fieldAt m.slot 0x20 8) (m.slot.drop 0x40)) s = .inr t → exec (.qfree c q) s = .next (t.updCmd ⟨c, q⟩
    (fun m => { m with finished := true })).mirror)
  ∧ (∀ (s : State) (c q : Nat) (m : Cmd) (l : List Nat), s.acting ⟨c, q⟩ 3 = some m → m.installed = false → s.recoversFor (launchRecords
    m) = false → (histAddrs (launchRecords m)).length ≤ 1 → s.checkRecords ⟨c, q⟩ m.coresField 0 (launchRecords m) [] = .inr l → exec
    (.launch c q) s = .next ((((launchRecords m).zip l).foldl (fun s x => s.install1 ⟨c, q⟩ (recCore x.1) x.2 (recDesc x.1)) s).updCmd ⟨c,
    q⟩ (fun m' => { m' with installed := true, histAddr := (histAddrs (launchRecords m)).headD 0 })).mirror)
  ∧ (∀ (s t : State) (c q : Nat) (m : Cmd), s.accessing ⟨c, q⟩ 4 = some m → s.cmdWrite ⟨c, q⟩ m m.arg0 ((m.slot.drop 0x40).take (fieldAt
    m.slot 0xC 2)) = some (t, true) → exec (.write c q) s = .next (t.updCmd ⟨c, q⟩ (fun m => { m with finished := true })).mirror)
  ∧ (∀ (s : State) (c q : Nat) (m : Cmd), s.accessing ⟨c, q⟩ 5 = some m → s.readOpen ⟨c, q⟩ = false → exec (.copy c q) s = .next
    (s.copySteps ⟨c, q⟩ (fieldAt m.slot 0x40 8 + 1 - m.pos)).mirror)
  ∧ (∀ (s u : State) (c q : Nat) (m : Cmd) (pa n st : Nat) (b : List Byte), s.accessing ⟨c, q⟩ 8 = some m → m.installed = true →
    s.pollBeat c = true → s.readOpen ⟨c, q⟩ = false → s.xlateOne m.phys cmdCache c 1 m.arg0 = .ok pa n → s.issueRead (s.cmdRq c) (some ⟨c,
    q⟩) pa 8 (.wait ⟨c, q⟩) 4 = (u, .done st b) → exec (.waitPoll c q) s = .next (u.waitValue ⟨c, q⟩ pa st b).mirror)
  ∧ (∀ (s t : State) (c q : Nat) (m : Cmd), s.accessing ⟨c, q⟩ 9 = some m → s.cmdWrite ⟨c, q⟩ m m.arg0 (leBytes 8 m.startBeat) = some (t,
    true) → exec (.timestamp c q) s = .next (t.updCmd ⟨c, q⟩ (fun m => { m with finished := true })).mirror)
  ∧ (∀ (s : State) (c seq : Nat), exec (.qcfg c seq) s = .next ((s.runQcfg ⟨c, seq⟩)).mirror)
  ∧ (∀ (s : State) (c seq : Nat), exec (.qfree c seq) s = .next ((s.runQfree ⟨c, seq⟩)).mirror)
  ∧ (∀ (s : State) (c seq : Nat), exec (.launch c seq) s = .next ((s.launch ⟨c, seq⟩)).mirror)
  ∧ (∀ (s : State) (c seq : Nat), exec (.write c seq) s = .next ((s.writeCommand ⟨c, seq⟩)).mirror)
  ∧ (∀ (s : State) (c seq : Nat), exec (.copy c seq) s = .next ((s.copyCommand ⟨c, seq⟩)).mirror)
  ∧ (∀ (s : State) (c seq : Nat), exec (.waitPoll c seq) s = .next ((s.waitPoll ⟨c, seq⟩)).mirror)
  ∧ (∀ (s : State) (c seq : Nat), exec (.timestamp c seq) s = .next ((s.timestampCommand ⟨c, seq⟩)).mirror)

/-- CREATE of a FREE context, PREEMPT of a RUNNING one, RESUME of a PREEMPTED one and END of one that is neither FREE nor ENDING act and
leave OP_ERR as the operation gives it; each in another state leaves only OP_ERR WRONG_STATE; two operations in one write leave OP_ERR
MULTIPLE. -/
def Obligations.ContextOperations : Prop :=
  (∀ (s : State) (rq : Requester) (c b : Nat), s.acceptsWrite rq .HUB_CTX_CTL c = true → c < 256 → (b ||| 1) % 16 = 1 → (s.ctx c).st =
    .free → exec (.create rq c b) s = .next ((s.createCtx c).1.setFld Fld.HUB_CTX_STATUS_OP_ERR c (s.createCtx c).2).mirror)
  ∧ (∀ (s : State) (rq : Requester) (c b : Nat), s.acceptsWrite rq .HUB_CTX_CTL c = true → c < 256 → (b ||| 1) % 16 = 1 → (s.ctx c).st ≠
    .free → exec (.create rq c b) s = .next (s.setFld Fld.HUB_CTX_STATUS_OP_ERR c opErrWrongState).mirror)
  ∧ (∀ (s : State) (rq : Requester) (c b : Nat), s.acceptsWrite rq .HUB_CTX_CTL c = true → c < 256 → (b ||| 2) % 16 = 2 → (s.ctx c).st =
    .running → s.isReplaying c = false → exec (.preempt rq c b) s = .next ((((s.enableEntries c false).updCtx c (fun x =>
    { x with st := .preempting, preemptBeat := s.ft, saveErr := 0, haltAfter := false })).setFld Fld.HUB_CTX_CTL_PREEMPT c 1).setFld
    Fld.HUB_CTX_STATUS_OP_ERR c 0).mirror)
  ∧ (∀ (s : State) (rq : Requester) (c b : Nat), s.acceptsWrite rq .HUB_CTX_CTL c = true → c < 256 → (b ||| 4) % 16 = 4 → (s.ctx c).st =
    .preempted → exec (.resume rq c b) s = .next (((((s.enterCtx c .running).enableEntries c true).retryStopped c).restoreSaves c).setFld
    Fld.HUB_CTX_STATUS_OP_ERR c 0).mirror)
  ∧ (∀ (s : State) (rq : Requester) (c b : Nat), s.acceptsWrite rq .HUB_CTX_CTL c = true → c < 256 → (b ||| 8) % 16 = 8 → (s.ctx c).st =
    .running → exec (.ctxEnd rq c b) s = .next ((s.endCtx c).setFld Fld.HUB_CTX_STATUS_OP_ERR c 0).mirror)
  ∧ (∀ (s : State) (rq : Requester) (c b : Nat), s.acceptsWrite rq .HUB_CTX_CTL c = true → c < 256 → (b ||| 8) % 16 ≠ 8 → 8 ≤ (b ||| 8) %
    16 → exec (.ctxEnd rq c b) s = .next (s.setFld Fld.HUB_CTX_STATUS_OP_ERR c opErrMultiple).mirror)
  ∧ (∀ (s : State) (rq : Requester) (c bits : Nat), exec (.create rq c bits) s = .next ((s.ctxWrite rq c (bits ||| 1))).mirror)
  ∧ (∀ (s : State) (rq : Requester) (c bits : Nat), exec (.preempt rq c bits) s = .next ((s.ctxWrite rq c (bits ||| 2))).mirror)
  ∧ (∀ (s : State) (rq : Requester) (c bits : Nat), exec (.resume rq c bits) s = .next ((s.ctxWrite rq c (bits ||| 4))).mirror)
  ∧ (∀ (s : State) (rq : Requester) (c bits : Nat), exec (.ctxEnd rq c bits) s = .next ((s.ctxWrite rq c (bits ||| 8))).mirror)

/-- An engine of a context being pre-empted is saved when its banks stand still; the oldest save leaves a full engine's slots for its HBM
save area; a context none of whose firings runs and none of whose engines holds work ends its pre-emption PREEMPTED, or HALTED where a
save failed. -/
def Obligations.PreemptionSaves : Prop :=
  (∀ (s : State) (e c : Nat), s.ctxIds.find? (s.savable e) = some c → exec (.engineSave e) s = .next (s.saveEngine e c).mirror)
  ∧ (∀ (s : State) (e c i : Nat) (v : EngineSave), s.fld Fld.CO_SAVE_CFG_SLOTS (e / 4) ≠ 0 → s.freeSlot e = none → s.oldestSave e = some
    (c, v) → v.slot = some i → (s.writeLocal (s.cmdRq c) none (s.saveArea c e) (s.bytes (slotAddr e i) saveBytes)).2 = stOk → exec
    (.saveSlotCopyOut e) s = .next ((s.writeLocal (s.cmdRq c) none (s.saveArea c e) (s.bytes (slotAddr e i) saveBytes)).1.updCtx c (fun x
    => { x with saves := x.saves.map (fun y => if y = v then { y with slot := none } else y) })).mirror)
  ∧ (∀ (s : State) (c : Nat), (s.ctx c).st = .preempting → s.isSuspect c = false → s.firingsRun c = false → s.enginesHold c = false →
    (s.ctx c).saveErr = 0 → (s.ctx c).haltAfter = false → exec (.preemptComplete c) s = .next ((((s.setFld Fld.HUB_CTX_CTL_PREEMPT c
    0).setFld Fld.HUB_CTX_STATUS_LAST_STATUS c stPreempted).updCtx c (fun x => { x with st := .preempted }))).mirror)
  ∧ (∀ (s : State) (c : Nat), (s.ctx c).st = .preempting → s.isSuspect c = false → s.firingsRun c = false → s.enginesHold c = false →
    (s.ctx c).saveErr ≠ 0 → exec (.preemptComplete c) s = .next ((((s.setFld Fld.HUB_CTX_CTL_PREEMPT c 0).setFld
    Fld.HUB_CTX_STATUS_LAST_STATUS c (s.ctx c).saveErr).setFld Fld.HUB_CTX_STATUS_HALT_REASON c 0).updCtx c (fun x =>
    { x with st := .halted })).mirror)
  ∧ (∀ (s : State) (e : Nat), exec (.engineSave e) s = .next ((s.engineSave e)).mirror)
  ∧ (∀ (s : State) (e : Nat), exec (.saveSlotCopyOut e) s = .next ((s.copyOut e)).mirror)
  ∧ (∀ (s : State) (c : Nat), exec (.preemptComplete c) s = .next ((s.preemptComplete c)).mirror)

/-- R169, R180: a free vector unit takes the lowest descriptor that is ready; each opcode of its program does its effect on the lanes that
its mask selects, counts one instruction and its lanes, and the program steps on; VEND ends it; a compare writes a mask, a select every
lane, a reduction lane 0. -/
def Obligations.VectorPrograms : Prop :=
  (∀ (s : State) (k i : Nat) (x : Entry), s.vecRun k = none → s.lowestEntry k (fun _ x => s.vectorReady k x) = some (i, x) → exec
    (.vectorFire k) s = .next (((s.takePorts k x.desc).setVecRun k (some ⟨i, x.started, 0, false⟩)).fireStart k i x).mirror)
  ∧ (∀ (s : State) (k w : Nat) (r : VecRun) (x : Entry), s.vecNext k 0x00 = some (r, x, w) → exec (.vend k) s = .next (s.vecAdvance k r 0
    0).mirror)
  ∧ (∀ (s : State) (k w : Nat) (r : VecRun) (x : Entry) (ty : FCode), s.vecNext k 0x01 = some (r, x, w) → FCode.ofCode (vType w) = some ty
    → exec (.vadd k) s = .next (((s.setLanes k (vVd w) ((s.laneResults k .add ty w).map (fun r => (r.1, r.2.bits)))).noteVFlags k x
    (orFlags ((s.laneResults k .add ty w).map (·.2)))).vecAdvance k r 0x01 (s.lanesOn k w).length).mirror)
  ∧ (∀ (s : State) (k w : Nat) (r : VecRun) (x : Entry) (ty : FCode), s.vecNext k 0x02 = some (r, x, w) → FCode.ofCode (vType w) = some ty
    → exec (.vsub k) s = .next (((s.setLanes k (vVd w) ((s.laneResults k .sub ty w).map (fun r => (r.1, r.2.bits)))).noteVFlags k x
    (orFlags ((s.laneResults k .sub ty w).map (·.2)))).vecAdvance k r 0x02 (s.lanesOn k w).length).mirror)
  ∧ (∀ (s : State) (k w : Nat) (r : VecRun) (x : Entry) (ty : FCode), s.vecNext k 0x03 = some (r, x, w) → FCode.ofCode (vType w) = some ty
    → exec (.vmul k) s = .next (((s.setLanes k (vVd w) ((s.laneResults k .mul ty w).map (fun r => (r.1, r.2.bits)))).noteVFlags k x
    (orFlags ((s.laneResults k .mul ty w).map (·.2)))).vecAdvance k r 0x03 (s.lanesOn k w).length).mirror)
  ∧ (∀ (s : State) (k w : Nat) (r : VecRun) (x : Entry) (ty : FCode), s.vecNext k 0x04 = some (r, x, w) → FCode.ofCode (vType w) = some ty
    → exec (.vfma k) s = .next (((s.setLanes k (vVd w) ((s.laneResults k .fma ty w).map (fun r => (r.1, r.2.bits)))).noteVFlags k x
    (orFlags ((s.laneResults k .fma ty w).map (·.2)))).vecAdvance k r 0x04 (s.lanesOn k w).length).mirror)
  ∧ (∀ (s : State) (k w : Nat) (r : VecRun) (x : Entry) (ty : FCode), s.vecNext k 0x05 = some (r, x, w) → FCode.ofCode (vType w) = some ty
    → exec (.vmin k) s = .next (((s.setLanes k (vVd w) ((s.laneResults k .vmin ty w).map (fun r => (r.1, r.2.bits)))).noteVFlags k x
    (orFlags ((s.laneResults k .vmin ty w).map (·.2)))).vecAdvance k r 0x05 (s.lanesOn k w).length).mirror)
  ∧ (∀ (s : State) (k w : Nat) (r : VecRun) (x : Entry) (ty : FCode), s.vecNext k 0x06 = some (r, x, w) → FCode.ofCode (vType w) = some ty
    → exec (.vmax k) s = .next (((s.setLanes k (vVd w) ((s.laneResults k .vmax ty w).map (fun r => (r.1, r.2.bits)))).noteVFlags k x
    (orFlags ((s.laneResults k .vmax ty w).map (·.2)))).vecAdvance k r 0x06 (s.lanesOn k w).length).mirror)
  ∧ (∀ (s : State) (k w : Nat) (r : VecRun) (x : Entry) (ty : FCode), s.vecNext k 0x07 = some (r, x, w) → FCode.ofCode (vType w) = some ty
    → exec (.vaddsat k) s = .next (((s.setLanes k (vVd w) ((s.laneResults k .addSat ty w).map (fun r => (r.1, r.2.bits)))).noteVFlags k x
    (orFlags ((s.laneResults k .addSat ty w).map (·.2)))).vecAdvance k r 0x07 (s.lanesOn k w).length).mirror)
  ∧ (∀ (s : State) (k w : Nat) (r : VecRun) (x : Entry) (ty : FCode), s.vecNext k 0x0d = some (r, x, w) → FCode.ofCode (vType w) = some ty
    → exec (.vrcp k) s = .next (((s.setLanes k (vVd w) ((s.laneResults k .rcp ty w).map (fun r => (r.1, r.2.bits)))).noteVFlags k x
    (orFlags ((s.laneResults k .rcp ty w).map (·.2)))).vecAdvance k r 0x0d (s.lanesOn k w).length).mirror)
  ∧ (∀ (s : State) (k w : Nat) (r : VecRun) (x : Entry) (ty : FCode), s.vecNext k 0x0e = some (r, x, w) → FCode.ofCode (vType w) = some ty
    → exec (.vrsqrt k) s = .next (((s.setLanes k (vVd w) ((s.laneResults k .rsqrt ty w).map (fun r => (r.1, r.2.bits)))).noteVFlags k x
    (orFlags ((s.laneResults k .rsqrt ty w).map (·.2)))).vecAdvance k r 0x0e (s.lanesOn k w).length).mirror)
  ∧ (∀ (s : State) (k w : Nat) (r : VecRun) (x : Entry) (ty : FCode), s.vecNext k 0x0f = some (r, x, w) → FCode.ofCode (vType w) = some ty
    → exec (.vexp2 k) s = .next (((s.setLanes k (vVd w) ((s.laneResults k .exp2 ty w).map (fun r => (r.1, r.2.bits)))).noteVFlags k x
    (orFlags ((s.laneResults k .exp2 ty w).map (·.2)))).vecAdvance k r 0x0f (s.lanesOn k w).length).mirror)
  ∧ (∀ (s : State) (k w : Nat) (r : VecRun) (x : Entry) (ty : FCode), s.vecNext k 0x10 = some (r, x, w) → FCode.ofCode (vType w) = some ty
    → exec (.vlog2 k) s = .next (((s.setLanes k (vVd w) ((s.laneResults k .log2 ty w).map (fun r => (r.1, r.2.bits)))).noteVFlags k x
    (orFlags ((s.laneResults k .log2 ty w).map (·.2)))).vecAdvance k r 0x10 (s.lanesOn k w).length).mirror)
  ∧ (∀ (s : State) (k w : Nat) (r : VecRun) (x : Entry) (ty : FCode), s.vecNext k 0x08 = some (r, x, w) → FCode.ofCode (vType w) = some ty
    → exec (.vshr k) s = .next ((s.setLanes k (vVd w) ((s.lanesOn k w).map (fun l => (l, laneShr ty (vOffset w % 32) (s.vreg k (vVs1 w)
    l))))).vecAdvance k r 0x08 (s.lanesOn k w).length).mirror)
  ∧ (∀ (s : State) (k w : Nat) (r : VecRun) (x : Entry) (ty : FCode), s.vecNext k 0x09 = some (r, x, w) → FCode.ofCode (vType w) = some ty
    → exec (.vcmplt k) s = .next ((s.setVmask k (vVd w % 8) ((s.lanesOn k w).foldl (fun acc l => putBits acc l 1 (if laneLess ty (s.vreg k
    (vVs1 w) l) (s.vreg k (vVs2 w) l) then 1 else 0)) (s.vmask k (vVd w % 8)))).vecAdvance k r 0x09 (s.lanesOn k w).length).mirror)
  ∧ (∀ (s : State) (k w : Nat) (r : VecRun) (x : Entry) (ty : FCode), s.vecNext k 0x0a = some (r, x, w) → FCode.ofCode (vType w) = some ty
    → exec (.vcmpeq k) s = .next ((s.setVmask k (vVd w % 8) ((s.lanesOn k w).foldl (fun acc l => putBits acc l 1 (if laneEq ty (s.vreg k
    (vVs1 w) l) (s.vreg k (vVs2 w) l) then 1 else 0)) (s.vmask k (vVd w % 8)))).vecAdvance k r 0x0a (s.lanesOn k w).length).mirror)
  ∧ (∀ (s : State) (k w : Nat) (r : VecRun) (x : Entry), s.vecNext k 0x0b = some (r, x, w) → exec (.vsel k) s = .next ((s.setLanes k (vVd
    w) ((List.range 64).map (fun l => (l, s.vreg k (if (s.lanesOn k w).contains l then vVs1 w else vVs2 w) l)))).vecAdvance k r 0x0b
    (s.lanesOn k w).length).mirror)
  ∧ (∀ (s : State) (k w : Nat) (r : VecRun) (x : Entry) (ty tz : FCode), s.vecNext k 0x0c = some (r, x, w) → FCode.ofCode (vType w) = some
    ty → FCode.ofCode (vType2 w) = some tz → exec (.vcvt k) s = .next (((s.setLanes k (vVd w) ((s.lanesOn k w).map (fun l => (l, (convert
    ty tz (vRoundOf w) (vSatf w) (s.vreg k (vVs1 w) l)).bits)))).noteVFlags k x (orFlags ((s.lanesOn k w).map (fun l => convert ty tz
    (vRoundOf w) (vSatf w) (s.vreg k (vVs1 w) l))))).vecAdvance k r 0x0c (s.lanesOn k w).length).mirror)
  ∧ (∀ (s : State) (k w : Nat) (r : VecRun) (x : Entry) (ty : FCode), s.vecNext k 0x11 = some (r, x, w) → FCode.ofCode (vType w) = some ty
    → exec (.vredadd k) s = .next ((s.vecReduce k false x w).vecAdvance k r 0x11 (s.lanesOn k w).length).mirror)
  ∧ (∀ (s : State) (k w : Nat) (r : VecRun) (x : Entry) (ty : FCode), s.vecNext k 0x12 = some (r, x, w) → FCode.ofCode (vType w) = some ty
    → exec (.vredmax k) s = .next ((s.vecReduce k true x w).vecAdvance k r 0x12 (s.lanesOn k w).length).mirror)
  ∧ (∀ (s : State) (k w first : Nat) (r : VecRun) (x : Entry) (q : Queue) (a b : FCode), s.vecNext k 0x20 = some (r, x, w) → s.vecSlots k
    x w = some (q, first) → FCode.ofCode (vType w) = some a → FCode.ofCode (vType2 w) = some b → exec (.vld k) s = .next (((s.setLanes k
    (vVd w) ((s.lanesOn k w).map (fun l => (l, (loadConvert a b w (s.vecElement k q first (4 * vOffset w) a l)).bits)))).noteVFlags k x
    (orFlags ((s.lanesOn k w).map (fun l => loadConvert a b w (s.vecElement k q first (4 * vOffset w) a l))))).vecAdvance k r 0x20
    (s.lanesOn k w).length).mirror)
  ∧ (∀ (s : State) (k w first : Nat) (r : VecRun) (x : Entry) (q : Queue) (a b : FCode), s.vecNext k 0x21 = some (r, x, w) → s.vecSlots k
    x w = some (q, first) → FCode.ofCode (vType w) = some a → FCode.ofCode (vType2 w) = some b → exec (.vldb k) s = .next (((s.setLanes k
    (vVd w) ((s.lanesOn k w).map (fun l => (l, (loadConvert a b w (s.vecElement k q first (4 * vOffset w) a 0)).bits)))).noteVFlags k x
    (orFlags ((s.lanesOn k w).map (fun l => loadConvert a b w (s.vecElement k q first (4 * vOffset w) a 0))))).vecAdvance k r 0x21
    (s.lanesOn k w).length).mirror)
  ∧ (∀ (s : State) (k w first : Nat) (r : VecRun) (x : Entry) (q : Queue) (a b : FCode), s.vecNext k 0x22 = some (r, x, w) → s.vecSlots k
    x w = some (q, first) → FCode.ofCode (vType w) = some a → FCode.ofCode (vType2 w) = some b → b.bits ≠ 4 → exec (.vst k) s = .next
    ((s.vecStoreBytes k q first a b x w).vecAdvance k r 0x22 (s.lanesOn k w).length).mirror)
  ∧ (∀ (s : State) (k w first : Nat) (r : VecRun) (x : Entry) (q : Queue) (a b : FCode), s.vecNext k 0x22 = some (r, x, w) → s.vecSlots k
    x w = some (q, first) → FCode.ofCode (vType w) = some a → FCode.ofCode (vType2 w) = some b → b.bits = 4 → exec (.vst k) s = .next
    ((s.vecStoreZ4 k q first a x w).vecAdvance k r 0x22 (s.lanesOn k w).length).mirror)
  ∧ (∀ (s : State) (k : Nat), exec (.vectorFire k) s = .next ((s.vectorFire k)).mirror)
  ∧ (∀ (s : State) (k : Nat), exec (.vend k) s = .next ((s.vecIssue k 0x00 (fun s _ _ => s))).mirror)
  ∧ (∀ (s : State) (k : Nat), exec (.vadd k) s = .next ((s.vecIssue k 0x01 (fun s x w => s.vecArith k .add x w))).mirror)
  ∧ (∀ (s : State) (k : Nat), exec (.vsub k) s = .next ((s.vecIssue k 0x02 (fun s x w => s.vecArith k .sub x w))).mirror)
  ∧ (∀ (s : State) (k : Nat), exec (.vmul k) s = .next ((s.vecIssue k 0x03 (fun s x w => s.vecArith k .mul x w))).mirror)
  ∧ (∀ (s : State) (k : Nat), exec (.vfma k) s = .next ((s.vecIssue k 0x04 (fun s x w => s.vecArith k .fma x w))).mirror)
  ∧ (∀ (s : State) (k : Nat), exec (.vmin k) s = .next ((s.vecIssue k 0x05 (fun s x w => s.vecArith k .vmin x w))).mirror)
  ∧ (∀ (s : State) (k : Nat), exec (.vmax k) s = .next ((s.vecIssue k 0x06 (fun s x w => s.vecArith k .vmax x w))).mirror)
  ∧ (∀ (s : State) (k : Nat), exec (.vaddsat k) s = .next ((s.vecIssue k 0x07 (fun s x w => s.vecArith k .addSat x w))).mirror)
  ∧ (∀ (s : State) (k : Nat), exec (.vrcp k) s = .next ((s.vecIssue k 0x0D (fun s x w => s.vecArith k .rcp x w))).mirror)
  ∧ (∀ (s : State) (k : Nat), exec (.vrsqrt k) s = .next ((s.vecIssue k 0x0E (fun s x w => s.vecArith k .rsqrt x w))).mirror)
  ∧ (∀ (s : State) (k : Nat), exec (.vexp2 k) s = .next ((s.vecIssue k 0x0F (fun s x w => s.vecArith k .exp2 x w))).mirror)
  ∧ (∀ (s : State) (k : Nat), exec (.vlog2 k) s = .next ((s.vecIssue k 0x10 (fun s x w => s.vecArith k .log2 x w))).mirror)
  ∧ (∀ (s : State) (k : Nat), exec (.vshr k) s = .next ((s.vecIssue k 0x08 (fun s _ w => s.vecShift k w))).mirror)
  ∧ (∀ (s : State) (k : Nat), exec (.vcmplt k) s = .next ((s.vecIssue k 0x09 (fun s _ w => s.vecCompare k laneLess w))).mirror)
  ∧ (∀ (s : State) (k : Nat), exec (.vcmpeq k) s = .next ((s.vecIssue k 0x0A (fun s _ w => s.vecCompare k laneEq w))).mirror)
  ∧ (∀ (s : State) (k : Nat), exec (.vsel k) s = .next ((s.vecIssue k 0x0B (fun s _ w => s.vecSelect k w))).mirror)
  ∧ (∀ (s : State) (k : Nat), exec (.vcvt k) s = .next ((s.vecIssue k 0x0C (fun s x w => s.vecConvert k x w))).mirror)
  ∧ (∀ (s : State) (k : Nat), exec (.vredadd k) s = .next ((s.vecIssue k 0x11 (fun s x w => s.vecReduce k false x w))).mirror)
  ∧ (∀ (s : State) (k : Nat), exec (.vredmax k) s = .next ((s.vecIssue k 0x12 (fun s x w => s.vecReduce k true x w))).mirror)
  ∧ (∀ (s : State) (k : Nat), exec (.vld k) s = .next ((s.vecIssue k 0x20 (fun s x w => s.vecLoad k false x w))).mirror)
  ∧ (∀ (s : State) (k : Nat), exec (.vldb k) s = .next ((s.vecIssue k 0x21 (fun s x w => s.vecLoad k true x w))).mirror)
  ∧ (∀ (s : State) (k : Nat), exec (.vst k) s = .next ((s.vecIssue k 0x22 (fun s x w => s.vecStore k x w))).mirror)

/-- R180, R181: after an arithmetic opcode every lane that the mask selects holds the opcode's result on that lane of the sources as they
stood before, with a destination that is also a source; every other lane, register, mask and byte of memory is unchanged. -/
def Obligations.VectorLanes : Prop :=
  ∀ (s : State) (k w opc : Nat) (r : VecRun) (x : Entry) (ty : FCode) (c : Instr) (op : LaneOp), (c, opc, op) ∈ [(Instr.vadd k, 0x01, LaneOp.add), (Instr.vsub k, 0x02, LaneOp.sub), (Instr.vmul k, 0x03, LaneOp.mul), (Instr.vfma k, 0x04, LaneOp.fma), (Instr.vmin k, 0x05, LaneOp.vmin), (Instr.vmax k, 0x06, LaneOp.vmax), (Instr.vaddsat k, 0x07, LaneOp.addSat), (Instr.vrcp k, 0x0d, LaneOp.rcp), (Instr.vrsqrt k, 0x0e, LaneOp.rsqrt), (Instr.vexp2 k, 0x0f, LaneOp.exp2), (Instr.vlog2 k, 0x10, LaneOp.log2)] →
    s.vecNext k opc = some (r, x, w) → FCode.ofCode (vType w) = some ty →
    ∃ t, exec c s = .next t ∧
      (∀ l, l < 64 → t.vreg k (vVd w) l =
        if (s.lanesOn k w).contains l
        then (laneOp op ty (vRoundOf w) (vSatf w) (s.vreg k (vVs1 w) l) (s.vreg k (vVs2 w) l) (s.vreg k (vVs3 w) l)).bits % 2 ^ 32
        else s.vreg k (vVd w) l) ∧
      (∀ k' v l, v < 32 → l < 64 → (k', v) ≠ (k, vVd w) → t.vreg k' v l = s.vreg k' v l) ∧
      (∀ k' m, t.vmask k' m = s.vmask k' m) ∧ MemoryKept s t

/-- The feeders present one step's operands; an engine begins the lowest descriptor that is ready in a free bank, from +0 or from its C
tile; a completed bank drains into its output slot; the drain's end makes the output a token and frees the bank. -/
def Obligations.EngineAccumulates : Prop :=
  (∀ (s : State) (e b : Nat) (x : Entry), (s.engine e).accumulating = some b → s.entry (e / 4) ((s.engine e).bank b).entry = some x →
    (s.engine e).opnd = none → s.engineHung e = false → ((s.engine e).bank b).k < engK x.desc → (((s.engine e).bank b).k % 64 == 0) =
    false → exec (.feederFire e) s = .next (s.setEngine e
    { s.engine e with opnd := some (s.stepOperands (e / 4) ((s.engine e).bank b).k x.desc) }).mirror)
  ∧ (∀ (s : State) (e b i : Nat) (x : Entry), (s.engine e).freeBank = some b → s.lowestEntry (e / 4) (s.engineReady e) = some (i, x) →
    s.engineHung e = false → engInitLoad x.desc = false → exec (.engineFire e) s = .next ((((((s.updQueue (e / 4) (inQueue x.desc 0) (fun
    q => q.takeIn 1)).updQueue (e / 4) (inQueue x.desc 1) (fun q => q.takeIn 1)).fillBank e b (fun _ _ => 0)).setEngine e
    { (s.engine e).setBank b ⟨.accumulating, i, x.started, 0⟩ with feed := (s.engine e).accumulating.getD b }).fireStart (e / 4) i
    x)).mirror)
  ∧ (∀ (s : State) (e b : Nat) (x : Entry), ((s.engine e).bank b).st = .completed → (s.engine e).drain = none → (s.engine
    e).olderCompleted b = false → s.engineHung e = false → s.entry (e / 4) ((s.engine e).bank b).entry = some x → (s.queue (e / 4)
    (outQueue x.desc 0)).credits ≠ 0 → (s.ctx x.ctx).st.drains = true → fieldAt x.desc 0x23 1 ≠ 0 → ∃ t, exec (.drainFire e b) s = .next t
    ∧ (t.engine e).drain = some ⟨b, ((s.engine e).bank b).entry⟩ ∧ (t.engine e).bank0 = (s.engine e).bank0 ∧ (t.engine e).bank1 =
    (s.engine e).bank1 ∧ ∀ i v, (((List.range 64).map (fun l => (drainLane (fieldAt x.desc 0x23 1) ((Round.ofCode (engConv x.desc %
    8)).getD .rne) (bit (engConv x.desc) 3) ((List.range 64).map (fun p => s.drainValue e b (engAxis x.desc) l p))).1)).flatten)[i]? =
    some v → t.byte (sramOf (e / 4) (s.queue (e / 4) (outQueue x.desc 0)).outAt + i) = v)
  ∧ (∀ (s : State) (e b : Nat) (x : Entry), ((s.engine e).bank b).st = .completed → (s.engine e).drain = none → (s.engine
    e).olderCompleted b = false → s.engineHung e = false → s.entry (e / 4) ((s.engine e).bank b).entry = some x → (s.queue (e / 4)
    (outQueue x.desc 0)).credits ≠ 0 → (s.ctx x.ctx).st.drains = true → fieldAt x.desc 0x23 1 = 0 → 8 ≤ (s.queue (e / 4) (outQueue x.desc
    0)).scaleUnits → ∃ t, exec (.drainFire e b) s = .next t ∧ (t.engine e).drain = some ⟨b, ((s.engine e).bank b).entry⟩ ∧ (t.engine
    e).bank0 = (s.engine e).bank0 ∧ (t.engine e).bank1 = (s.engine e).bank1 ∧ (∀ i v, (((List.range 64).map (fun l => (drainLane 0
    ((Round.ofCode (engConv x.desc % 8)).getD .rne) (bit (engConv x.desc) 3) ((List.range 64).map (fun p => s.drainValue e b (engAxis
    x.desc) l p))).1)).flatten)[i]? = some v → t.byte (sramOf (e / 4) (s.queue (e / 4) (outQueue x.desc 0)).outAt + i) = v) ∧ ∀ i v,
    (((List.range 64).map (fun l => (drainLane 0 ((Round.ofCode (engConv x.desc % 8)).getD .rne) (bit (engConv x.desc) 3) ((List.range
    64).map (fun p => s.drainValue e b (engAxis x.desc) l p))).2.1)).flatten)[i]? = some v → t.byte (sramOf (e / 4) (s.queue (e / 4)
    (outQueue x.desc 0)).outAt + (s.queue (e / 4) (outQueue x.desc 0)).scaleUnits * 256 + i) = v)
  ∧ (∀ (s : State) (e : Nat) (dr : DrainRun) (x : Entry), (s.engine e).drain = some dr → s.entry (e / 4) dr.entry = some x → exec
    (.drainComplete e) s = .next (((((s.setEngine e { (s.engine e).setBank dr.bank Bank.empty with drain := none }).progress e).updQueue
    (e / 4) (outQueue x.desc 0) (fun q => q.fillOut 1 x.cmd)).firingDone (e / 4) dr.entry x)).mirror)
  ∧ (∀ (s : State) (k c q cc va : Nat) (m : Cmd) (h : HistFrom) (ps : List (Nat × Nat)), s.cmd ⟨c, q⟩ = some m → s.histWork k ⟨c, q⟩ =
    some (h, cc, va) → (s.ctx h.ctx).st.acts = true → s.stopped (histSite h ⟨c, q⟩).ctx ⟨c, q⟩ k (histSite h ⟨c, q⟩).entry 0 = false →
    s.accessHeld ⟨c, q⟩ = false → s.pieces k h.ctx 3 va 3 0 576 = (ps, none) → ps.find? (fun p => !inEndpoint (((s.circEntry cc).map
    (·.dst)).getD 0) p.1 || !inEndpoint (((s.circEntry cc).map (·.dst)).getD 0) (p.1 + p.2 - 1)) = none → exec (.histogramDelivery k c q)
    s = .next (((s.setCirc cc
    { s.circ cc with ready := (s.circ cc).ready ++ [⟨histBytes (m.coreHist k), false, ps, 2, 0, ⟨c, q⟩, h.ctx, 256 + h.entry, 0, (h.layer, h.oper), s.ft + 1⟩] }).updCmd
    ⟨c, q⟩ (fun m =>
    { m with sums := m.sums.map (fun y => if y.engine / 4 = k then { y with hist := List.replicate 69 0 } else y) }))).mirror)
  ∧ (∀ (s : State) (e : Nat), exec (.feederFire e) s = .next ((s.feederFire e)).mirror)
  ∧ (∀ (s : State) (e : Nat), exec (.engineFire e) s = .next ((s.engineFire e)).mirror)
  ∧ (∀ (s : State) (e b : Nat), exec (.drainFire e b) s = .next ((s.drainFire e b)).mirror)
  ∧ (∀ (s : State) (e : Nat), exec (.drainComplete e) s = .next ((s.drainComplete e)).mirror)
  ∧ (∀ (s : State) (k c seq : Nat), exec (.histogramDelivery k c seq) s = .next ((s.histDelivery k ⟨c, seq⟩)).mirror)

/-- R136, R141, R144: a step takes each of the 64 by 64 cells of the accumulating bank to the result of the accumulation of that cell's
products; every other cell of every engine is unchanged, the operands are consumed, and the bank moves on by the step's k-indices,
completed at the last. -/
def Obligations.EngineStepCells : Prop :=
  (∀ (s : State) (e b : Nat) (o : Operands) (x : Entry), (s.engine e).accumulating = some b → (s.engine e).opnd = some o → s.entry (e / 4)
    ((s.engine e).bank b).entry = some x → o.k = ((s.engine e).bank b).k → s.engineHung e = false → s.coreHeld (e / 4) = false →
    s.traceHolds 3 1 (e / 4) (descLayer x.desc) (descOper x.desc) = false → ∃ t, exec (.engineStep e) s = .next t ∧ (∀ i j, i < 64 → j <
    64 → t.cell e b i j = (cellStep (s.cell e b i j) (stepProducts (engMode x.desc) o i j)).bits % 2 ^ 32) ∧ (∀ e' b' i j, b' < 2 → i < 64
    → j < 64 → (e', b') ≠ (e, b) → t.cell e' b' i j = s.cell e' b' i j) ∧ (t.engine e).opnd = none ∧ ((t.engine e).bank b).k = o.k +
    kPerStep (engMode x.desc) ∧ ((t.engine e).bank b).st = (if engK x.desc ≤ o.k + kPerStep (engMode x.desc) then .completed else
    .accumulating) ∧ (t.engine e).bank (1 - b) = (s.engine e).bank (1 - b) ∧ (t.engine e).drain = (s.engine e).drain ∧ MemoryKept s t)
  ∧ (∀ (s : State) (e : Nat), exec (.engineStep e) s = .next ((s.engineStep e)).mirror)

/-- A tile mover takes its lowest ready descriptor, and its firings go on; a tile reader resolves its tile at its entry, now or at its
circuit's next period; a stager claims the entry, pushes its data and flips the entry once the data has arrived; a poisoned read marks the
tile POISONED; the oldest finished firing completes. -/
def Obligations.TileMovers : Prop :=
  (∀ (s u : State) (k i : Nat) (x : Entry), s.lowestEntry k (fun _ x => s.moverReady k x) = some (i, x) →
    (({ s.takePorts k x.desc with firings := (s.takePorts k x.desc).firings ++ [(⟨k, i, x.started, 0, [], none, none, false, 0, none, .active, 0, false, 0, none⟩ : Firing)] }).countCore
    k 0x0E 0 1).fireStart k i x = u → exec (.moverFire k) s = .next ((u.firings.filter (fun f => f.core == k)).foldl (fun s f =>
    s.advanceFiring k f.entry f.f) u).mirror)
  ∧ (∀ (s u : State) (k e f a w : Nat) (fr : Firing) (x : Entry) (ce : CircEntry), s.moverFiring k e f = some (fr, x, ce) → moverTile
    x.desc = true → moverDir x.desc = 0 → fr.stage = .active → fr.pieces = none → s.firingActs k e f x = true → s.tileEntry (s.partOfCtx
    x.ctx) (tileId x.desc fr.f) = some a → s.ttRead (s.moverRq fr.core) a = (u, stOk, w) → tileState w = 1 → formatOk (tileFormat w) =
    true → footprint (tileFormat w) = moverBytes x.desc → inEndpoint ce.src (tileLoc w) = true → exec (.tileResolve k e f) s = .next
    (u.updFiring fr.core fr.entry fr.f (fun y =>
    { y with word0 := w, resolvedAt := some u.ft, stage := .active, pieces := some [(tileLoc w, moverBytes x.desc)], since := u.ft + 1 })).mirror)
  ∧ (∀ (s : State) (k e f : Nat) (fr : Firing) (x : Entry) (ce : CircEntry), s.moverFiring k e f = some (fr, x, ce) → fr.stage = .waiting
    → s.firingActs k e f x = true → s.ft % 2 ^ ce.k = 0 → fr.resolvedAt ≠ some s.ft → moverDir x.desc = 0 → exec (.tileResolveRetry k e f)
    s = .next (s.resolveTile fr x ce).mirror)
  ∧ (∀ (s u : State) (k e f a : Nat) (fr : Firing) (x : Entry) (ce : CircEntry), s.moverFiring k e f = some (fr, x, ce) → fr.stage =
    .poisoned → moverTile x.desc = true → s.tileBusy (s.partOfCtx x.ctx) (tileId x.desc f) = false → (s.event ⟨s.ft, 0x8007, 1, k, some
    x.ctx, descLayer x.desc, descOper x.desc, x.cmd.seq, tileLoc fr.word0⟩).failCmd x.cmd stPoisoned = u → u.tileEntry (s.partOfCtx x.ctx)
    (tileId x.desc f) = some a → exec (.tilePoisonedRead k e f) s = .next ((u.ttSwap (s.moverRq k) a fr.word0 (putBits fr.word0 0 4
    3)).1.tileNotice (s.partOfCtx x.ctx) (tileId x.desc f) 1 stPoisoned x.ctx (tileLoc fr.word0) (descLayer x.desc) (descOper
    x.desc)).mirror)
  ∧ (∀ (s : State) (k e f : Nat) (fr : Firing) (x : Entry) (ce : CircEntry), s.moverFiring k e f = some (fr, x, ce) → moverTile x.desc =
    true → moverDir x.desc = 1 → fr.stage = .active → s.firingActs k e f x = true → s.stagerTurn k e f = true → s.tileBusy (s.partOfCtx
    x.ctx) (tileId x.desc f) = false → exec (.stagerFire k e f) s = .next (s.stagerAct fr x ce).mirror)
  ∧ (∀ (s u v w : State) (k e f a claim next : Nat) (fr : Firing) (x : Entry) (ce : CircEntry), s.doReverts (fun v => v.core == k &&
    v.entry == e && v.f == f) = u → u.moverFiring k e f = some (fr, x, ce) → fr.stage = .claimed claim next → (u.firingsBefore k e f).any
    (fun y => y.stage != .finished) = false → u.undelivered ce.id x.cmd e f = false → u.tileBusy (u.partOfCtx x.ctx) (tileId x.desc f) =
    false → u.firingActs k e f x = true → u.tileEntry (u.partOfCtx x.ctx) (tileId x.desc f) = some a → u.ttSwap (u.moverRq k) a claim
    (putBits (putBits (putBits claim 0 4 1) 8 44 (next / 256)) 52 12 (tileEpoch claim + 1)) = (v, stOk, true) → v.ttWrite (u.moverRq k)
    x.cmd (a + 8) (word1Of 0 (tileLoc claim)) = (w, stOk) → exec (.stagerFlip k e f) s = .next (w.updFiring k e f (fun y =>
    { y with stage := .finished })).mirror)
  ∧ (∀ (s : State) (k e f : Nat) (fr : Firing) (x : Entry) (ce : CircEntry), s.entry k e = some x → descUnit x.desc ≠ 2 → s.moverFiring k
    e f = some (fr, x, ce) → fr.stage = .finished → s.firingsBefore k e f = [] → exec (.firingComplete k e f) s = .next
    (((((({ s with firings := s.firings.filter (fun y => !(y.core == k && y.entry == e && y.f == f)) }).givePorts k x.desc
    x.cmd).firingDone k e x).pendCheck (moverCirc x.desc) x.cmd).tileFenceCheck (s.partOfCtx x.ctx))).mirror)
  ∧ (∀ (s : State) (k e f : Nat) (r : VecRun) (x : Entry), s.entry k e = some x → descUnit x.desc = 2 → s.vecRun k = some r → r.entry = e
    → r.f = f → r.ended = true → exec (.firingComplete k e f) s = .next ((((s.givePorts k x.desc x.cmd).setVecRun k none).firingDone k e
    x)).mirror)
  ∧ (∀ (s : State) (k : Nat), exec (.moverFire k) s = .next ((s.moverFire k)).mirror)
  ∧ (∀ (s : State) (k entry f : Nat), exec (.tileResolve k entry f) s = .next ((s.tileResolve k entry f)).mirror)
  ∧ (∀ (s : State) (k entry f : Nat), exec (.tileResolveRetry k entry f) s = .next ((s.tileRetry k entry f)).mirror)
  ∧ (∀ (s : State) (k entry f : Nat), exec (.tilePoisonedRead k entry f) s = .next ((s.tilePoisoned k entry f)).mirror)
  ∧ (∀ (s : State) (k entry f : Nat), exec (.stagerFire k entry f) s = .next ((s.stagerFire k entry f)).mirror)
  ∧ (∀ (s : State) (k entry f : Nat), exec (.stagerFlip k entry f) s = .next ((s.stagerFlip k entry f)).mirror)
  ∧ (∀ (s : State) (k entry f : Nat), exec (.firingComplete k entry f) s = .next ((s.firingComplete k entry f)).mirror)

/-- A token that has crossed its circuit's last slot enters the adder's reorder buffer; the first contribution in schedule order is
applied and its credit returns; an endpoint access of SRAM is answered and counted; a write of CO_SAVE_CFG acts while the core's slots are
empty and free of queues. -/
def Obligations.ContributionsAndEndpoints : Prop :=
  (∀ (s : State) (c n : Nat) (ce : CircEntry) (t : Nat × Token), (s.hops c).length = n → n ≠ 0 → s.circEntry c = some ce → (s.circ
    c).flight.find? (fun t => t.1 == n) = some t → ce.reduce = true → ce.src / 4096 ≠ 5 → exec (.contributionArrive c) s = .next
    (({ s with contribs := s.contribs ++ [(⟨c, t.2⟩ : Contribution)] }).setCirc c
    { s.circ c with flight := (s.circ c).flight.erase t, held := (s.circ c).held + 1 }).mirror)
  ∧ (∀ (s u w v : State) (ep fl : Nat) (t : Contribution) (ce : CircEntry), s.firstContrib ep = some t → s.mustWait ep (s.contribPos t) =
    (u, false) → s.circEntry t.circ = some ce → u.contribBusy t.tok = false → ce.src / 4096 ≠ 5 →
    ({ u with contribs := u.contribs.erase t } : State) = w → w.epFenced ep = false → w.addPieces (w.moverRq (circCore ce)) t.tok
    t.tok.pieces t.tok.data = (v, stOk, fl) → exec (.contributionApply ep) s = .next (((v.retireContrib t stOk fl).setReg .MEM_ADD_FLAGS
    (epChannel ep) ((v.retireContrib t stOk fl).reg .MEM_ADD_FLAGS (epChannel ep) ||| BitVec.ofNat 64 fl)).updCmd t.tok.cmd (fun m =>
    { m with flags := m.flags ||| fl })).mirror)
  ∧ (∀ (s u w v : State) (ep fl : Nat) (t : Contribution) (ce : CircEntry) (st : Nat), s.firstContrib ep = some t → s.mustWait ep
    (s.contribPos t) = (u, false) → s.circEntry t.circ = some ce → u.contribBusy t.tok = false → ce.src / 4096 = 5 →
    ({ u with contribs := u.contribs.erase t } : State) = w → w.epFenced ep = false → w.addPieces ⟨.remote, ce.src % 4096, ce.part⟩ t.tok
    t.tok.pieces t.tok.data = (v, st, fl) → exec (.contributionApply ep) s = .next ((v.retireContrib t st fl).setReg .MEM_ADD_FLAGS
    (epChannel ep) ((v.retireContrib t st fl).reg .MEM_ADD_FLAGS (epChannel ep) ||| BitVec.ofNat 64 fl)).mirror)
  ∧ (∀ (s u : State) (rq : Requester) (a n k o st : Nat) (b : List Byte), locate a = .sram k o → s.readLocal rq a n = (u, st, b) → exec
    (.sramEndpointAccess rq a (.read n)) s = .next ((u.emit (.endpointAnswer rq.unit a st b)).countCore k 0x14 0 1).mirror)
  ∧ (∀ (s u : State) (rq : Requester) (a k o st : Nat) (d : List Byte), locate a = .sram k o → s.writeLocal rq none a d = (u, st) → exec
    (.sramEndpointAccess rq a (.write d)) s = .next ((u.emit (.endpointAnswer rq.unit a st [])).countCore k 0x14 0 1).mirror)
  ∧ (∀ (s u : State) (rq : Requester) (a p n x c k o st v : Nat), locate a = .sram k o → s.atomicLocal rq a n p x c = (u, st, v) → exec
    (.sramEndpointAccess rq a (.atomic p n x c)) s = .next ((u.emit (.endpointAnswer rq.unit a st (leBytes n v))).countCore k 0x14 0
    1).mirror)
  ∧ (∀ (s u : State) (rq : Requester) (a p n x c k o st v : Nat), locate a = .llm k o → s.atomicLocal rq a n p x c = (u, st, v) → exec
    (.llmScratchAccess rq a (.atomic p n x c)) s = .next (u.emit (.endpointAnswer rq.unit a st (leBytes n v))).mirror)
  ∧ (∀ (s u : State) (rq : Requester) (a n k o st : Nat) (b : List Byte), locate a = .llm k o → s.readLocal rq a n = (u, st, b) → exec
    (.llmScratchAccess rq a (.read n)) s = .next (u.emit (.endpointAnswer rq.unit a st b)).mirror)
  ∧ (∀ (s u : State) (rq : Requester) (a k o st : Nat) (d : List Byte), locate a = .llm k o → s.writeLocal rq none a d = (u, st) → exec
    (.llmScratchAccess rq a (.write d)) s = .next (u.emit (.endpointAnswer rq.unit a st [])).mirror)
  ∧ (∀ (s : State) (rq : Requester) (k v : Nat), s.acceptsWrite rq .CO_SAVE_CFG k = true → k < 128 → ((List.range 4).any (fun g =>
    (List.range 4).any (fun n => (s.slotHolder (4 * k + g) n).isSome))) = false → v % 8 ≤ 4 → (s.coreQueues k).any (fun x => meetsSave (v
    % 8) x.2.base x.2.bytes) = false → exec (.saveCfgWrite rq k v) s = .next (s.setFld Fld.CO_SAVE_CFG_SLOTS k v).mirror)
  ∧ (∀ (s : State) (circ : Nat), exec (.contributionArrive circ) s = .next ((s.contribArrive circ)).mirror)
  ∧ (∀ (s : State) (ep : Nat), exec (.contributionApply ep) s = .next ((s.contribApply ep)).mirror)
  ∧ (∀ (s : State) (rq : Requester) (addr : Nat) (op : MemOp), exec (.sramEndpointAccess rq addr op) s = .next ((s.sramAccess rq addr
    op)).mirror)
  ∧ (∀ (s : State) (rq : Requester) (addr : Nat) (op : MemOp), exec (.llmScratchAccess rq addr op) s = .next ((s.scratchAccess rq addr
    op)).mirror)
  ∧ (∀ (s : State) (rq : Requester) (k v : Nat), exec (.saveCfgWrite rq k v) s = .next ((if k < 128 then s.gated rq .CO_SAVE_CFG k (fun s
    => s.writeSaveCfg k v) else s)).mirror)

/-- A core that runs issues an access that no barrier and no earlier access of its own to the line holds back; one that its caches or its
requester path can do completes then; otherwise it waits. An AMO, LR or SC that is not aligned to its size traps. -/
def Obligations.CpuAccesses : Prop :=
  (∀ (s u v : State) (c a n d : Nat) (x f nc : Bool), s.cpuRuns c = true → CpuOp.sizeOk (.load a n d x f) = true →
    ({ s with nextId := s.nextId + 1 } : State) = u → u.barred c s.nextId nc (.load a n d x f) = false → u.behind c s.nextId (.load a n d
    x f) = false → u.cpuDo c nc (.load a n d x f) (u.opMark c s.nextId nc (.load a n d x f)) = (v, true) → exec (.cpuLoad c a n d x f nc)
    s = .next (v.follow c s.nextId u.nextId).mirror)
  ∧ (∀ (s u v : State) (c a n w : Nat) (nc : Bool), s.cpuRuns c = true → CpuOp.sizeOk (.store a n w) = true →
    ({ s with nextId := s.nextId + 1 } : State) = u → u.barred c s.nextId nc (.store a n w) = false → u.behind c s.nextId (.store a n w) =
    false → u.cpuDo c nc (.store a n w) (u.opMark c s.nextId nc (.store a n w)) = (v, true) → exec (.cpuStore c a n w nc) s = .next
    (v.follow c s.nextId u.nextId).mirror)
  ∧ (∀ (s u v : State) (c p a n w x d : Nat) (nc q r : Bool), s.cpuRuns c = true → CpuOp.sizeOk (.amo p a n w x d q r) = true →
    CpuOp.alignTrap (.amo p a n w x d q r) = none → ({ s with nextId := s.nextId + 1 } : State).markHolds c s.nextId (.amo p a n w x d q
    r) = u → u.barred c s.nextId nc (.amo p a n w x d q r) = false → u.behind c s.nextId (.amo p a n w x d q r) = false → u.cpuDo c nc
    (.amo p a n w x d q r) (u.opMark c s.nextId nc (.amo p a n w x d q r)) = (v, true) → exec (.cpuAmo c p a n w x d nc q r) s = .next
    (v.follow c s.nextId u.nextId).mirror)
  ∧ (∀ (s u v : State) (c a n d : Nat) (nc q r : Bool), s.cpuRuns c = true → CpuOp.sizeOk (.lr a n d q r) = true → CpuOp.alignTrap (.lr a
    n d q r) = none → ({ s with nextId := s.nextId + 1 } : State).markHolds c s.nextId (.lr a n d q r) = u → u.barred c s.nextId nc (.lr a
    n d q r) = false → u.behind c s.nextId (.lr a n d q r) = false → u.cpuDo c nc (.lr a n d q r) (u.opMark c s.nextId nc (.lr a n d q r))
    = (v, true) → exec (.cpuLr c a n d nc (q, r)) s = .next (v.follow c s.nextId u.nextId).mirror)
  ∧ (∀ (s u v : State) (c a n w d : Nat) (nc q r : Bool), s.cpuRuns c = true → CpuOp.sizeOk (.sc a n w d q r) = true → CpuOp.alignTrap
    (.sc a n w d q r) = none → ({ s with nextId := s.nextId + 1 } : State).markHolds c s.nextId (.sc a n w d q r) = u → u.barred c
    s.nextId nc (.sc a n w d q r) = false → u.behind c s.nextId (.sc a n w d q r) = false → u.cpuDo c nc (.sc a n w d q r) (u.opMark c
    s.nextId nc (.sc a n w d q r)) = (v, true) → exec (.cpuSc c a n w d nc (q, r)) s = .next (v.follow c s.nextId u.nextId).mirror)
  ∧ (∀ (s u v : State) (c a : Nat), s.cpuRuns c = true → CpuOp.sizeOk (.flush a) = true → ({ s with nextId := s.nextId + 1 } : State) = u
    → u.barred c s.nextId false (.flush a) = false → u.behind c s.nextId (.flush a) = false → u.cpuDo c false (.flush a) (u.opMark c
    s.nextId false (.flush a)) = (v, true) → exec (.cboFlush c a) s = .next (v.follow c s.nextId u.nextId).mirror)
  ∧ (∀ (s u v : State) (c a : Nat), s.cpuRuns c = true → CpuOp.sizeOk (.flush a) = true → ({ s with nextId := s.nextId + 1 } : State) = u
    → u.barred c s.nextId false (.flush a) = false → u.behind c s.nextId (.flush a) = false → u.cpuDo c false (.flush a) (u.opMark c
    s.nextId false (.flush a)) = (v, true) → exec (.cboClean c a) s = .next (v.follow c s.nextId u.nextId).mirror)
  ∧ (∀ (s u v : State) (c a : Nat), s.cpuRuns c = true → CpuOp.sizeOk (.flush a) = true → ({ s with nextId := s.nextId + 1 } : State) = u
    → u.barred c s.nextId false (.flush a) = false → u.behind c s.nextId (.flush a) = false → u.cpuDo c false (.flush a) (u.opMark c
    s.nextId false (.flush a)) = (v, true) → exec (.cboInval c a) s = .next (v.follow c s.nextId u.nextId).mirror)
  ∧ (∀ (s u v : State) (c a : Nat), s.cpuRuns c = true → CpuOp.sizeOk (.zero a) = true → ({ s with nextId := s.nextId + 1 } : State) = u →
    u.barred c s.nextId false (.zero a) = false → u.behind c s.nextId (.zero a) = false → u.cpuDo c false (.zero a) (u.opMark c s.nextId
    false (.zero a)) = (v, true) → exec (.cboZero c a) s = .next (v.follow c s.nextId u.nextId).mirror)
  ∧ (∀ (s : State) (c p a n v x d : Nat) (nc q r : Bool), s.cpuRuns c = true → n = 4 ∨ n = 8 → p ≤ 9 → a % n ≠ 0 → exec (.cpuAmo c p a n v
    x d nc q r) s = .next (s.updCpu c (fun x => { x with trap := trapStoreAlign + 1 })).mirror)
  ∧ (∀ (s : State) (c a n d : Nat) (nc q r : Bool), s.cpuRuns c = true → n = 4 ∨ n = 8 → a % n ≠ 0 → exec (.cpuLr c a n d nc (q, r)) s =
    .next (s.updCpu c (fun x => { x with trap := trapLoadAlign + 1 })).mirror)
  ∧ (∀ (s : State) (c a n v d : Nat) (nc q r : Bool), s.cpuRuns c = true → n = 4 ∨ n = 8 → a % n ≠ 0 → exec (.cpuSc c a n v d nc (q, r)) s
    = .next (s.updCpu c (fun x => { x with trap := trapStoreAlign + 1 })).mirror)
  ∧ (∀ (s u v : State) (c a n d : Nat) (x f : Bool), s.cpuRuns c = true → CpuOp.sizeOk (.load a n d x f) = true →
    ({ s with nextId := s.nextId + 1 } : State) = u → u.barred c s.nextId false (.load a n d x f) = false → u.behind c s.nextId (.load a n
    d x f) = false → cacheable a = true → u.judge (u.coreRq c) 1 a n = (v, none) → v.allLines c a n LineSt.readable = true → exec
    (.cpuLoad c a n d x f false) s = .next ((if f then v.cpuFetched c (if v.touchesPoison c a n then stPoisoned else stOk) else
    v.cpuLoaded c d n x false (if v.touchesPoison c a n then stPoisoned else stOk) (v.cachedBytes c a n)).follow c s.nextId
    u.nextId).mirror)
  ∧ (∀ (s u v : State) (c a n d : Nat) (x f : Bool), s.cpuRuns c = true → CpuOp.sizeOk (.load a n d x f) = true →
    ({ s with nextId := s.nextId + 1 } : State) = u → u.barred c s.nextId false (.load a n d x f) = false → u.behind c s.nextId (.load a n
    d x f) = false → cacheable a = true → u.judge (u.coreRq c) 1 a n = (v, none) → v.allLines c a n LineSt.readable = false → exec
    (.cpuLoad c a n d x f false) s = .next ((fun (t : State) =>
    ({ t with stalls := t.stalls ++ [(⟨s.nextId, c, false, .load a n d x f⟩ : Stall)] } : State)) (v.askLines c a n false)).mirror)
  ∧ (∀ (s u v : State) (c a n w : Nat), s.cpuRuns c = true → CpuOp.sizeOk (.store a n w) = true → ({ s with nextId := s.nextId + 1 } :
    State) = u → u.barred c s.nextId false (.store a n w) = false → u.behind c s.nextId (.store a n w) = false → cacheable a = true →
    u.judge (u.coreRq c) 2 a n = (v, none) → v.allLines c a n LineSt.writable = true → v.poisonedLine c a (leBytes n w).length = false →
    exec (.cpuStore c a n w false) s = .next ((v.writeCached c a (leBytes n w)).follow c s.nextId u.nextId).mirror)
  ∧ (∀ (s u v : State) (c p a n w x d : Nat) (q r : Bool), s.cpuRuns c = true → CpuOp.sizeOk (.amo p a n w x d q r) = true →
    CpuOp.alignTrap (.amo p a n w x d q r) = none → ({ s with nextId := s.nextId + 1 } : State).markHolds c s.nextId (.amo p a n w x d q
    r) = u → u.barred c s.nextId false (.amo p a n w x d q r) = false → u.behind c s.nextId (.amo p a n w x d q r) = false → cacheable a =
    true → u.judge (u.coreRq c) 3 a n = (v, none) → v.allLines c a n LineSt.writable = true → v.touchesPoison c a n = false → exec
    (.cpuAmo c p a n w x d false q r) s = .next (((v.writeCached c a (leBytes n (atomicResult p (8 * n) (leNat (v.cachedBytes c a n)) w
    x))).setXreg c d (loadValue n true (v.cachedBytes c a n))).follow c s.nextId u.nextId).mirror)
  ∧ (∀ (s u v : State) (c a n d : Nat) (q r : Bool), s.cpuRuns c = true → CpuOp.sizeOk (.lr a n d q r) = true → CpuOp.alignTrap (.lr a n d
    q r) = none → ({ s with nextId := s.nextId + 1 } : State).markHolds c s.nextId (.lr a n d q r) = u → u.barred c s.nextId false (.lr a
    n d q r) = false → u.behind c s.nextId (.lr a n d q r) = false → cacheable a = true → u.judge (u.coreRq c) 1 a n = (v, none) →
    v.allLines c a n LineSt.readable = true → v.touchesPoison c a n = false → exec (.cpuLr c a n d false (q, r)) s = .next
    ((((v.dropReserved c).setLine c (a / 64) { (v.dropReserved c).line c (a / 64) with reserved := true }).setXreg c d (loadValue n true
    ((v.dropReserved c).cachedBytes c a n))).follow c s.nextId u.nextId).mirror)
  ∧ (∀ (s u v : State) (c a n w d : Nat) (q r : Bool), s.cpuRuns c = true → CpuOp.sizeOk (.sc a n w d q r) = true → CpuOp.alignTrap (.sc a
    n w d q r) = none → ({ s with nextId := s.nextId + 1 } : State).markHolds c s.nextId (.sc a n w d q r) = u → u.barred c s.nextId false
    (.sc a n w d q r) = false → u.behind c s.nextId (.sc a n w d q r) = false → cacheable a = true → u.judge (u.coreRq c) 2 a n = (v,
    none) → v.allLines c a n LineSt.writable = true → v.poisonedLine c a n = false → (v.line c (a / 64)).reserved = true → exec (.cpuSc c
    a n w d false (q, r)) s = .next ((((v.writeCached c a (leBytes n w)).dropReserved c).setXreg c d 0).follow c s.nextId
    u.nextId).mirror)
  ∧ (∀ (s u v : State) (c a n w d : Nat) (q r : Bool), s.cpuRuns c = true → CpuOp.sizeOk (.sc a n w d q r) = true → CpuOp.alignTrap (.sc a
    n w d q r) = none → ({ s with nextId := s.nextId + 1 } : State).markHolds c s.nextId (.sc a n w d q r) = u → u.barred c s.nextId false
    (.sc a n w d q r) = false → u.behind c s.nextId (.sc a n w d q r) = false → cacheable a = true → u.judge (u.coreRq c) 2 a n = (v,
    none) → v.allLines c a n LineSt.writable = true → (v.line c (a / 64)).reserved = false → exec (.cpuSc c a n w d false (q, r)) s =
    .next (((v.dropReserved c).setXreg c d 1).follow c s.nextId u.nextId).mirror)
  ∧ (∀ (s u v : State) (c a : Nat), s.cpuRuns c = true → CpuOp.sizeOk (.zero a) = true → ({ s with nextId := s.nextId + 1 } : State) = u →
    u.barred c s.nextId false (.zero a) = false → u.behind c s.nextId (.zero a) = false → cacheable a = true → u.judge (u.coreRq c) 2 (a /
    64 * 64) 64 = (v, none) → v.allLines c (a / 64 * 64) 64 LineSt.writable = true → v.poisonedLine c (a / 64 * 64) 64 = false → exec
    (.cboZero c a) s = .next ((v.writeCached c (a / 64 * 64) (List.replicate 64 0)).follow c s.nextId u.nextId).mirror)
  ∧ (∀ (s u : State) (c a : Nat), s.cpuRuns c = true → ({ s with nextId := s.nextId + 1 } : State) = u → u.barred c s.nextId false (.flush
    a) = false → u.behind c s.nextId (.flush a) = false → cacheable (a / 64 * 64) = true → u.allLines c (a / 64 * 64) 1 (fun x => x ==
    .shared || x == .excl || x == .modified || x == .owned) = true → exec (.cboFlush c a) s = .next ((u.replace c (a / 64)).follow c
    s.nextId u.nextId).mirror)
  ∧ (∀ (s u : State) (c a : Nat), s.cpuRuns c = true → ({ s with nextId := s.nextId + 1 } : State) = u → u.barred c s.nextId false (.flush
    a) = false → u.behind c s.nextId (.flush a) = false → (u.line c (a / 64)).st = .inv → exec (.cboFlush c a) s = .next (u.follow c
    s.nextId u.nextId).mirror)
  ∧ (∀ (s u : State) (c a : Nat), s.cpuRuns c = true → ({ s with nextId := s.nextId + 1 } : State) = u → u.barred c s.nextId false (.flush
    a) = false → u.behind c s.nextId (.flush a) = false → cacheable (a / 64 * 64) = true → u.allLines c (a / 64 * 64) 1 (fun x => x ==
    .shared || x == .excl || x == .modified || x == .owned) = true → exec (.cboClean c a) s = .next ((u.replace c (a / 64)).follow c
    s.nextId u.nextId).mirror)
  ∧ (∀ (s u : State) (c a : Nat), s.cpuRuns c = true → ({ s with nextId := s.nextId + 1 } : State) = u → u.barred c s.nextId false (.flush
    a) = false → u.behind c s.nextId (.flush a) = false → (u.line c (a / 64)).st = .inv → exec (.cboClean c a) s = .next (u.follow c
    s.nextId u.nextId).mirror)
  ∧ (∀ (s u : State) (c a : Nat), s.cpuRuns c = true → ({ s with nextId := s.nextId + 1 } : State) = u → u.barred c s.nextId false (.flush
    a) = false → u.behind c s.nextId (.flush a) = false → cacheable (a / 64 * 64) = true → u.allLines c (a / 64 * 64) 1 (fun x => x ==
    .shared || x == .excl || x == .modified || x == .owned) = true → exec (.cboInval c a) s = .next ((u.replace c (a / 64)).follow c
    s.nextId u.nextId).mirror)
  ∧ (∀ (s u : State) (c a : Nat), s.cpuRuns c = true → ({ s with nextId := s.nextId + 1 } : State) = u → u.barred c s.nextId false (.flush
    a) = false → u.behind c s.nextId (.flush a) = false → (u.line c (a / 64)).st = .inv → exec (.cboInval c a) s = .next (u.follow c
    s.nextId u.nextId).mirror)
  ∧ (∀ (s : State) (c a : Nat) (w : Bool), s.cpuRuns c = true → cacheable a = true → s.judge (s.coreRq c) (if w then 2 else 1) (a / 64 *
    64) 64 = (s, none) → (s.line c (a / 64)).st = .inv → exec (.prefetch c a w) s = .next (s.agentAsk c (a / 64) w).mirror)
  ∧ (∀ (s : State) (cpu addr size rd : Nat) (signed fetch nc : Bool), exec (.cpuLoad cpu addr size rd signed fetch nc) s = .next
    ((s.cpuIssue cpu nc (.load addr size rd signed fetch))).mirror)
  ∧ (∀ (s : State) (cpu addr size value : Nat) (nc : Bool), exec (.cpuStore cpu addr size value nc) s = .next ((s.cpuIssue cpu nc (.store
    addr size value))).mirror)
  ∧ (∀ (s : State) (cpu aop addr size value cmp rd : Nat) (nc aq rl : Bool), exec (.cpuAmo cpu aop addr size value cmp rd nc aq rl) s =
    .next ((s.cpuIssue cpu nc (.amo aop addr size value cmp rd aq rl))).mirror)
  ∧ (∀ (s : State) (cpu addr size rd : Nat) (nc : Bool) (aqrl : Bool × Bool), exec (.cpuLr cpu addr size rd nc aqrl) s = .next
    ((s.cpuIssue cpu nc (.lr addr size rd aqrl.1 aqrl.2))).mirror)
  ∧ (∀ (s : State) (cpu addr size value rd : Nat) (nc : Bool) (aqrl : Bool × Bool), exec (.cpuSc cpu addr size value rd nc aqrl) s = .next
    ((s.cpuIssue cpu nc (.sc addr size value rd aqrl.1 aqrl.2))).mirror)
  ∧ (∀ (s : State) (cpu addr : Nat), exec (.cboFlush cpu addr) s = .next ((s.cpuIssue cpu false (.flush addr))).mirror)
  ∧ (∀ (s : State) (cpu addr : Nat), exec (.cboClean cpu addr) s = .next ((s.cpuIssue cpu false (.flush addr))).mirror)
  ∧ (∀ (s : State) (cpu addr : Nat), exec (.cboInval cpu addr) s = .next ((s.cpuIssue cpu false (.flush addr))).mirror)
  ∧ (∀ (s : State) (cpu addr : Nat), exec (.cboZero cpu addr) s = .next ((s.cpuIssue cpu false (.zero addr))).mirror)
  ∧ (∀ (s : State) (cpu addr : Nat) (w : Bool), exec (.prefetch cpu addr w) s = .next ((s.prefetch cpu addr w)).mirror)

/-- FENCE holds later accesses of its successor classes behind earlier ones of its predecessor classes; FENCE.TSO orders reads before all
and writes before writes; FENCE.ORDER orders all; FENCE.COMPLETE waits as well; an undefined Xtzfence encoding raises the
illegal-instruction exception; SFENCE.VMA changes no state of the device. -/
def Obligations.CpuFences : Prop :=
  (∀ (s : State) (c p q : Nat) (b : Bool), s.cpuRuns c = true → exec (.fence c p q b) s = .next ((if b then s.barrierTso c else s.barrier
    c (p % 16) (q % 16))).mirror)
  ∧ (∀ (s : State) (c : Nat), s.cpuRuns c = true → exec (.fenceOrder c) s = .next (s.barrier c 15 15).mirror)
  ∧ (∀ (s : State) (c d : Nat), s.cpuRuns c = true → exec (.fenceComplete c d) s = .next (((s.barrier c 15 15).updCpu c (fun x =>
    { x with fenceRd := some d })).tryFence c).mirror)
  ∧ (∀ (s : State) (c w : Nat), s.cpuRuns c = true → xtzfenceBad w = true → exec (.xtzfenceIllegal c w) s = .next (s.updCpu c (fun x =>
    { x with trap := trapIllegal + 1 })).mirror)
  ∧ (∀ (s : State) (c : Nat), exec (.sfenceVma c) s = .next (s).mirror)
  ∧ (∀ (s : State) (cpu pred succ : Nat) (tso : Bool), exec (.fence cpu pred succ tso) s = .next ((s.fence cpu pred succ tso)).mirror)
  ∧ (∀ (s : State) (cpu : Nat), exec (.fenceOrder cpu) s = .next ((if s.cpuRuns cpu then s.barrier cpu 15 15 else s)).mirror)
  ∧ (∀ (s : State) (cpu rd : Nat), exec (.fenceComplete cpu rd) s = .next ((s.fenceComplete cpu rd)).mirror)
  ∧ (∀ (s : State) (cpu word : Nat), exec (.xtzfenceIllegal cpu word) s = .next ((if s.cpuRuns cpu ∧ xtzfenceBad word then s.trapCpu cpu
    trapIllegal else s)).mirror)

/-- R312, R317, R321: a request of an agent, and one of a non-caching requester, reaches the home of its line, which begins its
transaction or queues it; at a fenced base die it ends there (R330). -/
def Obligations.CoherenceRequests : Prop :=
  (∀ (s : State) (m : Msg), m.agent < 96 → (homeOf m.line).isSome = true → s.net.contains (rowMsg mRdS m) = true → s.homeFenced m.line =
    false → exec (.rdS m) s = .next ((s.deliver (rowMsg mRdS m)).homeRequest (rowMsg mRdS m)).mirror)
  ∧ (∀ (s : State) (m : Msg), m.agent < 96 → (homeOf m.line).isSome = true → s.net.contains (rowMsg mRdX m) = true → s.homeFenced m.line =
    false → exec (.rdX m) s = .next ((s.deliver (rowMsg mRdX m)).homeRequest (rowMsg mRdX m)).mirror)
  ∧ (∀ (s : State) (m : Msg), m.agent < 96 → (homeOf m.line).isSome = true → s.net.contains (rowMsg mUpg m) = true → s.homeFenced m.line =
    false → exec (.upg m) s = .next ((s.deliver (rowMsg mUpg m)).homeRequest (rowMsg mUpg m)).mirror)
  ∧ (∀ (s : State) (m : Msg), m.agent < 96 → (homeOf m.line).isSome = true → s.net.contains (rowMsg mPutM m) = true → s.homeFenced m.line
    = false → exec (.putM m) s = .next ((s.deliver (rowMsg mPutM m)).homeRequest (rowMsg mPutM m)).mirror)
  ∧ (∀ (s : State) (m : Msg), m.agent < 96 → (homeOf m.line).isSome = true → s.net.contains (rowMsg mPutO m) = true → s.homeFenced m.line
    = false → exec (.putO m) s = .next ((s.deliver (rowMsg mPutO m)).homeRequest (rowMsg mPutO m)).mirror)
  ∧ (∀ (s u : State) (m : Msg), m.agent < 96 → (homeOf m.line).isSome = true → s.net.contains (rowMsg mRdS m) = false → s.homeFenced
    m.line = false → (s.line m.agent m.line).st = .inv → (s.setLine m.agent m.line { Line.empty with st := .isD }) = u → exec (.rdS m) s =
    .next ((u.deliver (rowMsg mRdS m)).homeRequest (rowMsg mRdS m)).mirror)
  ∧ (∀ (s u : State) (m : Msg), m.agent < 96 → (homeOf m.line).isSome = true → s.net.contains (rowMsg mRdX m) = false → s.homeFenced
    m.line = false → (s.line m.agent m.line).st = .inv → (s.setLine m.agent m.line { Line.empty with st := .imD }) = u → exec (.rdX m) s =
    .next ((u.deliver (rowMsg mRdX m)).homeRequest (rowMsg mRdX m)).mirror)
  ∧ (∀ (s u : State) (m : Msg), m.agent < 96 → (homeOf m.line).isSome = true → s.net.contains (rowMsg mUpg m) = false → s.homeFenced
    m.line = false → (s.line m.agent m.line).st = .shared → (s.setLine m.agent m.line { s.line m.agent m.line with st := .smA }) = u →
    exec (.upg m) s = .next ((u.deliver (rowMsg mUpg m)).homeRequest (rowMsg mUpg m)).mirror)
  ∧ (∀ (s u : State) (m : Msg), m.agent < 96 → (homeOf m.line).isSome = true → s.net.contains (rowMsg mUpg m) = false → s.homeFenced
    m.line = false → (s.line m.agent m.line).st = .owned → (s.setLine m.agent m.line { s.line m.agent m.line with st := .omA }) = u → exec
    (.upg m) s = .next ((u.deliver (rowMsg mUpg m)).homeRequest (rowMsg mUpg m)).mirror)
  ∧ (∀ (s u : State) (m p : Msg), m.agent < 96 → (homeOf m.line).isSome = true → s.net.contains (rowMsg mPutM m) = false → s.homeFenced
    m.line = false → (s.line m.agent m.line).st = .modified →
    ({ msg mPutM m.line m.agent with data := (s.line m.agent m.line).data, poison := (s.line m.agent m.line).poison } : Msg) = p → (s.send
    p).setLine m.agent m.line { s.line m.agent m.line with st := .miA, reserved := false } = u → exec (.putM m) s = .next ((u.deliver
    p).homeRequest p).mirror)
  ∧ (∀ (s u : State) (m p : Msg), m.agent < 96 → (homeOf m.line).isSome = true → s.net.contains (rowMsg mPutO m) = false → s.homeFenced
    m.line = false → (s.line m.agent m.line).st = .owned →
    ({ msg mPutO m.line m.agent with data := (s.line m.agent m.line).data, poison := (s.line m.agent m.line).poison } : Msg) = p → (s.send
    p).setLine m.agent m.line { s.line m.agent m.line with st := .oiA, reserved := false } = u → exec (.putO m) s = .next ((u.deliver
    p).homeRequest p).mirror)
  ∧ (∀ (s : State) (m : Msg), m.agent < 96 → (homeOf m.line).isSome = true → s.net.contains (rowMsg mRdS m) = true → s.homeFenced m.line =
    true → exec (.rdS m) s = .next ((s.deliver (rowMsg mRdS m)).fencedAnswer (rowMsg mRdS m)).mirror)
  ∧ (∀ (s : State) (m : Msg), (homeOf m.line).isSome = true → s.homeFenced m.line = false → m.off + max m.len m.data.length ≤ 64 → exec
    (.ncRd m) s = .next ((s.deliver { rowMsg mNCRd m with agent := ncAgent }).homeRequest
    { rowMsg mNCRd m with agent := ncAgent }).mirror)
  ∧ (∀ (s : State) (m : Msg), (homeOf m.line).isSome = true → s.homeFenced m.line = false → max m.len m.data.length ≤ 64 → exec (.ncWr m)
    s = .next ((s.deliver { rowMsg mNCWr { m with off := 0 } with agent := ncAgent }).homeRequest
    { rowMsg mNCWr { m with off := 0 } with agent := ncAgent }).mirror)
  ∧ (∀ (s : State) (m : Msg), (homeOf m.line).isSome = true → s.homeFenced m.line = false → m.off + max m.len m.data.length ≤ 64 → exec
    (.ncWrP m) s = .next ((s.deliver { rowMsg mNCWrP m with agent := ncAgent }).homeRequest
    { rowMsg mNCWrP m with agent := ncAgent }).mirror)
  ∧ (∀ (s : State) (m : Msg), (homeOf m.line).isSome = true → s.homeFenced m.line = false → exec (.ncAtom m) s = .next ((s.deliver
    { rowMsg mNCAtom m with agent := ncAgent }).homeRequest { rowMsg mNCAtom m with agent := ncAgent }).mirror)
  ∧ (∀ (s : State) (m : Msg), (homeOf m.line).isSome = true → s.homeFenced m.line = false → m.off + max m.len m.data.length ≤ 64 → exec
    (.zeroL m) s = .next ((s.deliver { rowMsg mZeroL m with agent := ncAgent }).homeRequest
    { rowMsg mZeroL m with agent := ncAgent }).mirror)
  ∧ (∀ (s : State) (m : Msg), exec (.rdS m) s = .next ((s.agentRequest mRdS m)).mirror)
  ∧ (∀ (s : State) (m : Msg), exec (.rdX m) s = .next ((s.agentRequest mRdX m)).mirror)
  ∧ (∀ (s : State) (m : Msg), exec (.upg m) s = .next ((s.agentRequest mUpg m)).mirror)
  ∧ (∀ (s : State) (m : Msg), exec (.putM m) s = .next ((s.agentRequest mPutM m)).mirror)
  ∧ (∀ (s : State) (m : Msg), exec (.putO m) s = .next ((s.agentRequest mPutO m)).mirror)
  ∧ (∀ (s : State) (m : Msg), exec (.ncRd m) s = .next ((s.ncRequest mNCRd m)).mirror)
  ∧ (∀ (s : State) (m : Msg), exec (.ncWr m) s = .next ((s.ncRequest mNCWr { m with off := 0 })).mirror)
  ∧ (∀ (s : State) (m : Msg), exec (.ncWrP m) s = .next ((s.ncRequest mNCWrP m)).mirror)
  ∧ (∀ (s : State) (m : Msg), exec (.ncAtom m) s = .next ((s.ncRequest mNCAtom m)).mirror)
  ∧ (∀ (s : State) (m : Msg), exec (.zeroL m) s = .next ((s.ncRequest mZeroL m)).mirror)

/-- R319: memory data, in the share that R30 and R232 give, ends HB_MEM with the grant that R317 names; a response that its transaction
awaits is recorded, and the last one settles it under R318; the acknowledgement of the agent granted ends HB_ACK, and the line's next
waiting request starts. -/
def Obligations.HomeTransactions : Prop :=
  (∀ (s u : State) (l p : Nat) (t : Tx) (b : List Byte), s.homeFenced l = false → (s.home l).tx = some t → t.st = .mem → s.mayServe l =
    true → t.req.code = mRdS → (s.home l).st = .di → s.memLine (s.msgRq t.req) l = (u, b, p) → exec (.homeMemoryData l) s = .next (u.grant
    t.req { s.home l with st := .dx, owner := t.req.agent, sharers := 0 } mDataE b p).mirror)
  ∧ (∀ (s u : State) (l p : Nat) (t : Tx) (b : List Byte), s.homeFenced l = false → (s.home l).tx = some t → t.st = .mem → s.mayServe l =
    true → t.req.code = mRdX → s.memLine (s.msgRq t.req) l = (u, b, p) → exec (.homeMemoryData l) s = .next (u.grant t.req
    { s.home l with st := .dx, owner := t.req.agent, sharers := 0 } mDataM b p).mirror)
  ∧ (∀ (s : State) (l : Nat) (t : Tx), s.homeFenced l = false → (s.home l).tx = some t → t.st = .mem → s.mayServe l = true → exec
    (.homeMemoryData l) s = .next (s.memoryServed l (s.home l) t).mirror)
  ∧ (∀ (s : State) (l : Nat) (t : Tx), s.homeFenced l = false → (s.home l).tx = some t → t.st = .mem → s.mayServe l = false → exec
    (.homeMemoryData l) s = .next (s).mirror)
  ∧ (∀ (s : State) (m : Msg), m.agent < 96 → (homeOf m.line).isSome = true → s.homeFenced m.line = false → exec (.rspI m) s = .next
    ((s.deliver (rowMsg mRspI m)).homeResponse (rowMsg mRspI m)).mirror)
  ∧ (∀ (s : State) (m : Msg), m.agent < 96 → (homeOf m.line).isSome = true → s.homeFenced m.line = false → exec (.rspS m) s = .next
    ((s.deliver (rowMsg mRspS m)).homeResponse (rowMsg mRspS m)).mirror)
  ∧ (∀ (s : State) (m : Msg), m.agent < 96 → (homeOf m.line).isSome = true → s.homeFenced m.line = false → exec (.rspV m) s = .next
    ((s.deliver (rowMsg mRspV m)).homeResponse (rowMsg mRspV m)).mirror)
  ∧ (∀ (s : State) (m : Msg), m.agent < 96 → (homeOf m.line).isSome = true → s.homeFenced m.line = false → exec (.rspOd m) s = .next
    ((s.deliver (rowMsg mRspOD m)).homeResponse (rowMsg mRspOD m)).mirror)
  ∧ (∀ (s : State) (m : Msg), m.agent < 96 → (homeOf m.line).isSome = true → s.homeFenced m.line = false → exec (.rspSd m) s = .next
    ((s.deliver (rowMsg mRspSD m)).homeResponse (rowMsg mRspSD m)).mirror)
  ∧ (∀ (s : State) (m : Msg), m.agent < 96 → (homeOf m.line).isSome = true → s.homeFenced m.line = false → exec (.rspId m) s = .next
    ((s.deliver (rowMsg mRspID m)).homeResponse (rowMsg mRspID m)).mirror)
  ∧ (∀ (s : State) (m : Msg) (t : Tx), m.agent < 96 → (homeOf m.line).isSome = true → s.homeFenced m.line = false → (s.home m.line).tx =
    some t → t.st = .ack → t.req.agent = m.agent → exec (.cmpAck m) s = .next ((s.deliver (rowMsg mCmpAck m)).homeEnd m.line (s.home
    m.line)).mirror)
  ∧ (∀ (s : State) (line : Nat), exec (.homeMemoryData line) s = .next ((if s.homeFenced line then s else s.memoryData line)).mirror)
  ∧ (∀ (s : State) (m : Msg), exec (.rspI m) s = .next ((s.response mRspI m)).mirror)
  ∧ (∀ (s : State) (m : Msg), exec (.rspS m) s = .next ((s.response mRspS m)).mirror)
  ∧ (∀ (s : State) (m : Msg), exec (.rspV m) s = .next ((s.response mRspV m)).mirror)
  ∧ (∀ (s : State) (m : Msg), exec (.rspOd m) s = .next ((s.response mRspOD m)).mirror)
  ∧ (∀ (s : State) (m : Msg), exec (.rspSd m) s = .next ((s.response mRspSD m)).mirror)
  ∧ (∀ (s : State) (m : Msg), exec (.rspId m) s = .next ((s.response mRspID m)).mirror)
  ∧ (∀ (s : State) (m : Msg), exec (.cmpAck m) s = .next ((s.ackRow m)).mirror)

/-- R316: an agent that awaits data installs the line, acknowledges and, where the caches are full, gives a line up (R309); a grant of
ownership makes the copy it holds M; CmpPut ends the eviction; an answer to a part of a non-caching access completes it once it is the
last. What waited for the line goes on. -/
def Obligations.AgentGrants : Prop :=
  (∀ (s : State) (m : Msg), m.agent < 96 → (homeOf m.line).isSome = true → (s.line m.agent m.line).st = .isD → exec (.dataS m) s = .next
    (((((s.deliver (rowMsg mDataS m)).setLine m.agent m.line ⟨.shared, (rowMsg mDataS m).data, m.poison, false⟩).respond mCmpAck m.line
    m.agent).fitLine m.agent m.line).wakeCpu m.agent).mirror)
  ∧ (∀ (s : State) (m : Msg), m.agent < 96 → (homeOf m.line).isSome = true → (s.line m.agent m.line).st = .isD → exec (.dataE m) s = .next
    (((((s.deliver (rowMsg mDataE m)).setLine m.agent m.line ⟨.excl, (rowMsg mDataE m).data, m.poison, false⟩).respond mCmpAck m.line
    m.agent).fitLine m.agent m.line).wakeCpu m.agent).mirror)
  ∧ (∀ (s : State) (m : Msg), m.agent < 96 → (homeOf m.line).isSome = true → (s.line m.agent m.line).st = .imD → exec (.dataM m) s = .next
    (((((s.deliver (rowMsg mDataM m)).setLine m.agent m.line ⟨.modified, (rowMsg mDataM m).data, m.poison, false⟩).respond mCmpAck m.line
    m.agent).fitLine m.agent m.line).wakeCpu m.agent).mirror)
  ∧ (∀ (s : State) (m : Msg), m.agent < 96 → (homeOf m.line).isSome = true → (s.line m.agent m.line).st = .smA → exec (.gntM m) s = .next
    ((((s.deliver (rowMsg mGntM m)).setLine m.agent m.line
    { s.line m.agent m.line with st := .modified, poison := (s.line m.agent m.line).poison ||| m.poison }).respond mCmpAck m.line
    m.agent).wakeCpu m.agent).mirror)
  ∧ (∀ (s : State) (m : Msg), m.agent < 96 → (homeOf m.line).isSome = true → (s.line m.agent m.line).st = .miA → exec (.cmpPut m) s =
    .next (((s.deliver (rowMsg mCmpPut m)).setLine m.agent m.line Line.empty).wakeCpu m.agent).mirror)
  ∧ (∀ (s u : State) (m : Msg) (o : OpenAccess), s.deliver { m with code := mNCCmp } = u → u.opens.find? (fun o => o.id == m.tag) = some o
    → o.left ≤ 1 → exec (.ncCmp m) s = .next (u.finishAccess o.id (worse o.worst m.off) (((insertPart (m.line, m.data) o.got).map
    (·.2)).flatten)).mirror)
  ∧ (∀ (s u : State) (m : Msg) (o : OpenAccess), s.deliver { m with code := mNCCmp } = u → u.opens.find? (fun o => o.id == m.tag) = some o
    → 1 < o.left → exec (.ncCmp m) s = .next
    ({ u with opens := u.opens.map (fun (x : OpenAccess) => if x.id = o.id then { x with left := x.left - 1, got := insertPart (m.line, m.data) o.got, worst := worse o.worst m.off } else x) }).mirror)
  ∧ (∀ (s u : State) (m : Msg) (o : OpenAccess), s.deliver { m with code := mNCData } = u → u.opens.find? (fun o => o.id == m.tag) = some
    o → o.left ≤ 1 → exec (.ncData m) s = .next (u.finishAccess o.id (worse o.worst m.off) (((insertPart (m.line, m.data) o.got).map
    (·.2)).flatten)).mirror)
  ∧ (∀ (s u : State) (m : Msg), s.deliver { m with code := mNCData } = u → u.opens.find? (fun o => o.id == m.tag) = none → exec (.ncData
    m) s = .next (u).mirror)
  ∧ (∀ (s : State) (m : Msg), exec (.dataS m) s = .next (((s.toAgent mDataS m (fun s m => s.agentData m .shared)).wakeCpu
    m.agent)).mirror)
  ∧ (∀ (s : State) (m : Msg), exec (.dataE m) s = .next (((s.toAgent mDataE m (fun s m => s.agentData m .excl)).wakeCpu m.agent)).mirror)
  ∧ (∀ (s : State) (m : Msg), exec (.dataM m) s = .next (((s.toAgent mDataM m State.agentDataM).wakeCpu m.agent)).mirror)
  ∧ (∀ (s : State) (m : Msg), exec (.gntM m) s = .next (((s.toAgent mGntM m State.agentGntM).wakeCpu m.agent)).mirror)
  ∧ (∀ (s : State) (m : Msg), exec (.cmpPut m) s = .next (((s.toAgent mCmpPut m State.agentCmpPut).wakeCpu m.agent)).mirror)
  ∧ (∀ (s : State) (m : Msg), exec (.ncCmp m) s = .next ((s.ncAnswer mNCCmp m)).mirror)
  ∧ (∀ (s : State) (m : Msg), exec (.ncData m) s = .next ((s.ncAnswer mNCData m)).mirror)

/-- R316 with the Errors of R325: for every state of the line, each of the three snoops is answered with the response of the table and
takes the line to the table's next state; no other line changes. -/
def Obligations.AgentSnoops : Prop :=
  (∀ (s : State) (m : Msg), exec (.snpS m) s = .next ((s.toAgent mSnpS m State.agentSnpS).wakeCpu m.agent).mirror ∧ exec (.snpInv m) s = .next ((s.toAgent mSnpInv m State.agentSnpInv).wakeCpu m.agent).mirror ∧
    exec (.snpRcl m) s = .next ((s.toAgent mSnpRcl m State.agentSnpRcl).wakeCpu m.agent).mirror) ∧
  ∀ (s : State) (m : Msg), m.line < 2 ^ 46 → m.agent < 96 → (homeOf m.line).isSome = true → s.stalls.filter (fun x => x.cpu == m.agent) = [] →
    ∀ q : LineSt × LineSt × Nat × LineSt × Nat × LineSt × Nat, q ∈ [
        (.inv, .inv, mRspI, .inv, mRspI, .inv, mRspI),
        (.shared, .inv, mRspID, .inv, mRspI, .inv, mRspID),
        (.excl, .shared, mRspS, .inv, mRspI, .excl, mRspV),
        (.modified, .owned, mRspOD, .inv, mRspID, .shared, mRspSD),
        (.owned, .owned, mRspOD, .inv, mRspID, .shared, mRspSD),
        (.isD, .isD, mRspI, .isD, mRspI, .isD, mRspI),
        (.imD, .imD, mRspI, .imD, mRspI, .imD, mRspI),
        (.smA, .inv, mRspID, .imD, mRspI, .inv, mRspID),
        (.omA, .omA, mRspOD, .imD, mRspID, .smA, mRspSD),
        (.miA, .oiA, mRspOD, .iiA, mRspID, .iiA, mRspSD),
        (.oiA, .oiA, mRspOD, .iiA, mRspID, .iiA, mRspSD),
        (.iiA, .iiA, mRspID, .iiA, mRspI, .iiA, mRspID)] → (s.line m.agent m.line).st = q.1 →
      (∃ t r, exec (.snpS m) s = .next t ∧ (t.line m.agent m.line).st = q.2.1 ∧ t.net = s.net.erase (rowMsg mSnpS m) ++ [r] ∧ r.code = q.2.2.1 ∧ r.line = m.line ∧
        ∀ a l, l < 2 ^ 46 → (a, l) ≠ (m.agent, m.line) → t.line a l = s.line a l) ∧
      (∃ t r, exec (.snpInv m) s = .next t ∧ (t.line m.agent m.line).st = q.2.2.2.1 ∧ t.net = s.net.erase (rowMsg mSnpInv m) ++ [r] ∧ r.code = q.2.2.2.2.1 ∧ r.line = m.line ∧
        ∀ a l, l < 2 ^ 46 → (a, l) ≠ (m.agent, m.line) → t.line a l = s.line a l) ∧
      (∃ t r, exec (.snpRcl m) s = .next t ∧ (t.line m.agent m.line).st = q.2.2.2.2.2.1 ∧ t.net = s.net.erase (rowMsg mSnpRcl m) ++ [r] ∧ r.code = q.2.2.2.2.2.2 ∧ r.line = m.line ∧
        ∀ a l, l < 2 ^ 46 → (a, l) ≠ (m.agent, m.line) → t.line a l = s.line a l)

/-- A beat of a channel's share serves what waits by rank (R232): refresh at its deadline, requests in order of arrival, the cache's work,
corrections, refresh, a scrub read; a scrub read takes the next granule and counts a pass at the end; a temperature sample and a floor
give a refresh level that applies at a multiple of 64 beats; a writeback empties one entry; an uncorrectable error disables its way;
software re-enables ways and zeroes lines. -/
def Obligations.MemoryChannels : Prop :=
  (∀ (s : State) (c k : Nat), (s.shareMask c) = some k → bit k (s.ft % 64) = true → s.channelRuns c = true → ((s.memCtl c).refBeat != some
    s.ft) = true → s.refreshLate c = true → exec (.coherentShareBeat c) s = .next (s.takeShareBeat c).mirror)
  ∧ (∀ (s : State) (c k l : Nat) (t : Tx), (s.shareMask c) = some k → bit k (s.ft % 64) = true → s.channelRuns c = true → ((s.memCtl
    c).refBeat != some s.ft) = true → s.refreshLate c = false → s.nextAwaiting c = some (l, t) → exec (.coherentShareBeat c) s = .next
    (s.memoryServed l (s.home l) t).mirror)
  ∧ (∀ (s : State) (c k : Nat) (e : CacheJob), (s.shareMask c) = some k → bit k (s.ft % 64) = true → s.channelRuns c = true → ((s.memCtl
    c).refBeat != some s.ft) = true → s.refreshLate c = false → s.nextAwaiting c = none → s.cacheWork c = some e → exec
    (.coherentShareBeat c) s = .next (s.cacheJob e).mirror)
  ∧ (∀ (s : State) (c k g : Nat), (s.shareMask c) = some k → bit k (s.ft % 64) = true → s.channelRuns c = true → ((s.memCtl c).refBeat !=
    some s.ft) = true → s.refreshLate c = false → s.nextAwaiting c = none → s.cacheWork c = none → s.correctionOf c = some g → exec
    (.coherentShareBeat c) s = .next (s.correct g).mirror)
  ∧ (∀ (s : State) (c k : Nat), (s.shareMask c) = some k → bit k (s.ft % 64) = true → s.channelRuns c = true → ((s.memCtl c).refBeat !=
    some s.ft) = true → s.refreshLate c = false → s.nextAwaiting c = none → s.cacheWork c = none → s.correctionOf c = none → exec
    (.coherentShareBeat c) s = .next ((if s.refreshEarly c then s.takeShareBeat c else s.scrubNext c)).mirror)
  ∧ (∀ (s u : State) (c : Nat), s.shareBeatOf c = true → s.workWaits c = false → s.fld Fld.MEM_SCRUB_PERIOD c ≠ 0 → s.scrubDue c ≤ s.ft →
    (s.readGranule (channelBase c + (s.memCtl c).scrub) .scrub).1 = u → (s.memCtl c).scrub + 32 < channelUsable c → exec (.scrubRead c) s
    = .next (u.setMemCtl c { u.memCtl c with scrub := (s.memCtl c).scrub + 32 }).mirror)
  ∧ (∀ (s u : State) (c : Nat), s.shareBeatOf c = true → s.workWaits c = false → s.fld Fld.MEM_SCRUB_PERIOD c ≠ 0 → s.scrubDue c ≤ s.ft →
    (s.readGranule (channelBase c + (s.memCtl c).scrub) .scrub).1 = u → channelUsable c ≤ (s.memCtl c).scrub + 32 → exec (.scrubRead c) s
    = .next ((u.setMemCtl c
    { u.memCtl c with scrub := 0, passStart := max u.ft ((s.memCtl c).passStart + u.fld Fld.MEM_SCRUB_PERIOD c * 125000000) }).bump
    Fld.MEM_SCRUB_PASSES c).mirror)
  ∧ (∀ (s : State) (c : Nat), s.shareBeatOf c = true → s.workWaits c = false → s.ft < s.scrubDue c → exec (.scrubRead c) s = .next
    (s).mirror)
  ∧ (∀ (s : State) (c t : Nat), exec (.memTempSample c t) s = .next ((s.setFld Fld.MEM_REFRESH_TEMP c (min t 255)).setRefresh c
    { s.memCtl c with tempLevel := refreshLevel (s.memCtl c).tempLevel t }).mirror)
  ∧ (∀ (s : State) (c l : Nat), (s.memCtl c).pending = some l → s.ft % 64 = 0 → exec (.refreshLevelApply c) s = .next (((s.setFld
    Fld.MEM_REFRESH_LEVEL c l).setMemCtl c { s.memCtl c with pending := none }).refreshClamp).mirror)
  ∧ (∀ (s : State) (rq : Requester) (c v : Nat), s.acceptsWrite rq .MEM_REFRESH c = true → c < 40 → v % 4 ≠ 3 → exec (.refreshFloorWrite
    rq c v) s = .next (((s.setFld Fld.MEM_REFRESH_FLOOR c v).setRefresh c (s.memCtl c)).refreshClamp).mirror)
  ∧ (∀ (s : State) (rq : Requester) (c v : Nat), s.acceptsWrite rq .MEM_REFRESH c = true → c < 40 → v % 4 = 3 → exec (.refreshFloorWrite
    rq c v) s = .next (s).mirror)
  ∧ (∀ (s : State) (k : Nat) (e : CacheJob), s.cacheWork k = some e → e.fill = none → s.shareBeatOf k = true → s.demandWaits k = false →
    exec (.llmWriteback k) s = .next ((((({ s with wbuf := s.wbuf.erase e }).countHub 8 (e.stack / 2) 1).countHub 8 4 1).countChannel
    e.addr 256 true).settleWays (e.stack / 2)).mirror)
  ∧ (∀ (s : State) (i w : Nat) (l : List Nat), i < 64 → w < 16 → s.flag Fld.LLM_SLICE_MODE i = true → s.wayOff i w = false → (s.wayHealth
    i w).disabling = false → exec (.wayDisable i w true l) s = .next (s.disableWay i w 2 l).mirror)
  ∧ (∀ (s u : State) (i w : Nat) (l : List Nat), i < 64 → w < 16 → s.flag Fld.LLM_SLICE_MODE i = true → s.wayOff i w = false →
    (s.wayHealth i w).disabling = false → (s.bump Fld.LLM_SLICE_CORRECTED i).setWayHealth i w
    { s.wayHealth i w with beats := (s.ft :: (s.wayHealth i w).beats).take 3 } = u → exec (.wayDisable i w false l) s = .next ((if
    (s.wayHealth i w).beats.length = 3 ∧ u.ft < (s.wayHealth i w).beats.getD 2 0 + 125000000 then u.disableWay i w 1 l else u)).mirror)
  ∧ (∀ (s : State) (rq : Requester) (i m : Nat), s.acceptsWrite rq .LLM_SLICE i = true → i < 64 → exec (.wayReenable rq i m) s = .next
    ((bitsOf 16 (s.fld Fld.LLM_SLICE_DISABLED i &&& m)).foldl (fun s w => s.setWayHealth i w WayHealth.init) (s.setFld
    Fld.LLM_SLICE_DISABLED i (s.fld Fld.LLM_SLICE_DISABLED i - (s.fld Fld.LLM_SLICE_DISABLED i &&& m % 2 ^ 16)))).mirror)
  ∧ (∀ (s u : State) (rq : Requester) (d w : Nat), s.acceptsWrite rq .LLM_ZERO d = true → d < 4 → bit w 0 = true → s.zeroBusy d = false →
    ((s.setFld Fld.LLM_ZERO_LINES d (getBits w 52 12)).setFld Fld.LLM_ZERO_ADDR d (getBits w 10 42)).zeroLines d (getBits w 10 42 * 1024)
    (getBits w 52 12 + 1) = u → exec (.llmZero rq d w) s = .next (u.setFld Fld.LLM_ZERO_GO d (if u.zeroBusy d then 1 else 0)).mirror)
  ∧ (∀ (s : State) (ch : Nat), exec (.coherentShareBeat ch) s = .next ((s.shareBeat ch)).mirror)
  ∧ (∀ (s : State) (ch : Nat), exec (.scrubRead ch) s = .next ((s.scrubRead ch)).mirror)
  ∧ (∀ (s : State) (ch : Nat), exec (.refreshLevelApply ch) s = .next ((s.refreshApply ch)).mirror)
  ∧ (∀ (s : State) (rq : Requester) (ch v : Nat), exec (.refreshFloorWrite rq ch v) s = .next ((if ch < 40 then s.gated rq .MEM_REFRESH ch
    (fun s => s.writeFloor ch v) else s)).mirror)
  ∧ (∀ (s : State) (stack : Nat), exec (.llmWriteback stack) s = .next ((s.llmWriteback stack)).mirror)
  ∧ (∀ (s : State) (slice way : Nat) (uncorrectable : Bool) (bad : List Nat), exec (.wayDisable slice way uncorrectable bad) s = .next
    ((s.wayError slice way uncorrectable bad)).mirror)
  ∧ (∀ (s : State) (rq : Requester) (slice mask : Nat), exec (.wayReenable rq slice mask) s = .next ((if slice < 64 then s.gated rq
    .LLM_SLICE slice (fun s => s.wayReenable slice mask) else s)).mirror)
  ∧ (∀ (s : State) (rq : Requester) (die w : Nat), exec (.llmZero rq die w) s = .next ((if die < 4 then s.gated rq .LLM_ZERO die (fun s =>
    s.writeLlmZero die w) else s)).mirror)

/-- A tile fence marks the firings that it waits for; a miss starts a walk at the deepest level known; a leaf entry without a fault ends
the walk in the requester's cache, a pointer takes it one level down; an invalidation drops what it matches, and GO clears once no access
through a dropped entry is outstanding. -/
def Obligations.Translations : Prop :=
  (∀ (s : State) (rq : Requester) (p : Nat), s.acceptsWrite rq .HUB_TT_CTL p = true → p < 16 → exec (.tileFence rq p) s = .next
    (({ s.raise Fld.HUB_TT_CTL_FENCE p with firings := s.firings.map (fun (f : Firing) => if f.resolvedAt.isSome && ((s.entry f.core f.entry).map (fun x => s.partOfCtx x.ctx)) == some p then { f with fenced := true } else f) }
    : State).tileFenceCheck p).mirror)
  ∧ (∀ (s : State) (w : Walk) (x : FaultSite), s.walkNeed w = some ((w.va, w.access), x) → s.walks.length < 32 → (s.walks.filter (fun x =>
    s.partOfCtx x.ctx == s.partOfCtx w.ctx)).length < 8 → s.stopped x.ctx x.cmd x.core x.entry x.f = false → s.walks.any (fun x => x.cache
    == w.cache && x.ctx == w.ctx && x.seq == w.seq && x.entry == w.entry && x.f == w.f) = false → 128 ≤ w.cache → exec (.translationMiss
    w) s = .next ({ s with walks := s.walks ++ [s.walkStart w] }).mirror)
  ∧ (∀ (s : State) (w : Walk) (x : FaultSite), s.walkNeed w = some ((w.va, w.access), x) → s.walks.length < 32 → (s.walks.filter (fun x =>
    s.partOfCtx x.ctx == s.partOfCtx w.ctx)).length < 8 → s.stopped x.ctx x.cmd x.core x.entry x.f = false → s.walks.any (fun x => x.cache
    == w.cache && x.ctx == w.ctx && x.seq == w.seq && x.entry == w.entry && x.f == w.f) = false → w.cache < 128 → exec (.translationMiss
    w) s = .next ((fun (t : State) => ({ t with walks := t.walks ++ [t.walkStart w] } : State)) (s.countCore w.cache 0x12 0 1)).mirror)
  ∧ (∀ (s u : State) (i pte : Nat) (w : Walk) (b : List Byte), s.walks[i]? = some w → s.walkPart = some (s.partOfCtx w.ctx) → s.walkWanted
    w = true → s.accessNow (unitRq (s.partOfCtx w.ctx)) (w.table + 8 * (w.va % 2 ^ 57 / 2 ^ (12 + 9 * w.level) % 512)) 8 = true →
    cacheable (w.table + 8 * (w.va % 2 ^ 57 / 2 ^ (12 + 9 * w.level) % 512)) = true → ({ s with walkTurn := s.partOfCtx w.ctx } :
    State).readLocal (s.walkRq w) (w.table + 8 * (w.va % 2 ^ 57 / 2 ^ (12 + 9 * w.level) % 512)) 8 = (u, stOk, b) → leNat b = pte → pteBad
    pte = false → pteLeaf pte = true → leafCause pte w.level w.access = 0 → exec (.pageWalk i) s = .next ((u.dropWalk i).addTlb ⟨w.cache,
    s.partOfCtx w.ctx, u.asidOf w.ctx, w.va % 2 ^ 57 / 2 ^ leafSize pte w.level * 2 ^ leafSize pte w.level, leafSize pte w.level, (if
    leafSize pte w.level = 16 then ptePpn pte / 16 * 16 else ptePpn pte) * 4096, if (w.g || bit pte 5) = true then pte % 256 ||| 32 else
    pte % 256⟩).mirror)
  ∧ (∀ (s : State) (rq : Requester) (p w : Nat), s.acceptsWrite rq .HUB_TLBI p = true → p < 16 → s.flag Fld.HUB_TLBI_GO p = false → exec
    (.tlbi rq p w) s = .next (((s.storeFields .HUB_TLBI p (w ||| 2 ^ 63) (2 ^ 64 - 1)).raise Fld.HUB_TLBI_GO p).tlbiDrop p).mirror)
  ∧ (∀ (s : State) (p : Nat), s.flag Fld.HUB_TLBI_GO p = true → s.tlbiOutstanding p = false → exec (.tlbiDone p) s = .next
    ({ s.setFld Fld.HUB_TLBI_GO p 0 with tlbWait := Store.del s.tlbWait p }).mirror)
  ∧ (∀ (s : State) (rq : Requester) (p : Nat), exec (.tileFence rq p) s = .next ((if p < 16 then s.gated rq .HUB_TT_CTL p (fun s =>
    s.tileFence p) else s)).mirror)
  ∧ (∀ (s : State) (w : Walk), exec (.translationMiss w) s = .next ((s.translationMiss w)).mirror)
  ∧ (∀ (s : State) (i : Nat), exec (.pageWalk i) s = .next ((s.pageWalk i)).mirror)
  ∧ (∀ (s : State) (rq : Requester) (p w : Nat), exec (.tlbi rq p w) s = .next ((if p < 16 then s.gated rq .HUB_TLBI p (fun s =>
    s.writeTlbi p (w ||| 2 ^ 63) (2 ^ 64 - 1)) else s)).mirror)
  ∧ (∀ (s : State) (p : Nat), exec (.tlbiDone p) s = .next ((s.tlbiDone p)).mirror)

/-- The 896 bytes of a frame at an UP port, corrected by its code, are taken as a good frame, or recorded and asked for again as a bad
one; acknowledgements free the retry buffer and credits come back up to the neighbour's buffers; a circuit's segment moves its instances
between sent and to be sent again. -/
def Obligations.FabricLinks : Prop :=
  (∀ (s : State) (p k : Nat) (raw : List Byte) (n : FrameNote) (f : Frame) (c : Bool), s.portUp p = true → decodeFrame raw n = some (f, c)
    → exec (.fabricFrame p ⟨raw, k, n⟩) s = .next (s.goodFrame p f c k n).mirror)
  ∧ (∀ (s : State) (p k : Nat) (raw : List Byte) (n : FrameNote), s.portUp p = true → decodeFrame raw n = none → exec (.fabricFrame p
    ⟨raw, k, n⟩) s = .next (s.badFrame p).mirror)
  ∧ (∀ (s : State) (p q : Nat), s.portUp p = true → exec (.pktAck p q) s = .next (s.setPort p
    { s.port p with retry := (s.port p).retry.filter (fun x => decide (0 < seqDist q x.seq ∧ seqDist q x.seq < 2 ^ 15)), again := (s.port p).again.filter (fun x => decide (0 < seqDist q x ∧ seqDist q x < 2 ^ 15)), ackBeat := s.ft }).mirror)
  ∧ (∀ (s : State) (p q : Nat), s.portUp p = true → exec (.pktRetry p q) s = .next (s.setPort p
    { s.port p with again := ((s.port p).retry.map (·.seq)).filter (fun x => decide (seqDist q x < 2 ^ 15)) }).mirror)
  ∧ (∀ (s : State) (p : Nat), s.portUp p = true → (s.port p).retry ≠ [] → (s.port p).ackBeat + 250 ≤ s.ft → exec (.pktRetryTimeout p) s =
    .next (s.setPort p { s.port p with ackBeat := s.ft, again := (s.port p).retry.map (·.seq) }).mirror)
  ∧ (∀ (s : State) (p v n : Nat), s.portUp p = true → v ≤ 2 → exec (.vcCredit p v n) s = .next (s.setPort p ((s.port p).setCredit v (min
    (if v = 2 then 256 else 2048) ((s.port p).credit v + n)))).mirror)
  ∧ (∀ (s u : State) (p c n : Nat) (x : Nat × Nat) (ce : CircEntry), s.portUp p = true → s.circEntry c = some ce → ce.dst = 0x5000 + p →
    ce.src / 4096 ≠ 5 → (s.setCirc ce.id ((s.circ ce.id).addCredits s.ft (min n (ce.credits - (s.circ ce.id).credits)))).setSeg ce.id
    { s.seg ce.id with owed := (s.seg ce.id).owed.drop n } = u → exec (.circuitCredit p c (n, x)) s = .next (((s.seg ce.id).owed.take
    n).foldl (fun s r => s.contribNote r x) u).mirror)
  ∧ (∀ (s : State) (p c n : Nat) (x : Nat × Nat) (ce : CircEntry), s.portUp p = true → s.circEntry c = some ce → ce.dst = 0x5000 + p →
    ce.src / 4096 = 5 → exec (.circuitCredit p c (n, x)) s = .next (s.pushMsg (ce.src % 4096) ⟨4, n, c, x⟩).mirror)
  ∧ (∀ (s : State) (p c i : Nat) (ce : CircEntry), s.portUp p = true → s.circEntry c = some ce → ce.dst = 0x5000 + p → ce.src / 4096 ≠ 5 →
    exec (.instAck p c i) s = .next ((((s.seg ce.id).sent.filter (fun t => instUpTo t.inst i)).map (·.tok.cmd)).eraseDups.foldl (fun s r
    => s.pendCheck ce.id r) (s.setSeg ce.id { s.seg ce.id with sent := (s.seg ce.id).sent.filter (fun t => !instUpTo t.inst i) })).mirror)
  ∧ (∀ (s : State) (p c i : Nat) (ce : CircEntry), s.portUp p = true → s.circEntry c = some ce → ce.dst = 0x5000 + p → ce.src / 4096 ≠ 5 →
    exec (.instNak p c i) s = .next (s.setSeg ce.id
    { s.seg ce.id with sent := (s.seg ce.id).sent.filter (fun t => !instUpTo i t.inst), resend := (s.seg ce.id).sent.filter (fun t => instUpTo i t.inst) ++ (s.seg ce.id).resend }).mirror)
  ∧ (∀ (s : State) (c i : Nat) (ce : CircEntry), s.circEntry c = some ce → ce.dst / 4096 = 5 → ce.src / 4096 ≠ 5 → (s.seg
    ce.id).sent.findIdx? (fun t => decide (s.ft ≥ t.beat + 4 * 2 ^ ce.k)) = some i → exec (.instanceAckTimeout c) s = .next (s.setSeg
    ce.id { s.seg ce.id with sent := (s.seg ce.id).sent.take i, resend := (s.seg ce.id).sent.drop i ++ (s.seg ce.id).resend }).mirror)
  ∧ (∀ (s : State) (port : Nat) (f : FrameIn), exec (.fabricFrame port f) s = .next ((s.fabricFrame port f.raw f.ps f.note)).mirror)
  ∧ (∀ (s : State) (port seq : Nat), exec (.pktAck port seq) s = .next ((if s.portUp port then s.pktAck port seq else s)).mirror)
  ∧ (∀ (s : State) (port seq : Nat), exec (.pktRetry port seq) s = .next ((if s.portUp port then s.pktRetry port seq else s)).mirror)
  ∧ (∀ (s : State) (port : Nat), exec (.pktRetryTimeout port) s = .next ((if s.portUp port then s.pktTimeout port else s)).mirror)
  ∧ (∀ (s : State) (port vc n : Nat), exec (.vcCredit port vc n) s = .next ((if s.portUp port then s.vcCredit port vc n else s)).mirror)
  ∧ (∀ (s : State) (port circ : Nat) (n : Nat × (Nat × Nat)), exec (.circuitCredit port circ n) s = .next ((if s.portUp port then
    s.circuitCredit port circ n.1 n.2 else s)).mirror)
  ∧ (∀ (s : State) (port circ inst : Nat), exec (.instAck port circ inst) s = .next ((if s.portUp port then s.instAck port circ inst else
    s)).mirror)
  ∧ (∀ (s : State) (port circ inst : Nat), exec (.instNak port circ inst) s = .next ((if s.portUp port then s.instNak port circ inst else
    s)).mirror)
  ∧ (∀ (s : State) (circ : Nat), exec (.instanceAckTimeout circ) s = .next ((s.instTimeout circ)).mirror)

/-- A request from a module that is not removed, in its own reach, is made with the rights of its partition and answered; a response ends
the access that it answers, and one that none awaits is discarded. -/
def Obligations.FabricPackets : Prop :=
  (∀ (s u v w : State) (port st : Nat) (p : Packet) (b : List Byte), p.typ = pkRead → s.packetHeld port p = false → s.packetBusy p = false
    → s.takePacket port p = u → p.dest = u.selfModule → u.admitRequest p = (v, true) → p.inReach p.len = true → p.len ≤ 256 → regOffset
    p.addr = none → v.issueRead p.rq none p.addr p.len p.waiter = (w, .done st b) → exec (.packetRead port p) s = .next (w.answerPacket
    p.src p.tag 1 st b).mirror)
  ∧ (∀ (s u v w : State) (port st : Nat) (p : Packet) (b : List Byte), p.typ = pkWrite → s.packetHeld port p = false → s.packetBusy p =
    false → s.takePacket port p = u → p.dest = u.selfModule → u.admitRequest p = (v, true) → p.inReach p.data.length = true →
    p.data.length ≤ 256 → regOffset p.addr = none → v.issueWrite p.rq none p.addr p.data p.waiter = (w, .done st b) → exec (.packetWrite
    port p) s = .next (w.answerPacket p.src p.tag 2 st []).mirror)
  ∧ (∀ (s u v w : State) (port st : Nat) (p : Packet) (b : List Byte), p.typ = pkAtomic → s.packetHeld port p = false → s.packetBusy p =
    false → s.takePacket port p = u → p.dest = u.selfModule → u.admitRequest p = (v, true) → p.inReach p.atomSize = true → p.atomSize = 4
    ∨ p.atomSize = 8 → 0x10 ≤ p.op ∧ p.op ≤ 0x18 → p.addr % p.atomSize = 0 → regOffset p.addr = none → v.issueAtomic p.rq none p.addr
    p.atomSize (opOfPacket p.op) (leNat (p.data.take p.atomSize)) 0 p.waiter = (w, .done st b) → exec (.packetAtomic port p) s = .next
    (w.answerPacket p.src p.tag 3 st b).mirror)
  ∧ (∀ (s u v w : State) (port st o : Nat) (p : Packet), p.typ = pkAtomic → s.packetHeld port p = false → s.packetBusy p = false →
    s.takePacket port p = u → p.dest = u.selfModule → u.admitRequest p = (v, true) → p.inReach p.atomSize = true → p.atomSize = 4 ∨
    p.atomSize = 8 → 1 ≤ p.op ∧ p.op ≤ 4 → v.packetAdd p = (w, st, o) → exec (.packetAtomic port p) s = .next (w.answerPacket p.src p.tag
    3 st (leBytes p.atomSize o)).mirror)
  ∧ (∀ (s : State) (port : Nat) (p : Packet), p.typ = pkRead → s.packetHeld port p = false → s.packetBusy p = false → p.dest ≠
    (s.takePacket port p).selfModule → exec (.packetRead port p) s = .next ((s.takePacket port p).forward p).mirror)
  ∧ (∀ (s : State) (port : Nat) (p : Packet), p.typ = pkWrite → s.packetHeld port p = true → exec (.packetWrite port p) s = .next
    (s).mirror)
  ∧ (∀ (s u v : State) (port : Nat) (p : Packet) (o : OpenAccess), p.typ = pkData → s.packetHeld port p = false → s.packetBusy p = false →
    s.takePacket port p = u → p.dest = u.selfModule → u.admitRequest p = (v, true) → v.opens.find? (fun o => o.id == p.tag && o.module ==
    some p.src) = some o → exec (.packetData port p) s = .next (v.finishAccess o.id p.status p.data).mirror)
  ∧ (∀ (s u v : State) (port : Nat) (p : Packet) (o : OpenAccess), p.typ = pkAck → s.packetHeld port p = false → s.packetBusy p = false →
    s.takePacket port p = u → p.dest = u.selfModule → u.admitRequest p = (v, true) → v.opens.find? (fun o => o.id == p.tag && o.module ==
    some p.src) = some o → exec (.packetAck port p) s = .next (v.finishAccess o.id stOk p.data).mirror)
  ∧ (∀ (s u v : State) (port : Nat) (p : Packet) (o : OpenAccess), p.typ = pkError → s.packetHeld port p = false → s.packetBusy p = false
    → s.takePacket port p = u → p.dest = u.selfModule → u.admitRequest p = (v, true) → v.opens.find? (fun o => o.id == p.tag && o.module
    == some p.src) = some o → p.status ≠ stOk → exec (.packetError port p) s = .next (v.finishAccess o.id p.status p.data).mirror)
  ∧ (∀ (s : State) (port : Nat) (p : Packet), exec (.packetRead port p) s = .next ((s.packetRow port pkRead p (fun s => s.packetRead
    p))).mirror)
  ∧ (∀ (s : State) (port : Nat) (p : Packet), exec (.packetWrite port p) s = .next ((s.packetRow port pkWrite p (fun s => s.packetWrite
    p))).mirror)
  ∧ (∀ (s : State) (port : Nat) (p : Packet), exec (.packetAtomic port p) s = .next ((s.packetRow port pkAtomic p (fun s => s.packetAtomic
    p))).mirror)
  ∧ (∀ (s : State) (port : Nat) (p : Packet), exec (.packetData port p) s = .next ((s.packetRow port pkData p (fun s => s.packetResponse p
    p.status))).mirror)
  ∧ (∀ (s : State) (port : Nat) (p : Packet), exec (.packetAck port p) s = .next ((s.packetRow port pkAck p (fun s => s.packetResponse p
    stOk))).mirror)
  ∧ (∀ (s : State) (port : Nat) (p : Packet), exec (.packetError port p) s = .next ((s.packetRow port pkError p (fun s => s.packetResponse
    p (if p.status = stOk then stAccessError else p.status)))).mirror)

/-- A LOSS report goes to the notice ring; the manager's MEMBERSHIP removes or restores a module, its ABORT_CIRCUITS ends the circuits
named, its RESET requests the partitions' resets; GO of FAB_NSEND sends the notice and leaves its outcome in RESULT. -/
def Obligations.FabricNotices : Prop :=
  (∀ (s : State) (port : Nat) (n : Notice), noticeKind n = nkLoss → exec (.noticeLoss port n) s = .next ((s.takeNotice port
    n).toNoticeRing n).mirror)
  ∧ (∀ (s u : State) (port : Nat) (n : Notice), noticeKind n = nkMembership → s.takeNotice port n = u → u.fromManager n = true →
    noticeModule n < 4096 → noticeArg n = 1 → exec (.noticeMembership port n) s = .next (((u.setFld Fld.FAB_REMOVED_REMOVED (noticeModule
    n / 64) (u.fld Fld.FAB_REMOVED_REMOVED (noticeModule n / 64) ||| 2 ^ (noticeModule n % 64))).endAccessesTo (noticeModule
    n)).toNoticeRing n).mirror)
  ∧ (∀ (s u : State) (port : Nat) (n : Notice), noticeKind n = nkMembership → s.takeNotice port n = u → u.fromManager n = true →
    noticeModule n < 4096 → noticeArg n = 2 → exec (.noticeMembership port n) s = .next ((u.setFld Fld.FAB_REMOVED_REMOVED (noticeModule n
    / 64) (without (u.fld Fld.FAB_REMOVED_REMOVED (noticeModule n / 64)) (noticeModule n % 64))).toNoticeRing n).mirror)
  ∧ (∀ (s u : State) (port : Nat) (n : Notice), noticeKind n = nkAbortCircuits → s.takeNotice port n = u → u.fromManager n = true → exec
    (.noticeAbortCircuits port n) s = .next (((abortList n).foldl (fun s c => if (s.circEntry c).isSome then s.killCircuit c else s)
    u).toNoticeRing n).mirror)
  ∧ (∀ (s u : State) (port : Nat) (n : Notice), noticeKind n = nkReset → s.takeNotice port n = u → u.fromManager n = true → noticeArg n =
    2 → u.resetMask n ≠ [] → exec (.noticeReset port n) s = .next (((u.resetMask n).foldl (fun s p => s.requestPartReset p 2)
    u).toNoticeRing n).mirror)
  ∧ (∀ (s u v z : State) (rq : Requester) (w : Nat) (b : List Byte) (ok : Bool), s.acceptsWrite rq .FAB_NSEND 0 = true → bit (w % 2 ^ 64)
    63 = true → (s.setFld Fld.FAB_NSEND_BROADCAST 0 (getBits (s.stored .FAB_NSEND 0 w (2 ^ 64 - 1)) 62 1)).setFld Fld.FAB_NSEND_ADDR 0
    (getBits (s.stored .FAB_NSEND 0 w (2 ^ 64 - 1)) 7 45) = u → u.readLocal (unitRq 0xFE) (u.fld Fld.FAB_NSEND_ADDR * 128) 128 = (v, stOk,
    b) → badNotice b = false → v.sendCopies (v.fillNotice b) (if v.flag Fld.FAB_NSEND_BROADCAST then v.routed else [fieldAt (v.fillNotice
    b) 4 2 % 4096]) = (z, ok) → exec (.noticeSend rq w) s = .next (z.setFld Fld.FAB_NSEND_RESULT 0 (if ok then 0 else 1)).mirror)
  ∧ (∀ (s : State) (port : Nat) (n : Notice), exec (.noticeLoss port n) s = .next (((s.takeNotice port n).ringed nkLoss n)).mirror)
  ∧ (∀ (s : State) (port : Nat) (n : Notice), exec (.noticeMembership port n) s = .next (((s.takeNotice port n).managed nkMembership n
    (fun s => s.membership (noticeModule n) (noticeArg n)))).mirror)
  ∧ (∀ (s : State) (port : Nat) (n : Notice), exec (.noticeAbortCircuits port n) s = .next (((s.takeNotice port n).managed nkAbortCircuits
    n (fun s => s.abortCircuits n))).mirror)
  ∧ (∀ (s : State) (port : Nat) (n : Notice), exec (.noticeReset port n) s = .next ((if noticeKind n = nkReset then (s.takeNotice port
    n).resetNotice n else s.takeNotice port n)).mirror)
  ∧ (∀ (s : State) (rq : Requester) (w : Nat), exec (.noticeSend rq w) s = .next ((s.gated rq .FAB_NSEND 0 (fun s => s.writeNsend w (2 ^
    64 - 1)))).mirror)

/-- RETRAIN trains a port that is DOWN or MISMATCH; training ends UP with the same GROUP_ID, MISMATCH with another, DOWN after 50 ms;
DISABLE takes a port out; an UP port declares a loss after 1 µs without a good frame, at 64 bad frames within 1 ms, or when the neighbour
trains. -/
def Obligations.FabricPorts : Prop :=
  (∀ (s : State) (rq : Requester) (p : Nat), s.acceptsWrite rq .FAB_PORT_CTL p = true → p < 16 → s.portState p = psDown ∨ s.portState p =
    psMismatch → exec (.retrain rq p) s = .next ((fun (t : State) => t.emit (.training p ((t.groupHdr.map (·.moduleId)).getD 0) t.groupId
    ((t.groupHdr.map (·.generation)).getD 0))) (((s.setPortState p psTraining).raise Fld.FAB_PORT_CTL_RETRAIN p).setPort p
    { s.port p with trainBeat := s.ft, boot := false })).mirror)
  ∧ (∀ (s : State) (rq : Requester) (p : Nat), s.acceptsWrite rq .FAB_PORT_CTL p = true → p < 16 → exec (.portDisable rq p true) s = .next
    (((s.setFld Fld.FAB_PORT_CTL_DISABLE p 1).loseIfUp p 4).endTraining p psDisabled).mirror)
  ∧ (∀ (s : State) (rq : Requester) (p : Nat), s.acceptsWrite rq .FAB_PORT_CTL p = true → p < 16 → (s.setFld Fld.FAB_PORT_CTL_DISABLE p
    0).portState p = psDisabled → exec (.portDisable rq p false) s = .next ((s.setFld Fld.FAB_PORT_CTL_DISABLE p 0).setPortState p
    psDown).mirror)
  ∧ (∀ (s u v : State) (p m n g : Nat), s.portState p = psTraining → (s.setFld Fld.FAB_PORT_STATUS_NBR_MODULE p m).setFld
    Fld.FAB_PORT_STATUS_NBR_PORT p n = u → g = u.groupId → (u.endTraining p psUp).setPort p
    { Port.init with arrived := (u.port p).arrived, lastGood := u.ft, ackBeat := u.ft } = v → exec (.trainingComplete p m n g) s = .next
    ((if (u.port p).boot then v.raise Fld.FAB_PORT_STATUS_SLOT_LIVE p else v)).mirror)
  ∧ (∀ (s u : State) (p m n g : Nat), s.portState p = psTraining → (s.setFld Fld.FAB_PORT_STATUS_NBR_MODULE p m).setFld
    Fld.FAB_PORT_STATUS_NBR_PORT p n = u → g ≠ u.groupId → exec (.trainingComplete p m n g) s = .next (u.endTraining p psMismatch).mirror)
  ∧ (∀ (s : State) (p : Nat), s.portState p = psTraining → (s.port p).trainBeat + 6250000 ≤ s.ft → exec (.trainingTimeout p) s = .next
    (s.endTraining p psDown).mirror)
  ∧ (∀ (s : State) (p : Nat), s.portUp p = true → (s.port p).lastGood + 125 ≤ s.ft → exec (.portSilenceTimeout p) s = .next (s.portLoss p
    1).mirror)
  ∧ (∀ (s : State) (p : Nat), s.portUp p = true → 64 ≤ ((s.port p).bad.filter (fun b => decide (s.ft < b + 125000))).length → exec
    (.portBadFrameLimit p) s = .next (s.portLoss p 2).mirror)
  ∧ (∀ (s : State) (p : Nat), s.portUp p = true → exec (.trainingSequenceReceived p) s = .next (s.portLoss p 3).mirror)
  ∧ (∀ (s : State) (rq : Requester) (port : Nat), exec (.retrain rq port) s = .next ((if port < 16 then s.gated rq .FAB_PORT_CTL port (fun
    s => s.retrain port) else s)).mirror)
  ∧ (∀ (s : State) (rq : Requester) (port : Nat) (on : Bool), exec (.portDisable rq port on) s = .next ((if port < 16 then s.gated rq
    .FAB_PORT_CTL port (fun s => s.writeDisable port on) else s)).mirror)
  ∧ (∀ (s : State) (port module nport group : Nat), exec (.trainingComplete port module nport group) s = .next ((s.trainingComplete port
    module nport group)).mirror)
  ∧ (∀ (s : State) (port : Nat), exec (.trainingTimeout port) s = .next ((s.trainingTimeout port)).mirror)
  ∧ (∀ (s : State) (port : Nat), exec (.portSilenceTimeout port) s = .next ((s.portSilence port)).mirror)
  ∧ (∀ (s : State) (port : Nat), exec (.portBadFrameLimit port) s = .next ((s.portBadLimit port)).mirror)
  ∧ (∀ (s : State) (port : Nat), exec (.trainingSequenceReceived port) s = .next ((s.loseIfUp port 3)).mirror)

/-- A direction of an UP link keeps what it has sent until it is acknowledged and sends it again when it is not; 8 beats of silence, 32
resends in a row or a neighbour's reset lose the link, which fences what lies behind it; a lost clock fences its die pair or resets the
chip. -/
def Obligations.DieLinks : Prop :=
  (∀ (s u : State) (l d : Nat) (raw : List Byte) (e : List (Nat × Byte)) (f g : Flit), l < 17 → coherentLink l = true → s.linkState l =
    lsUp → decodeFlit raw = some f → decodeFlit (strike raw e) = some g → s.setDieLink (2 * l + d % 2) ((s.dieLink (2 * l + d %
    2)).transmit f s.ft) = u → exec (.coherentFlit l d ⟨raw, e⟩) s = .next (u.setDieLink (otherEnd (2 * l + d % 2))
    { ((u.dieLink (otherEnd (2 * l + d % 2))).acknowledge g u.ft).accept g with lastGood := u.ft }).mirror)
  ∧ (∀ (s u : State) (l d : Nat) (raw : List Byte) (e : List (Nat × Byte)) (f : Flit), l < 17 → coherentLink l = true → s.linkState l =
    lsUp → decodeFlit raw = some f → decodeFlit (strike raw e) = none → s.setDieLink (2 * l + d % 2) ((s.dieLink (2 * l + d % 2)).transmit
    f s.ft) = u → exec (.coherentFlit l d ⟨raw, e⟩) s = .next ((u.setDieLink (otherEnd (2 * l + d % 2))
    { u.dieLink (otherEnd (2 * l + d % 2)) with discarding := true }).linkCount Fld.HUB_LINK_ERR_CRC_ERRORS l 1).mirror)
  ∧ (∀ (s : State) (l d : Nat) (raw : List Byte) (e : List (Nat × Byte)) (g : Flit), l < 17 → coherentLink l = false → s.linkState l =
    lsUp → decodeFlit (strike raw e) = some g → exec (.coherentFlit l d ⟨raw, e⟩) s = .next (s.setDieLink (otherEnd (2 * l + d % 2))
    { s.dieLink (otherEnd (2 * l + d % 2)) with lastGood := s.ft }).mirror)
  ∧ (∀ (s : State) (l d : Nat), l < 17 → s.linkState l = lsUp → (s.dieLink (2 * l + d % 2)).sent ≠ [] → (s.dieLink (2 * l + d %
    2)).ackBeat + resendBeats l ≤ s.ft → exec (.flitResendTimeout l d) s = .next (((s.setDieLink (2 * l + d % 2)
    { s.dieLink (2 * l + d % 2) with retries := (s.dieLink (2 * l + d % 2)).retries + 1, ackBeat := s.ft }).emit (.flits l (d % 2)
    (s.dieLink (2 * l + d % 2)).sent)).linkCount Fld.HUB_LINK_ERR_REPLAYS l (s.dieLink (2 * l + d % 2)).sent.length).mirror)
  ∧ (∀ (s u : State) (l d c i : Nat) (v : DieLink), 1 ≤ l ∧ l ≤ 4 → s.linkState l = lsUp → s.dieLink (2 * l + d % 2) = v → s.setDieLink (2
    * l + d % 2)
    { v with insts := (if v.insts.contains (c, i % 2 ^ 16) then v.insts else v.insts ++ [(c, i % 2 ^ 16)]).drop ((if v.insts.contains (c, i % 2 ^ 16) then v.insts else v.insts ++ [(c, i % 2 ^ 16)]).length - 2) }
    = u → exec (.tensorInstanceReceive l d c i true) s = .next ((u.setDieLink (otherEnd (2 * l + d % 2))
    { u.dieLink (otherEnd (2 * l + d % 2)) with lastGood := u.ft }).emit (.instVerdict l (d % 2) true c (i % 2 ^ 16))).mirror)
  ∧ (∀ (s : State) (l d c i : Nat), (s.dieLink (2 * l + d % 2)).insts.any (fun x => x.1 == c && x.2 == i % 2 ^ 16) = true → exec
    (.linkInstAck l d c i) s = .next (s.setDieLink (2 * l + d % 2)
    { s.dieLink (2 * l + d % 2) with insts := (s.dieLink (2 * l + d % 2)).insts.filter (fun x => !(x.1 == c && x.2 == i % 2 ^ 16)), instRetries := 0 }).mirror)
  ∧ (∀ (s : State) (l d c i : Nat), (s.dieLink (2 * l + d % 2)).insts.contains (c, i % 2 ^ 16) = true → (s.dieLink (2 * l + d %
    2)).again.contains (c, i % 2 ^ 16) = false → exec (.linkInstNak l d c i) s = .next (s.setDieLink (2 * l + d % 2)
    { s.dieLink (2 * l + d % 2) with again := (s.dieLink (2 * l + d % 2)).again ++ [(c, i % 2 ^ 16)], instRetries := (s.dieLink (2 * l + d % 2)).instRetries + 1 }).mirror)
  ∧ (∀ (s : State) (l d : Nat), l < 17 → s.linkState l = lsUp → (s.dieLink (otherEnd (2 * l + d % 2))).lastGood + 8 ≤ s.ft → exec
    (.linkSilenceTimeout l d) s = .next ((((s.raise Fld.HUB_LINK_STATUS_LOSS l).setFld Fld.HUB_LINK_STATUS_LOSS_CAUSE l 1).setFld
    Fld.HUB_LINK_STATUS_STATE l lsFenced).linkFence l dfLinkLoss).mirror)
  ∧ (∀ (s : State) (l d : Nat), l < 17 → s.linkState l = lsUp → 32 ≤ (s.dieLink (2 * l + d % 2)).retries → exec (.linkRetryLimit l d) s =
    .next ((((s.raise Fld.HUB_LINK_STATUS_LOSS l).setFld Fld.HUB_LINK_STATUS_LOSS_CAUSE l 3).setFld Fld.HUB_LINK_STATUS_STATE l
    lsFenced).linkFence l dfLinkLoss).mirror)
  ∧ (∀ (s : State) (l : Nat), l < 17 → s.linkState l = lsUp → exec (.linkResetIndication l) s = .next ((((s.raise Fld.HUB_LINK_STATUS_LOSS
    l).setFld Fld.HUB_LINK_STATUS_LOSS_CAUSE l 4).setFld Fld.HUB_LINK_STATUS_STATE l lsFenced).linkFence l dfDieReset).mirror)
  ∧ (∀ (s : State) (w : Nat), 4 ≤ w ∧ w < 8 → exec (.clockFailure w) s = .next (s.fenceDiePair (w - 4) dfClock).mirror)
  ∧ (∀ (s : State) (w : Nat), w = 11 → exec (.clockFailure w) s = .next ((s.setFld Fld.HUB_CLK_STATUS_REF_PRESENT 0 0).chipReset
    4).mirror)
  ∧ (∀ (s : State) (n : Nat), n < 4 → s.dieFenced n = true → exec (.hbmSelfRefreshConfirm n) s = .next (s.setFld
    Fld.HUB_DIE_FENCE_HBM_HELD 0 (s.fld Fld.HUB_DIE_FENCE_HBM_HELD ||| 2 ^ n)).mirror)
  ∧ (∀ (s : State) (link dir : Nat) (f : FlitIn), exec (.coherentFlit link dir f) s = .next ((s.coherentFlit link dir f.raw
    f.errs)).mirror)
  ∧ (∀ (s : State) (link dir : Nat), exec (.flitResendTimeout link dir) s = .next ((s.flitResend link dir)).mirror)
  ∧ (∀ (s : State) (link dir circ inst : Nat) (ok : Bool), exec (.tensorInstanceReceive link dir circ inst ok) s = .next
    ((s.instanceReceive link dir circ inst ok)).mirror)
  ∧ (∀ (s : State) (link dir circ inst : Nat), exec (.linkInstAck link dir circ inst) s = .next ((s.linkInstAck link dir circ
    inst)).mirror)
  ∧ (∀ (s : State) (link dir circ inst : Nat), exec (.linkInstNak link dir circ inst) s = .next ((s.linkInstNak link dir circ
    inst)).mirror)
  ∧ (∀ (s : State) (link dir : Nat), exec (.linkSilenceTimeout link dir) s = .next ((s.linkSilence link dir)).mirror)
  ∧ (∀ (s : State) (link dir : Nat), exec (.linkRetryLimit link dir) s = .next ((s.linkRetryLimit link dir)).mirror)
  ∧ (∀ (s : State) (link : Nat), exec (.linkResetIndication link) s = .next ((s.linkLoss link 4)).mirror)
  ∧ (∀ (s : State) (which : Nat), exec (.clockFailure which) s = .next ((s.clockFailure which)).mirror)
  ∧ (∀ (s : State) (n : Nat), exec (.hbmSelfRefreshConfirm n) s = .next ((s.selfRefreshConfirm n)).mirror)

/-- BAR2 reads are answered and posted writes done with the rights of BAR2's partition, in the order of arrival, a poisoned write poisons
what it touches; a read waits for the writes before it (R300); a BAR access in error is counted; a lost link, a reset of the endpoint, an
FLR and a cleared Bus Master Enable each lose the host. -/
def Obligations.HostLink : Prop :=
  (∀ (s u : State) (o n st : Nat) (b : List Byte), s.bar2Open o = true → s.hostWritesOpen = false → s.issueRead s.bar2Rq none (s.bar2Addr
    o) n .hostRead = (u, .done st b) → exec (.bar2Read o n) s = .next (u.hostAnswered st b).mirror)
  ∧ (∀ (s : State) (o n : Nat), s.bar2Open o = true → s.hostWritesOpen = true → exec (.bar2Read o n) s = .next (s.openAccess s.bar2Rq none
    (s.bar2Addr o) n 1 .hostRead).mirror)
  ∧ (∀ (s : State) (o n : Nat), s.bar2Open o = false → exec (.bar2Read o n) s = .next ((s.bump Fld.HOST_STATUS_BAR_ERRORS 0).emit
    (.hostAnswer 1 [])).mirror)
  ∧ (∀ (s u : State) (o st : Nat) (d b : List Byte) (e : Bool), s.bar2Open o = true → s.hostWritesOpen = false → s.issueWrite s.bar2Rq
    none (s.bar2Addr o) d (.hostWrite e) = (u, .done st b) → exec (.bar2Write o d e) s = .next (u.hostStored (s.bar2Addr o) d.length e
    st).mirror)
  ∧ (∀ (s : State) (o : Nat) (d : List Byte) (e : Bool), s.bar2Open o = true → s.hostWritesOpen = true → exec (.bar2Write o d e) s = .next
    (s.parkHostWrite s.bar2Rq (s.bar2Addr o) d (.hostWrite e)).mirror)
  ∧ (∀ (s : State) (o : Nat) (d : List Byte) (e : Bool), s.bar2Open o = false → exec (.bar2Write o d e) s = .next (s.bump
    Fld.HOST_STATUS_BAR_ERRORS 0).mirror)
  ∧ (∀ (s : State) (w : Bool) (o n v : Nat), regSizeOk o n = false → exec (.bar0AccessError ⟨w, o, n, v⟩) s = .next ((if w then s.bump
    Fld.HOST_STATUS_BAR_ERRORS 0 else (s.bump Fld.HOST_STATUS_BAR_ERRORS 0).emit (.hostAnswer 1 []))).mirror)
  ∧ (∀ (s u : State) (o n v st x : Nat), regSizeOk o n = true → s.hostWritesOpen = false → s.regRead hostRq o n = (u, st, x) → exec
    (.bar0AccessError ⟨false, o, n, v⟩) s = .next (u.hostAnswered st (leBytes n x)).mirror)
  ∧ (∀ (s u : State) (o n v : Nat), regSizeOk o n = true → s.hostWritesOpen = false → s.regWrite hostRq o n v = (u, stOk) → exec
    (.bar0AccessError ⟨true, o, n, v⟩) s = .next (u).mirror)
  ∧ (∀ (s : State) (w : Bool) (o n v : Nat), regSizeOk o n = true → s.hostWritesOpen = true → exec (.bar0AccessError ⟨w, o, n, v⟩) s =
    .next
    ({ s with opens := s.opens ++ [(⟨s.nextId, hostRq, none, regBase + o, n, if w then 2 else 1, if w then .hostWrite false else .hostRead, none, none, 0, [(o, if w then leBytes n v else [])], 0⟩ : OpenAccess)], nextId := s.nextId + 1 }).mirror)
  ∧ (∀ (s : State) (rq : Requester) (w b : Nat), s.acceptsWrite rq .HOST_BAR2 0 = true → locate (getBits (s.stored .HOST_BAR2 0 w (2 ^ 64
    - 1)) 28 24 * 2 ^ 28) = .host b → exec (.hostBar2Write rq w) s = .next (s.raise Fld.HOST_STATUS_BAD_BASE).mirror)
  ∧ (∀ (s : State) (rq : Requester) (w b c : Nat), s.acceptsWrite rq .HOST_BAR2 0 = true → locate (getBits (s.stored .HOST_BAR2 0 w (2 ^
    64 - 1)) 28 24 * 2 ^ 28) = .hbm b c → exec (.hostBar2Write rq w) s = .next (s.storePlain .HOST_BAR2 0 w (2 ^ 64 - 1)).mirror)
  ∧ (∀ (s : State), s.flag Fld.HOST_STATUS_DL_ACTIVE = true → exec .hostLinkDown s = .next
    ({ (((s.setFld Fld.HOST_STATUS_DL_ACTIVE 0 0).setFld Fld.HOST_STATUS_SPEED 0 0).setFld Fld.HOST_STATUS_WIDTH 0 0).hostLoss hcLinkDown with bme := false }).mirror)
  ∧ (∀ (s : State), exec .perst s = .next
    ({ (((s.setFld Fld.HOST_STATUS_DL_ACTIVE 0 0).setFld Fld.HOST_STATUS_SPEED 0 0).setFld Fld.HOST_STATUS_WIDTH 0 0).hostLoss hcReset with bme := false }).mirror)
  ∧ (∀ (s : State), exec .flr s = .next ({ s.hostLoss hcFlr with bme := false }).mirror)
  ∧ (∀ (s : State), s.bme = true → exec .bmeClear s = .next ({ s.hostLoss hcBme with bme := false }).mirror)
  ∧ (∀ (s : State) (off n : Nat), exec (.bar2Read off n) s = .next ((s.bar2Read off n)).mirror)
  ∧ (∀ (s : State) (off : Nat) (data : List Byte) (ep : Bool), exec (.bar2Write off data ep) s = .next ((s.bar2Write off data ep)).mirror)
  ∧ (∀ (s : State) (a : BarAccess), exec (.bar0AccessError a) s = .next ((s.bar0 a.write a.off a.size a.value)).mirror)
  ∧ (∀ (s : State) (rq : Requester) (w : Nat), exec (.hostBar2Write rq w) s = .next ((s.gated rq .HOST_BAR2 0 (fun s => s.writeBar2 w (2 ^
    64 - 1)))).mirror)
  ∧ (∀ (s : State), exec .hostLinkDown s = .next (s.hostLinkDown).mirror)
  ∧ (∀ (s : State), exec .bmeClear s = .next (s.bmeClear).mirror)

/-- ATTACH succeeds for a detached host that has acknowledged the generation with the link up and Bus Master Enable set; otherwise RESULT
names the first condition that fails; DETACH and D3 lose the host; a completion, or its timeout, ends the read that it answers, or the
write that the read stands behind (R284). -/
def Obligations.HostAttachment : Prop :=
  (∀ (s : State), exec .d3Entry s = .next (s.hostLoss hcD3).mirror)
  ∧ (∀ (s : State) (rq : Requester), s.acceptsWrite rq .HOST_ATTACH 0 = true → s.hostUp = true → exec (.detach rq) s = .next (s.hostLoss
    hcDetach).mirror)
  ∧ (∀ (s : State) (rq : Requester), s.acceptsWrite rq .HOST_ATTACH 0 = true → s.hostUp = false → s.fld Fld.HOST_ATTACH_GEN_ACK_GEN =
    s.fld Fld.HOST_ATTACH_GENERATION → s.flag Fld.HOST_STATUS_DL_ACTIVE = true → s.bme = true → exec (.attach rq) s = .next ((s.setFld
    Fld.HOST_ATTACH_RESULT 0 0).setFld Fld.HOST_ATTACH_STATE 0 1).mirror)
  ∧ (∀ (s : State) (rq : Requester), s.acceptsWrite rq .HOST_ATTACH 0 = true → s.hostUp = true → exec (.attach rq) s = .next (s.setFld
    Fld.HOST_ATTACH_RESULT 0 3).mirror)
  ∧ (∀ (s : State) (i k : Nat) (d : List Byte), s.hostReadOpen i = true → s.opens.any (fun o => o.id == i && o.op == 2) = false → exec
    (.hostCompletion i k d) s = .next (s.finishAccess i (if k = 0 then stOk else if k = 1 then stPoisoned else stAccessError) d).mirror)
  ∧ (∀ (s : State) (i k : Nat) (d : List Byte), s.hostReadOpen i = true → s.opens.any (fun o => o.id == i && o.op == 2) = true → exec
    (.hostCompletion i k d) s = .next (s.finishAccess i (if k ≤ 1 then stOk else stAccessError) []).mirror)
  ∧ (∀ (s : State) (i : Nat), s.hostReadOpen i = true → exec (.hostCompletionTimeout i) s = .next (s.finishAccess i stAccessError
    []).mirror)
  ∧ (∀ (s : State) (v w : Nat), exec (.hostLinkUp v w) s = .next
    ({ ((s.setFld Fld.HOST_STATUS_DL_ACTIVE 0 1).setFld Fld.HOST_STATUS_SPEED 0 v).setFld Fld.HOST_STATUS_WIDTH 0 w with bme := true }).mirror)
  ∧ (∀ (s : State) (rq : Requester), exec (.detach rq) s = .next ((s.gated rq .HOST_ATTACH 0 State.detach)).mirror)
  ∧ (∀ (s : State) (rq : Requester), exec (.attach rq) s = .next ((s.gated rq .HOST_ATTACH 0 State.attach)).mirror)
  ∧ (∀ (s : State) (id code : Nat) (data : List Byte), exec (.hostCompletion id code data) s = .next ((s.hostCompletion id code
    data)).mirror)
  ∧ (∀ (s : State) (id : Nat), exec (.hostCompletionTimeout id) s = .next ((if s.hostReadOpen id then s.finishAccess id stAccessError []
    else s)).mirror)

/-- A good frame of a port whose link is up is steered; an RDMA request whose key, port, permission and length fit its window is made with
the window's partition's rights and answered, and an ECN mark is answered with a congestion notification; such a notification lowers its
queue pair's rate, to a free value below the old one; queue pairs return or lose the credits of their circuits. -/
def Obligations.Ethernet : Prop :=
  (∀ (s : State) (p : Nat) (f : EthFrame), p < 2 → s.flag Fld.ETH_STATUS_LINK_UP p = true → f.fcsOk = true → f.ptp = none → f.roce = false
    → exec (.ethRxFrame p f) s = .next (s.steerFrame p f).mirror)
  ∧ (∀ (s : State) (p : Nat) (f : EthFrame), p < 2 → s.flag Fld.ETH_STATUS_LINK_UP p = true → f.fcsOk = false → exec (.ethRxFrame p f) s =
    .next (s.bump Fld.ETH_STATUS_FCS_DROPS p).mirror)
  ∧ (∀ (s m u v : State) (p q g r va w a : Nat) (d : List Byte) (e b : Bool) (rq : Requester), p < 2 → s.ecnMarked p q e = m →
    m.rdmaWindow p r va d.length Fld.ETH_RWIN_CTL_WRITE = some (w, a, rq) → m.rdmaWriteParts rq (.rdma p q g w) d (parts256 a d.length) =
    (u, stOk, b) → u.claimOpens m.nextId (.rdma p q g w) = v → v.opens.any (fun o => o.waiter == .rdma p q g w) = false → exec (.rdmaWrite
    p q (g, e) r va d) s = .next (v.rdmaAnswer p q g 2 a stOk []).mirror)
  ∧ (∀ (s m : State) (p q g r va n w a : Nat) (e : Bool) (rq : Requester), p < 2 → s.ecnMarked p q e = m → m.rdmaWindow p r va n
    Fld.ETH_RWIN_CTL_READ = some (w, a, rq) → n ≠ 0 → exec (.rdmaRead p q (g, e) r va n) s = .next (m.rdmaReadParts rq p q g w (parts256 a
    n)).mirror)
  ∧ (∀ (s m : State) (p q g r va n : Nat) (e : Bool), p < 2 → s.ecnMarked p q e = m → m.rdmaWindow p r va n Fld.ETH_RWIN_CTL_READ = none →
    exec (.rdmaRead p q (g, e) r va n) s = .next (m.rdmaAnswer p q g 1 va stAccessError []).mirror)
  ∧ (∀ (s m u : State) (p q g r va x y w a st : Nat) (c e : Bool) (rq : Requester) (b : List Byte), p < 2 → s.ecnMarked p q e = m →
    m.rdmaWindow p r va 8 Fld.ETH_RWIN_CTL_ATOMIC = some (w, a, rq) → va % 8 = 0 → m.issueAtomic rq none a 8 (if c then 9 else 1) x y
    (.rdma p q g w) = (u, .done st b) → exec (.rdmaAtomic p q (g, e) r va c x y) s = .next (u.rdmaAnswer p q g 3 a st b).mirror)
  ∧ (∀ (s : State) (p q : Nat), p < 2 → q < 8192 → ∃ t, exec (.congestionNotification p q) s = .next t ∧ ∃ r, t.qpRates = Store.set (fun _
    => 2 ^ 32) s.qpRates (p * 2 ^ 16 + q) r ∧ (r < Store.get (fun _ => 2 ^ 32) s.qpRates (p * 2 ^ 16 + q) ∨ r = 0) ∧ MemoryKept s t)
  ∧ (∀ (s : State) (c : Nat), s.isEthCirc c = true → (s.circ c).held ≠ 0 → exec (.rdmaAck c) s = .next (s.setCirc c
    { s.circ c with held := (s.circ c).held - 1, returning := (s.circ c).returning + 1 }).mirror)
  ∧ (∀ (s u : State) (c : Nat), s.isEthCirc c = true → s.killCircuit c = u → exec (.qpRetryExhausted c) s = .next (u.setCirc c
    { u.circ c with held := 0, credits := (u.circ c).credits + (u.circ c).held }).mirror)
  ∧ (∀ (s : State) (a : Nat) (d : List Byte) (ok : Bool), ok = false → exec (.nvmeofCompletion a d ok) s = .next (s.emit (.nvme
    false)).mirror)
  ∧ (∀ (s u : State) (a st : Nat) (d : List Byte) (ok : Bool), ok = true → a % 32 = 0 → d.length % 32 = 0 → d.isEmpty = false → cacheable
    a = true → s.writeLocal nvmeRq none a d = (u, st) → exec (.nvmeofCompletion a d ok) s = .next (u.emit (.nvme (st == stOk))).mirror)
  ∧ (∀ (s : State) (rq : Requester) (w v : Nat), s.acceptsWrite rq .ETH_RWIN_CTL w = true → w < 256 → (s.storePlain .ETH_RWIN_CTL w v (2 ^
    64 - 1)).rwinOpen w = false → exec (.rwinCtlWrite rq w v) s = .next (s.storePlain .ETH_RWIN_CTL w v (2 ^ 64 - 1)).mirror)
  ∧ (∀ (s : State) (rq : Requester) (p q v : Nat), s.acceptsWrite rq .ETH_TXQ_PTR (p * 256 + q) = true → p < 2 → q < 256 → exec
    (.txqTailWrite rq p q v) s = .next ((s.setFld Fld.ETH_TXQ_PTR_TAIL (p * 256 + q) v).drainTx p q).mirror)
  ∧ (∀ (s : State) (p : Nat), p < 2 → exec (.ethLinkUp p) s = .next ((List.range 256).foldl (fun s q => s.drainTx p q) (s.setFld
    Fld.ETH_STATUS_LINK_UP p 1)).mirror)
  ∧ (∀ (s : State) (p : Nat), p < 2 → exec (.ethLinkDown p) s = .next (s.setFld Fld.ETH_STATUS_LINK_UP p 0).mirror)
  ∧ (∀ (s : State) (port : Nat) (f : EthFrame), exec (.ethRxFrame port f) s = .next ((if port < 2 then s.ethRx port f else s)).mirror)
  ∧ (∀ (s : State) (port qp : Nat) (tag : Nat × Bool) (rkey va : Nat) (data : List Byte), exec (.rdmaWrite port qp tag rkey va data) s =
    .next ((if port < 2 then (s.ecnMarked port qp tag.2).rdmaWrite port qp tag.1 rkey va data else s)).mirror)
  ∧ (∀ (s : State) (port qp : Nat) (tag : Nat × Bool) (rkey va n : Nat), exec (.rdmaRead port qp tag rkey va n) s = .next ((if port < 2
    then (s.ecnMarked port qp tag.2).rdmaRead port qp tag.1 rkey va n else s)).mirror)
  ∧ (∀ (s : State) (port qp : Nat) (tag : Nat × Bool) (rkey va : Nat) (cas : Bool) (x cmp : Nat), exec (.rdmaAtomic port qp tag rkey va
    cas x cmp) s = .next ((if port < 2 then (s.ecnMarked port qp tag.2).rdmaAtomic port qp tag.1 rkey va cas x cmp else s)).mirror)
  ∧ (∀ (s : State) (port qp : Nat), exec (.congestionNotification port qp) s = .next ((if port < 2 ∧ qp < 8192 then s.congestion port qp
    else s)).mirror)
  ∧ (∀ (s : State) (circ : Nat), exec (.rdmaAck circ) s = .next ((s.rdmaAcked circ)).mirror)
  ∧ (∀ (s : State) (circ : Nat), exec (.qpRetryExhausted circ) s = .next ((s.qpExhausted circ)).mirror)
  ∧ (∀ (s : State) (addr : Nat) (data : List Byte) (ok : Bool), exec (.nvmeofCompletion addr data ok) s = .next ((s.nvmeCompletion addr
    data ok)).mirror)
  ∧ (∀ (s : State) (rq : Requester) (win w : Nat), exec (.rwinCtlWrite rq win w) s = .next ((if win < 256 then s.gated rq .ETH_RWIN_CTL
    win (fun s => s.writeRwinCtl win w (2 ^ 64 - 1)) else s)).mirror)
  ∧ (∀ (s : State) (rq : Requester) (port q tail : Nat), exec (.txqTailWrite rq port q tail) s = .next ((if port < 2 ∧ q < 256 then
    s.gated rq .ETH_TXQ_PTR (port * 256 + q) (fun s => s.writeTxTail port q tail) else s)).mirror)
  ∧ (∀ (s : State) (port : Nat), exec (.ethLinkUp port) s = .next ((s.ethLink port true)).mirror)
  ∧ (∀ (s : State) (port : Nat), exec (.ethLinkDown port) s = .next ((s.ethLink port false)).mirror)

/-- A sample of the cap loop shows the power measured and estimated and begins a new average; temperatures set each die's level and a
reading of 125 °C trips the module; coolant sets the rating; a droop stretches its die's clock. How far the cap loop steps in a sample is
a free value, and nothing is said of it. -/
def Obligations.PowerSamples : Prop :=
  (∀ (s : State) (m v : Nat), s.pwr.sampled ≠ s.ft / 12500 + 1 → ∃ t, exec (.capLoopSample m v) s = .next t ∧ t.fld Fld.PWR_STATUS_MEAS_W
    0 = min (m / 1000) 4095 ∧ t.fld Fld.PWR_STATUS_EST_W 0 = min (s.pwr.estSum / max 1 s.pwr.estCount / 1000) 4095 ∧ t.pwr.estSum = 0 ∧
    t.pwr.estCount = 0 ∧ t.pwr.lastM = m ∧ t.pwr.above = (if s.fld Fld.PWR_CAP_APPLIED_W * 1000 < m then s.pwr.above + 1 else 0))
  ∧ (∀ (s : State) (m v : Nat), s.pwr.sampled = s.ft / 12500 + 1 → exec (.capLoopSample m v) s = .next (s).mirror)
  ∧ (∀ (s : State) (l : List Nat) (x : Nat), s.pwr.updated ≠ s.ft / 125 + 1 → ∃ t, exec (.activityUpdate l x) s = .next t ∧ t.pwr.rampNext
    = none ∧ t.pwr.fillNext = none ∧ t.pwr.estCount = s.pwr.estCount + 1 ∧ MemoryKept s t)
  ∧ (∀ (s : State) (l : List Nat) (x : Nat), s.pwr.updated = s.ft / 125 + 1 → exec (.activityUpdate l x) s = .next (s).mirror)
  ∧ (∀ (s : State) (l : List Nat) (x v : Nat), s.pwr.updated ≠ s.ft / 125 + 1 → s.pwr.rampNext = some v → ∃ t, exec (.activityUpdate l x)
    s = .next t ∧ t.fld Fld.PWR_RAMP_AUTUMN_RATE 0 = getBits v 0 10 ∧ t.fld Fld.PWR_RAMP_SPRING_RATE 0 = getBits v 16 10)
  ∧ (∀ (s u : State) (l : List Nat), (l.take 10).any (fun t => decide (125 ≤ t)) = false → s.pwr.thermal ≠ s.ft / 1250 + 1 →
    s.pwr.restored + 12500 ≤ s.ft → (List.range 10).foldl (fun s d => s.thermalDie l true d) (s.updPwr (fun p =>
    { p with thermal := s.ft / 1250 + 1 })) = u → exec (.thermalSample l) s = .next ((u.updPwr (fun p =>
    { p with restored := u.ft })).powerShow).mirror)
  ∧ (∀ (s : State) (l : List Nat), (l.take 10).any (fun t => decide (125 ≤ t)) = false → s.pwr.thermal ≠ s.ft / 1250 + 1 → s.ft <
    s.pwr.restored + 12500 → exec (.thermalSample l) s = .next (((List.range 10).foldl (fun s d => s.thermalDie l false d) (s.updPwr (fun
    p => { p with thermal := s.ft / 1250 + 1 }))).powerShow).mirror)
  ∧ (∀ (s : State) (l : List Nat), (l.take 10).any (fun t => decide (125 ≤ t)) = false → s.pwr.thermal = s.ft / 1250 + 1 → exec
    (.thermalSample l) s = .next (s).mirror)
  ∧ (∀ (s : State) (l : List Nat), (l.take 10).any (fun t => decide (125 ≤ t)) = true → s.elec.powered = true → exec (.thermalSample l) s
    = .next ({ s.powerOff with elec := { s.elec with powered := false, cycleReq := false, trip := true } }).mirror)
  ∧ (∀ (s : State), s.elec.powered = true → exec .thermalTrip s = .next
    ({ s.powerOff with elec := { s.elec with powered := false, cycleReq := false, trip := true } }).mirror)
  ∧ (∀ (s : State) (x : Nat), x ≤ 550 → exec (.coolantSample x) s = .next (((s.setFld Fld.PWR_COOLANT_INLET 0 x).setFld
    Fld.PWR_COOLANT_RATING_W 0 (ratingOf x)).capShow).mirror)
  ∧ (∀ (s : State) (x : Nat), 550 < x → exec (.coolantSample x) s = .next ((((s.setFld Fld.PWR_COOLANT_INLET 0 x).setFld
    Fld.PWR_COOLANT_RATING_W 0 (ratingOf x)).raise Fld.PWR_FAULT_COOLANT_HIGH).capShow).mirror)
  ∧ (∀ (s : State), s.pwr.boosted ≠ s.ft / 12500 + 1 → exec .boostUpdate s = .next (((List.range 4).foldl (fun s n => if !s.boostOn ∨
    s.boostBarred n then s else s.updDpwr (tensorDie n) (fun v => if s.headroom then
    { v with boostOk := v.boost, boost := min 3900 (v.boost + 50) } else if v.boost > v.boostOk then { v with boost := v.boostOk } else
    { v with boost := max 3600 (v.boost - 50), boostOk := max 3600 (v.boost - 50) })) (s.updPwr (fun p =>
    { p with boosted := s.ft / 12500 + 1 }))).powerShow).mirror)
  ∧ (∀ (s : State), s.pwr.boosted = s.ft / 12500 + 1 → exec .boostUpdate s = .next (s).mirror)
  ∧ (∀ (s : State) (d : Nat), d < 10 → exec (.droopDetect d) s = .next (((s.setDpwr d
    { s.dpwr d with stretch := some ((s.dpwr d).stretch.getD s.ft), lastDroop := s.ft + 1 }).bump Fld.PWR_STATUS_DROOP
    0).powerShow).mirror)
  ∧ (∀ (s : State) (d : Nat), d < 10 → (s.dpwr d).armed ≤ s.ft → exec (.droopRecover d) s = .next (s.updDpwr d (fun v =>
    { v with stretch := none })).mirror)
  ∧ (∀ (s : State) (d b : Nat), (s.dpwr d).stretch = some b → d < 10 → b + 250 < s.ft → exec (.droopLong d) s = .next ((s.updDpwr d (fun v
    => { v with droopTo := s.ft + 12500 })).powerShow).mirror)
  ∧ (∀ (s : State), s.elec.powered = true → exec .inputRangeTimeout s = .next (s.raise Fld.PWR_FAULT_INPUT_RANGE).mirror)
  ∧ (∀ (s : State) (m mv : Nat), exec (.capLoopSample m mv) s = .next ((s.capSample m mv)).mirror)
  ∧ (∀ (s : State) (ests : List Nat) (fixed : Nat), exec (.activityUpdate ests fixed) s = .next ((s.activity ests fixed)).mirror)
  ∧ (∀ (s : State) (ts : List Nat), exec (.thermalSample ts) s = .next ((s.thermalSample ts)).mirror)
  ∧ (∀ (s : State), exec .thermalTrip s = .next (s.tripped).mirror)
  ∧ (∀ (s : State) (t : Nat), exec (.coolantSample t) s = .next ((s.coolant t)).mirror)
  ∧ (∀ (s : State), exec .boostUpdate s = .next (s.boostUpdate).mirror)
  ∧ (∀ (s : State) (d : Nat), exec (.droopDetect d) s = .next ((s.droopDetect d)).mirror)
  ∧ (∀ (s : State) (d : Nat), exec (.droopRecover d) s = .next ((s.droopRecover d)).mirror)
  ∧ (∀ (s : State) (d : Nat), exec (.droopLong d) s = .next ((s.droopLong d)).mirror)
  ∧ (∀ (s : State), exec .inputRangeTimeout s = .next ((if s.elec.powered then s.raise Fld.PWR_FAULT_INPUT_RANGE else s)).mirror)

/-- A cap that is in range waits, and applies at the first boundary of the longest period after its request; one that is not is ignored; a
mode written waits likewise; rates of a ramp out of range keep the old ones; clearing the power model's fault ends its fallback. -/
def Obligations.PowerRequests : Prop :=
  (∀ (s : State) (rq : Requester) (v : Nat), s.acceptsWrite rq .PWR_CAP 0 = true → v < 4096 → capOk v = true → exec (.capWrite rq v) s =
    .next ((s.updPwr (fun p => { p with swNext := some v, capBeat := s.ft })).capShow).mirror)
  ∧ (∀ (s : State) (rq : Requester) (v : Nat), s.acceptsWrite rq .PWR_CAP 0 = true → capOk (v % 2 ^ 12) = false → exec (.capWrite rq v) s
    = .next (s).mirror)
  ∧ (∀ (s : State) (v : Nat), capOk v = true → exec (.pldmTrayCap v) s = .next ((s.updPwr (fun p =>
    { p with trayNext := some v, capBeat := s.ft })).capShow).mirror)
  ∧ (∀ (s : State) (v : Nat), capOk v = false → exec (.pldmTrayCap v) s = .next (s).mirror)
  ∧ (∀ (s : State) (v : Nat), s.atBoundary = true → s.pwr.capBeat < s.ft → s.pwr.swNext = some v → s.pwr.trayNext = none → exec .capApply
    s = .next (((s.setFld Fld.PWR_CAP_SW_W 0 v).updPwr (fun p => { p with swNext := none, trayNext := none })).capShow).mirror)
  ∧ (∀ (s : State) (v : Nat), s.atBoundary = true → s.pwr.capBeat < s.ft → s.pwr.swNext = none → s.pwr.trayNext = some v → exec .capApply
    s = .next (((s.setFld Fld.PWR_CAP_TRAY_W 0 v).updPwr (fun p => { p with swNext := none, trayNext := none })).capShow).mirror)
  ∧ (∀ (s : State) (rq : Requester) (w v : Nat), s.acceptsWrite rq .PWR_MODE 0 = true → s.stored .PWR_MODE 0 w (2 ^ 64 - 1) = v → 2400 ≤
    getBits v 8 12 → getBits v 8 12 ≤ 3600 → getBits v 8 12 % 50 = 0 → ∃ t, exec (.powerModeWrite rq w) s = .next t ∧ t.pwr.fillNext =
    some (bit v 0) ∧ t.pwr.modeBeat = s.ft ∧ t.fld Fld.PWR_MODE_VOFFSET 0 = getBits v 23 5 ∧ MemoryKept s t)
  ∧ (∀ (s : State) (rq : Requester) (w : Nat), s.acceptsWrite rq .PWR_MODE 0 = true → getBits (s.stored .PWR_MODE 0 w (2 ^ 64 - 1)) 8 12 <
    2400 → exec (.powerModeWrite rq w) s = .next (s).mirror)
  ∧ (∀ (s : State) (m : Nat), s.pwr.modeNext = some m → s.atBoundary = true → s.pwr.modeBeat < s.ft → exec .powerModeApply s = .next
    (((((((s.setFld Fld.PWR_MODE_EQX_MHZ 0 (m / 2 ^ 8)).setFld Fld.PWR_MODE_BOOST_EN 0 (getBits m 2 1)).setFld Fld.PWR_MODE_EQUINOX 0
    (getBits m 1 1))).updPwr (fun p => { p with modeNext := none, capMhz := if bit m 1 then 3600 else p.capMhz }))).powerShow).mirror)
  ∧ (∀ (s : State) (rq : Requester) (f : Bool) (w : Nat), s.acceptsWrite rq .PWR_MODE 0 = true → f = true → exec (.rampWrite rq f w) s =
    .next (s.updPwr (fun p => { p with fillNext := some (bit w 0) })).mirror)
  ∧ (∀ (s : State) (rq : Requester) (f : Bool) (w v : Nat), s.acceptsWrite rq .PWR_RAMP 0 = true → f = false → s.stored .PWR_RAMP 0 w (2 ^
    64 - 1) = v → rateOk (getBits v 0 10) = true → rateOk (getBits v 16 10) = true → exec (.rampWrite rq f w) s = .next (s.updPwr (fun p
    => { p with rampNext := some (getBits v 16 10 * 2 ^ 16 + getBits v 0 10) })).mirror)
  ∧ (∀ (s : State) (rq : Requester), s.acceptsWrite rq .PWR_FAULT 0 = true → s.fallback = true → exec (.powerModelClear rq) s = .next
    (((((s.setFld Fld.PWR_FAULT_POWER_MODEL 0 0).setFld Fld.PWR_EST_GAIN 0 0x1000).updPwr (fun p =>
    { p with run15 := 0, sum15 := 0, run40 := 0 })).capShow).powerShow).mirror)
  ∧ (∀ (s : State) (rq : Requester) (v : Nat), exec (.capWrite rq v) s = .next ((s.gated rq .PWR_CAP 0 (fun s => s.capWrite (v % 2 ^
    12)))).mirror)
  ∧ (∀ (s : State) (v : Nat), exec (.pldmTrayCap v) s = .next ((s.trayCap v)).mirror)
  ∧ (∀ (s : State), exec .capApply s = .next (s.capApply).mirror)
  ∧ (∀ (s : State) (rq : Requester) (w : Nat), exec (.powerModeWrite rq w) s = .next ((s.gated rq .PWR_MODE 0 (fun s => s.modeWrite w (2 ^
    64 - 1)))).mirror)
  ∧ (∀ (s : State), exec .powerModeApply s = .next (s.modeApply).mirror)
  ∧ (∀ (s : State) (rq : Requester) (filler : Bool) (w : Nat), exec (.rampWrite rq filler w) s = .next ((if filler then s.gated rq
    .PWR_MODE 0 (fun s => s.fillerWrite w) else s.gated rq .PWR_RAMP 0 (fun s => s.rampWrite w (2 ^ 64 - 1)))).mirror)
  ∧ (∀ (s : State) (rq : Requester), exec (.powerModelClear rq) s = .next ((s.gated rq .PWR_FAULT 0 State.clearModel)).mirror)

/-- An engine on which a condition of progress has held for 2^20 counted cycles is declared hung, as a write of EN_HANG.RESET declares it;
REPLAY and the end of a suspect's replay take the next suspect; a partition reset starts where the partition stands; each level that
outlasts its bound escalates; a drain that has ended closes its domain. -/
def Obligations.HangsAndReplays : Prop :=
  (∀ (s : State) (e : Nat), e < 512 → 2 ^ 20 ≤ Store.get (fun _ => 0) s.hangRuns e → s.hangHolds e = true → s.engineHung e = false →
    s.hangBarred e = false → exec (.engineHang e) s = .next (s.declareHang e).mirror)
  ∧ (∀ (s : State) (rq : Requester) (e : Nat), s.acceptsWrite rq .EN_HANG e = true → e < 512 → s.engineHung e = false → s.hangBarred e =
    false → exec (.hangReset rq e) s = .next ((s.setFld Fld.EN_HANG_RESET e 1).declareHang e).mirror)
  ∧ (∀ (s : State) (rq : Requester) (p : Nat), s.acceptsWrite rq .HUB_RECOV_CTL p = true → p < 16 → (s.recov p).stage = 3 → exec (.replay
    rq p) s = .next (s.replayNext p).mirror)
  ∧ (∀ (s : State) (rq : Requester) (p : Nat), s.acceptsWrite rq .HUB_RECOV_CTL p = true → p < 16 → (s.recov p).stage ≠ 3 → exec (.replay
    rq p) s = .next (s).mirror)
  ∧ (∀ (s : State) (p c : Nat), (s.recov p).current = some c → (s.ctx c).st = .running → (s.ctx c).buf = [] → (s.ctx c).replayTo = some
    (s.fld Fld.HUB_CTX_SEQ_NEXT c) → exec (.suspectReplayComplete p) s = .next (((s.updCtx c (fun x =>
    { x with st := .preempting, haltAfter := false, replayTo := none })).setRecov p
    { s.recov p with suspects := (s.recov p).suspects.filter (· != c), innocent := (s.recov p).innocent ++ [c], current := none }).replayNext
    p).mirror)
  ∧ (∀ (s : State) (rq : Requester) (p : Nat) (e : PartEntry), s.acceptsWrite rq .HUB_PART_RESET p = true → p < 16 → partOf s.tables p =
    some e → s.partLost p = false → exec (.partitionReset rq p) s = .next (s.startPartReset p 1).mirror)
  ∧ (∀ (s : State) (c b : Nat), (s.ctx c).fenceBeat = some b → (s.ctx c).st = .ending → b + 625000 ≤ s.ft → exec (.contextEndTimeout c) s
    = .next (s.escalatePart (s.partOfCtx c) 3).mirror)
  ∧ (∀ (s : State) (p : Nat), (s.recov p).stage = 1 → (s.recov p).since + 2500000 ≤ s.ft → exec (.recoveryTimeout p) s = .next
    (s.escalatePart p 4).mirror)
  ∧ (∀ (s : State) (p : Nat) (f : Fence), s.fences.find? (fun f => f.dom == .partition p) = some f → f.beat + 31250000 ≤ s.ft → exec
    (.partitionResetTimeout p) s = .next (s.chipReset 6).mirror)
  ∧ (∀ (s : State) (d : Domain) (f : Fence), s.fences.find? (fun f => f.dom == d) = some f → s.drainEnds f = true → exec (.fenceDrainEnd
    d) s = .next (({ s with fences := s.fences.filter (fun g => g.dom != d) }).closeDomain d).mirror)
  ∧ (∀ (s : State) (e : Nat), exec (.engineHang e) s = .next ((s.engineHang e)).mirror)
  ∧ (∀ (s : State) (rq : Requester) (e : Nat), exec (.hangReset rq e) s = .next ((if e < 512 then s.gated rq .EN_HANG e (fun s =>
    s.hangReset e) else s)).mirror)
  ∧ (∀ (s : State) (rq : Requester) (p : Nat), exec (.replay rq p) s = .next ((if p < 16 then s.gated rq .HUB_RECOV_CTL p (fun s =>
    s.replayWrite p) else s)).mirror)
  ∧ (∀ (s : State) (p : Nat), exec (.suspectReplayComplete p) s = .next ((s.replayDone p)).mirror)
  ∧ (∀ (s : State) (rq : Requester) (p : Nat), exec (.partitionReset rq p) s = .next ((if p < 16 then s.gated rq .HUB_PART_RESET p (fun s
    => s.requestPartReset p 1) else s)).mirror)
  ∧ (∀ (s : State) (c : Nat), exec (.contextEndTimeout c) s = .next ((s.ctxEndTimeout c)).mirror)
  ∧ (∀ (s : State) (p : Nat), exec (.recoveryTimeout p) s = .next ((s.recoveryTimeout p)).mirror)
  ∧ (∀ (s : State) (p : Nat), exec (.partitionResetTimeout p) s = .next ((s.partResetTimeout p)).mirror)
  ∧ (∀ (s : State) (d : Domain), exec (.fenceDrainEnd d) s = .next ((s.fenceDrainEnd d)).mirror)

/-- ARM holds for 125,000 beats; GO within them requests a warm chip reset, at any other time nothing; RESET_N released ends the hold of
the start; a chip reset that outlasts its bound requests a power cycle. -/
def Obligations.ChipResets : Prop :=
  (∀ (s : State) (rq : Requester), s.acceptsWrite rq .HUB_CHIP_RESET 0 = true → exec (.chipResetArm rq) s = .next
    ({ s.raise Fld.HUB_CHIP_RESET_ARM with boot := { s.boot with armBeat := some s.ft } }).mirror)
  ∧ (∀ (s : State) (b : Nat), s.boot.armBeat = some b → b + 125000 ≤ s.ft → exec .chipResetArmExpiry s = .next
    ({ s.setFld Fld.HUB_CHIP_RESET_ARM 0 0 with boot := { s.boot with armBeat := none } }).mirror)
  ∧ (∀ (s : State) (rq : Requester) (b : Nat), s.acceptsWrite rq .HUB_CHIP_RESET 0 = true → s.boot.armBeat = some b → s.ft ≤ b + 125000 →
    exec (.chipResetGo rq) s = .next (s.chipReset 2).mirror)
  ∧ (∀ (s : State) (rq : Requester) (b : Nat), s.acceptsWrite rq .HUB_CHIP_RESET 0 = true → s.boot.armBeat = some b → b + 125000 < s.ft →
    exec (.chipResetGo rq) s = .next (s).mirror)
  ∧ (∀ (s : State) (rq : Requester), s.acceptsWrite rq .HUB_CHIP_RESET 0 = true → s.boot.armBeat = none → exec (.chipResetGo rq) s = .next
    (s).mirror)
  ∧ (∀ (s : State), s.chipResetting = true → s.elec.cycleReq = false → 500000000 ≤ s.boot.startBeats → exec .chipResetTimeout s = .next
    (s.powerCycleRequest).mirror)
  ∧ (∀ (s : State), exec .resetNRelease s = .next ({ s with elec := { s.elec with resetLow := false } }).mirror)
  ∧ (∀ (s : State) (rq : Requester), exec (.chipResetArm rq) s = .next ((s.gated rq .HUB_CHIP_RESET 0 (fun s => s.armReset 1))).mirror)
  ∧ (∀ (s : State), exec .chipResetArmExpiry s = .next (s.armExpiry).mirror)
  ∧ (∀ (s : State) (rq : Requester), exec (.chipResetGo rq) s = .next ((s.gated rq .HUB_CHIP_RESET 0 State.resetGo)).mirror)
  ∧ (∀ (s : State), exec .chipResetTimeout s = .next (s.chipResetTimeout).mirror)

/-- Power becomes good, with a cold start, unless something holds the regulators off; losing the input or a regulator returns all but the
OTP and the latches to what power-good finds; below 10 V the latches release. -/
def Obligations.ModulePower : Prop :=
  (∀ (s : State), s.elec.powered = false → s.elec.input = true → s.elec.housekeeping = true → s.elec.trip = false → s.elec.overvoltage =
    false → s.elec.regFail = false → exec .powerGood s = .next
    ({ State.reset with pending := s.pending, out := s.out, freeCtr := s.freeCtr, boot := { Boot.init with otp := s.boot.consume.otp }, elec := { s.elec with powered := true, cycleReq := false } }).mirror)
  ∧ (∀ (s : State), s.elec.trip = true → exec .powerGood s = .next (s).mirror)
  ∧ (∀ (s : State), s.elec.overvoltage = false → exec .inputRise s = .next
    ({ s with elec := { s.elec with input := true, housekeeping := true } }).mirror)
  ∧ (∀ (s : State), s.elec.powered = true → exec .inputUndervoltage s = .next
    ({ State.reset with pending := s.pending, out := s.out, freeCtr := s.freeCtr, boot := { Boot.init with otp := s.boot.consume.otp }, elec := { s.elec with powered := false, cycleReq := false, input := false } }).mirror)
  ∧ (∀ (s : State), s.elec.powered = false → exec .inputUndervoltage s = .next ({ s with elec := { s.elec with input := false } }).mirror)
  ∧ (∀ (s : State), s.elec.powered = true → exec .inputOvervoltage s = .next
    ({ State.reset with pending := s.pending, out := s.out, freeCtr := s.freeCtr, boot := { Boot.init with otp := s.boot.consume.otp }, elec := { s.elec with powered := false, cycleReq := false, overvoltage := true, housekeeping := false, input := false } }).mirror)
  ∧ (∀ (s : State), s.elec.powered = true → exec .regulatorFail s = .next
    ({ State.reset with pending := s.pending, out := s.out, freeCtr := s.freeCtr, boot := { Boot.init with otp := s.boot.consume.otp }, elec := { s.elec with powered := false, cycleReq := false, regFail := true } }).mirror)
  ∧ (∀ (s : State), s.elec.powered = true → exec .inputBelow10v s = .next
    ({ State.reset with pending := s.pending, out := s.out, freeCtr := s.freeCtr, boot := { Boot.init with otp := s.boot.consume.otp }, elec := { s.elec with powered := false, cycleReq := false, input := false, housekeeping := false, trip := false, overvoltage := false, regFail := false } }).mirror)
  ∧ (∀ (s : State), exec .powerGood s = .next (s.powerGood).mirror)
  ∧ (∀ (s : State), exec .inputRise s = .next (s.inputRise).mirror)
  ∧ (∀ (s : State), exec .inputUndervoltage s = .next (s.inputLow).mirror)
  ∧ (∀ (s : State), exec .inputOvervoltage s = .next (s.inputHigh).mirror)
  ∧ (∀ (s : State), exec .regulatorFail s = .next (s.regulatorFail).mirror)
  ∧ (∀ (s : State), exec .inputBelow10v s = .next (s.inputGone).mirror)

/-- Each stage, when it is the one the start is at, does its work and enters the next, or fails the start with its code; at UP the image
held takes effect and the start is logged; a stage that outlasts its bound fails. -/
def Obligations.BootStages : Prop :=
  (∀ (s : State) (r : Bool) (g : Nat), s.atStage 1 = true → s.elec.resetLow = false → s.boot.validGens.getLast? = some g → r = true → ∃ t,
    exec (.stageRom r) s = .next t ∧ t.stage = 2 ∧ t.boot.stageBeats = 0 ∧ t.boot.source = 0 ∧ t.boot.delivered = false ∧ t.fld
    Fld.SEC_OTP_IN_FORCE 0 = g % 2 ^ Fld.SEC_OTP_IN_FORCE.width ∧ t.fld Fld.SEC_OTP_ANTI_ROLLBACK 0 = fieldAt (s.boot.otpGen g) 4 4 ∧
    t.fld Fld.HUB_SERIAL_SERIAL 0 = fieldAt (s.boot.otpGen g) 8 8 ∧ t.flag Fld.HUB_CLK_STATUS_REF_PRESENT = true ∧ MemoryKept s t)
  ∧ (∀ (s : State) (r : Bool), s.atStage 1 = true → s.elec.resetLow = false → s.boot.validGens.getLast? = none → exec (.stageRom r) s =
    .next (s.startFail 0x20 0).mirror)
  ∧ (∀ (s : State) (ok : Bool), s.atStage 2 = true → ok = true → s.boot.cold = true → s.winterStart = false → exec (.stageHold ok) s =
    .next ((s.zeroRange lpddrBase (lpddrBase + lpddrUsable)).enterStage 3).mirror)
  ∧ (∀ (s : State) (ok : Bool), s.atStage 2 = true → ok = true → s.boot.cold = false → exec (.stageHold ok) s = .next (s.enterStage
    3).mirror)
  ∧ (∀ (s : State) (ok : Bool), s.atStage 2 = true → ok = false → exec (.stageHold ok) s = .next (s.startFail 0x26 0).mirror)
  ∧ (∀ (s : State) (c : Nat), s.atStage 3 = true → s.winterStart = false → s.boot.delivered = true → s.firmwareCode = c → exec
    .stageFirmware s = .next ((if c = 0 then s.runFirmware.enterStage 4 else s.startFail 0x23 c)).mirror)
  ∧ (∀ (s : State), s.atStage 3 = true → s.winterStart = true → s.boot.cold = false → exec .stageFirmware s = .next (s.enterWinter
    s.firmwareCode).mirror)
  ∧ (∀ (s : State) (c : Nat), s.atStage 4 = true → s.boot.delivered = true → s.img.holdNext = none → s.boot.tryNext = false → s.judgeHeld
    validateOuter = c → exec .stageImage s = .next ((if c = 0 then s.enterStage 5 else s.imageFail c)).mirror)
  ∧ (∀ (s u v : State) (l : List Lane) (d : List DieRev), s.atStage 5 = true → s.testLinks l = u → u.fenceFailedLinks.revisions d = v →
    exec (.stageLinks l d) s = .next ((if u.linkState 0 = lsFenced then u.startFail 0x27 0 else if !v.dieAccepted 1 then v.startFail 0x28
    0 else v.enterStage 6)).mirror)
  ∧ (∀ (s : State) (c : Nat), s.atStage 6 = true → s.boot.tryNext = false → s.judgeHeld innerCode = c → exec .stageValidate s = .next ((if
    c = 0 then s.enterStage 7 else s.imageFail c)).mirror)
  ∧ (∀ (s : State) (ok : Bool), s.atStage 7 = true → ok = true → s.boot.cold = false → exec (.stageMemory ok) s = .next (s.enterStage
    8).mirror)
  ∧ (∀ (s : State) (ok : Bool), s.atStage 7 = true → ok = true → s.boot.cold = true → exec (.stageMemory ok) s = .next (((((List.range
    8).filter (fun k => !s.dieFenced (k / 2))).map (fun k => (hbmBase + k * hbmStride, stackEnd k)) ++ (List.range 31).map (fun k =>
    (lpddrBase + (k + 1) * lpddrStride, lpddrBase + (k + 1) * lpddrStride + lpddrUsable))).foldl (fun s r => s.zeroRange r.1 r.2)
    s).enterStage 8).mirror)
  ∧ (∀ (s : State) (ok : Bool), s.atStage 7 = true → ok = false → exec (.stageMemory ok) s = .next (s.startFail 0x29 0).mirror)
  ∧ (∀ (s : State) (e : Nat), s.atStage 8 = true → exec (.stagePorts e) s = .next (((bitsOf 2 e).foldl (fun s p => s.ethLink p true)
    ((List.range 16).foldl (fun s p => s.retrain p true) s)).enterStage 9).mirror)
  ∧ (∀ (s u : State), s.atStage 9 = true → s.img.full = none →
    { s.setFromSource with img := { s.setFromSource.img with full := heldImage s.img.holdFull, update := heldImage s.img.holdUpdate } } =
    u → exec .stageUp s = .next ((((u.applyTables [] (inForceSections (heldImage s.img.holdFull) (heldImage s.img.holdUpdate))
    ((u.lastHdr.map (·.moduleId)).getD 0) 0xFFFF false).identify).setFld Fld.HUB_BOOT_START_COUNT 0 0).logStart 0 0).mirror)
  ∧ (∀ (s : State), s.isUp = false → s.stage ≤ 9 → s.elec.powered = true → s.elec.cycleReq = false → s.fencing .chip = false → s.boot.cold
    = true → s.stageBound ≤ s.boot.stageBeats → exec .stageTimeout s = .next (s.startFail 0x2A 0).mirror)
  ∧ (∀ (s : State) (ref : Bool), exec (.stageRom ref) s = .next ((s.stageRom ref)).mirror)
  ∧ (∀ (s : State) (ok : Bool), exec (.stageHold ok) s = .next ((s.stageHold ok)).mirror)
  ∧ (∀ (s : State), exec .stageFirmware s = .next (s.stageFirmware).mirror)
  ∧ (∀ (s : State), exec .stageImage s = .next (s.stageImage).mirror)
  ∧ (∀ (s : State) (fails : List Lane) (dies : List DieRev), exec (.stageLinks fails dies) s = .next ((s.stageLinks fails dies)).mirror)
  ∧ (∀ (s : State), exec .stageValidate s = .next (s.stageValidate).mirror)
  ∧ (∀ (s : State) (ok : Bool), exec (.stageMemory ok) s = .next ((s.stageMemory ok)).mirror)
  ∧ (∀ (s : State) (eth : Nat), exec (.stagePorts eth) s = .next ((s.stagePorts eth)).mirror)
  ∧ (∀ (s : State), exec .stageUp s = .next (s.stageUp).mirror)
  ∧ (∀ (s : State), exec .stageTimeout s = .next (s.stageTimeout).mirror)

/-- A fetch begins where its object is accepted; the end of its source judges the object, a torn source leaves code 0x1B; a source that
does not deliver in time gives way to the next; LEAVE_WINTER clears the start count with a warm chip reset; the programming of a
generation ends with its result. -/
def Obligations.BootDelivery : Prop :=
  (∀ (s : State) (n : Nat), s.atStage 3 = true → s.boot.cold = true → s.boot.delivered = false → s.sourceNow = some n → s.fetchBeats *
    (s.boot.source + 1) ≤ s.boot.stageBeats → s.winterStart = true → exec .fetchSourceTimeout s = .next
    ({ s with boot := { s.boot with source := s.boot.source + 1 } }).mirror)
  ∧ (∀ (s : State) (i : Nat) (d : List Byte), s.elec.powered = true → i = 1 → exec (.pldmComponent i d) s = .next (s.firmwareArrives 0 d
    d.length).mirror)
  ∧ (∀ (s : State) (i : Nat) (d : List Byte), s.elec.powered = true → i = 2 → s.fetchAccepted 2 = true → exec (.pldmComponent i d) s =
    .next (s.imageArrives 0 d d.length).mirror)
  ∧ (∀ (s : State) (i : Nat) (d : List Byte), s.elec.powered = true → i = 2 → s.fetchAccepted 2 = false → exec (.pldmComponent i d) s =
    .next (s.setFld Fld.HUB_BOOT_CTL_RESULT 0 0x15).mirror)
  ∧ (∀ (s u : State) (rq : Requester) (n : Nat), s.acceptsWrite rq .HUB_BOOT_CTL 0 = true → (s.setFld Fld.HUB_BOOT_CTL_LENGTH 0 n).setFld
    Fld.HUB_BOOT_CTL_OBJECT 0 1 = u → u.boot.fetch = none → u.fetchAccepted 1 = true → exec (.fetchFirmware rq n) s = .next (((u.raise
    Fld.HUB_BOOT_CTL_FETCH).setLoad false (some ⟨1, if u.flag Fld.HUB_BOOT_SRC_KIND then u.fld Fld.HUB_BOOT_SRC_ADDR * 64 else hostBase +
    u.fld Fld.HUB_BOOT_SRC_ADDR * 64, u.fld Fld.HUB_BOOT_CTL_LENGTH, [], false⟩)).loadReads false (2 ^ 24 + 1)).mirror)
  ∧ (∀ (s u : State) (rq : Requester) (n : Nat), s.acceptsWrite rq .HUB_BOOT_CTL 0 = true → (s.setFld Fld.HUB_BOOT_CTL_LENGTH 0 n).setFld
    Fld.HUB_BOOT_CTL_OBJECT 0 2 = u → u.boot.fetch = none → u.fetchAccepted 2 = true → exec (.fetchImage rq n) s = .next (((u.raise
    Fld.HUB_BOOT_CTL_FETCH).setLoad false (some ⟨2, if u.flag Fld.HUB_BOOT_SRC_KIND then u.fld Fld.HUB_BOOT_SRC_ADDR * 64 else hostBase +
    u.fld Fld.HUB_BOOT_SRC_ADDR * 64, u.fld Fld.HUB_BOOT_CTL_LENGTH, [], false⟩)).loadReads false (2 ^ 24 + 1)).mirror)
  ∧ (∀ (s u : State) (rq : Requester) (n : Nat), s.acceptsWrite rq .HUB_BOOT_CTL 0 = true → (s.setFld Fld.HUB_BOOT_CTL_LENGTH 0 n).setFld
    Fld.HUB_BOOT_CTL_OBJECT 0 2 = u → u.boot.fetch = none → u.fetchAccepted 2 = false → exec (.fetchImage rq n) s = .next (u.bootResult
    0x15).mirror)
  ∧ (∀ (s u : State) (rq : Requester) (n : Nat), s.acceptsWrite rq .HUB_BOOT_CTL 0 = true → (s.setFld Fld.HUB_BOOT_CTL_LENGTH 0 n).setFld
    Fld.HUB_BOOT_CTL_OBJECT 0 3 = u → u.boot.fetch = none → u.fetchAccepted 3 = true → u.fld Fld.HUB_BOOT_CTL_LENGTH = 0 → exec
    (.fetchNextImage rq n) s = .next ((({ u with img := { u.img with holdNext := none } }).setFld Fld.HUB_SIMG_STATUS_NEXT_PENDING 0
    0).bootResult 0).mirror)
  ∧ (∀ (s : State) (f : Fetch), s.boot.fetch = some f → f.torn = true → exec .fetchComplete s = .next ((s.setLoad false none).bootResult
    0x1B).mirror)
  ∧ (∀ (s : State) (f : Fetch), s.boot.fetch = some f → f.torn = false → f.len ≤ f.data.length → f.object = 1 → exec .fetchComplete s =
    .next ((s.setLoad false none).firmwareArrives 1 f.data f.len).mirror)
  ∧ (∀ (s : State) (rq : Requester), s.acceptsWrite rq .HUB_BOOT_CTL 0 = true → s.flag Fld.HUB_BOOT_WINTER = true → exec (.leaveWinter rq)
    s = .next ((s.setFld Fld.HUB_BOOT_START_COUNT 0 0).chipReset 8).mirror)
  ∧ (∀ (s u : State) (rq : Requester) (w : Nat), s.acceptsWrite rq .SEC_OTP_PROG 0 = true → s.setReg .SEC_OTP_PROG 0 (BitVec.ofNat 64
    (Field.store Fld.SEC_OTP_PROG_ADDR (s.reg .SEC_OTP_PROG 0).toNat (w ||| 2 ^ 63) (2 ^ 64 - 1))) = u → bit ((w ||| 2 ^ 63) &&& (2 ^ 64 -
    1)) 63 = true → exec (.otpProgram rq w) s = .next (u.otpGo).mirror)
  ∧ (∀ (s : State) (ok : Bool) (g : Nat) (d : List Byte), s.boot.prog = some (g, d) → exec (.otpProgrammingComplete ok) s = .next
    (((({ s with boot := if ok then { s.boot.writeGen g d with prog := none } else s.boot.consume }).setFld Fld.SEC_OTP_PROG_RESULT 0 (if
    ok then 0 else 8)).setFld Fld.SEC_OTP_PROGRAMMING 0 0).setFld Fld.SEC_OTP_PROG_GO 0 0).mirror)
  ∧ (∀ (s : State), exec .fetchSourceTimeout s = .next (s.sourceTimeout).mirror)
  ∧ (∀ (s : State) (comp : Nat) (data : List Byte), exec (.pldmComponent comp data) s = .next ((s.pldmComponent comp data)).mirror)
  ∧ (∀ (s : State) (rq : Requester) (len : Nat), exec (.fetchFirmware rq len) s = .next ((s.gated rq .HUB_BOOT_CTL 0 (fun s => s.fetchRow
    1 len))).mirror)
  ∧ (∀ (s : State) (rq : Requester) (len : Nat), exec (.fetchImage rq len) s = .next ((s.gated rq .HUB_BOOT_CTL 0 (fun s => s.fetchRow 2
    len))).mirror)
  ∧ (∀ (s : State) (rq : Requester) (len : Nat), exec (.fetchNextImage rq len) s = .next ((s.gated rq .HUB_BOOT_CTL 0 (fun s => s.fetchRow
    3 len))).mirror)
  ∧ (∀ (s : State), exec .fetchComplete s = .next (s.fetchComplete).mirror)
  ∧ (∀ (s : State) (rq : Requester), exec (.leaveWinter rq) s = .next ((s.gated rq .HUB_BOOT_CTL 0 State.leaveWinter)).mirror)
  ∧ (∀ (s : State) (rq : Requester) (w : Nat), exec (.otpProgram rq w) s = .next ((s.gated rq .SEC_OTP_PROG 0 (fun s => s.writeOtpProg (w
    ||| 2 ^ 63) (2 ^ 64 - 1)))).mirror)
  ∧ (∀ (s : State) (ok : Bool), exec (.otpProgrammingComplete ok) s = .next ((s.otpComplete ok)).mirror)

/-- The responder answers from stage HOLD on; a challenge, and a signed request, are signed by the device over the nonce and what is
reported; a monitoring request is answered while the housekeeping supply is up, after a trip with the trip alone. The codes of the answers
are the model's own. -/
def Obligations.Attestation : Prop :=
  (∀ (s : State) (w v : Nat), s.responds = true → w = 0 → exec (.spdmNegotiate w v) s = .next (s.emit (.spdm 0 [0x13] [])).mirror)
  ∧ (∀ (s : State) (n : List Byte), s.responds = true → exec (.spdmChallenge n) s = .next (s.emit (.spdm 0 (measureIndices.map
    s.measureBlock).flatten (Config.deviceSignature (n ++ (measureIndices.map s.measureBlock).flatten)))).mirror)
  ∧ (∀ (s : State) (i : Nat) (n : List Byte) (b : Bool), s.responds = true → i = 0 → exec (.spdmGetMeasurements i n b) s = .next (s.emit
    (.spdm 0 [BitVec.ofNat 8 measureIndices.length] (if b then Config.deviceSignature (n ++ [BitVec.ofNat 8 measureIndices.length]) else
    []))).mirror)
  ∧ (∀ (s : State) (w : Nat), s.elec.housekeeping = true → w = 1 → exec (.pldmRequest w) s = .next (s.emit (.pldm 0 (if s.elec.trip then 1
    else 0))).mirror)
  ∧ (∀ (s : State) (w : Nat), s.elec.housekeeping = true → s.elec.trip = true → w ≠ 1 → exec (.pldmRequest w) s = .next (s.emit (.pldm 1
    0)).mirror)
  ∧ (∀ (s : State) (w : Nat), s.elec.housekeeping = true → s.elec.trip = false → s.elec.powered = true → w = 0 → exec (.pldmRequest w) s =
    .next (s.emit (.pldm 0 s.stage)).mirror)
  ∧ (∀ (s : State) (what version : Nat), exec (.spdmNegotiate what version) s = .next ((s.spdmNegotiate what version)).mirror)
  ∧ (∀ (s : State) (nonce : List Byte), exec (.spdmChallenge nonce) s = .next ((s.spdmChallenge nonce)).mirror)
  ∧ (∀ (s : State) (i : Nat) (nonce : List Byte) (signed : Bool), exec (.spdmGetMeasurements i nonce signed) s = .next ((s.spdmMeasure i
    nonce signed)).mirror)
  ∧ (∀ (s : State) (what : Nat), exec (.pldmRequest what) s = .next ((s.pldmRequest what)).mirror)

/-- A selector written waits, a hub's until a beat that is a multiple of 64; a sample whose ring has no room is dropped and counted; GO of
a dump begins one where none runs, and its end writes the header and clears GO; a partial trace frame leaves 125 beats after its first
packet; the trace link's state shows. -/
def Obligations.Observation : Prop :=
  (∀ (s : State) (rq : Requester) (k u i w : Nat), selExists k u i = true → s.acceptsWrite rq (selReg k) (u * (counterRegs k).per + i) =
    true → exec (.cntSelWrite rq k u i w) s = .next
    ({ s.storePlain (selReg k) (u * (counterRegs k).per + i) w (2 ^ 64 - 1) with selPend := selKey k u i :: s.selPend.filter (· != selKey k u i) }).mirror)
  ∧ (∀ (s : State), s.ft % 64 = 0 → exec .hubCntSelApply s = .next (s.applyUnit 3 0).mirror)
  ∧ (∀ (s : State), s.flag Fld.HUB_SMP_CFG_EN = true → s.ft % 2 ^ s.fld Fld.HUB_SMP_CFG_PERIOD_LOG2 = 0 → s.sampleUnits.isEmpty = false →
    s.trc.sampled ≠ s.ft + 1 → 2 ^ s.fld Fld.HUB_SMP_RING_LOG2_RECORDS < (s.fld Fld.HUB_SMP_PTR_HEAD + 2 ^ 32 - s.fld
    Fld.HUB_SMP_PTR_TAIL) % 2 ^ 32 + s.sampleUnits.length → exec .sampleTick s = .next
    (({ s with trc := { s.trc with sampled := s.ft + 1 } } : State).bump Fld.HUB_SMP_CFG_DROPS 0).mirror)
  ∧ (∀ (s u z : State), s.flag Fld.HUB_SMP_CFG_EN = true → s.ft % 2 ^ s.fld Fld.HUB_SMP_CFG_PERIOD_LOG2 = 0 → s.sampleUnits.isEmpty =
    false → s.trc.sampled ≠ s.ft + 1 → (s.fld Fld.HUB_SMP_PTR_HEAD + 2 ^ 32 - s.fld Fld.HUB_SMP_PTR_TAIL) % 2 ^ 32 + s.sampleUnits.length
    ≤ 2 ^ s.fld Fld.HUB_SMP_RING_LOG2_RECORDS → ({ s with trc := { s.trc with sampled := s.ft + 1 } } : State) = z → z.writeSamples (s.fld
    Fld.HUB_SMP_PTR_HEAD) (s.sampleUnits.map (fun u => z.sampleRecord u.1 u.2)) = (u, true) → exec .sampleTick s = .next ((u.setFld
    Fld.HUB_SMP_PTR_HEAD 0 (s.fld Fld.HUB_SMP_PTR_HEAD + s.sampleUnits.length)).msi Fld.HUB_SMP_MSI_FILE Fld.HUB_SMP_MSI_EN
    Fld.HUB_SMP_MSI_IDENTITY 0).mirror)
  ∧ (∀ (s u : State) (rq : Requester) (w v : Nat), s.acceptsWrite rq .DBG_DUMP_CTL 0 = true → s.stored .DBG_DUMP_CTL 0 (w ||| 2 ^ 63) (2 ^
    64 - 1) = v → bit ((w ||| 2 ^ 63) &&& (2 ^ 64 - 1)) 63 = true → s.dump = none → ((s.setFld Fld.DBG_DUMP_CTL_ON_HANG 0 (getBits v 62
    1)).setFld Fld.DBG_DUMP_CTL_LIMIT 0 (getBits v 24 24)).setFld Fld.DBG_DUMP_CTL_BLOCKS 0 (getBits v 0 16) = u → exec (.dump rq w) s =
    .next ((u.raise Fld.DBG_DUMP_CTL_GO).beginDump ⟨u.ft, dumpRanges (u.fld Fld.DBG_DUMP_CTL_BLOCKS), 0, 0, 0, 0, false⟩).mirror)
  ∧ (∀ (s : State) (o : Nat) (d : Dump), s.dump = some d → (d.before (2 ^ 26)).contains o = true → exec (.registerReadTimeout o) s = .next
    ({ ((s.dumpTo d o).1.dumpOne (s.dumpTo d o).2 o true).1 with dump := some { ((s.dumpTo d o).1.dumpOne (s.dumpTo d o).2 o true).2 with ranges := (((s.dumpTo d o).1.dumpOne (s.dumpTo d o).2 o true).2.ranges.map (fun (g : Nat × Nat) => (max g.1 (o + 8), g.2))) } }).mirror)
  ∧ (∀ (s u : State) (d e : Dump), s.dump = some d → s.dumpTo d (2 ^ 26) = (u, e) → cacheable (u.fld Fld.DBG_DUMP_DEST_ADDR * 2 ^ 16) =
    false → exec .dumpComplete s = .next
    ({ (u.setFld Fld.DBG_DUMP_STATUS_STATE 0 (if e.full then 3 else 2)).setFld Fld.DBG_DUMP_CTL_GO 0 0 with dump := none }).mirror)
  ∧ (∀ (s : State), s.trc.first + 125 ≤ s.ft → exec .traceFrameFlush s = .next (s.traceFrame).mirror)
  ∧ (∀ (s : State), exec .traceLinkDown s = .next ((s.setFld Fld.TRC_STATUS_LINK_UP 0 0).traceUpdate).mirror)
  ∧ (∀ (s : State), exec .traceLinkUp s = .next ((s.setFld Fld.TRC_STATUS_LINK_UP 0 1).traceUpdate).mirror)
  ∧ (∀ (s : State) (rq : Requester) (kind unit i w : Nat), exec (.cntSelWrite rq kind unit i w) s = .next ((if selExists kind unit i then
    s.gated rq (selReg kind) (unit * (counterRegs kind).per + i) (fun s => s.writeSel kind unit i w (2 ^ 64 - 1)) else s)).mirror)
  ∧ (∀ (s : State), exec .hubCntSelApply s = .next (s.hubSelApply).mirror)
  ∧ (∀ (s : State), exec .sampleTick s = .next (s.sampleTick).mirror)
  ∧ (∀ (s : State) (rq : Requester) (w : Nat), exec (.dump rq w) s = .next ((s.gated rq .DBG_DUMP_CTL 0 (fun s => s.writeDumpCtl (w ||| 2
    ^ 63) (2 ^ 64 - 1)))).mirror)
  ∧ (∀ (s : State) (off : Nat), exec (.registerReadTimeout off) s = .next ((s.readTimeout off)).mirror)
  ∧ (∀ (s : State), exec .dumpComplete s = .next (s.dumpComplete).mirror)
  ∧ (∀ (s : State), exec .traceFrameFlush s = .next (s.traceFlush).mirror)

/-- R34: a write of the right size that its block accepts is done with the register's own semantics; one at an offset that defines no
register is ignored (R18); one of the wrong size changes nothing. R296: an interrupt ends a FENCE.COMPLETE that waits, which has then not
retired. -/
def Obligations.RegisterWrites : Prop :=
  (∀ (s t : State) (rq : Requester) (o n v i : Nat) (r : Reg), regSizeOk o n = true → s.judgeReg rq o true = (t, none) → regAt o = some
    (r, i) → exec (.registerWrite rq o n v) s = .next (t.writeReg r i (writeValue o n v) (writeMask o n)).mirror)
  ∧ (∀ (s t : State) (rq : Requester) (o n v : Nat), regSizeOk o n = true → s.judgeReg rq o true = (t, none) → regAt o = none → exec
    (.registerWrite rq o n v) s = .next (t).mirror)
  ∧ (∀ (s : State) (rq : Requester) (o n v : Nat), regSizeOk o n = false → exec (.registerWrite rq o n v) s = .next (s).mirror)
  ∧ (∀ (s : State) (c : Nat), (s.cpu c).fenceRd.isSome = true → exec (.cpuInterrupt c) s = .next (s.updCpu c (fun x =>
    { x with fenceRd := none })).mirror)
  ∧ (∀ (s : State) (rq : Requester) (off size value : Nat), exec (.registerWrite rq off size value) s = .next ((s.regWrite rq off size
    value).1).mirror)
  ∧ (∀ (s : State) (cpu : Nat), exec (.cpuInterrupt cpu) s = .next ((if (s.cpu cpu).fenceRd.isSome then s.updCpu cpu (fun x =>
    { x with fenceRd := none }) else s)).mirror)

/-- The model's own convention (assumption log 1): a step is exec of the command at the front on the state with the rest of the queue;
with none waiting nothing changes. -/
def Obligations.StepTakesTheFront : Prop :=
  (∀ (s : State) (c : Instr) (rest : List Instr), step { s with pending := c :: rest } = exec c { s with pending := rest }) ∧
  ∀ s : State, s.pending = [] → step s = .next s

/-- R80: on a powered module with no power cycle requested, one beat advances fabric time by one and, unless RESET_N holds the start, the
stage's and the start's counts of beats; a port that is up sends a frame (R349) with its first two waiting link messages. Without a
revert, a waiting operation or register access, or a context, memory is unchanged. What else a beat does, and in which order, is the
model's choice (logs 9, 51 and 54). -/
def Obligations.BeatAdvances : Prop :=
  (∀ s a b c d : State, s.elec.powered = true → s.elec.cycleReq = false → (List.range 16).foldl State.portFrame s = a →
    a.tickTime.bootBeat.regAccesses.doReverts (fun _ => true) = b → (b.clockedEngines.foldl State.hangBeat b).cycleCounts.ovfEvents.waitingMsis = c →
    ((List.range 16).foldl State.portWindows c).ctxIds.foldl State.restoreSaves ((List.range 16).foldl State.portWindows c) = d →
    exec .beat s = .next (d.waitingCpus.foldl State.wakeCpu d).powerBeat.traceFull.mirror) ∧
  (∀ s : State, s.elec.powered = true → s.elec.cycleReq = false → s.reverts = [] → s.stalls = [] → s.ctxs = [] → s.opens.filter OpenAccess.isReg = [] →
    ∃ t, exec .beat s = .next t ∧ t.ft = (s.ft + 1) % 2 ^ 64 ∧
      t.boot = (if s.elec.resetLow then s.boot else { s.boot with stageBeats := s.boot.stageBeats + 1, startBeats := s.boot.startBeats + 1 }) ∧
      (∀ p, p < 16 → s.portUp p = true → (∃ b n, Out.frame p b n ∈ t.out) ∧ ∃ l, (t.port p).msgs = (s.port p).msgs.drop 2 ++ l) ∧
      (∀ p, p < 16 → s.portUp p = false → (t.port p).msgs = (s.port p).msgs) ∧
      t.pending = s.pending ∧ MemoryKept s t) ∧
  ∀ s : State, s.elec.powered = false ∨ s.elec.cycleReq = true → exec .beat s = .next s.mirror

/-- Right after power-good (R466) the start is in stage ROM with reason POWER_ON, no structure image is in force, the queue is empty, no
memory is listed (assumption log 5) and the status fields show the units' states. -/
def Obligations.ResetShowsItsState : Prop :=
  State.reset.pending = [] ∧ State.reset.out = [] ∧ State.reset.stage = 1 ∧ State.reset.fld Fld.HUB_BOOT_REASON = 1 ∧ State.reset.boot.cold = true ∧
  State.reset.img.full = none ∧ State.reset.img.tables = [] ∧ State.reset.mem = [] ∧ State.reset.ctxs = [] ∧ Memory.wf State.reset = true ∧ StatusShown State.reset

/-- R195, R514: whatever command is taken, in whatever state that shows its contexts and its trace buffer in HUB_CTX_STATUS.STATE and
TRC_STATUS.OCCUPANCY, the next state shows them too. -/
def Obligations.StepKeepsStatusShown : Prop :=
  ∀ s t : State, StatusShown s → step s = .next t → StatusShown t

/-- What every command's answer adds to its effect: HUB_CTX_STATUS.STATE and TRC_STATUS.OCCUPANCY show the state; every other field, every
other register and every other part of the state is unchanged. -/
def Obligations.MirrorFrame : Prop :=
  ∀ s : State, RegistersOnly s s.mirror ∧ OtherRegistersKept [] s s.mirror ∧ StatusShown s.mirror ∧
    ∀ (g : Field) (j : Nat), j < 2 ^ 20 →
      (g.reg = .HUB_CTX_STATUS ∧ (Fld.HUB_CTX_STATUS_STATE.lo + Fld.HUB_CTX_STATUS_STATE.width ≤ g.lo ∨ g.lo + g.width ≤ Fld.HUB_CTX_STATUS_STATE.lo)) ∨
      (g.reg = .TRC_STATUS ∧ (Fld.TRC_STATUS_OCCUPANCY.lo + Fld.TRC_STATUS_OCCUPANCY.width ≤ g.lo ∨ g.lo + g.width ≤ Fld.TRC_STATUS_OCCUPANCY.lo)) →
      s.mirror.fld g j = s.fld g j

/-- R34, R529: for each command that writes one control register, in a state in which the register's block does not take the requester's
write, the next state differs in registers alone, and of those only in the sticky summary and the record of the isolation error (and the
two status fields that mirror a unit's state). -/
def Obligations.RefusedRegisterWrites : Prop :=
  ∀ (s : State) (rq : Requester) (x w v n : Nat) (on : Bool) (c : Instr) (r : Reg) (i : Nat), (c, r, i) ∈ [
      (Instr.armEpoch rq w, Reg.HUB_FT_CTL, 0), (.ftSourceWrite rq w, .HUB_FT_CTL, 0), (.auditSnap rq w, .HUB_AUDIT_SNAP, 0), (.simgLoad rq, .HUB_SIMG_CTL, 0),
      (.simgAbort rq, .HUB_SIMG_CTL, 0), (.simgPropose rq, .HUB_SIMG_CTL, 0), (.create rq (x % 256) w, .HUB_CTX_CTL, x % 256),
      (.preempt rq (x % 256) w, .HUB_CTX_CTL, x % 256), (.resume rq (x % 256) w, .HUB_CTX_CTL, x % 256), (.ctxEnd rq (x % 256) w, .HUB_CTX_CTL, x % 256),
      (.saveCfgWrite rq (x % 128) v, .CO_SAVE_CFG, x % 128), (.refreshFloorWrite rq (x % 40) v, .MEM_REFRESH, x % 40),
      (.wayReenable rq (x % 64) v, .LLM_SLICE, x % 64), (.llmZero rq (x % 4) w, .LLM_ZERO, x % 4), (.tileFence rq (x % 16), .HUB_TT_CTL, x % 16),
      (.tlbi rq (x % 16) w, .HUB_TLBI, x % 16), (.noticeSend rq w, .FAB_NSEND, 0), (.retrain rq (x % 16), .FAB_PORT_CTL, x % 16),
      (.portDisable rq (x % 16) on, .FAB_PORT_CTL, x % 16), (.hostBar2Write rq w, .HOST_BAR2, 0), (.detach rq, .HOST_ATTACH, 0), (.attach rq, .HOST_ATTACH, 0),
      (.rwinCtlWrite rq (x % 256) w, .ETH_RWIN_CTL, x % 256), (.txqTailWrite rq 1 (x % 256) v, .ETH_TXQ_PTR, 256 + x % 256), (.capWrite rq v, .PWR_CAP, 0),
      (.powerModeWrite rq w, .PWR_MODE, 0), (.rampWrite rq true w, .PWR_MODE, 0), (.rampWrite rq false w, .PWR_RAMP, 0), (.powerModelClear rq, .PWR_FAULT, 0),
      (.hangReset rq (x % 512), .EN_HANG, x % 512), (.replay rq (x % 16), .HUB_RECOV_CTL, x % 16), (.partitionReset rq (x % 16), .HUB_PART_RESET, x % 16),
      (.chipResetArm rq, .HUB_CHIP_RESET, 0), (.chipResetGo rq, .HUB_CHIP_RESET, 0), (.fetchFirmware rq n, .HUB_BOOT_CTL, 0), (.fetchImage rq n, .HUB_BOOT_CTL, 0),
      (.fetchNextImage rq n, .HUB_BOOT_CTL, 0), (.leaveWinter rq, .HUB_BOOT_CTL, 0), (.otpProgram rq w, .SEC_OTP_PROG, 0),
      (.cntSelWrite rq 3 0 (x % 32) w, .HUB_CNT_SEL, x % 32), (.dump rq w, .DBG_DUMP_CTL, 0)] →
    s.acceptsWrite rq r i = false →
    ∃ t, exec c s = .next t ∧ RegistersOnly s t ∧ OtherRegistersKept [.HUB_STICKY, .HUB_ISO_REC, .HUB_ISO_SRC] s t

/-- The frame of five commands whose whole effect stands in registers: everything but registers is as before, and every register but those
named reads as before. -/
def Obligations.RegisterRowFrames : Prop :=
  ∀ (s t : State) (rq : Requester) (x w : Nat) (c : Instr) (r : Reg) (i : Nat) (l : List Reg), (c, r, i, l) ∈ [
      (Instr.auditSnap rq w, Reg.HUB_AUDIT_SNAP, 0, [Reg.HUB_AUDIT_SNAP]), (.saveCfgWrite rq (x % 128) w, .CO_SAVE_CFG, x % 128, [.CO_SAVE_CFG]),
      (.hostBar2Write rq w, .HOST_BAR2, 0, [.HOST_BAR2, .HOST_STATUS]), (.attach rq, .HOST_ATTACH, 0, [.HOST_ATTACH]),
      (.rwinCtlWrite rq (x % 256) w, .ETH_RWIN_CTL, x % 256, [.ETH_RWIN_CTL])] →
    s.acceptsWrite rq r i = true → exec c s = .next t → RegistersOnly s t ∧ OtherRegistersKept l s t

/-- A write of a whole aligned 32-byte granule of HBM, LPDDR or LLM makes its check bytes right, whatever stood there; reading it answers
those bytes, not poisoned, and changes nothing. -/
def Obligations.MemoryReadsBack : Prop :=
  ∀ (s : State) (g : Nat) (b : List Byte) (src : ErrSource), coded g = true → g % 32 = 0 → b.length = 32 →
    (s.writeMem g b).2 = false ∧ (s.writeMem g b).1.readMem g 32 src = ((s.writeMem g b).1, false, b) ∧
    (∀ a, a < g ∨ g + 32 ≤ a → (s.writeMem g b).1.byte a = s.byte a) ∧ (∀ h, h ≠ g → (s.writeMem g b).1.syn h = s.syn h)

/-- R163: an access that the SRAM takes stores its bytes at its address; every byte outside them, and every check byte, is unchanged. -/
def Obligations.SramStoreFrame : Prop :=
  ∀ (s : State) (rq : Requester) (a k o : Nat) (d : List Byte), locate a = .sram k o → s.judge rq 2 a d.length = (s, none) →
    ∃ t, exec (.sramEndpointAccess rq a (.write d)) s = .next t ∧ (∀ (i : Nat) (h : i < d.length), t.byte (a + i) = d[i]) ∧
      (∀ x, x < a ∨ a + d.length ≤ x → t.byte x = s.byte x) ∧ ∀ g, t.syn g = s.syn g

/-- R18 as the two operations of a register access: inside a block's range, where no register is defined and the block takes the access, a
read gives 0 and a write changes nothing, both with status OK; outside every block the requester gets an access error. -/
def Obligations.UndefinedOffsets : Prop :=
  (∀ (s : State) (rq : Requester) (o n : Nat), regSizeOk o n = true → regAt o = none → s.judgeReg rq o false = (s, none) → s.regRead rq o n = (s, stOk, 0)) ∧
  (∀ (s : State) (rq : Requester) (o n v : Nat), regSizeOk o n = true → regAt o = none → s.judgeReg rq o true = (s, none) → s.regWrite rq o n v = (s, stOk)) ∧
  ∀ (s : State) (rq : Requester) (o n v : Nat), blockAt o = none → s.regRead rq o n = (s, stAccessError, 0) ∧ s.regWrite rq o n v = (s, stAccessError)

/-- R539: on a module whose trip latch is clear, with no reset of the chip in progress, RESET_N begins a warm chip reset with reason 3,
SIDEBAND; during one it only holds; while it is low the start stays at stage ROM and its counts of beats stand; with the trip latch set it
has no effect. -/
def Obligations.SidebandReset : Prop :=
  (∀ s : State, s.elec.trip = false → s.elec.powered = true → s.elec.cycleReq = false → s.chipResetting = false →
    exec .resetNAssert s = .next (({ s with elec := { s.elec with resetLow := true } } : State).chipReset 3).mirror ∧
    ∃ t, exec .resetNAssert s = .next t ∧ t.boot.reason = 3 ∧ t.fencing .chip = true ∧ t.elec.resetLow = true) ∧
  (∀ s : State, s.elec.trip = false → s.chipResetting = true →
    exec .resetNAssert s = .next ({ s with elec := { s.elec with resetLow := true } } : State).mirror) ∧
  (∀ s : State, s.elec.trip = true → exec .resetNAssert s = .next s.mirror) ∧
  (∀ s : State, exec .resetNAssert s = .next s.resetAssert.mirror) ∧
  ∀ (s : State) (ref : Bool), s.elec.resetLow = true → exec (.stageRom ref) s = .next s.mirror ∧ s.bootBeat = s

/-- R160, both sentences, and the frame that no other engine's cell or unit changes. -/
def Obligations.EngineResetZeroes : Prop :=
  ∀ (s : State) (e : Nat), e < 512 →
    (∀ b i j, b < 2 → i < 64 → j < 64 → (s.engineReset e).cell e b i j = 0) ∧ (s.engineReset e).engine e = Engine.idle ∧
    (∀ r ∈ [Reg.EN_EXC, .EN_EXC_COORD, .EN_EXC_TAG, .EN_EXC_BEAT], ∀ i, i < 2 ^ 20 → (s.engineReset e).reg r i = s.reg r i) ∧
    ∀ f, f ≠ e → (s.engineReset e).engine f = s.engine f ∧ ∀ b i j, b < 2 → i < 64 → j < 64 → (s.engineReset e).cell f b i j = s.cell f b i j

/-- R118 for every pattern, from the pattern's fields. -/
def Obligations.Z16Values : Prop :=
  ∀ n e m : Nat, n < 2 → e < 128 → m < 256 →
    fmtZ16.decode (n * 2 ^ 15 + e * 2 ^ 8 + m) =
      (if e = 127 then (if m = 0 then .inf (n == 1) else .nan)
       else if e = 0 then (if m = 0 then .zero (n == 1) else .fin (n == 1) m (1 - 63 - 8))
       else .fin (n == 1) (256 + m) ((e : Int) - 63 - 8)) ∧ 2 ^ 8 ≤ 256 + m ∧ 256 + m < 2 ^ 9

/-- R115 for every element code and scale code, with the magnitudes of R113. -/
def Obligations.Z4ElementValues : Prop :=
  ∀ c s : Nat, c < 16 → s < 256 →
    z4Value c s =
      (if s = 255 then .nan else if s = 0 then .zero false else if c = 8 then .nan else if c = 0 then .zero false
       else match ([(0, 0), (1, -1), (2, -1), (3, -1), (2, 0), (3, 0), (2, 1), (3, 1)] : List (Nat × Int))[c % 8]? with
         | some (m, e) => .fin (decide (8 ≤ c)) m (e + (s : Int) - 127)
         | none => .nan)

/-- R138: every product of two finite Z9 operands, and of two finite Z16 operands, is the exact product with the exclusive OR of the
signs, also where an operand is zero; it raises no flag, lies between the bounds, and the upper bound is representable in Z32. A product
below 2^-126 stays a term of its own value. -/
def Obligations.ProductsAreExact : Prop :=
  (∀ (f : Fmt) (x y : Nat) (a b : Sys2Proof.Machine.Num), f ∈ [fmtZ9, fmtZ16] → f.decode x = a → f.decode y = b →
    match a, b with
    | .zero p, .zero q => product a b = ⟨.zero (p != q), 0, 0⟩
    | .zero p, .fin q _ _ => product a b = ⟨.zero (p != q), 0, 0⟩
    | .fin p _ _, .zero q => product a b = ⟨.zero (p != q), 0, 0⟩
    | .fin p m e, .fin q n g => product a b = ⟨.fin (p != q) (m * n) (e + g), 0, 0⟩ ∧ 0 < m * n ∧ -140 ≤ e + g ∧
        m * n * 2 ^ (e + g + 140).toNat ≤ 261121 * 2 ^ 250
    | _, _ => True) ∧
  (fmtZ32.ofNum .rne false (.fin false 261121 110)).flags = 0

/-- R124 on the rounding to Z32 of m × 2^e: t of the units 2^(l - 23), l the exponent of the value, is the rounded magnitude. -/
def Obligations.Z32Underflow : Prop :=
  ∀ (r : Round) (satf neg : Bool) (m : Nat) (e l : Int) (q : Nat × Rem) (t : Nat), 0 < m → log2Of m e = l → truncAt m e (l - 23) = q →
    (if roundUp r neg q.1 q.2 then q.1 + 1 else q.1) = t →
    (l < -127 ∨ l = -127 ∧ t < 2 ^ 24 → (fmtZ32.ofNum r satf (.fin neg m e)).bits = if neg then 0x8000_0000 else 0) ∧
    (l = -127 ∧ t = 2 ^ 24 → (fmtZ32.ofNum r satf (.fin neg m e)).bits = if neg then 0x8080_0000 else 0x0080_0000)

/-- R144: within a Z4 step the products for k = 2m and k = 2m + 1 are not ordered; the cell's bits, flags and kind of exception are the
same for either order. -/
def Obligations.PairOrderFree : Prop :=
  ∀ (c : Nat) (a b : Term), cellStep c [a, b] = cellStep c [b, a]
end

