-- ==== Sys2Proof/Laws/Store.lean ====
section
/-! SUPPORT. The laws of the sparse tables: what a read after a write gives, that every write keeps the
canonical form, and that canonical tables with equal reads are equal. -/

namespace Sys2Proof.Machine

variable {α : Type}

theorem Store.get_of_above {d : Nat → α} {l : List (Nat × α)} {k j : Nat}
    (h : Store.above k l = true) (hj : j ≤ k) : Store.get d l j = d j := by
  induction l with
  | nil => rfl
  | cons e rest ih =>
    obtain ⟨i, w⟩ := e
    simp only [Store.above, List.all_cons, Bool.and_eq_true, decide_eq_true_eq] at h
    have : i ≠ j := by have := h.1; omega
    simp only [Store.get, if_neg this]
    exact ih h.2

theorem Store.above_mono {l : List (Nat × α)} {k j : Nat}
    (h : Store.above k l = true) (hj : j ≤ k) : Store.above j l = true := by
  simp only [Store.above, List.all_eq_true, decide_eq_true_eq] at *
  intro e he
  have := h e he
  omega

theorem Store.above_del {l : List (Nat × α)} {k j : Nat}
    (h : Store.above k l = true) : Store.above k (Store.del l j) = true := by
  induction l with
  | nil => rfl
  | cons e rest ih =>
    obtain ⟨i, w⟩ := e
    simp only [Store.above, List.all_cons, Bool.and_eq_true, decide_eq_true_eq] at h
    simp only [Store.del]
    split
    · exact ih h.2
    · simp only [Store.above, List.all_cons, Bool.and_eq_true, decide_eq_true_eq]
      exact ⟨h.1, ih h.2⟩

theorem Store.above_put {l : List (Nat × α)} {k j : Nat} {v : α}
    (h : Store.above k l = true) (hj : k < j) : Store.above k (Store.put l j v) = true := by
  induction l with
  | nil => simp [Store.put, Store.above, hj]
  | cons e rest ih =>
    obtain ⟨i, w⟩ := e
    have h' := h
    simp only [Store.above, List.all_cons, Bool.and_eq_true, decide_eq_true_eq] at h
    simp only [Store.put]
    split
    · simp only [Store.above, List.all_cons, Bool.and_eq_true, decide_eq_true_eq]
      exact ⟨hj, h.1, h.2⟩
    · split
      · simp only [Store.above, List.all_cons, Bool.and_eq_true, decide_eq_true_eq]
        exact ⟨hj, h.2⟩
      · simp only [Store.above, List.all_cons, Bool.and_eq_true, decide_eq_true_eq]
        exact ⟨h.1, ih h.2⟩

variable [DecidableEq α]

theorem Store.wf_cons {d : Nat → α} {k : Nat} {v : α} {l : List (Nat × α)} :
    Store.wf d ((k, v) :: l) = true ↔ Store.above k l = true ∧ v ≠ d k ∧ Store.wf d l = true := by
  simp [Store.wf, and_assoc]

theorem Store.wf_del {d : Nat → α} {l : List (Nat × α)} {k : Nat}
    (h : Store.wf d l = true) : Store.wf d (Store.del l k) = true := by
  induction l with
  | nil => rfl
  | cons e rest ih =>
    obtain ⟨i, w⟩ := e
    rw [Store.wf_cons] at h
    simp only [Store.del]
    split
    · exact ih h.2.2
    · rw [Store.wf_cons]; exact ⟨Store.above_del h.1, h.2.1, ih h.2.2⟩

theorem Store.wf_put {d : Nat → α} {l : List (Nat × α)} {k : Nat} {v : α}
    (h : Store.wf d l = true) (hv : v ≠ d k) : Store.wf d (Store.put l k v) = true := by
  induction l with
  | nil => simp [Store.put, Store.wf, Store.above, hv]
  | cons e rest ih =>
    obtain ⟨i, w⟩ := e
    have h' := h
    rw [Store.wf_cons] at h
    simp only [Store.put]
    split
    · rename_i hk
      rw [Store.wf_cons]
      refine ⟨?_, hv, h'⟩
      simp only [Store.above, List.all_cons, Bool.and_eq_true, decide_eq_true_eq]
      exact ⟨hk, Store.above_mono h.1 (by omega)⟩
    · split
      · rename_i _ hk; subst hk
        rw [Store.wf_cons]; exact ⟨h.1, hv, h.2.2⟩
      · rw [Store.wf_cons]; exact ⟨Store.above_put h.1 (by omega), h.2.1, ih h.2.2⟩

/-- A write keeps the canonical form. -/
theorem Store.wf_set {d : Nat → α} {l : List (Nat × α)} {k : Nat} {v : α}
    (h : Store.wf d l = true) : Store.wf d (Store.set d l k v) = true := by
  unfold Store.set
  split
  · exact Store.wf_del h
  · exact Store.wf_put h (by assumption)

omit [DecidableEq α] in
theorem Store.get_del_same {d : Nat → α} {l : List (Nat × α)} {k : Nat} :
    Store.get d (Store.del l k) k = d k := by
  induction l with
  | nil => rfl
  | cons e rest ih =>
    obtain ⟨i, w⟩ := e
    simp only [Store.del]
    split
    · exact ih
    · rename_i hk; simp only [Store.get, if_neg hk]; exact ih

omit [DecidableEq α] in
theorem Store.get_del_other {d : Nat → α} {l : List (Nat × α)} {k j : Nat} (hj : j ≠ k) :
    Store.get d (Store.del l k) j = Store.get d l j := by
  induction l with
  | nil => rfl
  | cons e rest ih =>
    obtain ⟨i, w⟩ := e
    simp only [Store.del]
    split
    · rename_i hk; subst hk; rw [ih]; simp [Store.get, Ne.symm hj]
    · simp only [Store.get]; split
      · rfl
      · exact ih

omit [DecidableEq α] in
theorem Store.get_put_same {d : Nat → α} {l : List (Nat × α)} {k : Nat} {v : α} :
    Store.get d (Store.put l k v) k = v := by
  induction l with
  | nil => simp [Store.put, Store.get]
  | cons e rest ih =>
    obtain ⟨i, w⟩ := e
    simp only [Store.put]
    split
    · simp [Store.get]
    · split
      · simp [Store.get]
      · rename_i h1 h2; simp only [Store.get]; rw [if_neg (by omega)]; exact ih

omit [DecidableEq α] in
theorem Store.get_put_other {d : Nat → α} {l : List (Nat × α)} {k j : Nat} {v : α} (hj : j ≠ k) :
    Store.get d (Store.put l k v) j = Store.get d l j := by
  induction l with
  | nil => simp [Store.put, Store.get, Ne.symm hj]
  | cons e rest ih =>
    obtain ⟨i, w⟩ := e
    simp only [Store.put]
    split
    · simp [Store.get, Ne.symm hj]
    · split
      · rename_i _ h2; subst h2; simp [Store.get, Ne.symm hj]
      · simp only [Store.get]; split
        · rfl
        · exact ih

/-- A read of the key just written gives the value written. -/
@[simp] theorem Store.get_set_same {d : Nat → α} {l : List (Nat × α)} {k : Nat} {v : α} : Store.get d (Store.set d l k v) k = v := by
  unfold Store.set
  split
  · rename_i hv; rw [hv]; exact Store.get_del_same
  · exact Store.get_put_same

/-- A write leaves every other key alone. -/
@[simp] theorem Store.get_set_other {d : Nat → α} {l : List (Nat × α)} {k j : Nat} {v : α} (hj : j ≠ k) :
    Store.get d (Store.set d l k v) j = Store.get d l j := by
  unfold Store.set
  split
  · exact Store.get_del_other hj
  · exact Store.get_put_other hj

/-- Canonical tables with equal reads are equal. -/
theorem Store.ext_get {d : Nat → α} {l m : List (Nat × α)} (hl : Store.wf d l = true) (hm : Store.wf d m = true)
    (h : ∀ k, Store.get d l k = Store.get d m k) : l = m := by
  induction l generalizing m with
  | nil =>
    cases m with
    | nil => rfl
    | cons e rest =>
      obtain ⟨i, w⟩ := e
      rw [Store.wf_cons] at hm
      have := h i
      simp [Store.get] at this
      exact absurd this.symm hm.2.1
  | cons e rest ih =>
    obtain ⟨i, w⟩ := e
    rw [Store.wf_cons] at hl
    cases m with
    | nil =>
      have := h i
      simp [Store.get] at this
      exact absurd this hl.2.1
    | cons e' rest' =>
      obtain ⟨j, u⟩ := e'
      have hm0 := hm
      rw [Store.wf_cons] at hm
      rcases Nat.lt_trichotomy i j with hij | hij | hij
      · have := h i
        simp only [Store.get, if_true] at this
        rw [if_neg (by omega), Store.get_of_above hm.1 (by omega)] at this
        exact absurd this hl.2.1
      · subst hij
        have hw := h i
        simp only [Store.get, if_true] at hw
        subst hw
        rw [ih hl.2.2 hm.2.2]
        intro k
        by_cases hk : k = i
        · subst hk; rw [Store.get_of_above hl.1 (Nat.le_refl _), Store.get_of_above hm.1 (Nat.le_refl _)]
        · have := h k; simpa [Store.get, Ne.symm hk] using this
      · have := h j
        simp only [Store.get, if_true] at this
        rw [if_neg (by omega), Store.get_of_above hl.1 (by omega)] at this
        exact absurd this.symm hm.2.1

end Sys2Proof.Machine
end

