-- ==== Sys2Proof/Laws/State.lean ====
section
/-! SUPPORT. What each named update of the state leaves alone, one rule per field, and what the reads of registers give after it. Every
equation is true by computation; no later proof unfolds an update. -/

namespace Sys2Proof.Machine

variable (s : State)

@[simp] theorem State.setReg_frame (r : Reg) (i : Nat) (w : Word) :
    (s.setReg r i w).pending = s.pending ∧ (s.setReg r i w).out = s.out ∧ (s.setReg r i w).freeCtr = s.freeCtr ∧
    (s.setReg r i w).time = s.time ∧ (s.setReg r i w).mem = s.mem ∧ (s.setReg r i w).chk = s.chk ∧ (s.setReg r i w).lost = s.lost ∧
    (s.setReg r i w).img = s.img ∧ (s.setReg r i w).circs = s.circs ∧ (s.setReg r i w).contribs = s.contribs ∧
    (s.setReg r i w).retired = s.retired ∧ (s.setReg r i w).queues = s.queues ∧ (s.setReg r i w).entries = s.entries ∧
    (s.setReg r i w).firings = s.firings ∧ (s.setReg r i w).reverts = s.reverts ∧ (s.setReg r i w).ingress = s.ingress ∧
    (s.setReg r i w).vec = s.vec ∧ (s.setReg r i w).vregs = s.vregs ∧ (s.setReg r i w).masks = s.masks ∧
    (s.setReg r i w).engines = s.engines ∧ (s.setReg r i w).cells = s.cells ∧ (s.setReg r i w).ctxs = s.ctxs ∧
    (s.setReg r i w).memctl = s.memctl ∧ (s.setReg r i w).ways = s.ways ∧ (s.setReg r i w).wbuf = s.wbuf ∧
    (s.setReg r i w).plru = s.plru ∧ (s.setReg r i w).corrections = s.corrections ∧ (s.setReg r i w).arrivals = s.arrivals ∧
    (s.setReg r i w).health = s.health ∧ (s.setReg r i w).closing = s.closing ∧ (s.setReg r i w).agents = s.agents ∧
    (s.setReg r i w).homes = s.homes ∧ (s.setReg r i w).net = s.net ∧ (s.setReg r i w).cpus = s.cpus ∧
    (s.setReg r i w).cpuRegs = s.cpuRegs ∧ (s.setReg r i w).stalls = s.stalls ∧ (s.setReg r i w).resvs = s.resvs ∧
    (s.setReg r i w).tlbs = s.tlbs ∧ (s.setReg r i w).nonLeaf = s.nonLeaf ∧ (s.setReg r i w).walks = s.walks ∧
    (s.setReg r i w).walkTurn = s.walkTurn ∧ (s.setReg r i w).tlbWait = s.tlbWait ∧ (s.setReg r i w).opens = s.opens ∧
    (s.setReg r i w).nextId = s.nextId ∧ (s.setReg r i w).ringQ = s.ringQ ∧ (s.setReg r i w).ports = s.ports ∧
    (s.setReg r i w).segs = s.segs ∧ (s.setReg r i w).epochs = s.epochs ∧ (s.setReg r i w).broken = s.broken ∧
    (s.setReg r i w).fences = s.fences ∧ (s.setReg r i w).duty = s.duty ∧ (s.setReg r i w).sels = s.sels ∧
    (s.setReg r i w).selPend = s.selPend ∧ (s.setReg r i w).ovfs = s.ovfs ∧ (s.setReg r i w).trc = s.trc ∧ (s.setReg r i w).bme = s.bme ∧
    (s.setReg r i w).qpRates = s.qpRates ∧ (s.setReg r i w).evtMsi = s.evtMsi ∧ (s.setReg r i w).recovs = s.recovs ∧
    (s.setReg r i w).hangBeats = s.hangBeats ∧ (s.setReg r i w).hangRuns = s.hangRuns ∧ (s.setReg r i w).boot = s.boot ∧
    (s.setReg r i w).elec = s.elec ∧ (s.setReg r i w).dlinks = s.dlinks ∧ (s.setReg r i w).diePwr = s.diePwr ∧
    (s.setReg r i w).pwr = s.pwr ∧ (s.setReg r i w).dump = s.dump := by
  and_intros <;> intros <;> rfl

@[simp] theorem State.setFld_frame (f : Field) (i v : Nat) :
    (s.setFld f i v).pending = s.pending ∧ (s.setFld f i v).out = s.out ∧ (s.setFld f i v).freeCtr = s.freeCtr ∧
    (s.setFld f i v).time = s.time ∧ (s.setFld f i v).mem = s.mem ∧ (s.setFld f i v).chk = s.chk ∧ (s.setFld f i v).lost = s.lost ∧
    (s.setFld f i v).img = s.img ∧ (s.setFld f i v).circs = s.circs ∧ (s.setFld f i v).contribs = s.contribs ∧
    (s.setFld f i v).retired = s.retired ∧ (s.setFld f i v).queues = s.queues ∧ (s.setFld f i v).entries = s.entries ∧
    (s.setFld f i v).firings = s.firings ∧ (s.setFld f i v).reverts = s.reverts ∧ (s.setFld f i v).ingress = s.ingress ∧
    (s.setFld f i v).vec = s.vec ∧ (s.setFld f i v).vregs = s.vregs ∧ (s.setFld f i v).masks = s.masks ∧
    (s.setFld f i v).engines = s.engines ∧ (s.setFld f i v).cells = s.cells ∧ (s.setFld f i v).ctxs = s.ctxs ∧
    (s.setFld f i v).memctl = s.memctl ∧ (s.setFld f i v).ways = s.ways ∧ (s.setFld f i v).wbuf = s.wbuf ∧
    (s.setFld f i v).plru = s.plru ∧ (s.setFld f i v).corrections = s.corrections ∧ (s.setFld f i v).arrivals = s.arrivals ∧
    (s.setFld f i v).health = s.health ∧ (s.setFld f i v).closing = s.closing ∧ (s.setFld f i v).agents = s.agents ∧
    (s.setFld f i v).homes = s.homes ∧ (s.setFld f i v).net = s.net ∧ (s.setFld f i v).cpus = s.cpus ∧
    (s.setFld f i v).cpuRegs = s.cpuRegs ∧ (s.setFld f i v).stalls = s.stalls ∧ (s.setFld f i v).resvs = s.resvs ∧
    (s.setFld f i v).tlbs = s.tlbs ∧ (s.setFld f i v).nonLeaf = s.nonLeaf ∧ (s.setFld f i v).walks = s.walks ∧
    (s.setFld f i v).walkTurn = s.walkTurn ∧ (s.setFld f i v).tlbWait = s.tlbWait ∧ (s.setFld f i v).opens = s.opens ∧
    (s.setFld f i v).nextId = s.nextId ∧ (s.setFld f i v).ringQ = s.ringQ ∧ (s.setFld f i v).ports = s.ports ∧
    (s.setFld f i v).segs = s.segs ∧ (s.setFld f i v).epochs = s.epochs ∧ (s.setFld f i v).broken = s.broken ∧
    (s.setFld f i v).fences = s.fences ∧ (s.setFld f i v).duty = s.duty ∧ (s.setFld f i v).sels = s.sels ∧
    (s.setFld f i v).selPend = s.selPend ∧ (s.setFld f i v).ovfs = s.ovfs ∧ (s.setFld f i v).trc = s.trc ∧ (s.setFld f i v).bme = s.bme ∧
    (s.setFld f i v).qpRates = s.qpRates ∧ (s.setFld f i v).evtMsi = s.evtMsi ∧ (s.setFld f i v).recovs = s.recovs ∧
    (s.setFld f i v).hangBeats = s.hangBeats ∧ (s.setFld f i v).hangRuns = s.hangRuns ∧ (s.setFld f i v).boot = s.boot ∧
    (s.setFld f i v).elec = s.elec ∧ (s.setFld f i v).dlinks = s.dlinks ∧ (s.setFld f i v).diePwr = s.diePwr ∧
    (s.setFld f i v).pwr = s.pwr ∧ (s.setFld f i v).dump = s.dump := by
  and_intros <;> intros <;> rfl

@[simp] theorem State.raise_frame (f : Field) (i : Nat) :
    (s.raise f i).pending = s.pending ∧ (s.raise f i).out = s.out ∧ (s.raise f i).freeCtr = s.freeCtr ∧ (s.raise f i).time = s.time ∧
    (s.raise f i).mem = s.mem ∧ (s.raise f i).chk = s.chk ∧ (s.raise f i).lost = s.lost ∧ (s.raise f i).img = s.img ∧
    (s.raise f i).circs = s.circs ∧ (s.raise f i).contribs = s.contribs ∧ (s.raise f i).retired = s.retired ∧
    (s.raise f i).queues = s.queues ∧ (s.raise f i).entries = s.entries ∧ (s.raise f i).firings = s.firings ∧
    (s.raise f i).reverts = s.reverts ∧ (s.raise f i).ingress = s.ingress ∧ (s.raise f i).vec = s.vec ∧ (s.raise f i).vregs = s.vregs ∧
    (s.raise f i).masks = s.masks ∧ (s.raise f i).engines = s.engines ∧ (s.raise f i).cells = s.cells ∧ (s.raise f i).ctxs = s.ctxs ∧
    (s.raise f i).memctl = s.memctl ∧ (s.raise f i).ways = s.ways ∧ (s.raise f i).wbuf = s.wbuf ∧ (s.raise f i).plru = s.plru ∧
    (s.raise f i).corrections = s.corrections ∧ (s.raise f i).arrivals = s.arrivals ∧ (s.raise f i).health = s.health ∧
    (s.raise f i).closing = s.closing ∧ (s.raise f i).agents = s.agents ∧ (s.raise f i).homes = s.homes ∧ (s.raise f i).net = s.net ∧
    (s.raise f i).cpus = s.cpus ∧ (s.raise f i).cpuRegs = s.cpuRegs ∧ (s.raise f i).stalls = s.stalls ∧ (s.raise f i).resvs = s.resvs ∧
    (s.raise f i).tlbs = s.tlbs ∧ (s.raise f i).nonLeaf = s.nonLeaf ∧ (s.raise f i).walks = s.walks ∧
    (s.raise f i).walkTurn = s.walkTurn ∧ (s.raise f i).tlbWait = s.tlbWait ∧ (s.raise f i).opens = s.opens ∧
    (s.raise f i).nextId = s.nextId ∧ (s.raise f i).ringQ = s.ringQ ∧ (s.raise f i).ports = s.ports ∧ (s.raise f i).segs = s.segs ∧
    (s.raise f i).epochs = s.epochs ∧ (s.raise f i).broken = s.broken ∧ (s.raise f i).fences = s.fences ∧ (s.raise f i).duty = s.duty ∧
    (s.raise f i).sels = s.sels ∧ (s.raise f i).selPend = s.selPend ∧ (s.raise f i).ovfs = s.ovfs ∧ (s.raise f i).trc = s.trc ∧
    (s.raise f i).bme = s.bme ∧ (s.raise f i).qpRates = s.qpRates ∧ (s.raise f i).evtMsi = s.evtMsi ∧ (s.raise f i).recovs = s.recovs ∧
    (s.raise f i).hangBeats = s.hangBeats ∧ (s.raise f i).hangRuns = s.hangRuns ∧ (s.raise f i).boot = s.boot ∧
    (s.raise f i).elec = s.elec ∧ (s.raise f i).dlinks = s.dlinks ∧ (s.raise f i).diePwr = s.diePwr ∧ (s.raise f i).pwr = s.pwr ∧
    (s.raise f i).dump = s.dump := by
  and_intros <;> intros <;> rfl

@[simp] theorem State.bump_frame (f : Field) (i n : Nat) :
    (s.bump f i n).pending = s.pending ∧ (s.bump f i n).out = s.out ∧ (s.bump f i n).freeCtr = s.freeCtr ∧ (s.bump f i n).time = s.time ∧
    (s.bump f i n).mem = s.mem ∧ (s.bump f i n).chk = s.chk ∧ (s.bump f i n).lost = s.lost ∧ (s.bump f i n).img = s.img ∧
    (s.bump f i n).circs = s.circs ∧ (s.bump f i n).contribs = s.contribs ∧ (s.bump f i n).retired = s.retired ∧
    (s.bump f i n).queues = s.queues ∧ (s.bump f i n).entries = s.entries ∧ (s.bump f i n).firings = s.firings ∧
    (s.bump f i n).reverts = s.reverts ∧ (s.bump f i n).ingress = s.ingress ∧ (s.bump f i n).vec = s.vec ∧
    (s.bump f i n).vregs = s.vregs ∧ (s.bump f i n).masks = s.masks ∧ (s.bump f i n).engines = s.engines ∧
    (s.bump f i n).cells = s.cells ∧ (s.bump f i n).ctxs = s.ctxs ∧ (s.bump f i n).memctl = s.memctl ∧ (s.bump f i n).ways = s.ways ∧
    (s.bump f i n).wbuf = s.wbuf ∧ (s.bump f i n).plru = s.plru ∧ (s.bump f i n).corrections = s.corrections ∧
    (s.bump f i n).arrivals = s.arrivals ∧ (s.bump f i n).health = s.health ∧ (s.bump f i n).closing = s.closing ∧
    (s.bump f i n).agents = s.agents ∧ (s.bump f i n).homes = s.homes ∧ (s.bump f i n).net = s.net ∧ (s.bump f i n).cpus = s.cpus ∧
    (s.bump f i n).cpuRegs = s.cpuRegs ∧ (s.bump f i n).stalls = s.stalls ∧ (s.bump f i n).resvs = s.resvs ∧
    (s.bump f i n).tlbs = s.tlbs ∧ (s.bump f i n).nonLeaf = s.nonLeaf ∧ (s.bump f i n).walks = s.walks ∧
    (s.bump f i n).walkTurn = s.walkTurn ∧ (s.bump f i n).tlbWait = s.tlbWait ∧ (s.bump f i n).opens = s.opens ∧
    (s.bump f i n).nextId = s.nextId ∧ (s.bump f i n).ringQ = s.ringQ ∧ (s.bump f i n).ports = s.ports ∧ (s.bump f i n).segs = s.segs ∧
    (s.bump f i n).epochs = s.epochs ∧ (s.bump f i n).broken = s.broken ∧ (s.bump f i n).fences = s.fences ∧
    (s.bump f i n).duty = s.duty ∧ (s.bump f i n).sels = s.sels ∧ (s.bump f i n).selPend = s.selPend ∧ (s.bump f i n).ovfs = s.ovfs ∧
    (s.bump f i n).trc = s.trc ∧ (s.bump f i n).bme = s.bme ∧ (s.bump f i n).qpRates = s.qpRates ∧ (s.bump f i n).evtMsi = s.evtMsi ∧
    (s.bump f i n).recovs = s.recovs ∧ (s.bump f i n).hangBeats = s.hangBeats ∧ (s.bump f i n).hangRuns = s.hangRuns ∧
    (s.bump f i n).boot = s.boot ∧ (s.bump f i n).elec = s.elec ∧ (s.bump f i n).dlinks = s.dlinks ∧ (s.bump f i n).diePwr = s.diePwr ∧
    (s.bump f i n).pwr = s.pwr ∧ (s.bump f i n).dump = s.dump := by
  and_intros <;> intros <;> rfl

@[simp] theorem State.spend_frame :
    (s.spend).pending = s.pending ∧ (s.spend).out = s.out ∧ (s.spend).time = s.time ∧ (s.spend).regs = s.regs ∧ (s.spend).mem = s.mem ∧
    (s.spend).chk = s.chk ∧ (s.spend).lost = s.lost ∧ (s.spend).img = s.img ∧ (s.spend).circs = s.circs ∧
    (s.spend).contribs = s.contribs ∧ (s.spend).retired = s.retired ∧ (s.spend).queues = s.queues ∧ (s.spend).entries = s.entries ∧
    (s.spend).firings = s.firings ∧ (s.spend).reverts = s.reverts ∧ (s.spend).ingress = s.ingress ∧ (s.spend).vec = s.vec ∧
    (s.spend).vregs = s.vregs ∧ (s.spend).masks = s.masks ∧ (s.spend).engines = s.engines ∧ (s.spend).cells = s.cells ∧
    (s.spend).ctxs = s.ctxs ∧ (s.spend).memctl = s.memctl ∧ (s.spend).ways = s.ways ∧ (s.spend).wbuf = s.wbuf ∧ (s.spend).plru = s.plru ∧
    (s.spend).corrections = s.corrections ∧ (s.spend).arrivals = s.arrivals ∧ (s.spend).health = s.health ∧
    (s.spend).closing = s.closing ∧ (s.spend).agents = s.agents ∧ (s.spend).homes = s.homes ∧ (s.spend).net = s.net ∧
    (s.spend).cpus = s.cpus ∧ (s.spend).cpuRegs = s.cpuRegs ∧ (s.spend).stalls = s.stalls ∧ (s.spend).resvs = s.resvs ∧
    (s.spend).tlbs = s.tlbs ∧ (s.spend).nonLeaf = s.nonLeaf ∧ (s.spend).walks = s.walks ∧ (s.spend).walkTurn = s.walkTurn ∧
    (s.spend).tlbWait = s.tlbWait ∧ (s.spend).opens = s.opens ∧ (s.spend).nextId = s.nextId ∧ (s.spend).ringQ = s.ringQ ∧
    (s.spend).ports = s.ports ∧ (s.spend).segs = s.segs ∧ (s.spend).epochs = s.epochs ∧ (s.spend).broken = s.broken ∧
    (s.spend).fences = s.fences ∧ (s.spend).duty = s.duty ∧ (s.spend).sels = s.sels ∧ (s.spend).selPend = s.selPend ∧
    (s.spend).ovfs = s.ovfs ∧ (s.spend).trc = s.trc ∧ (s.spend).bme = s.bme ∧ (s.spend).qpRates = s.qpRates ∧
    (s.spend).evtMsi = s.evtMsi ∧ (s.spend).recovs = s.recovs ∧ (s.spend).hangBeats = s.hangBeats ∧ (s.spend).hangRuns = s.hangRuns ∧
    (s.spend).boot = s.boot ∧ (s.spend).elec = s.elec ∧ (s.spend).dlinks = s.dlinks ∧ (s.spend).diePwr = s.diePwr ∧
    (s.spend).pwr = s.pwr ∧ (s.spend).dump = s.dump ∧ (∀ q j, (s.spend).reg q j = s.reg q j) ∧ (∀ g j, (s.spend).fld g j = s.fld g j) ∧
    (∀ g j, (s.spend).flag g j = s.flag g j) ∧ (s.spend).ft = s.ft := by
  and_intros <;> intros <;> rfl

@[simp] theorem State.spendN_frame (n : Nat) :
    (s.spendN n).pending = s.pending ∧ (s.spendN n).out = s.out ∧ (s.spendN n).time = s.time ∧ (s.spendN n).regs = s.regs ∧
    (s.spendN n).mem = s.mem ∧ (s.spendN n).chk = s.chk ∧ (s.spendN n).lost = s.lost ∧ (s.spendN n).img = s.img ∧
    (s.spendN n).circs = s.circs ∧ (s.spendN n).contribs = s.contribs ∧ (s.spendN n).retired = s.retired ∧
    (s.spendN n).queues = s.queues ∧ (s.spendN n).entries = s.entries ∧ (s.spendN n).firings = s.firings ∧
    (s.spendN n).reverts = s.reverts ∧ (s.spendN n).ingress = s.ingress ∧ (s.spendN n).vec = s.vec ∧ (s.spendN n).vregs = s.vregs ∧
    (s.spendN n).masks = s.masks ∧ (s.spendN n).engines = s.engines ∧ (s.spendN n).cells = s.cells ∧ (s.spendN n).ctxs = s.ctxs ∧
    (s.spendN n).memctl = s.memctl ∧ (s.spendN n).ways = s.ways ∧ (s.spendN n).wbuf = s.wbuf ∧ (s.spendN n).plru = s.plru ∧
    (s.spendN n).corrections = s.corrections ∧ (s.spendN n).arrivals = s.arrivals ∧ (s.spendN n).health = s.health ∧
    (s.spendN n).closing = s.closing ∧ (s.spendN n).agents = s.agents ∧ (s.spendN n).homes = s.homes ∧ (s.spendN n).net = s.net ∧
    (s.spendN n).cpus = s.cpus ∧ (s.spendN n).cpuRegs = s.cpuRegs ∧ (s.spendN n).stalls = s.stalls ∧ (s.spendN n).resvs = s.resvs ∧
    (s.spendN n).tlbs = s.tlbs ∧ (s.spendN n).nonLeaf = s.nonLeaf ∧ (s.spendN n).walks = s.walks ∧ (s.spendN n).walkTurn = s.walkTurn ∧
    (s.spendN n).tlbWait = s.tlbWait ∧ (s.spendN n).opens = s.opens ∧ (s.spendN n).nextId = s.nextId ∧ (s.spendN n).ringQ = s.ringQ ∧
    (s.spendN n).ports = s.ports ∧ (s.spendN n).segs = s.segs ∧ (s.spendN n).epochs = s.epochs ∧ (s.spendN n).broken = s.broken ∧
    (s.spendN n).fences = s.fences ∧ (s.spendN n).duty = s.duty ∧ (s.spendN n).sels = s.sels ∧ (s.spendN n).selPend = s.selPend ∧
    (s.spendN n).ovfs = s.ovfs ∧ (s.spendN n).trc = s.trc ∧ (s.spendN n).bme = s.bme ∧ (s.spendN n).qpRates = s.qpRates ∧
    (s.spendN n).evtMsi = s.evtMsi ∧ (s.spendN n).recovs = s.recovs ∧ (s.spendN n).hangBeats = s.hangBeats ∧
    (s.spendN n).hangRuns = s.hangRuns ∧ (s.spendN n).boot = s.boot ∧ (s.spendN n).elec = s.elec ∧ (s.spendN n).dlinks = s.dlinks ∧
    (s.spendN n).diePwr = s.diePwr ∧ (s.spendN n).pwr = s.pwr ∧ (s.spendN n).dump = s.dump ∧ (∀ q j, (s.spendN n).reg q j = s.reg q j) ∧
    (∀ g j, (s.spendN n).fld g j = s.fld g j) ∧ (∀ g j, (s.spendN n).flag g j = s.flag g j) ∧ (s.spendN n).ft = s.ft := by
  and_intros <;> intros <;> rfl

@[simp] theorem State.setCirc_frame (c : Nat) (v : Circ) :
    (s.setCirc c v).pending = s.pending ∧ (s.setCirc c v).out = s.out ∧ (s.setCirc c v).freeCtr = s.freeCtr ∧
    (s.setCirc c v).time = s.time ∧ (s.setCirc c v).regs = s.regs ∧ (s.setCirc c v).mem = s.mem ∧ (s.setCirc c v).chk = s.chk ∧
    (s.setCirc c v).lost = s.lost ∧ (s.setCirc c v).img = s.img ∧ (s.setCirc c v).contribs = s.contribs ∧
    (s.setCirc c v).retired = s.retired ∧ (s.setCirc c v).queues = s.queues ∧ (s.setCirc c v).entries = s.entries ∧
    (s.setCirc c v).firings = s.firings ∧ (s.setCirc c v).reverts = s.reverts ∧ (s.setCirc c v).ingress = s.ingress ∧
    (s.setCirc c v).vec = s.vec ∧ (s.setCirc c v).vregs = s.vregs ∧ (s.setCirc c v).masks = s.masks ∧
    (s.setCirc c v).engines = s.engines ∧ (s.setCirc c v).cells = s.cells ∧ (s.setCirc c v).ctxs = s.ctxs ∧
    (s.setCirc c v).memctl = s.memctl ∧ (s.setCirc c v).ways = s.ways ∧ (s.setCirc c v).wbuf = s.wbuf ∧ (s.setCirc c v).plru = s.plru ∧
    (s.setCirc c v).corrections = s.corrections ∧ (s.setCirc c v).arrivals = s.arrivals ∧ (s.setCirc c v).health = s.health ∧
    (s.setCirc c v).closing = s.closing ∧ (s.setCirc c v).agents = s.agents ∧ (s.setCirc c v).homes = s.homes ∧
    (s.setCirc c v).net = s.net ∧ (s.setCirc c v).cpus = s.cpus ∧ (s.setCirc c v).cpuRegs = s.cpuRegs ∧
    (s.setCirc c v).stalls = s.stalls ∧ (s.setCirc c v).resvs = s.resvs ∧ (s.setCirc c v).tlbs = s.tlbs ∧
    (s.setCirc c v).nonLeaf = s.nonLeaf ∧ (s.setCirc c v).walks = s.walks ∧ (s.setCirc c v).walkTurn = s.walkTurn ∧
    (s.setCirc c v).tlbWait = s.tlbWait ∧ (s.setCirc c v).opens = s.opens ∧ (s.setCirc c v).nextId = s.nextId ∧
    (s.setCirc c v).ringQ = s.ringQ ∧ (s.setCirc c v).ports = s.ports ∧ (s.setCirc c v).segs = s.segs ∧
    (s.setCirc c v).epochs = s.epochs ∧ (s.setCirc c v).broken = s.broken ∧ (s.setCirc c v).fences = s.fences ∧
    (s.setCirc c v).duty = s.duty ∧ (s.setCirc c v).sels = s.sels ∧ (s.setCirc c v).selPend = s.selPend ∧ (s.setCirc c v).ovfs = s.ovfs ∧
    (s.setCirc c v).trc = s.trc ∧ (s.setCirc c v).bme = s.bme ∧ (s.setCirc c v).qpRates = s.qpRates ∧ (s.setCirc c v).evtMsi = s.evtMsi ∧
    (s.setCirc c v).recovs = s.recovs ∧ (s.setCirc c v).hangBeats = s.hangBeats ∧ (s.setCirc c v).hangRuns = s.hangRuns ∧
    (s.setCirc c v).boot = s.boot ∧ (s.setCirc c v).elec = s.elec ∧ (s.setCirc c v).dlinks = s.dlinks ∧
    (s.setCirc c v).diePwr = s.diePwr ∧ (s.setCirc c v).pwr = s.pwr ∧ (s.setCirc c v).dump = s.dump ∧
    (∀ q j, (s.setCirc c v).reg q j = s.reg q j) ∧ (∀ g j, (s.setCirc c v).fld g j = s.fld g j) ∧
    (∀ g j, (s.setCirc c v).flag g j = s.flag g j) ∧ (s.setCirc c v).ft = s.ft := by
  and_intros <;> intros <;> rfl

@[simp] theorem State.setQueue_frame (k n : Nat) (v : Queue) :
    (s.setQueue k n v).pending = s.pending ∧ (s.setQueue k n v).out = s.out ∧ (s.setQueue k n v).freeCtr = s.freeCtr ∧
    (s.setQueue k n v).time = s.time ∧ (s.setQueue k n v).regs = s.regs ∧ (s.setQueue k n v).mem = s.mem ∧
    (s.setQueue k n v).chk = s.chk ∧ (s.setQueue k n v).lost = s.lost ∧ (s.setQueue k n v).img = s.img ∧
    (s.setQueue k n v).circs = s.circs ∧ (s.setQueue k n v).contribs = s.contribs ∧ (s.setQueue k n v).retired = s.retired ∧
    (s.setQueue k n v).entries = s.entries ∧ (s.setQueue k n v).firings = s.firings ∧ (s.setQueue k n v).reverts = s.reverts ∧
    (s.setQueue k n v).ingress = s.ingress ∧ (s.setQueue k n v).vec = s.vec ∧ (s.setQueue k n v).vregs = s.vregs ∧
    (s.setQueue k n v).masks = s.masks ∧ (s.setQueue k n v).engines = s.engines ∧ (s.setQueue k n v).cells = s.cells ∧
    (s.setQueue k n v).ctxs = s.ctxs ∧ (s.setQueue k n v).memctl = s.memctl ∧ (s.setQueue k n v).ways = s.ways ∧
    (s.setQueue k n v).wbuf = s.wbuf ∧ (s.setQueue k n v).plru = s.plru ∧ (s.setQueue k n v).corrections = s.corrections ∧
    (s.setQueue k n v).arrivals = s.arrivals ∧ (s.setQueue k n v).health = s.health ∧ (s.setQueue k n v).closing = s.closing ∧
    (s.setQueue k n v).agents = s.agents ∧ (s.setQueue k n v).homes = s.homes ∧ (s.setQueue k n v).net = s.net ∧
    (s.setQueue k n v).cpus = s.cpus ∧ (s.setQueue k n v).cpuRegs = s.cpuRegs ∧ (s.setQueue k n v).stalls = s.stalls ∧
    (s.setQueue k n v).resvs = s.resvs ∧ (s.setQueue k n v).tlbs = s.tlbs ∧ (s.setQueue k n v).nonLeaf = s.nonLeaf ∧
    (s.setQueue k n v).walks = s.walks ∧ (s.setQueue k n v).walkTurn = s.walkTurn ∧ (s.setQueue k n v).tlbWait = s.tlbWait ∧
    (s.setQueue k n v).opens = s.opens ∧ (s.setQueue k n v).nextId = s.nextId ∧ (s.setQueue k n v).ringQ = s.ringQ ∧
    (s.setQueue k n v).ports = s.ports ∧ (s.setQueue k n v).segs = s.segs ∧ (s.setQueue k n v).epochs = s.epochs ∧
    (s.setQueue k n v).broken = s.broken ∧ (s.setQueue k n v).fences = s.fences ∧ (s.setQueue k n v).duty = s.duty ∧
    (s.setQueue k n v).sels = s.sels ∧ (s.setQueue k n v).selPend = s.selPend ∧ (s.setQueue k n v).ovfs = s.ovfs ∧
    (s.setQueue k n v).trc = s.trc ∧ (s.setQueue k n v).bme = s.bme ∧ (s.setQueue k n v).qpRates = s.qpRates ∧
    (s.setQueue k n v).evtMsi = s.evtMsi ∧ (s.setQueue k n v).recovs = s.recovs ∧ (s.setQueue k n v).hangBeats = s.hangBeats ∧
    (s.setQueue k n v).hangRuns = s.hangRuns ∧ (s.setQueue k n v).boot = s.boot ∧ (s.setQueue k n v).elec = s.elec ∧
    (s.setQueue k n v).dlinks = s.dlinks ∧ (s.setQueue k n v).diePwr = s.diePwr ∧ (s.setQueue k n v).pwr = s.pwr ∧
    (s.setQueue k n v).dump = s.dump ∧ (∀ q j, (s.setQueue k n v).reg q j = s.reg q j) ∧
    (∀ g j, (s.setQueue k n v).fld g j = s.fld g j) ∧ (∀ g j, (s.setQueue k n v).flag g j = s.flag g j) ∧ (s.setQueue k n v).ft = s.ft := by
  and_intros <;> intros <;> rfl

@[simp] theorem State.setEntry_frame (k e : Nat) (v : Option Entry) :
    (s.setEntry k e v).pending = s.pending ∧ (s.setEntry k e v).out = s.out ∧ (s.setEntry k e v).freeCtr = s.freeCtr ∧
    (s.setEntry k e v).time = s.time ∧ (s.setEntry k e v).regs = s.regs ∧ (s.setEntry k e v).mem = s.mem ∧
    (s.setEntry k e v).chk = s.chk ∧ (s.setEntry k e v).lost = s.lost ∧ (s.setEntry k e v).img = s.img ∧
    (s.setEntry k e v).circs = s.circs ∧ (s.setEntry k e v).contribs = s.contribs ∧ (s.setEntry k e v).retired = s.retired ∧
    (s.setEntry k e v).queues = s.queues ∧ (s.setEntry k e v).firings = s.firings ∧ (s.setEntry k e v).reverts = s.reverts ∧
    (s.setEntry k e v).ingress = s.ingress ∧ (s.setEntry k e v).vec = s.vec ∧ (s.setEntry k e v).vregs = s.vregs ∧
    (s.setEntry k e v).masks = s.masks ∧ (s.setEntry k e v).engines = s.engines ∧ (s.setEntry k e v).cells = s.cells ∧
    (s.setEntry k e v).ctxs = s.ctxs ∧ (s.setEntry k e v).memctl = s.memctl ∧ (s.setEntry k e v).ways = s.ways ∧
    (s.setEntry k e v).wbuf = s.wbuf ∧ (s.setEntry k e v).plru = s.plru ∧ (s.setEntry k e v).corrections = s.corrections ∧
    (s.setEntry k e v).arrivals = s.arrivals ∧ (s.setEntry k e v).health = s.health ∧ (s.setEntry k e v).closing = s.closing ∧
    (s.setEntry k e v).agents = s.agents ∧ (s.setEntry k e v).homes = s.homes ∧ (s.setEntry k e v).net = s.net ∧
    (s.setEntry k e v).cpus = s.cpus ∧ (s.setEntry k e v).cpuRegs = s.cpuRegs ∧ (s.setEntry k e v).stalls = s.stalls ∧
    (s.setEntry k e v).resvs = s.resvs ∧ (s.setEntry k e v).tlbs = s.tlbs ∧ (s.setEntry k e v).nonLeaf = s.nonLeaf ∧
    (s.setEntry k e v).walks = s.walks ∧ (s.setEntry k e v).walkTurn = s.walkTurn ∧ (s.setEntry k e v).tlbWait = s.tlbWait ∧
    (s.setEntry k e v).opens = s.opens ∧ (s.setEntry k e v).nextId = s.nextId ∧ (s.setEntry k e v).ringQ = s.ringQ ∧
    (s.setEntry k e v).ports = s.ports ∧ (s.setEntry k e v).segs = s.segs ∧ (s.setEntry k e v).epochs = s.epochs ∧
    (s.setEntry k e v).broken = s.broken ∧ (s.setEntry k e v).fences = s.fences ∧ (s.setEntry k e v).duty = s.duty ∧
    (s.setEntry k e v).sels = s.sels ∧ (s.setEntry k e v).selPend = s.selPend ∧ (s.setEntry k e v).ovfs = s.ovfs ∧
    (s.setEntry k e v).trc = s.trc ∧ (s.setEntry k e v).bme = s.bme ∧ (s.setEntry k e v).qpRates = s.qpRates ∧
    (s.setEntry k e v).evtMsi = s.evtMsi ∧ (s.setEntry k e v).recovs = s.recovs ∧ (s.setEntry k e v).hangBeats = s.hangBeats ∧
    (s.setEntry k e v).hangRuns = s.hangRuns ∧ (s.setEntry k e v).boot = s.boot ∧ (s.setEntry k e v).elec = s.elec ∧
    (s.setEntry k e v).dlinks = s.dlinks ∧ (s.setEntry k e v).diePwr = s.diePwr ∧ (s.setEntry k e v).pwr = s.pwr ∧
    (s.setEntry k e v).dump = s.dump ∧ (∀ q j, (s.setEntry k e v).reg q j = s.reg q j) ∧
    (∀ g j, (s.setEntry k e v).fld g j = s.fld g j) ∧ (∀ g j, (s.setEntry k e v).flag g j = s.flag g j) ∧ (s.setEntry k e v).ft = s.ft := by
  and_intros <;> intros <;> rfl

@[simp] theorem State.setVecRun_frame (k : Nat) (v : Option VecRun) :
    (s.setVecRun k v).pending = s.pending ∧ (s.setVecRun k v).out = s.out ∧ (s.setVecRun k v).freeCtr = s.freeCtr ∧
    (s.setVecRun k v).time = s.time ∧ (s.setVecRun k v).regs = s.regs ∧ (s.setVecRun k v).mem = s.mem ∧ (s.setVecRun k v).chk = s.chk ∧
    (s.setVecRun k v).lost = s.lost ∧ (s.setVecRun k v).img = s.img ∧ (s.setVecRun k v).circs = s.circs ∧
    (s.setVecRun k v).contribs = s.contribs ∧ (s.setVecRun k v).retired = s.retired ∧ (s.setVecRun k v).queues = s.queues ∧
    (s.setVecRun k v).entries = s.entries ∧ (s.setVecRun k v).firings = s.firings ∧ (s.setVecRun k v).reverts = s.reverts ∧
    (s.setVecRun k v).ingress = s.ingress ∧ (s.setVecRun k v).vregs = s.vregs ∧ (s.setVecRun k v).masks = s.masks ∧
    (s.setVecRun k v).engines = s.engines ∧ (s.setVecRun k v).cells = s.cells ∧ (s.setVecRun k v).ctxs = s.ctxs ∧
    (s.setVecRun k v).memctl = s.memctl ∧ (s.setVecRun k v).ways = s.ways ∧ (s.setVecRun k v).wbuf = s.wbuf ∧
    (s.setVecRun k v).plru = s.plru ∧ (s.setVecRun k v).corrections = s.corrections ∧ (s.setVecRun k v).arrivals = s.arrivals ∧
    (s.setVecRun k v).health = s.health ∧ (s.setVecRun k v).closing = s.closing ∧ (s.setVecRun k v).agents = s.agents ∧
    (s.setVecRun k v).homes = s.homes ∧ (s.setVecRun k v).net = s.net ∧ (s.setVecRun k v).cpus = s.cpus ∧
    (s.setVecRun k v).cpuRegs = s.cpuRegs ∧ (s.setVecRun k v).stalls = s.stalls ∧ (s.setVecRun k v).resvs = s.resvs ∧
    (s.setVecRun k v).tlbs = s.tlbs ∧ (s.setVecRun k v).nonLeaf = s.nonLeaf ∧ (s.setVecRun k v).walks = s.walks ∧
    (s.setVecRun k v).walkTurn = s.walkTurn ∧ (s.setVecRun k v).tlbWait = s.tlbWait ∧ (s.setVecRun k v).opens = s.opens ∧
    (s.setVecRun k v).nextId = s.nextId ∧ (s.setVecRun k v).ringQ = s.ringQ ∧ (s.setVecRun k v).ports = s.ports ∧
    (s.setVecRun k v).segs = s.segs ∧ (s.setVecRun k v).epochs = s.epochs ∧ (s.setVecRun k v).broken = s.broken ∧
    (s.setVecRun k v).fences = s.fences ∧ (s.setVecRun k v).duty = s.duty ∧ (s.setVecRun k v).sels = s.sels ∧
    (s.setVecRun k v).selPend = s.selPend ∧ (s.setVecRun k v).ovfs = s.ovfs ∧ (s.setVecRun k v).trc = s.trc ∧
    (s.setVecRun k v).bme = s.bme ∧ (s.setVecRun k v).qpRates = s.qpRates ∧ (s.setVecRun k v).evtMsi = s.evtMsi ∧
    (s.setVecRun k v).recovs = s.recovs ∧ (s.setVecRun k v).hangBeats = s.hangBeats ∧ (s.setVecRun k v).hangRuns = s.hangRuns ∧
    (s.setVecRun k v).boot = s.boot ∧ (s.setVecRun k v).elec = s.elec ∧ (s.setVecRun k v).dlinks = s.dlinks ∧
    (s.setVecRun k v).diePwr = s.diePwr ∧ (s.setVecRun k v).pwr = s.pwr ∧ (s.setVecRun k v).dump = s.dump ∧
    (∀ q j, (s.setVecRun k v).reg q j = s.reg q j) ∧ (∀ g j, (s.setVecRun k v).fld g j = s.fld g j) ∧
    (∀ g j, (s.setVecRun k v).flag g j = s.flag g j) ∧ (s.setVecRun k v).ft = s.ft := by
  and_intros <;> intros <;> rfl

@[simp] theorem State.setEngine_frame (e : Nat) (v : Engine) :
    (s.setEngine e v).pending = s.pending ∧ (s.setEngine e v).out = s.out ∧ (s.setEngine e v).freeCtr = s.freeCtr ∧
    (s.setEngine e v).time = s.time ∧ (s.setEngine e v).regs = s.regs ∧ (s.setEngine e v).mem = s.mem ∧ (s.setEngine e v).chk = s.chk ∧
    (s.setEngine e v).lost = s.lost ∧ (s.setEngine e v).img = s.img ∧ (s.setEngine e v).circs = s.circs ∧
    (s.setEngine e v).contribs = s.contribs ∧ (s.setEngine e v).retired = s.retired ∧ (s.setEngine e v).queues = s.queues ∧
    (s.setEngine e v).entries = s.entries ∧ (s.setEngine e v).firings = s.firings ∧ (s.setEngine e v).reverts = s.reverts ∧
    (s.setEngine e v).ingress = s.ingress ∧ (s.setEngine e v).vec = s.vec ∧ (s.setEngine e v).vregs = s.vregs ∧
    (s.setEngine e v).masks = s.masks ∧ (s.setEngine e v).cells = s.cells ∧ (s.setEngine e v).ctxs = s.ctxs ∧
    (s.setEngine e v).memctl = s.memctl ∧ (s.setEngine e v).ways = s.ways ∧ (s.setEngine e v).wbuf = s.wbuf ∧
    (s.setEngine e v).plru = s.plru ∧ (s.setEngine e v).corrections = s.corrections ∧ (s.setEngine e v).arrivals = s.arrivals ∧
    (s.setEngine e v).health = s.health ∧ (s.setEngine e v).closing = s.closing ∧ (s.setEngine e v).agents = s.agents ∧
    (s.setEngine e v).homes = s.homes ∧ (s.setEngine e v).net = s.net ∧ (s.setEngine e v).cpus = s.cpus ∧
    (s.setEngine e v).cpuRegs = s.cpuRegs ∧ (s.setEngine e v).stalls = s.stalls ∧ (s.setEngine e v).resvs = s.resvs ∧
    (s.setEngine e v).tlbs = s.tlbs ∧ (s.setEngine e v).nonLeaf = s.nonLeaf ∧ (s.setEngine e v).walks = s.walks ∧
    (s.setEngine e v).walkTurn = s.walkTurn ∧ (s.setEngine e v).tlbWait = s.tlbWait ∧ (s.setEngine e v).opens = s.opens ∧
    (s.setEngine e v).nextId = s.nextId ∧ (s.setEngine e v).ringQ = s.ringQ ∧ (s.setEngine e v).ports = s.ports ∧
    (s.setEngine e v).segs = s.segs ∧ (s.setEngine e v).epochs = s.epochs ∧ (s.setEngine e v).broken = s.broken ∧
    (s.setEngine e v).fences = s.fences ∧ (s.setEngine e v).duty = s.duty ∧ (s.setEngine e v).sels = s.sels ∧
    (s.setEngine e v).selPend = s.selPend ∧ (s.setEngine e v).ovfs = s.ovfs ∧ (s.setEngine e v).trc = s.trc ∧
    (s.setEngine e v).bme = s.bme ∧ (s.setEngine e v).qpRates = s.qpRates ∧ (s.setEngine e v).evtMsi = s.evtMsi ∧
    (s.setEngine e v).recovs = s.recovs ∧ (s.setEngine e v).hangBeats = s.hangBeats ∧ (s.setEngine e v).hangRuns = s.hangRuns ∧
    (s.setEngine e v).boot = s.boot ∧ (s.setEngine e v).elec = s.elec ∧ (s.setEngine e v).dlinks = s.dlinks ∧
    (s.setEngine e v).diePwr = s.diePwr ∧ (s.setEngine e v).pwr = s.pwr ∧ (s.setEngine e v).dump = s.dump ∧
    (∀ q j, (s.setEngine e v).reg q j = s.reg q j) ∧ (∀ g j, (s.setEngine e v).fld g j = s.fld g j) ∧
    (∀ g j, (s.setEngine e v).flag g j = s.flag g j) ∧ (s.setEngine e v).ft = s.ft := by
  and_intros <;> intros <;> rfl

@[simp] theorem State.setCtx_frame (c : Nat) (v : Ctx) :
    (s.setCtx c v).pending = s.pending ∧ (s.setCtx c v).out = s.out ∧ (s.setCtx c v).freeCtr = s.freeCtr ∧ (s.setCtx c v).time = s.time ∧
    (s.setCtx c v).regs = s.regs ∧ (s.setCtx c v).mem = s.mem ∧ (s.setCtx c v).chk = s.chk ∧ (s.setCtx c v).lost = s.lost ∧
    (s.setCtx c v).img = s.img ∧ (s.setCtx c v).circs = s.circs ∧ (s.setCtx c v).contribs = s.contribs ∧
    (s.setCtx c v).retired = s.retired ∧ (s.setCtx c v).queues = s.queues ∧ (s.setCtx c v).entries = s.entries ∧
    (s.setCtx c v).firings = s.firings ∧ (s.setCtx c v).reverts = s.reverts ∧ (s.setCtx c v).ingress = s.ingress ∧
    (s.setCtx c v).vec = s.vec ∧ (s.setCtx c v).vregs = s.vregs ∧ (s.setCtx c v).masks = s.masks ∧ (s.setCtx c v).engines = s.engines ∧
    (s.setCtx c v).cells = s.cells ∧ (s.setCtx c v).memctl = s.memctl ∧ (s.setCtx c v).ways = s.ways ∧ (s.setCtx c v).wbuf = s.wbuf ∧
    (s.setCtx c v).plru = s.plru ∧ (s.setCtx c v).corrections = s.corrections ∧ (s.setCtx c v).arrivals = s.arrivals ∧
    (s.setCtx c v).health = s.health ∧ (s.setCtx c v).closing = s.closing ∧ (s.setCtx c v).agents = s.agents ∧
    (s.setCtx c v).homes = s.homes ∧ (s.setCtx c v).net = s.net ∧ (s.setCtx c v).cpus = s.cpus ∧ (s.setCtx c v).cpuRegs = s.cpuRegs ∧
    (s.setCtx c v).stalls = s.stalls ∧ (s.setCtx c v).resvs = s.resvs ∧ (s.setCtx c v).tlbs = s.tlbs ∧
    (s.setCtx c v).nonLeaf = s.nonLeaf ∧ (s.setCtx c v).walks = s.walks ∧ (s.setCtx c v).walkTurn = s.walkTurn ∧
    (s.setCtx c v).tlbWait = s.tlbWait ∧ (s.setCtx c v).opens = s.opens ∧ (s.setCtx c v).nextId = s.nextId ∧
    (s.setCtx c v).ringQ = s.ringQ ∧ (s.setCtx c v).ports = s.ports ∧ (s.setCtx c v).segs = s.segs ∧ (s.setCtx c v).epochs = s.epochs ∧
    (s.setCtx c v).broken = s.broken ∧ (s.setCtx c v).fences = s.fences ∧ (s.setCtx c v).duty = s.duty ∧ (s.setCtx c v).sels = s.sels ∧
    (s.setCtx c v).selPend = s.selPend ∧ (s.setCtx c v).ovfs = s.ovfs ∧ (s.setCtx c v).trc = s.trc ∧ (s.setCtx c v).bme = s.bme ∧
    (s.setCtx c v).qpRates = s.qpRates ∧ (s.setCtx c v).evtMsi = s.evtMsi ∧ (s.setCtx c v).recovs = s.recovs ∧
    (s.setCtx c v).hangBeats = s.hangBeats ∧ (s.setCtx c v).hangRuns = s.hangRuns ∧ (s.setCtx c v).boot = s.boot ∧
    (s.setCtx c v).elec = s.elec ∧ (s.setCtx c v).dlinks = s.dlinks ∧ (s.setCtx c v).diePwr = s.diePwr ∧ (s.setCtx c v).pwr = s.pwr ∧
    (s.setCtx c v).dump = s.dump ∧ (∀ q j, (s.setCtx c v).reg q j = s.reg q j) ∧ (∀ g j, (s.setCtx c v).fld g j = s.fld g j) ∧
    (∀ g j, (s.setCtx c v).flag g j = s.flag g j) ∧ (s.setCtx c v).ft = s.ft := by
  and_intros <;> intros <;> rfl

@[simp] theorem State.setMemCtl_frame (c : Nat) (v : MemCtl) :
    (s.setMemCtl c v).pending = s.pending ∧ (s.setMemCtl c v).out = s.out ∧ (s.setMemCtl c v).freeCtr = s.freeCtr ∧
    (s.setMemCtl c v).time = s.time ∧ (s.setMemCtl c v).regs = s.regs ∧ (s.setMemCtl c v).mem = s.mem ∧ (s.setMemCtl c v).chk = s.chk ∧
    (s.setMemCtl c v).lost = s.lost ∧ (s.setMemCtl c v).img = s.img ∧ (s.setMemCtl c v).circs = s.circs ∧
    (s.setMemCtl c v).contribs = s.contribs ∧ (s.setMemCtl c v).retired = s.retired ∧ (s.setMemCtl c v).queues = s.queues ∧
    (s.setMemCtl c v).entries = s.entries ∧ (s.setMemCtl c v).firings = s.firings ∧ (s.setMemCtl c v).reverts = s.reverts ∧
    (s.setMemCtl c v).ingress = s.ingress ∧ (s.setMemCtl c v).vec = s.vec ∧ (s.setMemCtl c v).vregs = s.vregs ∧
    (s.setMemCtl c v).masks = s.masks ∧ (s.setMemCtl c v).engines = s.engines ∧ (s.setMemCtl c v).cells = s.cells ∧
    (s.setMemCtl c v).ctxs = s.ctxs ∧ (s.setMemCtl c v).ways = s.ways ∧ (s.setMemCtl c v).wbuf = s.wbuf ∧
    (s.setMemCtl c v).plru = s.plru ∧ (s.setMemCtl c v).corrections = s.corrections ∧ (s.setMemCtl c v).arrivals = s.arrivals ∧
    (s.setMemCtl c v).health = s.health ∧ (s.setMemCtl c v).closing = s.closing ∧ (s.setMemCtl c v).agents = s.agents ∧
    (s.setMemCtl c v).homes = s.homes ∧ (s.setMemCtl c v).net = s.net ∧ (s.setMemCtl c v).cpus = s.cpus ∧
    (s.setMemCtl c v).cpuRegs = s.cpuRegs ∧ (s.setMemCtl c v).stalls = s.stalls ∧ (s.setMemCtl c v).resvs = s.resvs ∧
    (s.setMemCtl c v).tlbs = s.tlbs ∧ (s.setMemCtl c v).nonLeaf = s.nonLeaf ∧ (s.setMemCtl c v).walks = s.walks ∧
    (s.setMemCtl c v).walkTurn = s.walkTurn ∧ (s.setMemCtl c v).tlbWait = s.tlbWait ∧ (s.setMemCtl c v).opens = s.opens ∧
    (s.setMemCtl c v).nextId = s.nextId ∧ (s.setMemCtl c v).ringQ = s.ringQ ∧ (s.setMemCtl c v).ports = s.ports ∧
    (s.setMemCtl c v).segs = s.segs ∧ (s.setMemCtl c v).epochs = s.epochs ∧ (s.setMemCtl c v).broken = s.broken ∧
    (s.setMemCtl c v).fences = s.fences ∧ (s.setMemCtl c v).duty = s.duty ∧ (s.setMemCtl c v).sels = s.sels ∧
    (s.setMemCtl c v).selPend = s.selPend ∧ (s.setMemCtl c v).ovfs = s.ovfs ∧ (s.setMemCtl c v).trc = s.trc ∧
    (s.setMemCtl c v).bme = s.bme ∧ (s.setMemCtl c v).qpRates = s.qpRates ∧ (s.setMemCtl c v).evtMsi = s.evtMsi ∧
    (s.setMemCtl c v).recovs = s.recovs ∧ (s.setMemCtl c v).hangBeats = s.hangBeats ∧ (s.setMemCtl c v).hangRuns = s.hangRuns ∧
    (s.setMemCtl c v).boot = s.boot ∧ (s.setMemCtl c v).elec = s.elec ∧ (s.setMemCtl c v).dlinks = s.dlinks ∧
    (s.setMemCtl c v).diePwr = s.diePwr ∧ (s.setMemCtl c v).pwr = s.pwr ∧ (s.setMemCtl c v).dump = s.dump ∧
    (∀ q j, (s.setMemCtl c v).reg q j = s.reg q j) ∧ (∀ g j, (s.setMemCtl c v).fld g j = s.fld g j) ∧
    (∀ g j, (s.setMemCtl c v).flag g j = s.flag g j) ∧ (s.setMemCtl c v).ft = s.ft := by
  and_intros <;> intros <;> rfl

@[simp] theorem State.setWay_frame (n t w : Nat) (v : Way) :
    (s.setWay n t w v).pending = s.pending ∧ (s.setWay n t w v).out = s.out ∧ (s.setWay n t w v).freeCtr = s.freeCtr ∧
    (s.setWay n t w v).time = s.time ∧ (s.setWay n t w v).regs = s.regs ∧ (s.setWay n t w v).mem = s.mem ∧
    (s.setWay n t w v).chk = s.chk ∧ (s.setWay n t w v).lost = s.lost ∧ (s.setWay n t w v).img = s.img ∧
    (s.setWay n t w v).circs = s.circs ∧ (s.setWay n t w v).contribs = s.contribs ∧ (s.setWay n t w v).retired = s.retired ∧
    (s.setWay n t w v).queues = s.queues ∧ (s.setWay n t w v).entries = s.entries ∧ (s.setWay n t w v).firings = s.firings ∧
    (s.setWay n t w v).reverts = s.reverts ∧ (s.setWay n t w v).ingress = s.ingress ∧ (s.setWay n t w v).vec = s.vec ∧
    (s.setWay n t w v).vregs = s.vregs ∧ (s.setWay n t w v).masks = s.masks ∧ (s.setWay n t w v).engines = s.engines ∧
    (s.setWay n t w v).cells = s.cells ∧ (s.setWay n t w v).ctxs = s.ctxs ∧ (s.setWay n t w v).memctl = s.memctl ∧
    (s.setWay n t w v).wbuf = s.wbuf ∧ (s.setWay n t w v).plru = s.plru ∧ (s.setWay n t w v).corrections = s.corrections ∧
    (s.setWay n t w v).arrivals = s.arrivals ∧ (s.setWay n t w v).health = s.health ∧ (s.setWay n t w v).closing = s.closing ∧
    (s.setWay n t w v).agents = s.agents ∧ (s.setWay n t w v).homes = s.homes ∧ (s.setWay n t w v).net = s.net ∧
    (s.setWay n t w v).cpus = s.cpus ∧ (s.setWay n t w v).cpuRegs = s.cpuRegs ∧ (s.setWay n t w v).stalls = s.stalls ∧
    (s.setWay n t w v).resvs = s.resvs ∧ (s.setWay n t w v).tlbs = s.tlbs ∧ (s.setWay n t w v).nonLeaf = s.nonLeaf ∧
    (s.setWay n t w v).walks = s.walks ∧ (s.setWay n t w v).walkTurn = s.walkTurn ∧ (s.setWay n t w v).tlbWait = s.tlbWait ∧
    (s.setWay n t w v).opens = s.opens ∧ (s.setWay n t w v).nextId = s.nextId ∧ (s.setWay n t w v).ringQ = s.ringQ ∧
    (s.setWay n t w v).ports = s.ports ∧ (s.setWay n t w v).segs = s.segs ∧ (s.setWay n t w v).epochs = s.epochs ∧
    (s.setWay n t w v).broken = s.broken ∧ (s.setWay n t w v).fences = s.fences ∧ (s.setWay n t w v).duty = s.duty ∧
    (s.setWay n t w v).sels = s.sels ∧ (s.setWay n t w v).selPend = s.selPend ∧ (s.setWay n t w v).ovfs = s.ovfs ∧
    (s.setWay n t w v).trc = s.trc ∧ (s.setWay n t w v).bme = s.bme ∧ (s.setWay n t w v).qpRates = s.qpRates ∧
    (s.setWay n t w v).evtMsi = s.evtMsi ∧ (s.setWay n t w v).recovs = s.recovs ∧ (s.setWay n t w v).hangBeats = s.hangBeats ∧
    (s.setWay n t w v).hangRuns = s.hangRuns ∧ (s.setWay n t w v).boot = s.boot ∧ (s.setWay n t w v).elec = s.elec ∧
    (s.setWay n t w v).dlinks = s.dlinks ∧ (s.setWay n t w v).diePwr = s.diePwr ∧ (s.setWay n t w v).pwr = s.pwr ∧
    (s.setWay n t w v).dump = s.dump ∧ (∀ q j, (s.setWay n t w v).reg q j = s.reg q j) ∧
    (∀ g j, (s.setWay n t w v).fld g j = s.fld g j) ∧ (∀ g j, (s.setWay n t w v).flag g j = s.flag g j) ∧ (s.setWay n t w v).ft = s.ft := by
  and_intros <;> intros <;> rfl

@[simp] theorem State.setWayHealth_frame (n w : Nat) (v : WayHealth) :
    (s.setWayHealth n w v).pending = s.pending ∧ (s.setWayHealth n w v).out = s.out ∧ (s.setWayHealth n w v).freeCtr = s.freeCtr ∧
    (s.setWayHealth n w v).time = s.time ∧ (s.setWayHealth n w v).regs = s.regs ∧ (s.setWayHealth n w v).mem = s.mem ∧
    (s.setWayHealth n w v).chk = s.chk ∧ (s.setWayHealth n w v).lost = s.lost ∧ (s.setWayHealth n w v).img = s.img ∧
    (s.setWayHealth n w v).circs = s.circs ∧ (s.setWayHealth n w v).contribs = s.contribs ∧ (s.setWayHealth n w v).retired = s.retired ∧
    (s.setWayHealth n w v).queues = s.queues ∧ (s.setWayHealth n w v).entries = s.entries ∧ (s.setWayHealth n w v).firings = s.firings ∧
    (s.setWayHealth n w v).reverts = s.reverts ∧ (s.setWayHealth n w v).ingress = s.ingress ∧ (s.setWayHealth n w v).vec = s.vec ∧
    (s.setWayHealth n w v).vregs = s.vregs ∧ (s.setWayHealth n w v).masks = s.masks ∧ (s.setWayHealth n w v).engines = s.engines ∧
    (s.setWayHealth n w v).cells = s.cells ∧ (s.setWayHealth n w v).ctxs = s.ctxs ∧ (s.setWayHealth n w v).memctl = s.memctl ∧
    (s.setWayHealth n w v).ways = s.ways ∧ (s.setWayHealth n w v).wbuf = s.wbuf ∧ (s.setWayHealth n w v).plru = s.plru ∧
    (s.setWayHealth n w v).corrections = s.corrections ∧ (s.setWayHealth n w v).arrivals = s.arrivals ∧
    (s.setWayHealth n w v).closing = s.closing ∧ (s.setWayHealth n w v).agents = s.agents ∧ (s.setWayHealth n w v).homes = s.homes ∧
    (s.setWayHealth n w v).net = s.net ∧ (s.setWayHealth n w v).cpus = s.cpus ∧ (s.setWayHealth n w v).cpuRegs = s.cpuRegs ∧
    (s.setWayHealth n w v).stalls = s.stalls ∧ (s.setWayHealth n w v).resvs = s.resvs ∧ (s.setWayHealth n w v).tlbs = s.tlbs ∧
    (s.setWayHealth n w v).nonLeaf = s.nonLeaf ∧ (s.setWayHealth n w v).walks = s.walks ∧ (s.setWayHealth n w v).walkTurn = s.walkTurn ∧
    (s.setWayHealth n w v).tlbWait = s.tlbWait ∧ (s.setWayHealth n w v).opens = s.opens ∧ (s.setWayHealth n w v).nextId = s.nextId ∧
    (s.setWayHealth n w v).ringQ = s.ringQ ∧ (s.setWayHealth n w v).ports = s.ports ∧ (s.setWayHealth n w v).segs = s.segs ∧
    (s.setWayHealth n w v).epochs = s.epochs ∧ (s.setWayHealth n w v).broken = s.broken ∧ (s.setWayHealth n w v).fences = s.fences ∧
    (s.setWayHealth n w v).duty = s.duty ∧ (s.setWayHealth n w v).sels = s.sels ∧ (s.setWayHealth n w v).selPend = s.selPend ∧
    (s.setWayHealth n w v).ovfs = s.ovfs ∧ (s.setWayHealth n w v).trc = s.trc ∧ (s.setWayHealth n w v).bme = s.bme ∧
    (s.setWayHealth n w v).qpRates = s.qpRates ∧ (s.setWayHealth n w v).evtMsi = s.evtMsi ∧ (s.setWayHealth n w v).recovs = s.recovs ∧
    (s.setWayHealth n w v).hangBeats = s.hangBeats ∧ (s.setWayHealth n w v).hangRuns = s.hangRuns ∧
    (s.setWayHealth n w v).boot = s.boot ∧ (s.setWayHealth n w v).elec = s.elec ∧ (s.setWayHealth n w v).dlinks = s.dlinks ∧
    (s.setWayHealth n w v).diePwr = s.diePwr ∧ (s.setWayHealth n w v).pwr = s.pwr ∧ (s.setWayHealth n w v).dump = s.dump ∧
    (∀ q j, (s.setWayHealth n w v).reg q j = s.reg q j) ∧ (∀ g j, (s.setWayHealth n w v).fld g j = s.fld g j) ∧
    (∀ g j, (s.setWayHealth n w v).flag g j = s.flag g j) ∧ (s.setWayHealth n w v).ft = s.ft := by
  and_intros <;> intros <;> rfl

@[simp] theorem State.setLine_frame (a l : Nat) (v : Line) :
    (s.setLine a l v).pending = s.pending ∧ (s.setLine a l v).out = s.out ∧ (s.setLine a l v).freeCtr = s.freeCtr ∧
    (s.setLine a l v).time = s.time ∧ (s.setLine a l v).regs = s.regs ∧ (s.setLine a l v).mem = s.mem ∧ (s.setLine a l v).chk = s.chk ∧
    (s.setLine a l v).lost = s.lost ∧ (s.setLine a l v).img = s.img ∧ (s.setLine a l v).circs = s.circs ∧
    (s.setLine a l v).contribs = s.contribs ∧ (s.setLine a l v).retired = s.retired ∧ (s.setLine a l v).queues = s.queues ∧
    (s.setLine a l v).entries = s.entries ∧ (s.setLine a l v).firings = s.firings ∧ (s.setLine a l v).reverts = s.reverts ∧
    (s.setLine a l v).ingress = s.ingress ∧ (s.setLine a l v).vec = s.vec ∧ (s.setLine a l v).vregs = s.vregs ∧
    (s.setLine a l v).masks = s.masks ∧ (s.setLine a l v).engines = s.engines ∧ (s.setLine a l v).cells = s.cells ∧
    (s.setLine a l v).ctxs = s.ctxs ∧ (s.setLine a l v).memctl = s.memctl ∧ (s.setLine a l v).ways = s.ways ∧
    (s.setLine a l v).wbuf = s.wbuf ∧ (s.setLine a l v).plru = s.plru ∧ (s.setLine a l v).corrections = s.corrections ∧
    (s.setLine a l v).arrivals = s.arrivals ∧ (s.setLine a l v).health = s.health ∧ (s.setLine a l v).closing = s.closing ∧
    (s.setLine a l v).homes = s.homes ∧ (s.setLine a l v).net = s.net ∧ (s.setLine a l v).cpus = s.cpus ∧
    (s.setLine a l v).cpuRegs = s.cpuRegs ∧ (s.setLine a l v).stalls = s.stalls ∧ (s.setLine a l v).resvs = s.resvs ∧
    (s.setLine a l v).tlbs = s.tlbs ∧ (s.setLine a l v).nonLeaf = s.nonLeaf ∧ (s.setLine a l v).walks = s.walks ∧
    (s.setLine a l v).walkTurn = s.walkTurn ∧ (s.setLine a l v).tlbWait = s.tlbWait ∧ (s.setLine a l v).opens = s.opens ∧
    (s.setLine a l v).nextId = s.nextId ∧ (s.setLine a l v).ringQ = s.ringQ ∧ (s.setLine a l v).ports = s.ports ∧
    (s.setLine a l v).segs = s.segs ∧ (s.setLine a l v).epochs = s.epochs ∧ (s.setLine a l v).broken = s.broken ∧
    (s.setLine a l v).fences = s.fences ∧ (s.setLine a l v).duty = s.duty ∧ (s.setLine a l v).sels = s.sels ∧
    (s.setLine a l v).selPend = s.selPend ∧ (s.setLine a l v).ovfs = s.ovfs ∧ (s.setLine a l v).trc = s.trc ∧
    (s.setLine a l v).bme = s.bme ∧ (s.setLine a l v).qpRates = s.qpRates ∧ (s.setLine a l v).evtMsi = s.evtMsi ∧
    (s.setLine a l v).recovs = s.recovs ∧ (s.setLine a l v).hangBeats = s.hangBeats ∧ (s.setLine a l v).hangRuns = s.hangRuns ∧
    (s.setLine a l v).boot = s.boot ∧ (s.setLine a l v).elec = s.elec ∧ (s.setLine a l v).dlinks = s.dlinks ∧
    (s.setLine a l v).diePwr = s.diePwr ∧ (s.setLine a l v).pwr = s.pwr ∧ (s.setLine a l v).dump = s.dump ∧
    (∀ q j, (s.setLine a l v).reg q j = s.reg q j) ∧ (∀ g j, (s.setLine a l v).fld g j = s.fld g j) ∧
    (∀ g j, (s.setLine a l v).flag g j = s.flag g j) ∧ (s.setLine a l v).ft = s.ft := by
  and_intros <;> intros <;> rfl

@[simp] theorem State.setHome_frame (l : Nat) (v : HomeLine) :
    (s.setHome l v).pending = s.pending ∧ (s.setHome l v).out = s.out ∧ (s.setHome l v).freeCtr = s.freeCtr ∧
    (s.setHome l v).time = s.time ∧ (s.setHome l v).regs = s.regs ∧ (s.setHome l v).mem = s.mem ∧ (s.setHome l v).chk = s.chk ∧
    (s.setHome l v).lost = s.lost ∧ (s.setHome l v).img = s.img ∧ (s.setHome l v).circs = s.circs ∧
    (s.setHome l v).contribs = s.contribs ∧ (s.setHome l v).retired = s.retired ∧ (s.setHome l v).queues = s.queues ∧
    (s.setHome l v).entries = s.entries ∧ (s.setHome l v).firings = s.firings ∧ (s.setHome l v).reverts = s.reverts ∧
    (s.setHome l v).ingress = s.ingress ∧ (s.setHome l v).vec = s.vec ∧ (s.setHome l v).vregs = s.vregs ∧
    (s.setHome l v).masks = s.masks ∧ (s.setHome l v).engines = s.engines ∧ (s.setHome l v).cells = s.cells ∧
    (s.setHome l v).ctxs = s.ctxs ∧ (s.setHome l v).memctl = s.memctl ∧ (s.setHome l v).ways = s.ways ∧ (s.setHome l v).wbuf = s.wbuf ∧
    (s.setHome l v).plru = s.plru ∧ (s.setHome l v).corrections = s.corrections ∧ (s.setHome l v).arrivals = s.arrivals ∧
    (s.setHome l v).health = s.health ∧ (s.setHome l v).closing = s.closing ∧ (s.setHome l v).agents = s.agents ∧
    (s.setHome l v).net = s.net ∧ (s.setHome l v).cpus = s.cpus ∧ (s.setHome l v).cpuRegs = s.cpuRegs ∧
    (s.setHome l v).stalls = s.stalls ∧ (s.setHome l v).resvs = s.resvs ∧ (s.setHome l v).tlbs = s.tlbs ∧
    (s.setHome l v).nonLeaf = s.nonLeaf ∧ (s.setHome l v).walks = s.walks ∧ (s.setHome l v).walkTurn = s.walkTurn ∧
    (s.setHome l v).tlbWait = s.tlbWait ∧ (s.setHome l v).opens = s.opens ∧ (s.setHome l v).nextId = s.nextId ∧
    (s.setHome l v).ringQ = s.ringQ ∧ (s.setHome l v).ports = s.ports ∧ (s.setHome l v).segs = s.segs ∧
    (s.setHome l v).epochs = s.epochs ∧ (s.setHome l v).broken = s.broken ∧ (s.setHome l v).fences = s.fences ∧
    (s.setHome l v).duty = s.duty ∧ (s.setHome l v).sels = s.sels ∧ (s.setHome l v).selPend = s.selPend ∧ (s.setHome l v).ovfs = s.ovfs ∧
    (s.setHome l v).trc = s.trc ∧ (s.setHome l v).bme = s.bme ∧ (s.setHome l v).qpRates = s.qpRates ∧ (s.setHome l v).evtMsi = s.evtMsi ∧
    (s.setHome l v).recovs = s.recovs ∧ (s.setHome l v).hangBeats = s.hangBeats ∧ (s.setHome l v).hangRuns = s.hangRuns ∧
    (s.setHome l v).boot = s.boot ∧ (s.setHome l v).elec = s.elec ∧ (s.setHome l v).dlinks = s.dlinks ∧
    (s.setHome l v).diePwr = s.diePwr ∧ (s.setHome l v).pwr = s.pwr ∧ (s.setHome l v).dump = s.dump ∧
    (∀ q j, (s.setHome l v).reg q j = s.reg q j) ∧ (∀ g j, (s.setHome l v).fld g j = s.fld g j) ∧
    (∀ g j, (s.setHome l v).flag g j = s.flag g j) ∧ (s.setHome l v).ft = s.ft := by
  and_intros <;> intros <;> rfl

@[simp] theorem State.setCpu_frame (c : Nat) (v : Cpu) :
    (s.setCpu c v).pending = s.pending ∧ (s.setCpu c v).out = s.out ∧ (s.setCpu c v).freeCtr = s.freeCtr ∧ (s.setCpu c v).time = s.time ∧
    (s.setCpu c v).regs = s.regs ∧ (s.setCpu c v).mem = s.mem ∧ (s.setCpu c v).chk = s.chk ∧ (s.setCpu c v).lost = s.lost ∧
    (s.setCpu c v).img = s.img ∧ (s.setCpu c v).circs = s.circs ∧ (s.setCpu c v).contribs = s.contribs ∧
    (s.setCpu c v).retired = s.retired ∧ (s.setCpu c v).queues = s.queues ∧ (s.setCpu c v).entries = s.entries ∧
    (s.setCpu c v).firings = s.firings ∧ (s.setCpu c v).reverts = s.reverts ∧ (s.setCpu c v).ingress = s.ingress ∧
    (s.setCpu c v).vec = s.vec ∧ (s.setCpu c v).vregs = s.vregs ∧ (s.setCpu c v).masks = s.masks ∧ (s.setCpu c v).engines = s.engines ∧
    (s.setCpu c v).cells = s.cells ∧ (s.setCpu c v).ctxs = s.ctxs ∧ (s.setCpu c v).memctl = s.memctl ∧ (s.setCpu c v).ways = s.ways ∧
    (s.setCpu c v).wbuf = s.wbuf ∧ (s.setCpu c v).plru = s.plru ∧ (s.setCpu c v).corrections = s.corrections ∧
    (s.setCpu c v).arrivals = s.arrivals ∧ (s.setCpu c v).health = s.health ∧ (s.setCpu c v).closing = s.closing ∧
    (s.setCpu c v).agents = s.agents ∧ (s.setCpu c v).homes = s.homes ∧ (s.setCpu c v).net = s.net ∧ (s.setCpu c v).cpuRegs = s.cpuRegs ∧
    (s.setCpu c v).stalls = s.stalls ∧ (s.setCpu c v).resvs = s.resvs ∧ (s.setCpu c v).tlbs = s.tlbs ∧
    (s.setCpu c v).nonLeaf = s.nonLeaf ∧ (s.setCpu c v).walks = s.walks ∧ (s.setCpu c v).walkTurn = s.walkTurn ∧
    (s.setCpu c v).tlbWait = s.tlbWait ∧ (s.setCpu c v).opens = s.opens ∧ (s.setCpu c v).nextId = s.nextId ∧
    (s.setCpu c v).ringQ = s.ringQ ∧ (s.setCpu c v).ports = s.ports ∧ (s.setCpu c v).segs = s.segs ∧ (s.setCpu c v).epochs = s.epochs ∧
    (s.setCpu c v).broken = s.broken ∧ (s.setCpu c v).fences = s.fences ∧ (s.setCpu c v).duty = s.duty ∧ (s.setCpu c v).sels = s.sels ∧
    (s.setCpu c v).selPend = s.selPend ∧ (s.setCpu c v).ovfs = s.ovfs ∧ (s.setCpu c v).trc = s.trc ∧ (s.setCpu c v).bme = s.bme ∧
    (s.setCpu c v).qpRates = s.qpRates ∧ (s.setCpu c v).evtMsi = s.evtMsi ∧ (s.setCpu c v).recovs = s.recovs ∧
    (s.setCpu c v).hangBeats = s.hangBeats ∧ (s.setCpu c v).hangRuns = s.hangRuns ∧ (s.setCpu c v).boot = s.boot ∧
    (s.setCpu c v).elec = s.elec ∧ (s.setCpu c v).dlinks = s.dlinks ∧ (s.setCpu c v).diePwr = s.diePwr ∧ (s.setCpu c v).pwr = s.pwr ∧
    (s.setCpu c v).dump = s.dump ∧ (∀ q j, (s.setCpu c v).reg q j = s.reg q j) ∧ (∀ g j, (s.setCpu c v).fld g j = s.fld g j) ∧
    (∀ g j, (s.setCpu c v).flag g j = s.flag g j) ∧ (s.setCpu c v).ft = s.ft := by
  and_intros <;> intros <;> rfl

@[simp] theorem State.setXreg_frame (c n : Nat) (w : Word) :
    (s.setXreg c n w).pending = s.pending ∧ (s.setXreg c n w).out = s.out ∧ (s.setXreg c n w).freeCtr = s.freeCtr ∧
    (s.setXreg c n w).time = s.time ∧ (s.setXreg c n w).regs = s.regs ∧ (s.setXreg c n w).mem = s.mem ∧ (s.setXreg c n w).chk = s.chk ∧
    (s.setXreg c n w).lost = s.lost ∧ (s.setXreg c n w).img = s.img ∧ (s.setXreg c n w).circs = s.circs ∧
    (s.setXreg c n w).contribs = s.contribs ∧ (s.setXreg c n w).retired = s.retired ∧ (s.setXreg c n w).queues = s.queues ∧
    (s.setXreg c n w).entries = s.entries ∧ (s.setXreg c n w).firings = s.firings ∧ (s.setXreg c n w).reverts = s.reverts ∧
    (s.setXreg c n w).ingress = s.ingress ∧ (s.setXreg c n w).vec = s.vec ∧ (s.setXreg c n w).vregs = s.vregs ∧
    (s.setXreg c n w).masks = s.masks ∧ (s.setXreg c n w).engines = s.engines ∧ (s.setXreg c n w).cells = s.cells ∧
    (s.setXreg c n w).ctxs = s.ctxs ∧ (s.setXreg c n w).memctl = s.memctl ∧ (s.setXreg c n w).ways = s.ways ∧
    (s.setXreg c n w).wbuf = s.wbuf ∧ (s.setXreg c n w).plru = s.plru ∧ (s.setXreg c n w).corrections = s.corrections ∧
    (s.setXreg c n w).arrivals = s.arrivals ∧ (s.setXreg c n w).health = s.health ∧ (s.setXreg c n w).closing = s.closing ∧
    (s.setXreg c n w).agents = s.agents ∧ (s.setXreg c n w).homes = s.homes ∧ (s.setXreg c n w).net = s.net ∧
    (s.setXreg c n w).cpus = s.cpus ∧ (s.setXreg c n w).stalls = s.stalls ∧ (s.setXreg c n w).resvs = s.resvs ∧
    (s.setXreg c n w).tlbs = s.tlbs ∧ (s.setXreg c n w).nonLeaf = s.nonLeaf ∧ (s.setXreg c n w).walks = s.walks ∧
    (s.setXreg c n w).walkTurn = s.walkTurn ∧ (s.setXreg c n w).tlbWait = s.tlbWait ∧ (s.setXreg c n w).opens = s.opens ∧
    (s.setXreg c n w).nextId = s.nextId ∧ (s.setXreg c n w).ringQ = s.ringQ ∧ (s.setXreg c n w).ports = s.ports ∧
    (s.setXreg c n w).segs = s.segs ∧ (s.setXreg c n w).epochs = s.epochs ∧ (s.setXreg c n w).broken = s.broken ∧
    (s.setXreg c n w).fences = s.fences ∧ (s.setXreg c n w).duty = s.duty ∧ (s.setXreg c n w).sels = s.sels ∧
    (s.setXreg c n w).selPend = s.selPend ∧ (s.setXreg c n w).ovfs = s.ovfs ∧ (s.setXreg c n w).trc = s.trc ∧
    (s.setXreg c n w).bme = s.bme ∧ (s.setXreg c n w).qpRates = s.qpRates ∧ (s.setXreg c n w).evtMsi = s.evtMsi ∧
    (s.setXreg c n w).recovs = s.recovs ∧ (s.setXreg c n w).hangBeats = s.hangBeats ∧ (s.setXreg c n w).hangRuns = s.hangRuns ∧
    (s.setXreg c n w).boot = s.boot ∧ (s.setXreg c n w).elec = s.elec ∧ (s.setXreg c n w).dlinks = s.dlinks ∧
    (s.setXreg c n w).diePwr = s.diePwr ∧ (s.setXreg c n w).pwr = s.pwr ∧ (s.setXreg c n w).dump = s.dump ∧
    (∀ q j, (s.setXreg c n w).reg q j = s.reg q j) ∧ (∀ g j, (s.setXreg c n w).fld g j = s.fld g j) ∧
    (∀ g j, (s.setXreg c n w).flag g j = s.flag g j) ∧ (s.setXreg c n w).ft = s.ft := by
  unfold State.setXreg; split <;> (and_intros <;> intros <;> rfl)

@[simp] theorem State.setCell_frame (e b i j v : Nat) :
    (s.setCell e b i j v).pending = s.pending ∧ (s.setCell e b i j v).out = s.out ∧ (s.setCell e b i j v).freeCtr = s.freeCtr ∧
    (s.setCell e b i j v).time = s.time ∧ (s.setCell e b i j v).regs = s.regs ∧ (s.setCell e b i j v).mem = s.mem ∧
    (s.setCell e b i j v).chk = s.chk ∧ (s.setCell e b i j v).lost = s.lost ∧ (s.setCell e b i j v).img = s.img ∧
    (s.setCell e b i j v).circs = s.circs ∧ (s.setCell e b i j v).contribs = s.contribs ∧ (s.setCell e b i j v).retired = s.retired ∧
    (s.setCell e b i j v).queues = s.queues ∧ (s.setCell e b i j v).entries = s.entries ∧ (s.setCell e b i j v).firings = s.firings ∧
    (s.setCell e b i j v).reverts = s.reverts ∧ (s.setCell e b i j v).ingress = s.ingress ∧ (s.setCell e b i j v).vec = s.vec ∧
    (s.setCell e b i j v).vregs = s.vregs ∧ (s.setCell e b i j v).masks = s.masks ∧ (s.setCell e b i j v).engines = s.engines ∧
    (s.setCell e b i j v).ctxs = s.ctxs ∧ (s.setCell e b i j v).memctl = s.memctl ∧ (s.setCell e b i j v).ways = s.ways ∧
    (s.setCell e b i j v).wbuf = s.wbuf ∧ (s.setCell e b i j v).plru = s.plru ∧ (s.setCell e b i j v).corrections = s.corrections ∧
    (s.setCell e b i j v).arrivals = s.arrivals ∧ (s.setCell e b i j v).health = s.health ∧ (s.setCell e b i j v).closing = s.closing ∧
    (s.setCell e b i j v).agents = s.agents ∧ (s.setCell e b i j v).homes = s.homes ∧ (s.setCell e b i j v).net = s.net ∧
    (s.setCell e b i j v).cpus = s.cpus ∧ (s.setCell e b i j v).cpuRegs = s.cpuRegs ∧ (s.setCell e b i j v).stalls = s.stalls ∧
    (s.setCell e b i j v).resvs = s.resvs ∧ (s.setCell e b i j v).tlbs = s.tlbs ∧ (s.setCell e b i j v).nonLeaf = s.nonLeaf ∧
    (s.setCell e b i j v).walks = s.walks ∧ (s.setCell e b i j v).walkTurn = s.walkTurn ∧ (s.setCell e b i j v).tlbWait = s.tlbWait ∧
    (s.setCell e b i j v).opens = s.opens ∧ (s.setCell e b i j v).nextId = s.nextId ∧ (s.setCell e b i j v).ringQ = s.ringQ ∧
    (s.setCell e b i j v).ports = s.ports ∧ (s.setCell e b i j v).segs = s.segs ∧ (s.setCell e b i j v).epochs = s.epochs ∧
    (s.setCell e b i j v).broken = s.broken ∧ (s.setCell e b i j v).fences = s.fences ∧ (s.setCell e b i j v).duty = s.duty ∧
    (s.setCell e b i j v).sels = s.sels ∧ (s.setCell e b i j v).selPend = s.selPend ∧ (s.setCell e b i j v).ovfs = s.ovfs ∧
    (s.setCell e b i j v).trc = s.trc ∧ (s.setCell e b i j v).bme = s.bme ∧ (s.setCell e b i j v).qpRates = s.qpRates ∧
    (s.setCell e b i j v).evtMsi = s.evtMsi ∧ (s.setCell e b i j v).recovs = s.recovs ∧ (s.setCell e b i j v).hangBeats = s.hangBeats ∧
    (s.setCell e b i j v).hangRuns = s.hangRuns ∧ (s.setCell e b i j v).boot = s.boot ∧ (s.setCell e b i j v).elec = s.elec ∧
    (s.setCell e b i j v).dlinks = s.dlinks ∧ (s.setCell e b i j v).diePwr = s.diePwr ∧ (s.setCell e b i j v).pwr = s.pwr ∧
    (s.setCell e b i j v).dump = s.dump ∧ (∀ q j, (s.setCell e b i j v).reg q j = s.reg q j) ∧
    (∀ g j, (s.setCell e b i j v).fld g j = s.fld g j) ∧ (∀ g j, (s.setCell e b i j v).flag g j = s.flag g j) ∧
    (s.setCell e b i j v).ft = s.ft := by
  and_intros <;> intros <;> rfl

@[simp] theorem State.setPort_frame (p : Nat) (v : Port) :
    (s.setPort p v).pending = s.pending ∧ (s.setPort p v).out = s.out ∧ (s.setPort p v).freeCtr = s.freeCtr ∧
    (s.setPort p v).time = s.time ∧ (s.setPort p v).regs = s.regs ∧ (s.setPort p v).mem = s.mem ∧ (s.setPort p v).chk = s.chk ∧
    (s.setPort p v).lost = s.lost ∧ (s.setPort p v).img = s.img ∧ (s.setPort p v).circs = s.circs ∧
    (s.setPort p v).contribs = s.contribs ∧ (s.setPort p v).retired = s.retired ∧ (s.setPort p v).queues = s.queues ∧
    (s.setPort p v).entries = s.entries ∧ (s.setPort p v).firings = s.firings ∧ (s.setPort p v).reverts = s.reverts ∧
    (s.setPort p v).ingress = s.ingress ∧ (s.setPort p v).vec = s.vec ∧ (s.setPort p v).vregs = s.vregs ∧
    (s.setPort p v).masks = s.masks ∧ (s.setPort p v).engines = s.engines ∧ (s.setPort p v).cells = s.cells ∧
    (s.setPort p v).ctxs = s.ctxs ∧ (s.setPort p v).memctl = s.memctl ∧ (s.setPort p v).ways = s.ways ∧ (s.setPort p v).wbuf = s.wbuf ∧
    (s.setPort p v).plru = s.plru ∧ (s.setPort p v).corrections = s.corrections ∧ (s.setPort p v).arrivals = s.arrivals ∧
    (s.setPort p v).health = s.health ∧ (s.setPort p v).closing = s.closing ∧ (s.setPort p v).agents = s.agents ∧
    (s.setPort p v).homes = s.homes ∧ (s.setPort p v).net = s.net ∧ (s.setPort p v).cpus = s.cpus ∧ (s.setPort p v).cpuRegs = s.cpuRegs ∧
    (s.setPort p v).stalls = s.stalls ∧ (s.setPort p v).resvs = s.resvs ∧ (s.setPort p v).tlbs = s.tlbs ∧
    (s.setPort p v).nonLeaf = s.nonLeaf ∧ (s.setPort p v).walks = s.walks ∧ (s.setPort p v).walkTurn = s.walkTurn ∧
    (s.setPort p v).tlbWait = s.tlbWait ∧ (s.setPort p v).opens = s.opens ∧ (s.setPort p v).nextId = s.nextId ∧
    (s.setPort p v).ringQ = s.ringQ ∧ (s.setPort p v).segs = s.segs ∧ (s.setPort p v).epochs = s.epochs ∧
    (s.setPort p v).broken = s.broken ∧ (s.setPort p v).fences = s.fences ∧ (s.setPort p v).duty = s.duty ∧
    (s.setPort p v).sels = s.sels ∧ (s.setPort p v).selPend = s.selPend ∧ (s.setPort p v).ovfs = s.ovfs ∧ (s.setPort p v).trc = s.trc ∧
    (s.setPort p v).bme = s.bme ∧ (s.setPort p v).qpRates = s.qpRates ∧ (s.setPort p v).evtMsi = s.evtMsi ∧
    (s.setPort p v).recovs = s.recovs ∧ (s.setPort p v).hangBeats = s.hangBeats ∧ (s.setPort p v).hangRuns = s.hangRuns ∧
    (s.setPort p v).boot = s.boot ∧ (s.setPort p v).elec = s.elec ∧ (s.setPort p v).dlinks = s.dlinks ∧
    (s.setPort p v).diePwr = s.diePwr ∧ (s.setPort p v).pwr = s.pwr ∧ (s.setPort p v).dump = s.dump ∧
    (∀ q j, (s.setPort p v).reg q j = s.reg q j) ∧ (∀ g j, (s.setPort p v).fld g j = s.fld g j) ∧
    (∀ g j, (s.setPort p v).flag g j = s.flag g j) ∧ (s.setPort p v).ft = s.ft := by
  and_intros <;> intros <;> rfl

@[simp] theorem State.setSeg_frame (c : Nat) (v : Segment) :
    (s.setSeg c v).pending = s.pending ∧ (s.setSeg c v).out = s.out ∧ (s.setSeg c v).freeCtr = s.freeCtr ∧ (s.setSeg c v).time = s.time ∧
    (s.setSeg c v).regs = s.regs ∧ (s.setSeg c v).mem = s.mem ∧ (s.setSeg c v).chk = s.chk ∧ (s.setSeg c v).lost = s.lost ∧
    (s.setSeg c v).img = s.img ∧ (s.setSeg c v).circs = s.circs ∧ (s.setSeg c v).contribs = s.contribs ∧
    (s.setSeg c v).retired = s.retired ∧ (s.setSeg c v).queues = s.queues ∧ (s.setSeg c v).entries = s.entries ∧
    (s.setSeg c v).firings = s.firings ∧ (s.setSeg c v).reverts = s.reverts ∧ (s.setSeg c v).ingress = s.ingress ∧
    (s.setSeg c v).vec = s.vec ∧ (s.setSeg c v).vregs = s.vregs ∧ (s.setSeg c v).masks = s.masks ∧ (s.setSeg c v).engines = s.engines ∧
    (s.setSeg c v).cells = s.cells ∧ (s.setSeg c v).ctxs = s.ctxs ∧ (s.setSeg c v).memctl = s.memctl ∧ (s.setSeg c v).ways = s.ways ∧
    (s.setSeg c v).wbuf = s.wbuf ∧ (s.setSeg c v).plru = s.plru ∧ (s.setSeg c v).corrections = s.corrections ∧
    (s.setSeg c v).arrivals = s.arrivals ∧ (s.setSeg c v).health = s.health ∧ (s.setSeg c v).closing = s.closing ∧
    (s.setSeg c v).agents = s.agents ∧ (s.setSeg c v).homes = s.homes ∧ (s.setSeg c v).net = s.net ∧ (s.setSeg c v).cpus = s.cpus ∧
    (s.setSeg c v).cpuRegs = s.cpuRegs ∧ (s.setSeg c v).stalls = s.stalls ∧ (s.setSeg c v).resvs = s.resvs ∧
    (s.setSeg c v).tlbs = s.tlbs ∧ (s.setSeg c v).nonLeaf = s.nonLeaf ∧ (s.setSeg c v).walks = s.walks ∧
    (s.setSeg c v).walkTurn = s.walkTurn ∧ (s.setSeg c v).tlbWait = s.tlbWait ∧ (s.setSeg c v).opens = s.opens ∧
    (s.setSeg c v).nextId = s.nextId ∧ (s.setSeg c v).ringQ = s.ringQ ∧ (s.setSeg c v).ports = s.ports ∧
    (s.setSeg c v).epochs = s.epochs ∧ (s.setSeg c v).broken = s.broken ∧ (s.setSeg c v).fences = s.fences ∧
    (s.setSeg c v).duty = s.duty ∧ (s.setSeg c v).sels = s.sels ∧ (s.setSeg c v).selPend = s.selPend ∧ (s.setSeg c v).ovfs = s.ovfs ∧
    (s.setSeg c v).trc = s.trc ∧ (s.setSeg c v).bme = s.bme ∧ (s.setSeg c v).qpRates = s.qpRates ∧ (s.setSeg c v).evtMsi = s.evtMsi ∧
    (s.setSeg c v).recovs = s.recovs ∧ (s.setSeg c v).hangBeats = s.hangBeats ∧ (s.setSeg c v).hangRuns = s.hangRuns ∧
    (s.setSeg c v).boot = s.boot ∧ (s.setSeg c v).elec = s.elec ∧ (s.setSeg c v).dlinks = s.dlinks ∧ (s.setSeg c v).diePwr = s.diePwr ∧
    (s.setSeg c v).pwr = s.pwr ∧ (s.setSeg c v).dump = s.dump ∧ (∀ q j, (s.setSeg c v).reg q j = s.reg q j) ∧
    (∀ g j, (s.setSeg c v).fld g j = s.fld g j) ∧ (∀ g j, (s.setSeg c v).flag g j = s.flag g j) ∧ (s.setSeg c v).ft = s.ft := by
  and_intros <;> intros <;> rfl

@[simp] theorem State.setDuty_frame (n v : Nat) :
    (s.setDuty n v).pending = s.pending ∧ (s.setDuty n v).out = s.out ∧ (s.setDuty n v).freeCtr = s.freeCtr ∧
    (s.setDuty n v).time = s.time ∧ (s.setDuty n v).regs = s.regs ∧ (s.setDuty n v).mem = s.mem ∧ (s.setDuty n v).chk = s.chk ∧
    (s.setDuty n v).lost = s.lost ∧ (s.setDuty n v).img = s.img ∧ (s.setDuty n v).circs = s.circs ∧
    (s.setDuty n v).contribs = s.contribs ∧ (s.setDuty n v).retired = s.retired ∧ (s.setDuty n v).queues = s.queues ∧
    (s.setDuty n v).entries = s.entries ∧ (s.setDuty n v).firings = s.firings ∧ (s.setDuty n v).reverts = s.reverts ∧
    (s.setDuty n v).ingress = s.ingress ∧ (s.setDuty n v).vec = s.vec ∧ (s.setDuty n v).vregs = s.vregs ∧
    (s.setDuty n v).masks = s.masks ∧ (s.setDuty n v).engines = s.engines ∧ (s.setDuty n v).cells = s.cells ∧
    (s.setDuty n v).ctxs = s.ctxs ∧ (s.setDuty n v).memctl = s.memctl ∧ (s.setDuty n v).ways = s.ways ∧ (s.setDuty n v).wbuf = s.wbuf ∧
    (s.setDuty n v).plru = s.plru ∧ (s.setDuty n v).corrections = s.corrections ∧ (s.setDuty n v).arrivals = s.arrivals ∧
    (s.setDuty n v).health = s.health ∧ (s.setDuty n v).closing = s.closing ∧ (s.setDuty n v).agents = s.agents ∧
    (s.setDuty n v).homes = s.homes ∧ (s.setDuty n v).net = s.net ∧ (s.setDuty n v).cpus = s.cpus ∧ (s.setDuty n v).cpuRegs = s.cpuRegs ∧
    (s.setDuty n v).stalls = s.stalls ∧ (s.setDuty n v).resvs = s.resvs ∧ (s.setDuty n v).tlbs = s.tlbs ∧
    (s.setDuty n v).nonLeaf = s.nonLeaf ∧ (s.setDuty n v).walks = s.walks ∧ (s.setDuty n v).walkTurn = s.walkTurn ∧
    (s.setDuty n v).tlbWait = s.tlbWait ∧ (s.setDuty n v).opens = s.opens ∧ (s.setDuty n v).nextId = s.nextId ∧
    (s.setDuty n v).ringQ = s.ringQ ∧ (s.setDuty n v).ports = s.ports ∧ (s.setDuty n v).segs = s.segs ∧
    (s.setDuty n v).epochs = s.epochs ∧ (s.setDuty n v).broken = s.broken ∧ (s.setDuty n v).fences = s.fences ∧
    (s.setDuty n v).sels = s.sels ∧ (s.setDuty n v).selPend = s.selPend ∧ (s.setDuty n v).ovfs = s.ovfs ∧ (s.setDuty n v).trc = s.trc ∧
    (s.setDuty n v).bme = s.bme ∧ (s.setDuty n v).qpRates = s.qpRates ∧ (s.setDuty n v).evtMsi = s.evtMsi ∧
    (s.setDuty n v).recovs = s.recovs ∧ (s.setDuty n v).hangBeats = s.hangBeats ∧ (s.setDuty n v).hangRuns = s.hangRuns ∧
    (s.setDuty n v).boot = s.boot ∧ (s.setDuty n v).elec = s.elec ∧ (s.setDuty n v).dlinks = s.dlinks ∧
    (s.setDuty n v).diePwr = s.diePwr ∧ (s.setDuty n v).pwr = s.pwr ∧ (s.setDuty n v).dump = s.dump ∧
    (∀ q j, (s.setDuty n v).reg q j = s.reg q j) ∧ (∀ g j, (s.setDuty n v).fld g j = s.fld g j) ∧
    (∀ g j, (s.setDuty n v).flag g j = s.flag g j) ∧ (s.setDuty n v).ft = s.ft := by
  and_intros <;> intros <;> rfl

@[simp] theorem State.setDieLink_frame (k : Nat) (v : DieLink) :
    (s.setDieLink k v).pending = s.pending ∧ (s.setDieLink k v).out = s.out ∧ (s.setDieLink k v).freeCtr = s.freeCtr ∧
    (s.setDieLink k v).time = s.time ∧ (s.setDieLink k v).regs = s.regs ∧ (s.setDieLink k v).mem = s.mem ∧
    (s.setDieLink k v).chk = s.chk ∧ (s.setDieLink k v).lost = s.lost ∧ (s.setDieLink k v).img = s.img ∧
    (s.setDieLink k v).circs = s.circs ∧ (s.setDieLink k v).contribs = s.contribs ∧ (s.setDieLink k v).retired = s.retired ∧
    (s.setDieLink k v).queues = s.queues ∧ (s.setDieLink k v).entries = s.entries ∧ (s.setDieLink k v).firings = s.firings ∧
    (s.setDieLink k v).reverts = s.reverts ∧ (s.setDieLink k v).ingress = s.ingress ∧ (s.setDieLink k v).vec = s.vec ∧
    (s.setDieLink k v).vregs = s.vregs ∧ (s.setDieLink k v).masks = s.masks ∧ (s.setDieLink k v).engines = s.engines ∧
    (s.setDieLink k v).cells = s.cells ∧ (s.setDieLink k v).ctxs = s.ctxs ∧ (s.setDieLink k v).memctl = s.memctl ∧
    (s.setDieLink k v).ways = s.ways ∧ (s.setDieLink k v).wbuf = s.wbuf ∧ (s.setDieLink k v).plru = s.plru ∧
    (s.setDieLink k v).corrections = s.corrections ∧ (s.setDieLink k v).arrivals = s.arrivals ∧ (s.setDieLink k v).health = s.health ∧
    (s.setDieLink k v).closing = s.closing ∧ (s.setDieLink k v).agents = s.agents ∧ (s.setDieLink k v).homes = s.homes ∧
    (s.setDieLink k v).net = s.net ∧ (s.setDieLink k v).cpus = s.cpus ∧ (s.setDieLink k v).cpuRegs = s.cpuRegs ∧
    (s.setDieLink k v).stalls = s.stalls ∧ (s.setDieLink k v).resvs = s.resvs ∧ (s.setDieLink k v).tlbs = s.tlbs ∧
    (s.setDieLink k v).nonLeaf = s.nonLeaf ∧ (s.setDieLink k v).walks = s.walks ∧ (s.setDieLink k v).walkTurn = s.walkTurn ∧
    (s.setDieLink k v).tlbWait = s.tlbWait ∧ (s.setDieLink k v).opens = s.opens ∧ (s.setDieLink k v).nextId = s.nextId ∧
    (s.setDieLink k v).ringQ = s.ringQ ∧ (s.setDieLink k v).ports = s.ports ∧ (s.setDieLink k v).segs = s.segs ∧
    (s.setDieLink k v).epochs = s.epochs ∧ (s.setDieLink k v).broken = s.broken ∧ (s.setDieLink k v).fences = s.fences ∧
    (s.setDieLink k v).duty = s.duty ∧ (s.setDieLink k v).sels = s.sels ∧ (s.setDieLink k v).selPend = s.selPend ∧
    (s.setDieLink k v).ovfs = s.ovfs ∧ (s.setDieLink k v).trc = s.trc ∧ (s.setDieLink k v).bme = s.bme ∧
    (s.setDieLink k v).qpRates = s.qpRates ∧ (s.setDieLink k v).evtMsi = s.evtMsi ∧ (s.setDieLink k v).recovs = s.recovs ∧
    (s.setDieLink k v).hangBeats = s.hangBeats ∧ (s.setDieLink k v).hangRuns = s.hangRuns ∧ (s.setDieLink k v).boot = s.boot ∧
    (s.setDieLink k v).elec = s.elec ∧ (s.setDieLink k v).diePwr = s.diePwr ∧ (s.setDieLink k v).pwr = s.pwr ∧
    (s.setDieLink k v).dump = s.dump ∧ (∀ q j, (s.setDieLink k v).reg q j = s.reg q j) ∧
    (∀ g j, (s.setDieLink k v).fld g j = s.fld g j) ∧ (∀ g j, (s.setDieLink k v).flag g j = s.flag g j) ∧ (s.setDieLink k v).ft = s.ft := by
  and_intros <;> intros <;> rfl

@[simp] theorem State.setDpwr_frame (n : Nat) (v : DiePwr) :
    (s.setDpwr n v).pending = s.pending ∧ (s.setDpwr n v).out = s.out ∧ (s.setDpwr n v).freeCtr = s.freeCtr ∧
    (s.setDpwr n v).time = s.time ∧ (s.setDpwr n v).regs = s.regs ∧ (s.setDpwr n v).mem = s.mem ∧ (s.setDpwr n v).chk = s.chk ∧
    (s.setDpwr n v).lost = s.lost ∧ (s.setDpwr n v).img = s.img ∧ (s.setDpwr n v).circs = s.circs ∧
    (s.setDpwr n v).contribs = s.contribs ∧ (s.setDpwr n v).retired = s.retired ∧ (s.setDpwr n v).queues = s.queues ∧
    (s.setDpwr n v).entries = s.entries ∧ (s.setDpwr n v).firings = s.firings ∧ (s.setDpwr n v).reverts = s.reverts ∧
    (s.setDpwr n v).ingress = s.ingress ∧ (s.setDpwr n v).vec = s.vec ∧ (s.setDpwr n v).vregs = s.vregs ∧
    (s.setDpwr n v).masks = s.masks ∧ (s.setDpwr n v).engines = s.engines ∧ (s.setDpwr n v).cells = s.cells ∧
    (s.setDpwr n v).ctxs = s.ctxs ∧ (s.setDpwr n v).memctl = s.memctl ∧ (s.setDpwr n v).ways = s.ways ∧ (s.setDpwr n v).wbuf = s.wbuf ∧
    (s.setDpwr n v).plru = s.plru ∧ (s.setDpwr n v).corrections = s.corrections ∧ (s.setDpwr n v).arrivals = s.arrivals ∧
    (s.setDpwr n v).health = s.health ∧ (s.setDpwr n v).closing = s.closing ∧ (s.setDpwr n v).agents = s.agents ∧
    (s.setDpwr n v).homes = s.homes ∧ (s.setDpwr n v).net = s.net ∧ (s.setDpwr n v).cpus = s.cpus ∧ (s.setDpwr n v).cpuRegs = s.cpuRegs ∧
    (s.setDpwr n v).stalls = s.stalls ∧ (s.setDpwr n v).resvs = s.resvs ∧ (s.setDpwr n v).tlbs = s.tlbs ∧
    (s.setDpwr n v).nonLeaf = s.nonLeaf ∧ (s.setDpwr n v).walks = s.walks ∧ (s.setDpwr n v).walkTurn = s.walkTurn ∧
    (s.setDpwr n v).tlbWait = s.tlbWait ∧ (s.setDpwr n v).opens = s.opens ∧ (s.setDpwr n v).nextId = s.nextId ∧
    (s.setDpwr n v).ringQ = s.ringQ ∧ (s.setDpwr n v).ports = s.ports ∧ (s.setDpwr n v).segs = s.segs ∧
    (s.setDpwr n v).epochs = s.epochs ∧ (s.setDpwr n v).broken = s.broken ∧ (s.setDpwr n v).fences = s.fences ∧
    (s.setDpwr n v).duty = s.duty ∧ (s.setDpwr n v).sels = s.sels ∧ (s.setDpwr n v).selPend = s.selPend ∧ (s.setDpwr n v).ovfs = s.ovfs ∧
    (s.setDpwr n v).trc = s.trc ∧ (s.setDpwr n v).bme = s.bme ∧ (s.setDpwr n v).qpRates = s.qpRates ∧ (s.setDpwr n v).evtMsi = s.evtMsi ∧
    (s.setDpwr n v).recovs = s.recovs ∧ (s.setDpwr n v).hangBeats = s.hangBeats ∧ (s.setDpwr n v).hangRuns = s.hangRuns ∧
    (s.setDpwr n v).boot = s.boot ∧ (s.setDpwr n v).elec = s.elec ∧ (s.setDpwr n v).dlinks = s.dlinks ∧ (s.setDpwr n v).pwr = s.pwr ∧
    (s.setDpwr n v).dump = s.dump ∧ (∀ q j, (s.setDpwr n v).reg q j = s.reg q j) ∧ (∀ g j, (s.setDpwr n v).fld g j = s.fld g j) ∧
    (∀ g j, (s.setDpwr n v).flag g j = s.flag g j) ∧ (s.setDpwr n v).ft = s.ft := by
  and_intros <;> intros <;> rfl

@[simp] theorem State.setByte_frame (a : Nat) (v : Byte) :
    (s.setByte a v).pending = s.pending ∧ (s.setByte a v).out = s.out ∧ (s.setByte a v).freeCtr = s.freeCtr ∧
    (s.setByte a v).time = s.time ∧ (s.setByte a v).regs = s.regs ∧ (s.setByte a v).chk = s.chk ∧ (s.setByte a v).lost = s.lost ∧
    (s.setByte a v).img = s.img ∧ (s.setByte a v).circs = s.circs ∧ (s.setByte a v).contribs = s.contribs ∧
    (s.setByte a v).retired = s.retired ∧ (s.setByte a v).queues = s.queues ∧ (s.setByte a v).entries = s.entries ∧
    (s.setByte a v).firings = s.firings ∧ (s.setByte a v).reverts = s.reverts ∧ (s.setByte a v).ingress = s.ingress ∧
    (s.setByte a v).vec = s.vec ∧ (s.setByte a v).vregs = s.vregs ∧ (s.setByte a v).masks = s.masks ∧
    (s.setByte a v).engines = s.engines ∧ (s.setByte a v).cells = s.cells ∧ (s.setByte a v).ctxs = s.ctxs ∧
    (s.setByte a v).memctl = s.memctl ∧ (s.setByte a v).ways = s.ways ∧ (s.setByte a v).wbuf = s.wbuf ∧ (s.setByte a v).plru = s.plru ∧
    (s.setByte a v).corrections = s.corrections ∧ (s.setByte a v).arrivals = s.arrivals ∧ (s.setByte a v).health = s.health ∧
    (s.setByte a v).closing = s.closing ∧ (s.setByte a v).agents = s.agents ∧ (s.setByte a v).homes = s.homes ∧
    (s.setByte a v).net = s.net ∧ (s.setByte a v).cpus = s.cpus ∧ (s.setByte a v).cpuRegs = s.cpuRegs ∧
    (s.setByte a v).stalls = s.stalls ∧ (s.setByte a v).resvs = s.resvs ∧ (s.setByte a v).tlbs = s.tlbs ∧
    (s.setByte a v).nonLeaf = s.nonLeaf ∧ (s.setByte a v).walks = s.walks ∧ (s.setByte a v).walkTurn = s.walkTurn ∧
    (s.setByte a v).tlbWait = s.tlbWait ∧ (s.setByte a v).opens = s.opens ∧ (s.setByte a v).nextId = s.nextId ∧
    (s.setByte a v).ringQ = s.ringQ ∧ (s.setByte a v).ports = s.ports ∧ (s.setByte a v).segs = s.segs ∧
    (s.setByte a v).epochs = s.epochs ∧ (s.setByte a v).broken = s.broken ∧ (s.setByte a v).fences = s.fences ∧
    (s.setByte a v).duty = s.duty ∧ (s.setByte a v).sels = s.sels ∧ (s.setByte a v).selPend = s.selPend ∧ (s.setByte a v).ovfs = s.ovfs ∧
    (s.setByte a v).trc = s.trc ∧ (s.setByte a v).bme = s.bme ∧ (s.setByte a v).qpRates = s.qpRates ∧ (s.setByte a v).evtMsi = s.evtMsi ∧
    (s.setByte a v).recovs = s.recovs ∧ (s.setByte a v).hangBeats = s.hangBeats ∧ (s.setByte a v).hangRuns = s.hangRuns ∧
    (s.setByte a v).boot = s.boot ∧ (s.setByte a v).elec = s.elec ∧ (s.setByte a v).dlinks = s.dlinks ∧
    (s.setByte a v).diePwr = s.diePwr ∧ (s.setByte a v).pwr = s.pwr ∧ (s.setByte a v).dump = s.dump ∧
    (∀ q j, (s.setByte a v).reg q j = s.reg q j) ∧ (∀ g j, (s.setByte a v).fld g j = s.fld g j) ∧
    (∀ g j, (s.setByte a v).flag g j = s.flag g j) ∧ (s.setByte a v).ft = s.ft := by
  and_intros <;> intros <;> rfl

@[simp] theorem State.setSyn_frame (a : Nat) (v : BitVec 32) :
    (s.setSyn a v).pending = s.pending ∧ (s.setSyn a v).out = s.out ∧ (s.setSyn a v).freeCtr = s.freeCtr ∧ (s.setSyn a v).time = s.time ∧
    (s.setSyn a v).regs = s.regs ∧ (s.setSyn a v).mem = s.mem ∧ (s.setSyn a v).lost = s.lost ∧ (s.setSyn a v).img = s.img ∧
    (s.setSyn a v).circs = s.circs ∧ (s.setSyn a v).contribs = s.contribs ∧ (s.setSyn a v).retired = s.retired ∧
    (s.setSyn a v).queues = s.queues ∧ (s.setSyn a v).entries = s.entries ∧ (s.setSyn a v).firings = s.firings ∧
    (s.setSyn a v).reverts = s.reverts ∧ (s.setSyn a v).ingress = s.ingress ∧ (s.setSyn a v).vec = s.vec ∧
    (s.setSyn a v).vregs = s.vregs ∧ (s.setSyn a v).masks = s.masks ∧ (s.setSyn a v).engines = s.engines ∧
    (s.setSyn a v).cells = s.cells ∧ (s.setSyn a v).ctxs = s.ctxs ∧ (s.setSyn a v).memctl = s.memctl ∧ (s.setSyn a v).ways = s.ways ∧
    (s.setSyn a v).wbuf = s.wbuf ∧ (s.setSyn a v).plru = s.plru ∧ (s.setSyn a v).corrections = s.corrections ∧
    (s.setSyn a v).arrivals = s.arrivals ∧ (s.setSyn a v).health = s.health ∧ (s.setSyn a v).closing = s.closing ∧
    (s.setSyn a v).agents = s.agents ∧ (s.setSyn a v).homes = s.homes ∧ (s.setSyn a v).net = s.net ∧ (s.setSyn a v).cpus = s.cpus ∧
    (s.setSyn a v).cpuRegs = s.cpuRegs ∧ (s.setSyn a v).stalls = s.stalls ∧ (s.setSyn a v).resvs = s.resvs ∧
    (s.setSyn a v).tlbs = s.tlbs ∧ (s.setSyn a v).nonLeaf = s.nonLeaf ∧ (s.setSyn a v).walks = s.walks ∧
    (s.setSyn a v).walkTurn = s.walkTurn ∧ (s.setSyn a v).tlbWait = s.tlbWait ∧ (s.setSyn a v).opens = s.opens ∧
    (s.setSyn a v).nextId = s.nextId ∧ (s.setSyn a v).ringQ = s.ringQ ∧ (s.setSyn a v).ports = s.ports ∧ (s.setSyn a v).segs = s.segs ∧
    (s.setSyn a v).epochs = s.epochs ∧ (s.setSyn a v).broken = s.broken ∧ (s.setSyn a v).fences = s.fences ∧
    (s.setSyn a v).duty = s.duty ∧ (s.setSyn a v).sels = s.sels ∧ (s.setSyn a v).selPend = s.selPend ∧ (s.setSyn a v).ovfs = s.ovfs ∧
    (s.setSyn a v).trc = s.trc ∧ (s.setSyn a v).bme = s.bme ∧ (s.setSyn a v).qpRates = s.qpRates ∧ (s.setSyn a v).evtMsi = s.evtMsi ∧
    (s.setSyn a v).recovs = s.recovs ∧ (s.setSyn a v).hangBeats = s.hangBeats ∧ (s.setSyn a v).hangRuns = s.hangRuns ∧
    (s.setSyn a v).boot = s.boot ∧ (s.setSyn a v).elec = s.elec ∧ (s.setSyn a v).dlinks = s.dlinks ∧ (s.setSyn a v).diePwr = s.diePwr ∧
    (s.setSyn a v).pwr = s.pwr ∧ (s.setSyn a v).dump = s.dump ∧ (∀ q j, (s.setSyn a v).reg q j = s.reg q j) ∧
    (∀ g j, (s.setSyn a v).fld g j = s.fld g j) ∧ (∀ g j, (s.setSyn a v).flag g j = s.flag g j) ∧ (s.setSyn a v).ft = s.ft := by
  and_intros <;> intros <;> rfl

@[simp] theorem State.emit_frame (o : Out) :
    (s.emit o).pending = s.pending ∧ (s.emit o).freeCtr = s.freeCtr ∧ (s.emit o).time = s.time ∧ (s.emit o).regs = s.regs ∧
    (s.emit o).mem = s.mem ∧ (s.emit o).chk = s.chk ∧ (s.emit o).lost = s.lost ∧ (s.emit o).img = s.img ∧ (s.emit o).circs = s.circs ∧
    (s.emit o).contribs = s.contribs ∧ (s.emit o).retired = s.retired ∧ (s.emit o).queues = s.queues ∧ (s.emit o).entries = s.entries ∧
    (s.emit o).firings = s.firings ∧ (s.emit o).reverts = s.reverts ∧ (s.emit o).ingress = s.ingress ∧ (s.emit o).vec = s.vec ∧
    (s.emit o).vregs = s.vregs ∧ (s.emit o).masks = s.masks ∧ (s.emit o).engines = s.engines ∧ (s.emit o).cells = s.cells ∧
    (s.emit o).ctxs = s.ctxs ∧ (s.emit o).memctl = s.memctl ∧ (s.emit o).ways = s.ways ∧ (s.emit o).wbuf = s.wbuf ∧
    (s.emit o).plru = s.plru ∧ (s.emit o).corrections = s.corrections ∧ (s.emit o).arrivals = s.arrivals ∧ (s.emit o).health = s.health ∧
    (s.emit o).closing = s.closing ∧ (s.emit o).agents = s.agents ∧ (s.emit o).homes = s.homes ∧ (s.emit o).net = s.net ∧
    (s.emit o).cpus = s.cpus ∧ (s.emit o).cpuRegs = s.cpuRegs ∧ (s.emit o).stalls = s.stalls ∧ (s.emit o).resvs = s.resvs ∧
    (s.emit o).tlbs = s.tlbs ∧ (s.emit o).nonLeaf = s.nonLeaf ∧ (s.emit o).walks = s.walks ∧ (s.emit o).walkTurn = s.walkTurn ∧
    (s.emit o).tlbWait = s.tlbWait ∧ (s.emit o).opens = s.opens ∧ (s.emit o).nextId = s.nextId ∧ (s.emit o).ringQ = s.ringQ ∧
    (s.emit o).ports = s.ports ∧ (s.emit o).segs = s.segs ∧ (s.emit o).epochs = s.epochs ∧ (s.emit o).broken = s.broken ∧
    (s.emit o).fences = s.fences ∧ (s.emit o).duty = s.duty ∧ (s.emit o).sels = s.sels ∧ (s.emit o).selPend = s.selPend ∧
    (s.emit o).ovfs = s.ovfs ∧ (s.emit o).trc = s.trc ∧ (s.emit o).bme = s.bme ∧ (s.emit o).qpRates = s.qpRates ∧
    (s.emit o).evtMsi = s.evtMsi ∧ (s.emit o).recovs = s.recovs ∧ (s.emit o).hangBeats = s.hangBeats ∧ (s.emit o).hangRuns = s.hangRuns ∧
    (s.emit o).boot = s.boot ∧ (s.emit o).elec = s.elec ∧ (s.emit o).dlinks = s.dlinks ∧ (s.emit o).diePwr = s.diePwr ∧
    (s.emit o).pwr = s.pwr ∧ (s.emit o).dump = s.dump ∧ (∀ q j, (s.emit o).reg q j = s.reg q j) ∧
    (∀ g j, (s.emit o).fld g j = s.fld g j) ∧ (∀ g j, (s.emit o).flag g j = s.flag g j) ∧ (s.emit o).ft = s.ft := by
  and_intros <;> intros <;> rfl

@[simp] theorem State.setReg_ft (r : Reg) (i : Nat) (w : Word) : (s.setReg r i w).ft = s.ft := rfl
@[simp] theorem State.setFld_ft (f : Field) (i v : Nat) : (s.setFld f i v).ft = s.ft := rfl

end Sys2Proof.Machine
end

