-- ==== Sys2Proof/Laws/Regs.lean ====
section
/-! SUPPORT. Reads of registers and of their fields after a write: the value written, and every other field untouched; and what the
mirrors of a command's answer change. -/

namespace Sys2Proof.Machine

/-! ## Bits -/

theorem testBit_getBits (w lo n k : Nat) : (getBits w lo n).testBit k = (decide (k < n) && w.testBit (k + lo)) := by
  rw [getBits, Nat.testBit_mod_two_pow, Nat.testBit_div_two_pow]

theorem testBit_putBits (w lo n v k : Nat) :
    (putBits w lo n v).testBit k = if k < lo then w.testBit k else if k < lo + n then v.testBit (k - lo) else w.testBit k := by
  have h1 : w % 2 ^ lo < 2 ^ lo := Nat.mod_lt _ (Nat.two_pow_pos _)
  have h2 : v % 2 ^ n * 2 ^ lo + w % 2 ^ lo < 2 ^ (lo + n) := by
    have : v % 2 ^ n < 2 ^ n := Nat.mod_lt _ (Nat.two_pow_pos _)
    calc v % 2 ^ n * 2 ^ lo + w % 2 ^ lo < v % 2 ^ n * 2 ^ lo + 2 ^ lo := by omega
      _ = (v % 2 ^ n + 1) * 2 ^ lo := by rw [Nat.succ_mul]
      _ ≤ 2 ^ n * 2 ^ lo := Nat.mul_le_mul_right _ (by omega)
      _ = 2 ^ (lo + n) := by rw [Nat.pow_add, Nat.mul_comm]
  rw [putBits, Nat.add_assoc, Nat.mul_comm (w / 2 ^ (lo + n)), Nat.testBit_two_pow_mul_add _ h2,
    Nat.mul_comm (v % 2 ^ n), Nat.testBit_two_pow_mul_add _ h1]
  by_cases h : k < lo
  · simp [h, show k < lo + n by omega]
  · by_cases h' : k < lo + n
    · simp [h, h', show k - lo < n by omega]
    · simp [h, h', Nat.testBit_div_two_pow, show k - (lo + n) + (lo + n) = k by omega]

theorem putBits_lt {w lo n v m : Nat} (hw : w < 2 ^ m) (h : lo + n ≤ m) : putBits w lo n v < 2 ^ m := by
  apply Nat.lt_pow_two_of_testBit
  intro k hk
  rw [testBit_putBits]
  have := Nat.testBit_lt_two_pow (Nat.lt_of_lt_of_le hw (Nat.pow_le_pow_right (by omega) hk))
  simp [this, show ¬ k < lo by omega, show ¬ k < lo + n by omega]

theorem getBits_putBits_same (w lo n v : Nat) : getBits (putBits w lo n v) lo n = v % 2 ^ n := by
  apply Nat.eq_of_testBit_eq
  intro k
  rw [testBit_getBits, testBit_putBits, Nat.testBit_mod_two_pow]
  by_cases h : k < n
  · simp [h, show ¬ k + lo < lo by omega, show k + lo < lo + n by omega]
  · simp [h]

theorem getBits_putBits_other (w lo n v lo' n' : Nat) (h : lo + n ≤ lo' ∨ lo' + n' ≤ lo) :
    getBits (putBits w lo n v) lo' n' = getBits w lo' n' := by
  apply Nat.eq_of_testBit_eq
  intro k
  rw [testBit_getBits, testBit_getBits, testBit_putBits]
  by_cases hk : k < n'
  · by_cases h1 : k + lo' < lo
    · simp [hk, h1]
    · simp [hk, h1, show ¬ k + lo' < lo + n by omega]
  · simp [hk]

/-! ## Words of registers -/

theorem Reg.num_inj {r q : Reg} (h : r.num = q.num) : r = q := by
  have : ∀ x, Reg.ofNum (Reg.num x) = x := by intro x; cases x <;> rfl
  rw [← this r, ← this q, h]

theorem regKey_inj {r q : Reg} {i j : Nat} (hi : i < 2 ^ 20) (hj : j < 2 ^ 20) (h : regKey r i = regKey q j) : r = q ∧ i = j := by
  simp only [regKey] at h
  have : r.num = q.num := by omega
  exact ⟨Reg.num_inj this, by omega⟩

variable (s : State)

@[simp] theorem State.reg_setReg_same (r : Reg) (i : Nat) (w : Word) : (s.setReg r i w).reg r i = w := by
  simp [State.reg, State.setReg]

theorem State.reg_setReg_other {r q : Reg} {i j : Nat} (w : Word) (h : r ≠ q ∨ i ≠ j) (hi : i < 2 ^ 20) (hj : j < 2 ^ 20) :
    (s.setReg r i w).reg q j = s.reg q j := by
  have : regKey q j ≠ regKey r i := by
    intro he
    have := regKey_inj hj hi he
    rcases h with h | h
    · exact h this.1.symm
    · exact h this.2.symm
  simp [State.reg, State.setReg, this]

/-! ## Fields -/

theorem State.fld_setFld_same (f : Field) (i v : Nat) (h : f.lo + f.width ≤ 64) : (s.setFld f i v).fld f i = v % 2 ^ f.width := by
  have := putBits_lt (v := v) (s.reg f.reg i).isLt h
  simp only [State.fld, State.setFld, State.reg_setReg_same, BitVec.toNat_ofNat]
  rw [Nat.mod_eq_of_lt this, getBits_putBits_same]

theorem State.fld_setFld_bits (f g : Field) (i v : Nat) (hr : f.reg = g.reg) (h : f.lo + f.width ≤ 64)
    (hd : f.lo + f.width ≤ g.lo ∨ g.lo + g.width ≤ f.lo) : (s.setFld f i v).fld g i = s.fld g i := by
  have := putBits_lt (v := v) (s.reg f.reg i).isLt h
  simp only [State.fld, State.setFld, ← hr, State.reg_setReg_same, BitVec.toNat_ofNat]
  rw [Nat.mod_eq_of_lt this, getBits_putBits_other _ _ _ _ _ _ hd]

theorem State.fld_setFld_reg (f g : Field) (i j v : Nat) (h : f.reg ≠ g.reg ∨ i ≠ j) (hi : i < 2 ^ 20) (hj : j < 2 ^ 20) :
    (s.setFld f i v).fld g j = s.fld g j := by
  simp only [State.fld, State.setFld, State.reg_setReg_other s _ h hi hj]

/-! ## The register store by itself

A state is often written as a record update, whose registers are an explicit store: these rules read fields of a store. -/

/-- A field of a register store. -/
def Regs.fld (l : List (Nat × Word)) (f : Field) (i : Nat) : Nat := getBits (Store.get regDefault l (regKey f.reg i)).toNat f.lo f.width

/-- A register store with a field written. -/
def Regs.set (l : List (Nat × Word)) (f : Field) (i v : Nat) : List (Nat × Word) :=
  Store.set regDefault l (regKey f.reg i) (BitVec.ofNat 64 (putBits (Store.get regDefault l (regKey f.reg i)).toNat f.lo f.width v))

theorem State.fld_regs (f : Field) (i : Nat) : s.fld f i = Regs.fld s.regs f i := rfl
theorem State.setFld_regs (f : Field) (i v : Nat) : (s.setFld f i v).regs = Regs.set s.regs f i v := rfl

theorem Regs.fld_lt (l : List (Nat × Word)) (f : Field) (i : Nat) : Regs.fld l f i < 2 ^ f.width := Nat.mod_lt _ (Nat.two_pow_pos _)

theorem Regs.fld_set_same (l : List (Nat × Word)) (f : Field) (i v : Nat) (h : f.lo + f.width ≤ 64) :
    Regs.fld (Regs.set l f i v) f i = v % 2 ^ f.width := State.fld_setFld_same { State.reset with regs := l } f i v h

theorem Regs.fld_set_bits (l : List (Nat × Word)) (f g : Field) (i v : Nat) (hr : f.reg = g.reg) (h : f.lo + f.width ≤ 64)
    (hd : f.lo + f.width ≤ g.lo ∨ g.lo + g.width ≤ f.lo) : Regs.fld (Regs.set l f i v) g i = Regs.fld l g i :=
  State.fld_setFld_bits { State.reset with regs := l } f g i v hr h hd

theorem Regs.fld_set_reg (l : List (Nat × Word)) (f g : Field) (i j v : Nat) (h : f.reg ≠ g.reg ∨ i ≠ j) (hi : i < 2 ^ 20) (hj : j < 2 ^ 20) :
    Regs.fld (Regs.set l f i v) g j = Regs.fld l g j :=
  State.fld_setFld_reg { State.reset with regs := l } f g i j v h hi hj

end Sys2Proof.Machine
end

