-- ==== Sys2Proof/Laws/Memory.lean ====
section
/-! SUPPORT. Every operation on memory keeps its canonical form; what a read of a byte after a write gives; and the memory of the
state after reset. -/

namespace Sys2Proof.Machine

variable {s : State}

theorem Memory.wf_iff : Memory.wf s = true ↔ Store.wf s.blank s.mem = true ∧ Store.wf s.blankSyn s.chk = true := by
  simp [Memory.wf]

theorem Memory.reset_wf : Memory.wf State.reset = true := rfl

/-- The canonical form depends on the bytes, the check bytes and the losses alone. -/
theorem Memory.wf_congr {t : State} (hm : t.mem = s.mem) (hc : t.chk = s.chk) (hl : t.lost = s.lost) : Memory.wf t = Memory.wf s := by
  have h1 : t.blank = s.blank := by funext a; simp [State.blank, State.lossAt, hl]
  have h2 : t.blankSyn = s.blankSyn := by funext a; simp [State.blankSyn, State.lossAt, hl]
  simp [Memory.wf, hm, hc, h1, h2]

/-! ## Reads after writes -/

@[simp] theorem State.byte_setByte_same (s : State) (a : Nat) (b : Byte) : (s.setByte a b).byte a = b := by
  show Store.get s.blank (Store.set s.blank s.mem a b) a = b
  simp

theorem State.byte_setByte_other (s : State) {a x : Nat} (b : Byte) (h : x ≠ a) : (s.setByte a b).byte x = s.byte x := by
  show Store.get s.blank (Store.set s.blank s.mem a b) x = Store.get s.blank s.mem x
  simp [h]

@[simp] theorem State.syn_setByte (s : State) (a g : Nat) (b : Byte) : (s.setByte a b).syn g = s.syn g := rfl
@[simp] theorem State.byte_setSyn (s : State) (a g : Nat) (v : BitVec 32) : (s.setSyn g v).byte a = s.byte a := rfl

@[simp] theorem State.syn_setSyn_same (s : State) (g : Nat) (v : BitVec 32) : (s.setSyn g v).syn g = v := by
  show Store.get s.blankSyn (Store.set s.blankSyn s.chk g v) g = v
  simp

theorem State.byte_setBytes_other (b : List Byte) : ∀ (s : State) (a x : Nat), (x < a ∨ a + b.length ≤ x) → (s.setBytes a b).byte x = s.byte x := by
  induction b with
  | nil => intro s a x _; rfl
  | cons v rest ih =>
    intro s a x h
    simp only [List.length_cons] at h
    rw [State.setBytes, ih _ _ _ (by omega), State.byte_setByte_other _ _ (by omega)]

/-- The bytes written are read back. -/
theorem State.byte_setBytes_at (b : List Byte) : ∀ (s : State) (a i : Nat) (h : i < b.length), (s.setBytes a b).byte (a + i) = b[i] := by
  induction b with
  | nil => intro s a i h; exact absurd h (Nat.not_lt_zero _)
  | cons v rest ih =>
    intro s a i h
    rw [State.setBytes]
    cases i with
    | zero => rw [State.byte_setBytes_other _ _ _ _ (by omega)]; simp
    | succ i =>
      have := ih (s.setByte a v) (a + 1) i (by simpa using h)
      rw [show a + (i + 1) = a + 1 + i by omega, this]; rfl

/-! ## The canonical form -/

theorem Memory.wf_setByte (h : Memory.wf s = true) (a : Nat) (b : Byte) : Memory.wf (s.setByte a b) = true := by
  rw [Memory.wf_iff] at *
  exact ⟨Store.wf_set h.1, h.2⟩

theorem Memory.wf_setSyn (h : Memory.wf s = true) (g : Nat) (v : BitVec 32) : Memory.wf (s.setSyn g v) = true := by
  rw [Memory.wf_iff] at *
  exact ⟨h.1, Store.wf_set h.2⟩

theorem Memory.wf_setBytes (b : List Byte) : ∀ (s : State) (_ : Memory.wf s = true) (a : Nat), Memory.wf (s.setBytes a b) = true := by
  induction b with
  | nil => intro s h a; exact h
  | cons v rest ih => intro s h a; exact ih _ (Memory.wf_setByte h a v) _

theorem Store.above_filter {α : Type} {k : Nat} {l : List (Nat × α)} (p : Nat × α → Bool) (h : Store.above k l = true) :
    Store.above k (l.filter p) = true := by
  simp only [Store.above, List.all_eq_true, List.mem_filter] at *
  exact fun e he => h e he.1

/-- A filter by key keeps the canonical form where the defaults of the keys that stay are the same. -/
theorem Store.wf_filter {α : Type} [DecidableEq α] {d d' : Nat → α} {l : List (Nat × α)} (p : Nat → Bool)
    (hd : ∀ k, p k = true → d' k = d k) (h : Store.wf d l = true) : Store.wf d' (l.filter (fun x => p x.1)) = true := by
  induction l with
  | nil => rfl
  | cons e rest ih =>
    obtain ⟨k, v⟩ := e
    rw [Store.wf_cons] at h
    by_cases hp : p k = true
    · rw [List.filter_cons_of_pos (by simpa using hp), Store.wf_cons]
      exact ⟨Store.above_filter _ h.1, by rw [hd k hp]; exact h.2.1, ih h.2.2⟩
    · rw [List.filter_cons_of_neg (by simpa using hp)]; exact ih h.2.2

theorem Memory.wf_lose (h : Memory.wf s = true) (lo hi : Nat) : Memory.wf (s.lose lo hi) = true := by
  rw [Memory.wf_iff] at *
  have key : ∀ k, (!(decide (lo ≤ k) && decide (k < hi))) = true → (s.lose lo hi).lossAt k = s.lossAt k := by
    intro k hk
    have hk' : (decide (lo ≤ k) && decide (k < hi)) = false := by
      cases hb : (decide (lo ≤ k) && decide (k < hi)) with
      | false => rfl
      | true => simp [hb] at hk
    simp only [State.lossAt, State.lose, List.find?_cons, hk']
  constructor
  · exact Store.wf_filter (fun k => !(decide (lo ≤ k) && decide (k < hi))) (fun k hk => by simp only [State.blank, key k hk]) h.1
  · exact Store.wf_filter (fun k => !(decide (lo ≤ k) && decide (k < hi))) (fun k hk => by simp only [State.blankSyn, key k hk]) h.2

theorem Memory.wf_of_kept {t : State} (h : Memory.wf s = true) (hm : t.mem = s.mem ∧ t.chk = s.chk ∧ t.lost = s.lost) :
    Memory.wf t = true := by rw [Memory.wf_congr hm.1 hm.2.1 hm.2.2]; exact h

/-! ## Reads and writes with error codes (R224 to R227) -/

/-- Memory, check bytes and losses stand as they stood. -/
def MemSame (s t : State) : Prop := t.mem = s.mem ∧ t.chk = s.chk ∧ t.lost = s.lost

theorem MemSame.refl (s : State) : MemSame s s := ⟨rfl, rfl, rfl⟩
theorem MemSame.trans {s t u : State} (h : MemSame s t) (k : MemSame t u) : MemSame s u :=
  ⟨k.1.trans h.1, k.2.1.trans h.2.1, k.2.2.trans h.2.2⟩

/-- Whatever leaves memory alone keeps its form. -/
theorem MemSame.wf {t : State} (h : MemSame s t) (hs : Memory.wf s = true) : Memory.wf t = true := by
  rw [Memory.wf_congr h.1 h.2.1 h.2.2]; exact hs

theorem MemSame.byte {t : State} (h : MemSame s t) (a : Nat) : t.byte a = s.byte a := by
  have : t.blank = s.blank := by funext a; simp [State.blank, State.lossAt, h.2.2]
  simp [State.byte, h.1, this]

theorem MemSame.syn {t : State} (h : MemSame s t) (g : Nat) : t.syn g = s.syn g := by
  have : t.blankSyn = s.blankSyn := by funext a; simp [State.blankSyn, State.lossAt, h.2.2]
  simp [State.syn, h.2.1, this]

/-- Every byte and every check byte reads as before. -/
theorem MemSame.kept {t : State} (h : MemSame s t) : MemoryKept s t := ⟨h.byte, h.syn⟩

theorem MemSame.foldl {α : Type} (f : State → α → State) (hf : ∀ s x, MemSame s (f s x)) (l : List α) :
    ∀ s : State, MemSame s (l.foldl f s) := by
  induction l with
  | nil => exact fun s => MemSame.refl s
  | cons x rest ih => exact fun s => (hf s x).trans (ih _)

theorem MemSame.setReg (s : State) (r : Reg) (i : Nat) (w : Word) : MemSame s (s.setReg r i w) := ⟨rfl, rfl, rfl⟩
theorem MemSame.setFld (s : State) (f : Field) (i v : Nat) : MemSame s (s.setFld f i v) := ⟨rfl, rfl, rfl⟩
theorem MemSame.raise (s : State) (f : Field) (i : Nat) : MemSame s (s.raise f i) := ⟨rfl, rfl, rfl⟩
theorem MemSame.bump (s : State) (f : Field) (i n : Nat) : MemSame s (s.bump f i n) := ⟨rfl, rfl, rfl⟩

theorem MemSame.ovfs {t : State} (h : MemSame s t) (o : List (Nat × (Nat × Nat))) : MemSame s { t with ovfs := o } := ⟨h.1, h.2.1, h.2.2⟩

theorem MemSame.count1 (s : State) (kind unit i key inst : Nat) (vf ovf : Field) (code n : Nat) :
    MemSame s (s.count1 kind unit i key inst vf ovf code n) := by
  unfold State.count1
  dsimp only
  split
  · split
    · split
      · exact MemSame.ovfs ((MemSame.setFld ..).trans (MemSame.setFld ..)) _
      · exact (MemSame.setFld ..).trans (MemSame.setFld ..)
    · exact MemSame.setFld ..
  · exact MemSame.refl s

theorem MemSame.countHub (s : State) (base q n : Nat) : MemSame s (s.countHub base q n) :=
  MemSame.foldl _ (fun _ _ => MemSame.count1 ..) _ s

theorem MemSame.traceUpdate (s : State) : MemSame s s.traceUpdate := ⟨rfl, rfl, rfl⟩

theorem MemSame.packet (s : State) (k : Nat) (p : TracePkt) : MemSame s (s.packet k p) := by
  unfold State.packet
  split
  · split
    · exact (MemSame.bump ..).trans (MemSame.countHub ..)
    · exact ((MemSame.countHub s 0x0B 0 1).trans ⟨rfl, rfl, rfl⟩).trans (MemSame.traceUpdate _)
  · exact MemSame.refl s

theorem MemSame.errCount (s : State) (f : Field) (c : Nat) : MemSame s (s.errCount f c) := by
  unfold State.errCount
  dsimp only
  split
  · exact (MemSame.bump ..).trans (MemSame.raise ..)
  · exact MemSame.bump ..

theorem MemSame.noteCorrected (s : State) (g : Nat) : MemSame s (s.noteCorrected g) := by
  unfold State.noteCorrected
  split
  · exact MemSame.bump ..
  · split
    · exact MemSame.errCount ..
    · exact MemSame.refl s

theorem MemSame.notePoisonRead (s : State) (g : Nat) : MemSame s (s.notePoisonRead g) := by
  unfold State.notePoisonRead
  split
  · exact MemSame.bump ..
  · split
    · exact MemSame.errCount ..
    · exact MemSame.refl s

theorem MemSame.noteBad (s : State) (g : Nat) (src : ErrSource) : MemSame s (s.noteBad g src) := by
  unfold State.noteBad
  split
  · dsimp only
    split
    · exact MemSame.bump ..
    · exact (((((MemSame.bump ..).trans (MemSame.setFld ..)).trans (MemSame.setFld ..)).trans (MemSame.raise ..)).trans
        (MemSame.setFld ..)).trans (MemSame.raise ..)
  · split
    · dsimp only
      split
      · exact (MemSame.errCount ..).trans (MemSame.packet ..)
      · exact (((((((MemSame.errCount ..).trans (MemSame.packet ..)).trans (MemSame.setFld ..)).trans (MemSame.setFld ..)).trans
          (MemSame.setFld ..)).trans (MemSame.raise ..)).trans (MemSame.setFld ..)).trans (MemSame.raise ..)
    · exact MemSame.refl s

theorem Memory.wf_correctGranule (h : Memory.wf s = true) (g : Nat) : Memory.wf (s.correctGranule g) = true := by
  unfold State.correctGranule
  split
  · dsimp only
    split
    · exact Memory.wf_setByte (Memory.wf_setSyn h ..) ..
    · exact Memory.wf_setSyn h ..
  · exact h

theorem Memory.wf_queueCorrection (h : Memory.wf s = true) (g : Nat) : Memory.wf (s.queueCorrection g) = true := by
  unfold State.queueCorrection
  split
  · exact Memory.wf_correctGranule h g
  · split
    · exact h
    · exact Memory.wf_of_kept h ⟨rfl, rfl, rfl⟩

theorem Memory.wf_readGranule (h : Memory.wf s = true) (g : Nat) (src : ErrSource) : Memory.wf (s.readGranule g src).1 = true := by
  unfold State.readGranule
  dsimp only
  split
  · exact h
  · split
    · split
      · exact (MemSame.noteBad ..).wf (Memory.wf_setSyn h ..)
      · split
        · exact h
        · exact (MemSame.notePoisonRead ..).wf h
    · split
      · exact h
      · exact (MemSame.notePoisonRead ..).wf h
      · exact (MemSame.noteCorrected ..).wf (Memory.wf_queueCorrection h g)
      · exact (MemSame.noteBad ..).wf (Memory.wf_setSyn h ..)

theorem Memory.wf_readGranules (src : ErrSource) (n : Nat) :
    ∀ (s : State) (_ : Memory.wf s = true) (g : Nat), Memory.wf (s.readGranules g src n).1 = true := by
  induction n with
  | zero => intro s h g; exact h
  | succ n ih => intro s h g; exact ih _ (Memory.wf_readGranule h g src) _

theorem Memory.wf_readMem (h : Memory.wf s = true) (a n : Nat) (src : ErrSource) : Memory.wf (s.readMem a n src).1 = true :=
  Memory.wf_readGranules src _ s h _

theorem Memory.wf_poisonGranule (h : Memory.wf s = true) (g : Nat) : Memory.wf (s.poisonGranule g) = true := by
  unfold State.poisonGranule
  split
  · exact Memory.wf_setSyn h ..
  · exact h

theorem Memory.wf_writeWordA (h : Memory.wf s = true) (a : Nat) (b : List Byte) : Memory.wf (s.writeWordA a b).1 = true := by
  unfold State.writeWordA
  dsimp only
  split
  · exact Memory.wf_setSyn (Memory.wf_setBytes b s h a) ..
  · split
    · exact Memory.wf_setBytes b s h a
    · split
      · exact (MemSame.notePoisonRead ..).wf h
      · exact (MemSame.noteBad ..).wf (Memory.wf_setSyn h ..)

theorem Memory.wf_writeA (n : Nat) :
    ∀ (s : State) (_ : Memory.wf s = true) (a : Nat) (b : List Byte), Memory.wf (s.writeA a b n).1 = true := by
  induction n with
  | zero => intro s h a b; exact h
  | succ n ih =>
    intro s h a b
    unfold State.writeA
    split
    · exact h
    · exact ih _ (Memory.wf_writeWordA h _ _) _ _

theorem Memory.wf_writeGranule (h : Memory.wf s = true) (a : Nat) (b : List Byte) : Memory.wf (s.writeGranule a b).1 = true := by
  unfold State.writeGranule
  dsimp only
  split
  · exact Memory.wf_setBytes b s h a
  · split
    · exact Memory.wf_setSyn (Memory.wf_setBytes b s h a) ..
    · split
      · exact Memory.wf_writeA 5 s h a b
      · split
        · exact Memory.wf_readGranule h _ _
        · exact Memory.wf_setSyn (Memory.wf_setBytes b _ (Memory.wf_correctGranule (Memory.wf_readGranule h _ _) _) a) ..

theorem Memory.wf_writeGranules (n : Nat) :
    ∀ (s : State) (_ : Memory.wf s = true) (a : Nat) (b : List Byte), Memory.wf (s.writeGranules a b n).1 = true := by
  induction n with
  | zero => intro s h a b; exact h
  | succ n ih =>
    intro s h a b
    unfold State.writeGranules
    split
    · exact h
    · exact ih _ (Memory.wf_writeGranule h _ _) _ _

theorem Memory.wf_writeMem (h : Memory.wf s = true) (a : Nat) (b : List Byte) : Memory.wf (s.writeMem a b).1 = true :=
  Memory.wf_writeGranules _ s h a b

/-! ## Losses and zeroed ranges (R77, R447) -/

theorem minusRange_covers (r cut : Nat × Nat) {k : Nat} (hk : ¬ (cut.1 ≤ k ∧ k < cut.2)) :
    (minusRange r cut).any (fun x => decide (x.1 ≤ k) && decide (k < x.2)) = (decide (r.1 ≤ k) && decide (k < r.2)) := by
  apply Bool.eq_iff_iff.mpr
  simp only [minusRange, List.any_eq_true, List.mem_filter, Bool.and_eq_true, decide_eq_true_eq]
  constructor
  · rintro ⟨x, ⟨hx, _⟩, h1, h2⟩
    simp only [List.mem_cons, List.not_mem_nil, or_false] at hx
    rcases hx with rfl | rfl <;> simp only at h1 h2 <;> omega
  · rintro ⟨h1, h2⟩
    by_cases h : k < cut.1
    · exact ⟨(r.1, min r.2 cut.1), ⟨by simp, by simp only; omega⟩, by simp only; omega, by simp only; omega⟩
    · exact ⟨(max r.1 cut.2, r.2), ⟨by simp, by simp only; omega⟩, by simp only; omega, by simp only; omega⟩

/-- Outside a zeroed range the losses are as they were. -/
theorem lossAt_minus (lo hi k : Nat) (hk : ¬ (lo ≤ k ∧ k < hi)) (l : List (Nat × Nat × Nat)) :
    (((l.map (fun r => (minusRange (r.1, r.2.1) (lo, hi)).map (fun x => (x.1, x.2, r.2.2)))).flatten.find?
      (fun r => decide (r.1 ≤ k) && decide (k < r.2.1))).map (fun r => r.2.2)) =
    ((l.find? (fun r => decide (r.1 ≤ k) && decide (k < r.2.1))).map (fun r => r.2.2)) := by
  induction l with
  | nil => rfl
  | cons r rest ih =>
    rw [List.map_cons, List.flatten_cons, List.find?_append, List.find?_cons]
    have hc := minusRange_covers (r.1, r.2.1) (lo, hi) hk
    rw [List.find?_map]
    cases hr : (decide (r.1 ≤ k) && decide (k < r.2.1)) with
    | true =>
      simp only [hr] at hc
      rw [List.any_eq_true] at hc
      obtain ⟨x, hx, hp⟩ := hc
      have : ((minusRange (r.1, r.2.1) (lo, hi)).find? ((fun r : Nat × Nat × Nat => decide (r.1 ≤ k) && decide (k < r.2.1)) ∘
          fun x => (x.1, x.2, r.2.2))).isSome := List.find?_isSome.mpr ⟨x, hx, hp⟩
      obtain ⟨y, hy⟩ := Option.isSome_iff_exists.mp this
      rw [hy]; rfl
    | false =>
      simp only [hr] at hc
      have : (minusRange (r.1, r.2.1) (lo, hi)).find? ((fun r : Nat × Nat × Nat => decide (r.1 ≤ k) && decide (k < r.2.1)) ∘
          fun x => (x.1, x.2, r.2.2)) = none := by
        rw [List.find?_eq_none]
        intro x hx hp
        have : (minusRange (r.1, r.2.1) (lo, hi)).any (fun x => decide (x.1 ≤ k) && decide (k < x.2)) = true :=
          List.any_eq_true.mpr ⟨x, hx, hp⟩
        rw [hc] at this
        exact absurd this (by decide)
      rw [this]
      exact ih

theorem State.blank_of_loss {s t : State} {k : Nat} (h : (t.lossAt k).map (fun r => r.2.2) = (s.lossAt k).map (fun r => r.2.2)) :
    t.blank k = s.blank k ∧ t.blankSyn k = s.blankSyn k := by
  simp only [State.blank, State.blankSyn]
  cases ht : t.lossAt k <;> cases hs : s.lossAt k <;> simp_all

theorem Memory.wf_zeroRange (h : Memory.wf s = true) (lo hi : Nat) : Memory.wf (s.zeroRange lo hi) = true := by
  rw [Memory.wf_iff] at *
  have key : ∀ k, (!(decide (lo ≤ k) && decide (k < hi))) = true →
      (s.zeroRange lo hi).blank k = s.blank k ∧ (s.zeroRange lo hi).blankSyn k = s.blankSyn k := by
    intro k hk
    refine State.blank_of_loss (lossAt_minus lo hi k ?_ s.lost)
    intro hin
    simp [hin.1, hin.2] at hk
  exact ⟨Store.wf_filter (fun k => !(decide (lo ≤ k) && decide (k < hi))) (fun k hk => (key k hk).1) h.1,
    Store.wf_filter (fun k => !(decide (lo ≤ k) && decide (k < hi))) (fun k hk => (key k hk).2) h.2⟩

theorem MemSame.testWays (s t : State) : MemSame t (s.testWays t) := by
  refine MemSame.foldl _ (fun t i => ?_) _ t
  dsimp only
  split
  · exact MemSame.refl t
  · exact ⟨rfl, rfl, rfl⟩

theorem MemSame.restartNotes (s t : State) (reason : Nat) : MemSame t (s.restartNotes t reason) := by
  unfold State.restartNotes
  dsimp only
  split <;> split <;> (repeat refine MemSame.trans ?_ (MemSame.setFld ..)) <;> exact MemSame.refl t

theorem MemSame.keepCounts (s : State) (l : List Nat) (t : State) : MemSame t (l.foldl (fun t i => s.keepCounts t i) t) :=
  MemSame.foldl _ (fun _ _ => (MemSame.setFld ..).trans (MemSame.setFld ..)) l t

theorem Memory.wf_lostRanges (l : List (Nat × Nat)) :
    ∀ (t : State) (_ : Memory.wf t = true), Memory.wf (l.foldl (fun t r => t.lose r.1 r.2) t) = true := by
  induction l with
  | nil => exact fun t ht => ht
  | cons r rest ih => exact fun t ht => ih _ (Memory.wf_lose ht _ _)

/-- A start keeps the canonical form (R447). -/
theorem Memory.wf_restart (h : Memory.wf s = true) (reason : Nat) (cold : Bool) : Memory.wf (s.restart reason cold) = true := by
  have base : Memory.wf (s.resetDies cold) = true := Memory.wf_of_kept h ⟨rfl, rfl, rfl⟩
  have lost := (MemSame.keepCounts s (List.range 96) _).wf (Memory.wf_lostRanges s.lostRanges _ base)
  unfold State.restart
  dsimp only
  split
  · exact (MemSame.restartNotes ..).wf lost
  · exact (MemSame.restartNotes ..).wf ((MemSame.testWays ..).wf lost)

end Sys2Proof.Machine
end

