-- ==== Sys2Proof/Laws/Gate.lean ====
section
/-! SUPPORT. A register write at a fixed place either acts, or changes nothing but the record of an isolation error. -/

namespace Sys2Proof.Machine

theorem State.gated_accepted {s : State} {rq : Requester} {r : Reg} {i : Nat} (act : State → State) (h : s.acceptsWrite rq r i = true) :
    s.gated rq r i act = act s := by
  simp only [State.acceptsWrite, Bool.and_eq_true, Bool.not_eq_true'] at h
  obtain ⟨⟨h1, h2⟩, h3⟩ := h
  have : (blockAt (Reg.offset r i)).isNone = false := by
    cases hb : blockAt (Reg.offset r i) <;> simp_all
  simp [State.gated, State.judgeReg, this, h2, h3]

/-- A write that a block does not take changes nothing, or records an isolation error. -/
theorem State.gated_refused {s : State} {rq : Requester} {r : Reg} {i : Nat} (act : State → State) (h : s.acceptsWrite rq r i = false) :
    s.gated rq r i act = s ∨ s.gated rq r i act = s.isolation rq 2 (regBase + Reg.offset r i) := by
  unfold State.gated State.judgeReg
  by_cases h1 : (blockAt (Reg.offset r i)).isNone = true
  · simp [h1]
  · by_cases h2 : s.regGranted rq (Reg.offset r i) true = true
    · by_cases h3 : s.regFenced (Reg.offset r i) = true
      · simp [h1, h2, h3]
      · exfalso
        have : (blockAt (Reg.offset r i)).isSome = true := by cases hb : blockAt (Reg.offset r i) <;> simp_all
        simp [State.acceptsWrite, this, h2, h3] at h
    · simp [h1, h2]

end Sys2Proof.Machine
end

