-- ==== Sys2Proof/Laws/Mirror.lean ====
section
/-! SUPPORT. What the mirrors of a command's answer change: HUB_CTX_STATUS.STATE of each context and TRC_STATUS.OCCUPANCY, and nothing
else; and that they then show what the state holds. -/

namespace Sys2Proof.Machine

variable (s : State)

/-! ## Everything but the registers -/

theorem State.showCtxs_regs (l : List Nat) : ∀ s : State, l.foldl State.showCtx s = { s with regs := (l.foldl State.showCtx s).regs } := by
  induction l with
  | nil => intro s; rfl
  | cons c rest ih => intro s; rw [List.foldl_cons, ih]; rfl

/-- The mirrors change registers only. -/
theorem State.mirror_regs : s.mirror = { s with regs := s.mirror.regs } := by
  unfold State.mirror
  rw [State.showCtxs_regs]; rfl

@[simp] theorem State.mirror_frame :
    s.mirror.pending = s.pending ∧ s.mirror.out = s.out ∧ s.mirror.freeCtr = s.freeCtr ∧ s.mirror.time = s.time ∧ s.mirror.mem = s.mem ∧
    s.mirror.chk = s.chk ∧ s.mirror.lost = s.lost ∧ s.mirror.img = s.img ∧ s.mirror.circs = s.circs ∧ s.mirror.contribs = s.contribs ∧
    s.mirror.retired = s.retired ∧ s.mirror.queues = s.queues ∧ s.mirror.entries = s.entries ∧ s.mirror.firings = s.firings ∧
    s.mirror.reverts = s.reverts ∧ s.mirror.ingress = s.ingress ∧ s.mirror.vec = s.vec ∧ s.mirror.vregs = s.vregs ∧
    s.mirror.masks = s.masks ∧ s.mirror.engines = s.engines ∧ s.mirror.cells = s.cells ∧ s.mirror.ctxs = s.ctxs ∧
    s.mirror.memctl = s.memctl ∧ s.mirror.ways = s.ways ∧ s.mirror.wbuf = s.wbuf ∧ s.mirror.plru = s.plru ∧
    s.mirror.corrections = s.corrections ∧ s.mirror.arrivals = s.arrivals ∧ s.mirror.health = s.health ∧ s.mirror.closing = s.closing ∧
    s.mirror.agents = s.agents ∧ s.mirror.homes = s.homes ∧ s.mirror.net = s.net ∧ s.mirror.cpus = s.cpus ∧
    s.mirror.cpuRegs = s.cpuRegs ∧ s.mirror.stalls = s.stalls ∧ s.mirror.resvs = s.resvs ∧ s.mirror.tlbs = s.tlbs ∧
    s.mirror.nonLeaf = s.nonLeaf ∧ s.mirror.walks = s.walks ∧ s.mirror.walkTurn = s.walkTurn ∧ s.mirror.tlbWait = s.tlbWait ∧
    s.mirror.opens = s.opens ∧ s.mirror.nextId = s.nextId ∧ s.mirror.ringQ = s.ringQ ∧ s.mirror.ports = s.ports ∧
    s.mirror.segs = s.segs ∧ s.mirror.epochs = s.epochs ∧ s.mirror.broken = s.broken ∧ s.mirror.fences = s.fences ∧
    s.mirror.duty = s.duty ∧ s.mirror.sels = s.sels ∧ s.mirror.selPend = s.selPend ∧ s.mirror.ovfs = s.ovfs ∧ s.mirror.trc = s.trc ∧
    s.mirror.bme = s.bme ∧ s.mirror.qpRates = s.qpRates ∧ s.mirror.evtMsi = s.evtMsi ∧ s.mirror.recovs = s.recovs ∧
    s.mirror.hangBeats = s.hangBeats ∧ s.mirror.hangRuns = s.hangRuns ∧ s.mirror.boot = s.boot ∧ s.mirror.elec = s.elec ∧
    s.mirror.dlinks = s.dlinks ∧ s.mirror.diePwr = s.diePwr ∧ s.mirror.pwr = s.pwr ∧ s.mirror.dump = s.dump ∧ s.mirror.ft = s.ft := by
  rw [State.mirror_regs]; and_intros <;> rfl

/-! ## Registers -/

theorem State.showCtxs_reg {q : Reg} (j : Nat) (hq : q ≠ .HUB_CTX_STATUS) (hj : j < 2 ^ 20) (l : List Nat) :
    ∀ s : State, (∀ c ∈ l, c < 256) → (l.foldl State.showCtx s).reg q j = s.reg q j := by
  induction l with
  | nil => intro s _; rfl
  | cons c rest ih =>
    intro s h
    rw [List.foldl_cons, ih _ (fun x hx => h x (List.mem_cons_of_mem _ hx))]
    have := h c (List.mem_cons_self ..)
    exact State.reg_setReg_other s _ (Or.inl (Ne.symm hq)) (by omega) hj

theorem State.shownCtxs_lt {c : Nat} (h : c ∈ s.shownCtxs) : c < 256 := by
  simp only [State.shownCtxs, List.mem_filter, decide_eq_true_eq] at h; exact h.2

/-- The mirrors leave every register but HUB_CTX_STATUS and TRC_STATUS alone. -/
theorem State.mirror_reg {q : Reg} {j : Nat} (hq : q ≠ .HUB_CTX_STATUS) (ht : q ≠ .TRC_STATUS) (hj : j < 2 ^ 20) :
    s.mirror.reg q j = s.reg q j := by
  unfold State.mirror
  rw [State.showCtxs_reg j hq hj _ _ (fun _ => State.shownCtxs_lt _)]
  exact State.reg_setReg_other s _ (Or.inl (Ne.symm ht)) (by omega) hj

theorem State.showCtxs_fld {g : Field} (j : Nat) (hj : j < 2 ^ 20) (l : List Nat)
    (hd : g.reg ≠ .HUB_CTX_STATUS ∨ Fld.HUB_CTX_STATUS_STATE.lo + Fld.HUB_CTX_STATUS_STATE.width ≤ g.lo ∨
      g.lo + g.width ≤ Fld.HUB_CTX_STATUS_STATE.lo) :
    ∀ s : State, (∀ c ∈ l, c < 256) → (l.foldl State.showCtx s).fld g j = s.fld g j := by
  induction l with
  | nil => intro s _; rfl
  | cons c rest ih =>
    intro s h
    rw [List.foldl_cons, ih _ (fun x hx => h x (List.mem_cons_of_mem _ hx))]
    have := h c (List.mem_cons_self ..)
    by_cases hr : Reg.HUB_CTX_STATUS = g.reg ∧ c = j
    · obtain ⟨hr, rfl⟩ := hr
      exact State.fld_setFld_bits s _ _ _ _ hr (by decide) (by rcases hd with hd | hd; exact absurd hr.symm hd; exact hd)
    · exact State.fld_setFld_reg s _ _ _ _ _ (by
        by_cases h1 : Reg.HUB_CTX_STATUS = g.reg
        · exact Or.inr (fun h2 => hr ⟨h1, h2⟩)
        · exact Or.inl h1) (by omega) hj

/-- The mirrors leave every field but the two alone. -/
theorem State.mirror_fld (g : Field) (j : Nat) (hj : j < 2 ^ 20)
    (hd : g.reg ≠ .HUB_CTX_STATUS ∨ Fld.HUB_CTX_STATUS_STATE.lo + Fld.HUB_CTX_STATUS_STATE.width ≤ g.lo ∨
      g.lo + g.width ≤ Fld.HUB_CTX_STATUS_STATE.lo)
    (ht : g.reg ≠ .TRC_STATUS ∨ Fld.TRC_STATUS_OCCUPANCY.lo + Fld.TRC_STATUS_OCCUPANCY.width ≤ g.lo ∨
      g.lo + g.width ≤ Fld.TRC_STATUS_OCCUPANCY.lo) : s.mirror.fld g j = s.fld g j := by
  unfold State.mirror
  rw [State.showCtxs_fld j hj _ hd _ (fun _ => State.shownCtxs_lt _)]
  by_cases hr : Reg.TRC_STATUS = g.reg ∧ 0 = j
  · obtain ⟨hr, rfl⟩ := hr
    exact State.fld_setFld_bits s _ _ _ _ hr (by decide) (by rcases ht with ht | ht; exact absurd hr.symm ht; exact ht)
  · exact State.fld_setFld_reg s _ _ _ _ _ (by
      by_cases h1 : Reg.TRC_STATUS = g.reg
      · exact Or.inr (fun h2 => hr ⟨h1, h2⟩)
      · exact Or.inl h1) (by omega) hj

/-! ## What they show -/

theorem CtxState.code_lt (x : CtxState) : x.code < 8 := by cases x <;> decide

theorem State.showCtxs_state (c : Nat) (hc : c < 256) (l : List Nat) :
    ∀ s : State, (∀ x ∈ l, x < 256) → (c ∈ l ∨ s.fld Fld.HUB_CTX_STATUS_STATE c = (s.ctx c).st.code) →
      (l.foldl State.showCtx s).fld Fld.HUB_CTX_STATUS_STATE c = (s.ctx c).st.code := by
  induction l with
  | nil => intro s _ h; rcases h with h | h; exact absurd h (List.not_mem_nil); exact h
  | cons x rest ih =>
    intro s h hs
    rw [List.foldl_cons]
    have hx := h x (List.mem_cons_self ..)
    refine (ih (s.showCtx x) (fun y hy => h y (List.mem_cons_of_mem _ hy)) ?_).trans rfl
    by_cases he : x = c
    · subst he
      right
      have hw : (s.ctx x).st.code % 2 ^ Fld.HUB_CTX_STATUS_STATE.width = (s.ctx x).st.code :=
        Nat.mod_eq_of_lt (Nat.lt_of_lt_of_le (CtxState.code_lt _) (by decide))
      exact (State.fld_setFld_same s _ _ _ (by decide)).trans hw
    · rcases hs with hs | hs
      · left; rcases List.mem_cons.mp hs with h1 | h1
        · exact absurd h1.symm he
        · exact h1
      · right
        exact (State.fld_setFld_reg s _ _ _ _ _ (Or.inr he) (by omega) (by omega)).trans hs

theorem Store.get_of_unlisted {α : Type} {d : Nat → α} {l : List (Nat × α)} {k : Nat} (h : ∀ e ∈ l, e.1 ≠ k) : Store.get d l k = d k := by
  induction l with
  | nil => rfl
  | cons e rest ih =>
    obtain ⟨j, v⟩ := e
    simp only [Store.get, if_neg (h (j, v) (List.mem_cons_self ..))]
    exact ih (fun x hx => h x (List.mem_cons_of_mem _ hx))

/-- HUB_CTX_STATUS.STATE of every context shows its state after a command. -/
theorem State.mirror_ctx_state (c : Nat) (hc : c < 256) : s.mirror.fld Fld.HUB_CTX_STATUS_STATE c = (s.ctx c).st.code := by
  unfold State.mirror
  generalize hu : s.setFld Fld.TRC_STATUS_OCCUPANCY 0 s.trc.units = u
  have hctx : u.ctx c = s.ctx c := by rw [← hu]; rfl
  rw [← hctx]
  refine State.showCtxs_state c hc _ _ (fun _ => State.shownCtxs_lt _) ?_
  by_cases hm : c ∈ u.shownCtxs
  · exact Or.inl hm
  · right
    have h1 : ∀ e ∈ u.ctxs, e.1 ≠ c := by
      intro e he hce
      apply hm
      simp only [State.shownCtxs, List.mem_filter, List.mem_append, List.mem_map, decide_eq_true_eq]
      exact ⟨Or.inl ⟨e, he, hce⟩, hc⟩
    have h2 : ∀ e ∈ u.regs, e.1 ≠ regKey .HUB_CTX_STATUS c := by
      intro e he hce
      apply hm
      simp only [State.shownCtxs, List.mem_filter, List.mem_append, List.mem_map, decide_eq_true_eq, beq_iff_eq]
      refine ⟨Or.inr ⟨e, ⟨he, ?_⟩, ?_⟩, hc⟩
      · rw [hce, regKey]; omega
      · rw [hce, regKey]; omega
    have e1 : u.ctx c = Ctx.init := Store.get_of_unlisted h1
    have e2 : u.reg .HUB_CTX_STATUS c = regDefault (regKey .HUB_CTX_STATUS c) := Store.get_of_unlisted h2
    have e3 : regKey .HUB_CTX_STATUS c / 2 ^ 20 = Reg.HUB_CTX_STATUS.num := by rw [regKey]; omega
    rw [State.fld, show Fld.HUB_CTX_STATUS_STATE.reg = Reg.HUB_CTX_STATUS from rfl, e1, e2, regDefault, e3,
      show Reg.ofNum Reg.HUB_CTX_STATUS.num = .HUB_CTX_STATUS from by decide]
    simp only [Reg.resetWord]
    decide

/-- TRC_STATUS.OCCUPANCY shows the buffer's occupancy after a command. -/
theorem State.mirror_occupancy : s.mirror.fld Fld.TRC_STATUS_OCCUPANCY 0 = s.trc.units % 2 ^ Fld.TRC_STATUS_OCCUPANCY.width := by
  unfold State.mirror
  rw [State.showCtxs_fld 0 (by decide) _ (Or.inl (by decide)) _ (fun _ => State.shownCtxs_lt _)]
  exact State.fld_setFld_same s _ _ _ (by decide)

end Sys2Proof.Machine
end

