-- ==== Sys2Proof/Laws/Step.lean ====
section
/-! SUPPORT. What every command answers: a next state, with the status fields brought up to date. -/

namespace Sys2Proof.Machine

/-- Every command answers a next state whose mirrored fields are up to date. -/
theorem exec_answers (c : Instr) (s : State) : ∃ u, exec c s = .next (State.mirror u) := by
  cases c <;> exact ⟨_, rfl⟩

end Sys2Proof.Machine
end

