-- ==== Sys2Proof/WellFormed.lean ====
section
/-! DEFINITION. Well-formed commands: every operand lies in the range that the spec gives the unit, field or value it names. exec is total
and does not need it; what lies outside finds no unit and changes nothing, or is cut to its field's width. -/

namespace Sys2Proof.WellFormed

open Sys2Proof.Machine

/-- Fabric port (R349). -/
def portOk (n : Nat) : Bool := decide (n < 16)

/-- Ethernet port (R408). -/
def ethPortOk (n : Nat) : Bool := decide (n < 2)

/-- Context (R191). -/
def ctxOk (n : Nat) : Bool := decide (n < 256)

/-- Sequence number, or number of a firing (R203, R174). -/
def seqOk (n : Nat) : Bool := decide (n < 2 ^ 32)

/-- Engine (R8). -/
def engineOk (n : Nat) : Bool := decide (n < 512)

/-- Core (R8). -/
def coreOk (n : Nat) : Bool := decide (n < 128)

/-- Descriptor entry (R174). -/
def entryOk (n : Nat) : Bool := decide (n < 64)

/-- Circuit id (R91). -/
def circOk (n : Nat) : Bool := decide (n < 2 ^ 16)

/-- Physical address (R37). -/
def addrOk (n : Nat) : Bool := decide (n < 2 ^ 52)

/-- CPU core (R8). -/
def cpuOk (n : Nat) : Bool := decide (n < 96)

/-- Integer register of a CPU core. -/
def xregOk (n : Nat) : Bool := decide (n < 32)

/-- Line address, bits [51:6] (R313). -/
def lineOk (n : Nat) : Bool := decide (n < 2 ^ 46)

/-- Memory controller (R58). -/
def channelOk (n : Nat) : Bool := decide (n < 40)

/-- HBM4 stack. -/
def stackOk (n : Nat) : Bool := decide (n < 8)

/-- LLM slice. -/
def sliceOk (n : Nat) : Bool := decide (n < 64)

/-- Way of a slice. -/
def wayOk (n : Nat) : Bool := decide (n < 16)

/-- Mask of ways. -/
def wayMaskOk (n : Nat) : Bool := decide (n < 2 ^ 16)

/-- Tensor or base die. -/
def dieOk (n : Nat) : Bool := decide (n < 4)

/-- Die (R8). -/
def powerDieOk (n : Nat) : Bool := decide (n < 10)

/-- Partition (R32). -/
def partOk (n : Nat) : Bool := decide (n < 16)

/-- A 64-bit word. -/
def wordOk (n : Nat) : Bool := decide (n < 2 ^ 64)

/-- A 32-bit word. -/
def word32Ok (n : Nat) : Bool := decide (n < 2 ^ 32)

/-- Die link (R382). -/
def linkOk (n : Nat) : Bool := decide (n < 17)

/-- Direction of a die link. -/
def dirOk (n : Nat) : Bool := decide (n < 2)

/-- Module (R361). -/
def moduleOk (n : Nat) : Bool := decide (n < 4096)

/-- Ethernet queue (R414). -/
def ethQueueOk (n : Nat) : Bool := decide (n < 256)

/-- RDMA window (R409). -/
def windowOk (n : Nat) : Bool := decide (n < 256)

/-- Queue pair number. -/
def qpOk (n : Nat) : Bool := decide (n < 2 ^ 24)

/-- Offset in BAR2 (R401). -/
def offsetOk (n : Nat) : Bool := decide (n < 2 ^ 28)

/-- Register offset (R518). -/
def regOffOk (n : Nat) : Bool := decide (n < 2 ^ 26)

/-- Virtual channel (R361). -/
def channelVcOk (n : Nat) : Bool := decide (n < 3)

/-- A 16-bit number. -/
def instOk (n : Nat) : Bool := decide (n < 2 ^ 16)

/-- An 8-bit number. -/
def byteOk (n : Nat) : Bool := decide (n < 2 ^ 8)

/-- Bank of an engine (R154). -/
def bankOk (n : Nat) : Bool := decide (n < 2)

/-- Classes of FENCE. -/
def classesOk (n : Nat) : Bool := decide (n < 16)

/-- Endpoint of a circuit (R92). -/
def endpointOk (n : Nat) : Bool := decide (n < 2 ^ 16)

/-- Bits of HUB_CTX_CTL. -/
def ctlOk (n : Nat) : Bool := decide (n < 16)

/-- Atomic operation. -/
def aopOk (n : Nat) : Bool := decide (n < 10)

/-- Counter of a unit (R496). -/
def counterOk (n : Nat) : Bool := decide (n < 32)

/-- Status of a completion (R403). -/
def completionOk (n : Nat) : Bool := decide (n < 3)

/-- Clock (R381). -/
def clockOk (n : Nat) : Bool := decide (n < 12)

/-- Length of a fetch (R482). -/
def imageLenOk (n : Nat) : Bool := decide (n < 2 ^ 27)

/-- Bytes of a load or store. -/
def sizeOk (n : Nat) : Bool := n == 1 || n == 2 || n == 4 || n == 8

/-- Bytes of an AMO, LR or SC. -/
def atomSizeOk (n : Nat) : Bool := n == 4 || n == 8

/-- Bytes of a register access (R13). -/
def regSizeWf (n : Nat) : Bool := n == 4 || n == 8

/-- Bytes of a read of BAR2. -/
def barSizeOk (n : Nat) : Bool := decide (1 ≤ n) && decide (n ≤ 4096)

/-- Unit kinds with counters (R496): 1 core, 2 cluster, 3 hub. -/
def kindOk (n : Nat) : Bool := decide (1 ≤ n) && decide (n ≤ 3)

/-- PLDM components: 1 firmware, 2 image (R469). -/
def componentOk (n : Nat) : Bool := n == 1 || n == 2

/-- A notice has 128 bytes (R376). -/
def noticeOk (n : Notice) : Bool := n.length == 128

/-- A requester carries a partition id or the module's, 0xFE (R34). -/
def requesterOk (r : Requester) : Bool := (decide (r.part < 16) || r.part == 0xFE) && decide (r.unit < 4096)

/-- A coherence message (R313): an agent or 0x60, a partial range within its line, an atomic operation. -/
def msgOk (m : Msg) : Bool :=
  lineOk m.line && decide (m.agent ≤ 0x60) && decide (m.poison < 4) && decide (m.data.length ≤ 64) && decide (m.off < 64)
  && decide (m.off + m.len ≤ 64) && aopOk m.op

/-- A packet (R361): its header's fields, and at most 256 bytes. -/
def packetOk (p : Packet) : Bool :=
  moduleOk p.dest && moduleOk p.src && decide (1 ≤ p.typ) && decide (p.typ ≤ 7) && decide (p.hops < 64) && byteOk p.epoch && byteOk p.part
  && byteOk p.status && byteOk p.op && decide (p.len ≤ 256) && word32Ok p.tag && wordOk p.addr && decide (p.data.length ≤ 256)

/-- A received frame: 896 bytes (R349), and its arrival within a beat of 8 ns. -/
def frameOk (raw : List Byte) (ps : Nat) : Bool := decide (raw.length = 896) && decide (ps < 8000)

/-- A received Ethernet frame. -/
def ethFrameOk (f : EthFrame) : Bool := byteOk f.proto && instOk f.dport && decide (f.data.length ≤ 9216)

/-- An endpoint access. -/
def memOpOk : MemOp → Bool
  | .read n => decide (1 ≤ n) && decide (n ≤ 4096)
  | .write b => decide (1 ≤ b.length) && decide (b.length ≤ 4096)
  | .atomic code size x cmp => aopOk code && atomSizeOk size && wordOk x && wordOk cmp

/-- A domain of a fence. -/
def domainOk : Domain → Bool
  | .context c => ctxOk c
  | .engine e => engineOk e
  | .partition p => partOk p
  | .diePair n => dieOk n
  | .chip => true

/-- A page-table walk that a miss starts: a core or the commands' cache, a context, an access of 1 read, 2 write, 3 reduction or atomic. -/
def walkOk (w : Walk) : Bool := decide (w.cache ≤ 128) && ctxOk w.ctx && decide (1 ≤ w.access) && decide (w.access ≤ 3) && wordOk w.va

/-- Every operand is in range. -/
def instrOk : Instr → Bool
  | .beat => true
  | .epochPulse _ => true
  | .armEpoch rq w => requesterOk rq && wordOk w
  | .ftSourceWrite rq w => requesterOk rq && wordOk w
  | .ptpMessage port _ _ => ethPortOk port
  | .ref10mEdgeLoss => true
  | .ptpSyncLoss => true
  | .holdoverTimeout => true
  | .phaseErrorExceeded _ => true
  | .lockAchieved => true
  | .sourceReturn _ => true
  | .slewConverged _ => true
  | .slotInstance circ slot => circOk circ && instOk slot
  | .slipLimitReached circ => circOk circ
  | .creditReturn circ => circOk circ
  | .auditSnap rq w => requesterOk rq && wordOk w
  | .auditLatch => true
  | .simgLoad rq => requesterOk rq
  | .simgAbort rq => requesterOk rq
  | .simgPropose rq => requesterOk rq
  | .noticePropose port n => portOk port && noticeOk n
  | .solsticeQuiesced => true
  | .solsticeAcceptDeadline => true
  | .noticeAccept port n => portOk port && noticeOk n
  | .noticeRefuse port n => portOk port && noticeOk n
  | .noticeCommit port n => portOk port && noticeOk n
  | .noticeAbort port n => portOk port && noticeOk n
  | .solsticeCutoff => true
  | .solsticeSwitch => true
  | .solsticePointerStore => true
  | .ringPoll c => ctxOk c
  | .commandStart c => ctxOk c
  | .nop c seq => ctxOk c && seqOk seq
  | .qcfg c seq => ctxOk c && seqOk seq
  | .qfree c seq => ctxOk c && seqOk seq
  | .launch c seq => ctxOk c && seqOk seq
  | .write c seq => ctxOk c && seqOk seq
  | .copy c seq => ctxOk c && seqOk seq
  | .order c seq => ctxOk c && seqOk seq
  | .complete c seq => ctxOk c && seqOk seq
  | .wait c seq => ctxOk c && seqOk seq
  | .waitPoll c seq => ctxOk c && seqOk seq
  | .timestamp c seq => ctxOk c && seqOk seq
  | .accessesCompleted c seq => ctxOk c && seqOk seq
  | .commandEnd c seq => ctxOk c && seqOk seq
  | .create rq c bits => requesterOk rq && ctxOk c && ctlOk bits
  | .preempt rq c bits => requesterOk rq && ctxOk c && ctlOk bits
  | .engineSave e => engineOk e
  | .preemptComplete c => ctxOk c
  | .saveSlotCopyOut e => engineOk e
  | .resume rq c bits => requesterOk rq && ctxOk c && ctlOk bits
  | .ctxEnd rq c bits => requesterOk rq && ctxOk c && ctlOk bits
  | .fenceDrainEnd d => domainOk d
  | .feederFire e => engineOk e
  | .engineFire e => engineOk e
  | .engineStep e => engineOk e
  | .drainFire e b => engineOk e && bankOk b
  | .drainComplete e => engineOk e
  | .histogramDelivery k c seq => coreOk k && ctxOk c && seqOk seq
  | .vectorFire k => coreOk k
  | .vend k => coreOk k
  | .vadd k => coreOk k
  | .vsub k => coreOk k
  | .vmul k => coreOk k
  | .vfma k => coreOk k
  | .vmin k => coreOk k
  | .vmax k => coreOk k
  | .vaddsat k => coreOk k
  | .vshr k => coreOk k
  | .vcmplt k => coreOk k
  | .vcmpeq k => coreOk k
  | .vsel k => coreOk k
  | .vcvt k => coreOk k
  | .vrcp k => coreOk k
  | .vrsqrt k => coreOk k
  | .vexp2 k => coreOk k
  | .vlog2 k => coreOk k
  | .vredadd k => coreOk k
  | .vredmax k => coreOk k
  | .vld k => coreOk k
  | .vldb k => coreOk k
  | .vst k => coreOk k
  | .moverFire k => coreOk k
  | .tileResolve k entry f => coreOk k && entryOk entry && seqOk f
  | .tileResolveRetry k entry f => coreOk k && entryOk entry && seqOk f
  | .tilePoisonedRead k entry f => coreOk k && entryOk entry && seqOk f
  | .stagerFire k entry f => coreOk k && entryOk entry && seqOk f
  | .stagerFlip k entry f => coreOk k && entryOk entry && seqOk f
  | .firingComplete k entry f => coreOk k && entryOk entry && seqOk f
  | .contributionArrive circ => circOk circ
  | .contributionApply ep => endpointOk ep
  | .sramEndpointAccess rq addr op => requesterOk rq && addrOk addr && memOpOk op
  | .llmScratchAccess rq addr op => requesterOk rq && addrOk addr && memOpOk op
  | .saveCfgWrite rq k v => requesterOk rq && coreOk k && wordOk v
  | .cpuLoad cpu addr size rd _ _ _ => cpuOk cpu && addrOk addr && sizeOk size && xregOk rd
  | .cpuStore cpu addr size value _ => cpuOk cpu && addrOk addr && sizeOk size && wordOk value
  | .cpuAmo cpu aop addr size value cmp rd _ _ _ => cpuOk cpu && aopOk aop && addrOk addr && atomSizeOk size && wordOk value && wordOk cmp && xregOk rd
  | .cpuLr cpu addr size rd _ _ => cpuOk cpu && addrOk addr && atomSizeOk size && xregOk rd
  | .cpuSc cpu addr size value rd _ _ => cpuOk cpu && addrOk addr && atomSizeOk size && wordOk value && xregOk rd
  | .cboFlush cpu addr => cpuOk cpu && addrOk addr
  | .cboClean cpu addr => cpuOk cpu && addrOk addr
  | .cboInval cpu addr => cpuOk cpu && addrOk addr
  | .cboZero cpu addr => cpuOk cpu && addrOk addr
  | .prefetch cpu addr _ => cpuOk cpu && addrOk addr
  | .fence cpu pred succ _ => cpuOk cpu && classesOk pred && classesOk succ
  | .fenceOrder cpu => cpuOk cpu
  | .fenceComplete cpu rd => cpuOk cpu && xregOk rd
  | .xtzfenceIllegal cpu word => cpuOk cpu && word32Ok word
  | .sfenceVma cpu => cpuOk cpu
  | .rdS m => msgOk m
  | .rdX m => msgOk m
  | .upg m => msgOk m
  | .ncRd m => msgOk m
  | .ncWr m => msgOk m
  | .ncWrP m => msgOk m
  | .ncAtom m => msgOk m
  | .zeroL m => msgOk m
  | .putM m => msgOk m
  | .putO m => msgOk m
  | .homeMemoryData line => lineOk line
  | .rspI m => msgOk m
  | .rspS m => msgOk m
  | .rspV m => msgOk m
  | .rspOd m => msgOk m
  | .rspSd m => msgOk m
  | .rspId m => msgOk m
  | .cmpAck m => msgOk m
  | .snpS m => msgOk m
  | .snpInv m => msgOk m
  | .snpRcl m => msgOk m
  | .dataS m => msgOk m
  | .dataE m => msgOk m
  | .dataM m => msgOk m
  | .gntM m => msgOk m
  | .cmpPut m => msgOk m
  | .ncCmp m => msgOk m
  | .ncData m => msgOk m
  | .coherentShareBeat ch => channelOk ch
  | .scrubRead ch => channelOk ch
  | .memTempSample ch temp => channelOk ch && byteOk temp
  | .refreshLevelApply ch => channelOk ch
  | .refreshFloorWrite rq ch v => requesterOk rq && channelOk ch && wordOk v
  | .llmWriteback stack => stackOk stack
  | .wayDisable slice way _ _ => sliceOk slice && wayOk way
  | .wayReenable rq slice mask => requesterOk rq && sliceOk slice && wayMaskOk mask
  | .llmZero rq die w => requesterOk rq && dieOk die && wordOk w
  | .tileFence rq p => requesterOk rq && partOk p
  | .translationMiss w => walkOk w
  | .pageWalk _ => true
  | .tlbi rq p w => requesterOk rq && partOk p && wordOk w
  | .tlbiDone p => partOk p
  | .fabricFrame port f => portOk port && frameOk f.raw f.ps
  | .pktAck port seq => portOk port && instOk seq
  | .pktRetry port seq => portOk port && instOk seq
  | .pktRetryTimeout port => portOk port
  | .vcCredit port vc n => portOk port && channelVcOk vc && instOk n
  | .circuitCredit port circ n => portOk port && circOk circ && byteOk n.1 && byteOk n.2.1 && wordOk n.2.2
  | .instAck port circ inst => portOk port && circOk circ && byteOk inst
  | .instNak port circ inst => portOk port && circOk circ && byteOk inst
  | .instanceAckTimeout circ => circOk circ
  | .packetRead port p => portOk port && packetOk p
  | .packetWrite port p => portOk port && packetOk p
  | .packetAtomic port p => portOk port && packetOk p
  | .packetData port p => portOk port && packetOk p
  | .packetAck port p => portOk port && packetOk p
  | .packetError port p => portOk port && packetOk p
  | .noticeLoss port n => portOk port && noticeOk n
  | .noticeMembership port n => portOk port && noticeOk n
  | .noticeAbortCircuits port n => portOk port && noticeOk n
  | .noticeReset port n => portOk port && noticeOk n
  | .noticeSend rq w => requesterOk rq && wordOk w
  | .retrain rq port => requesterOk rq && portOk port
  | .portDisable rq port _ => requesterOk rq && portOk port
  | .trainingComplete port module nport group => portOk port && moduleOk module && portOk nport && word32Ok group
  | .trainingTimeout port => portOk port
  | .portSilenceTimeout port => portOk port
  | .portBadFrameLimit port => portOk port
  | .trainingSequenceReceived port => portOk port
  | .coherentFlit link dir f => linkOk link && dirOk dir && decide (f.raw.length = 272) && f.errs.all (fun e => decide (e.1 < 272))
  | .flitResendTimeout link dir => linkOk link && dirOk dir
  | .tensorInstanceReceive link dir circ inst _ => linkOk link && dirOk dir && circOk circ && instOk inst
  | .linkInstAck link dir circ inst => linkOk link && dirOk dir && circOk circ && instOk inst
  | .linkInstNak link dir circ inst => linkOk link && dirOk dir && circOk circ && instOk inst
  | .linkSilenceTimeout link dir => linkOk link && dirOk dir
  | .linkRetryLimit link dir => linkOk link && dirOk dir
  | .linkResetIndication link => linkOk link
  | .clockFailure which => clockOk which
  | .hbmSelfRefreshConfirm n => dieOk n
  | .bar2Read off n => offsetOk off && barSizeOk n
  | .bar2Write off _ _ => offsetOk off
  | .bar0AccessError a => regOffOk a.off && decide (a.size ≤ 64) && wordOk a.value
  | .hostBar2Write rq w => requesterOk rq && wordOk w
  | .hostLinkDown => true
  | .perst => true
  | .flr => true
  | .bmeClear => true
  | .d3Entry => true
  | .detach rq => requesterOk rq
  | .attach rq => requesterOk rq
  | .hostCompletion _ code _ => completionOk code
  | .hostCompletionTimeout _ => true
  | .ethRxFrame port f => ethPortOk port && ethFrameOk f
  | .rdmaWrite port qp tag rkey va _ => ethPortOk port && qpOk qp && word32Ok tag.1 && word32Ok rkey && wordOk va
  | .rdmaRead port qp tag rkey va n => ethPortOk port && qpOk qp && word32Ok tag.1 && word32Ok rkey && wordOk va && word32Ok n
  | .rdmaAtomic port qp tag rkey va _ x cmp => ethPortOk port && qpOk qp && word32Ok tag.1 && word32Ok rkey && wordOk va && wordOk x && wordOk cmp
  | .congestionNotification port qp => ethPortOk port && qpOk qp
  | .rdmaAck circ => circOk circ
  | .qpRetryExhausted circ => circOk circ
  | .nvmeofCompletion addr _ _ => addrOk addr
  | .rwinCtlWrite rq win w => requesterOk rq && windowOk win && wordOk w
  | .txqTailWrite rq port q tail => requesterOk rq && ethPortOk port && ethQueueOk q && word32Ok tail
  | .capLoopSample _ _ => true
  | .activityUpdate _ _ => true
  | .thermalSample _ => true
  | .thermalTrip => true
  | .coolantSample _ => true
  | .boostUpdate => true
  | .droopDetect d => powerDieOk d
  | .droopRecover d => powerDieOk d
  | .droopLong d => powerDieOk d
  | .inputRangeTimeout => true
  | .capWrite rq v => requesterOk rq && wordOk v
  | .pldmTrayCap v => instOk v
  | .capApply => true
  | .powerModeWrite rq w => requesterOk rq && wordOk w
  | .powerModeApply => true
  | .rampWrite rq _ w => requesterOk rq && wordOk w
  | .powerModelClear rq => requesterOk rq
  | .engineHang e => engineOk e
  | .hangReset rq e => requesterOk rq && engineOk e
  | .replay rq p => requesterOk rq && partOk p
  | .suspectReplayComplete p => partOk p
  | .partitionReset rq p => requesterOk rq && partOk p
  | .contextEndTimeout c => ctxOk c
  | .recoveryTimeout p => partOk p
  | .partitionResetTimeout p => partOk p
  | .chipResetTimeout => true
  | .chipResetArm rq => requesterOk rq
  | .chipResetArmExpiry => true
  | .chipResetGo rq => requesterOk rq
  | .resetNAssert => true
  | .resetNRelease => true
  | .powerGood => true
  | .inputRise => true
  | .inputUndervoltage => true
  | .inputOvervoltage => true
  | .regulatorFail => true
  | .stageRom _ => true
  | .stageHold _ => true
  | .stageFirmware => true
  | .stageImage => true
  | .stageLinks _ _ => true
  | .stageValidate => true
  | .stageMemory _ => true
  | .stagePorts _ => true
  | .stageUp => true
  | .stageTimeout => true
  | .fetchSourceTimeout => true
  | .pldmComponent comp _ => componentOk comp
  | .fetchFirmware rq len => requesterOk rq && imageLenOk len
  | .fetchImage rq len => requesterOk rq && imageLenOk len
  | .fetchNextImage rq len => requesterOk rq && imageLenOk len
  | .leaveWinter rq => requesterOk rq
  | .otpProgram rq w => requesterOk rq && wordOk w
  | .spdmNegotiate _ _ => true
  | .spdmChallenge _ => true
  | .spdmGetMeasurements idx _ _ => byteOk idx
  | .pldmRequest _ => true
  | .cntSelWrite rq kind unit idx w => requesterOk rq && kindOk kind && coreOk unit && counterOk idx && wordOk w
  | .hubCntSelApply => true
  | .sampleTick => true
  | .dump rq w => requesterOk rq && wordOk w
  | .registerReadTimeout off => regOffOk off
  | .traceFrameFlush => true
  | .traceLinkDown => true
  | .registerWrite rq off size value => requesterOk rq && regOffOk off && regSizeWf size && wordOk value
  | .hostLinkUp speed width => byteOk speed && byteOk width
  | .ethLinkUp port => ethPortOk port
  | .ethLinkDown port => ethPortOk port
  | .traceLinkUp => true
  | .inputBelow10v => true
  | .otpProgrammingComplete _ => true
  | .simgLoadComplete => true
  | .fetchComplete => true
  | .dumpComplete => true
  | .cpuInterrupt cpu => cpuOk cpu

end Sys2Proof.WellFormed
end

