-- ==== Sys2Proof/Tests/Slice0.lean ====
section
/-! SUPPORT. Tests: small states that the statements' witnesses use, the smoke test of WellFormed, a few steps, and for every
hypothesis of a statement operands and a state that meet it. -/

open Sys2Proof Sys2Proof.Machine

namespace Sys2Proof.Tests

def zeros (n : Nat) : List Byte := List.replicate n 0
/-- Entries of the tables. -/
def partBytes (id contexts clusters hbms channels cpus : Nat) : List Byte :=
  leBytes 1 id ++ leBytes 1 contexts ++ leBytes 2 0 ++ leBytes 2 clusters ++ leBytes 1 hbms ++ leBytes 1 0 ++ leBytes 4 channels
    ++ leBytes 4 0 ++ leBytes 12 cpus
def circBytes (id k src dst credits flags slip : Nat) : List Byte :=
  leBytes 2 id ++ leBytes 1 0 ++ leBytes 1 k ++ leBytes 2 src ++ leBytes 2 dst ++ leBytes 1 credits ++ leBytes 1 flags ++ leBytes 2 slip
def slotBytes (circ kind res start flags : Nat) : List Byte :=
  leBytes 2 circ ++ leBytes 1 kind ++ leBytes 1 res ++ leBytes 4 start ++ leBytes 2 1 ++ leBytes 1 flags ++ leBytes 1 0 ++ leBytes 4 256

/-- A state with these tables in force, its module up. -/
def tablesOf (circs slots : List (List Byte)) : List Section :=
  [⟨1, [partBytes 0 8 1 1 1 1]⟩, ⟨2, circs⟩, ⟨3, slots⟩, ⟨10, [leBytes 2 0 ++ leBytes 2 0 ++ leBytes 4 64 ++ leBytes 4 0]⟩]
def demoHeader : Header :=
  ⟨0, 0, 7, 1, 0, 0, 1, 0, 0, 0, 0, 0, 1, 0, zeros 64, zeros 64, 0⟩
def stagedImage : Image := ⟨demoHeader, []⟩
def withTables (s : State) (l : List Section) : State :=
  { s with img := { s.img with tables := l, full := some ⟨demoHeader, l⟩ } }

def withTime (s : State) (f : TimeBase → TimeBase) : State := { s with time := f s.time }
def withBoot (s : State) (f : Boot → Boot) : State := { s with boot := f s.boot }
def up : State := withTables (State.reset.setFld Fld.HUB_BOOT_STAGE 0 9) []
def running : State :=
  withTables up (tablesOf [circBytes 16 8 0x2000 0x1000 1 0 0, circBytes 17 8 0x1000 0x2000 1 0 0]
    [slotBytes 16 1 0 0 2, slotBytes 17 1 0 0 2])
def noSlots : State := withTables up (tablesOf [circBytes 18 8 0x2000 0x1000 1 0 3] [])
/-- Fabric circuits that come in at port 0: 22 for core 0, 23 for port 1; and a circuit with a SLIP_LIMIT. -/
def fabricIn : State :=
  withTables up (tablesOf [circBytes 22 8 0x5000 0x1000 1 0 0, circBytes 23 8 0x5000 0x5001 1 0 0]
    [slotBytes 22 7 0 0 1, slotBytes 22 1 0 0 2, slotBytes 23 7 0 1 1, slotBytes 23 7 1 2 2])
def slipping : State := withTables up (tablesOf [circBytes 18 8 0x2000 0x1000 1 0 3] [slotBytes 18 1 0 0 2])
def circ22 : CircEntry := ⟨22, 0, 8, 0x5000, 0x1000, 1, 0, 0⟩
def circ23 : CircEntry := ⟨23, 0, 8, 0x5000, 0x5001, 1, 0, 0⟩
def slot22a : SlotEntry := ⟨22, 7, 0, 0, 1, 1, 256⟩
def slot22 : SlotEntry := ⟨22, 1, 0, 0, 1, 2, 256⟩
def slot23 : SlotEntry := ⟨23, 7, 1, 2, 1, 2, 256⟩
def slot18 : SlotEntry := ⟨18, 1, 0, 0, 1, 2, 256⟩
def circ16 : CircEntry := ⟨16, 0, 8, 0x2000, 0x1000, 1, 0, 0⟩
def circ17 : CircEntry := ⟨17, 0, 8, 0x1000, 0x2000, 1, 0, 0⟩
def circ18 : CircEntry := ⟨18, 0, 8, 0x2000, 0x1000, 1, 0, 3⟩
def slot16 : SlotEntry := ⟨16, 1, 0, 0, 1, 2, 256⟩
def slot17 : SlotEntry := ⟨17, 1, 0, 0, 1, 2, 256⟩
def fromModule : Requester := ⟨.cpu, 0, 0xFE⟩

def staged : State := { up with img := { up.img with staged := some stagedImage } }
def managed (s : State) : State := s.raise Fld.FAB_FM_VALID
def solstice (s : State) (phase : Nat) (x : Solstice) : State :=
  ({ s with img := { s.img with solstice := some x } }).setPhaseOf phase
def noticeOf (kind target : Nat) : Notice := leBytes 1 kind ++ zeros 15 ++ leBytes 8 target ++ zeros 104
def propose : Notice := noticeOf 1 (2 ^ 20)

/-- A slot of a command with an opcode, its two arguments and a payload; physical addresses, core 0. -/
def cmdOf (op a0 a1 : Nat) (pay : List Byte) : Cmd :=
  { Cmd.fetched 0 (leBytes 1 op ++ zeros 1 ++ leBytes 2 8 ++ zeros 8 ++ leBytes 2 pay.length ++ zeros 2 ++ leBytes 16 1 ++ leBytes 8 a0
      ++ leBytes 8 a1 ++ zeros 16 ++ pay) with started := true }
/-- Context 0 runs with this one command fetched. -/
def holds (m : Cmd) : State := running.setCtx 0 { Ctx.init with st := .running, buf := [m] }
def waiting (m : Cmd) : State := holds { m with started := false }
def acts (op a0 a1 : Nat) (pay : List Byte) : State := holds (cmdOf op a0 a1 pay)
def entry0 : Entry := ⟨zeros 128, [], ⟨0, 0⟩, 0, 0, true⟩
def save0 : EngineSave := ⟨0, some 0, Bank.empty, Bank.empty, none, none, 0⟩
def engine0 : Engine := ⟨{ Bank.empty with st := .completed }, Bank.empty, none, none, 0⟩
def saving : State :=
  ((((running.setCtx 0 { Ctx.init with st := .preempting, saves := [save0] }).setEntry 0 0
    (some entry0)).setEngine 0 engine0).setFld Fld.CO_SAVE_CFG_SLOTS 0 1).setFld Fld.HUB_CTX_SAVE_BASE 0 0x100000

/-- A descriptor for one of the core's units: one firing, and for the engine queue 0 in every role. -/
def unitDesc (u : Nat) : List Byte :=
  leBytes 1 u ++ zeros 7 ++ leBytes 4 1 ++ zeros 4 ++ (if u = 1 then leBytes 2 0x8001 ++ leBytes 2 0x8001 ++ zeros 4 ++ leBytes 2 0x8001 ++ zeros 6 else zeros 16)
    ++ zeros 1 ++ zeros 2 ++ leBytes 1 1 ++ zeros 4 ++ leBytes 4 63 ++ zeros 84
def unitEntry (d : List Byte) : Entry := ⟨d, [], ⟨0, 0⟩, 0, 0, true⟩
def withEntry (s : State) (d : List Byte) : State := s.setEntry 0 0 (some (unitEntry d))
def vecDesc : List Byte := leBytes 1 2 ++ zeros 7 ++ leBytes 4 1 ++ zeros 4 ++ leBytes 2 0x8001 ++ zeros 6 ++ leBytes 2 0x8001 ++ zeros 102
/-- An instruction with an opcode, of type binary32, with VD 0 and the other fields 0; its second type is Z4. -/
def vecWord (op : Nat) : Nat := op * 2 ^ 56 + 6 * 2 ^ 52
def vecEntry (op : Nat) : Entry := ⟨vecDesc, [BitVec.ofNat 64 (vecWord op)], ⟨0, 0⟩, 0, 0, true⟩
def vecEntry2 : Entry := ⟨vecDesc, [BitVec.ofNat 64 (vecWord 0x22 + 2 ^ 48)], ⟨0, 0⟩, 0, 0, true⟩
/-- Core 0 runs a program of this one instruction. -/
def vecState (op : Nat) : State := ((holds (cmdOf 3 0 0 [])).setEntry 0 0 (some (vecEntry op))).setVecRun 0 (some ⟨0, 0, 0, false⟩)
/-- Engine 0 accumulates in bank 0, at this k-index. -/
def engineAt (k : Nat) : State :=
  (withEntry (holds (cmdOf 3 0 0 [])) (unitDesc 1)).setEngine 0 ⟨⟨.accumulating, 0, 0, k⟩, Bank.empty, none, none, 0⟩
/-- Engine 0 holds a completed bank, with this drain in progress. -/
def drainAt (d : Option DrainRun) : State :=
  (withEntry (holds (cmdOf 3 0 0 [])) (unitDesc 1)).setEngine 0 ⟨⟨.completed, 0, 0, 64⟩, Bank.empty, none, d, 0⟩
def drainDesc4 : List Byte := (unitDesc 1).take 0x23 ++ [0] ++ (unitDesc 1).drop 0x24
def drainZ4 : State :=
  (withEntry (holds (cmdOf 3 0 0 [])) drainDesc4).setEngine 0 ⟨⟨.completed, 0, 0, 64⟩, Bank.empty, none, none, 0⟩

/-- A LAUNCH of context 0 whose engine record asks for a histogram at an address in HBM, with one cell counted. -/
def histDesc : List Byte := (unitDesc 1).take 0x2C ++ leBytes 2 17 ++ zeros 2 ++ leBytes 8 0x1000_0000_0000 ++ zeros 72
def histCmd : Cmd := { cmdOf 3 1 0 (zeros 16 ++ histDesc) with sums := [⟨0, 0, 0, 1 :: List.replicate 68 0⟩], histFrom := [⟨0, 0, 0, 0, 0⟩] }
/-- A LAUNCH of two records whose histogram addresses differ. -/
def twoHists : Cmd := cmdOf 3 2 0 (zeros 16 ++ histDesc ++ zeros 16 ++ histDesc.take 0x30 ++ leBytes 8 0x1000_0000_1000 ++ histDesc.drop 0x38)
def histState : State :=
  { (holds histCmd).setFld Fld.HUB_CTX_ATP_MODE 0 10 with tlbs := [⟨0, 0, 0, 0x1000_0000_0000, 21, 0x1000_0000_0000, 0xDF⟩] }

/-- A tile mover's descriptor: one firing of 4 KiB on a circuit, with these flags; and core 0 with it and one firing at this stage,
the tile table in its SRAM with this word as entry 0. -/
def moverDesc (circ flags : Nat) : List Byte :=
  leBytes 1 3 ++ zeros 7 ++ leBytes 4 1 ++ zeros 20 ++ leBytes 2 circ ++ leBytes 1 flags ++ zeros 1 ++ leBytes 4 0x1000 ++ zeros 88
def firing (st : FireStage) : Firing := ⟨0, 0, 0, 0, [], none, none, false, 0, none, st, 0, false, 0, none⟩
def tileWord : Nat := 0x1000_0000_0011
def claimWord : Nat := 0x1000_0000_0012
def moverAt (circ flags : Nat) (st : FireStage) (w : Nat) : State :=
  let s := { withEntry (holds (cmdOf 3 0 0 [])) (moverDesc circ flags) with firings := [firing st] }
  ((s.setFld Fld.HUB_TT_CFG_EN 0 1).setFld Fld.HUB_TT_CFG_BASE 0 0x10_0000).setBytes 0x1_0000_0000 (leBytes 8 w)
def missMover : State := (moverAt 16 0 .active 0).setFld Fld.HUB_CTX_ATP_MODE 0 10
def circ19 : CircEntry := ⟨19, 0, 8, 0x1000, 0x2000, 1, 1, 0⟩
def circ25 : CircEntry := ⟨25, 0, 8, 0x5000, 0x2000, 1, 1, 0⟩
def adderState : State :=
  withTables up (tablesOf [circBytes 19 8 0x1000 0x2000 1 1 0, circBytes 25 8 0x5000 0x2000 1 1 0]
    [slotBytes 19 1 0 0 2, slotBytes 25 7 0 0 1, slotBytes 25 1 0 0 2])
def addTok : Token := ⟨zeros 4, false, [(0x1000_0000_0000, 4)], 1, 0, ⟨0, 0⟩, 0, 0, 0, (0, 0), 0⟩

/-- CPU core 0 is out of reset. -/
def coreOn : State := running.updCpu 0 (fun x => { x with inReset := false })
/-- The core's agent holds a line of HBM in this state. -/
def line0 : Nat := 0x1000_0000_0000
def lineOn (st : LineSt) : State := coreOn.setLine 0 (line0 / 64) { coreOn.line 0 (line0 / 64) with st := st }

/-- A line of HBM, a transaction of agent 0 for it that waits for memory, and a state in which a beat of channel 0's share recurs. -/
def hbmLine : Nat := 0x40_0000_0000
def memTx (code : Nat) : Tx := Tx.start .mem (msg code hbmLine 0) 0 false
def shareState : State := withTables up [⟨1, [partBytes 0 8 1 1 1 1]⟩, ⟨9, [zeros 8 ++ leBytes 8 1]⟩]
/-- No beat of the share; a refresh that is late; a correction that waits; a scrub of channel 0 that has come so far. -/
def shareOff : State := withTime shareState (fun t => { t with ft := 1 })
def shareLate : State := withTime shareState (fun t => { t with ft := 124992 })
def shareFix : State := { shareState with corrections := [line0], chk := [(line0, 1)] }
def scrubOn (t : Nat) (m : MemCtl) : State :=
  ((withTime shareState (fun x => { x with ft := t })).setFld Fld.MEM_SCRUB_PERIOD 0 1).setMemCtl 0 { m with shareTaken := 10000, window := t / 125000 }
/-- A walk of the commands' cache at its last level, with its leaf entry in memory. -/
def walk0 : Walk := ⟨cmdCache, 0, 0, 0xFF, 0, 0x1000, 2, 0, 0x1000_0000_0000, false⟩
def leafPte : Nat := 0xD7 + 2 ^ 42
/-- A WRITE to virtual address 0x1000, and a tile mover's firing at 0x1000_0000_0000, whose translations are nowhere yet. -/
def missState : State :=
  (holds { cmdOf 4 0x1000 0 (zeros 8) with slot := ((cmdOf 4 0x1000 0 (zeros 8)).slot.set 2 0) }).setFld Fld.HUB_CTX_ATP_MODE 0 10
def walkState : State := { missState with walks := [walk0] }.setBytes 0x1000_0000_0008 (leBytes 8 leafPte)

/-- Fabric port 0 is up, with a circuit from core 0 to it; packets for this module; an access that awaits an answer. -/
def portOn : State :=
  (withTables up (tablesOf [circBytes 20 8 0x1000 0x5000 1 0 0] [slotBytes 20 1 0 0 2])).setFld Fld.FAB_PORT_STATUS_STATE 0 4
def circ20 : CircEntry := ⟨20, 0, 8, 0x1000, 0x5000, 1, 0, 0⟩
/-- The bytes of a good frame without payload, and of a good flit of the coherent plane with SEQ 0. -/
def goodRaw : List Byte := idleFrame.bytes
def heardFrame : Frame := { idleFrame with msgs := [⟨0, 0, 0, (0, 0)⟩, ⟨0, 0, 0, (0, 0)⟩], payload := zeros 800 }
def goodFlit : List Byte :=
  let h : List Byte := leBytes 1 1 ++ zeros 11
  h ++ leBytes 4 (crc32 (h ++ zeros 256)) ++ zeros 256
def packet (typ : Nat) (d : List Byte) : Packet := ⟨0, 1, typ, 0, 1, 0, 0, 0, 0x10, 8, 5, 0x1_0000_0000, d⟩
def open0 : OpenAccess := ⟨5, fromModule, none, 0, 8, 1, .plain, some 1, some 0, 0, [], 0⟩
def awaitTwo : State := { running with opens := [{ open0 with left := 2 }] }
def transitOn : State := fabricIn.setFld Fld.FAB_PORT_STATUS_STATE 1 4
def awaitState : State := { portOn with opens := [open0] }
/-- A request of module 1 that came before, and a QFREE of a queue that a unit holds. -/
def heldOn : State := portOn.setPort 0 { Port.init with arrived := [{ packet 1 [] with tag := 4 }, { packet 2 (zeros 32) with flags := 8 }] }
def busyFree : State := (acts 2 1 0 (leBytes 8 0)).setQueue 0 0 { Queue.none with valid := true, producer := 1 }
def fetching : State := running.setCtx 0 { Ctx.init with st := .running, fetch := some (1, 0, 1) }
def membership (action : Nat) : Notice := leBytes 1 0x11 ++ leBytes 1 action ++ zeros 4 ++ leBytes 2 9 ++ zeros 120
def resetAsk : Notice := leBytes 1 0x13 ++ leBytes 1 2 ++ zeros 30 ++ leBytes 2 1 ++ zeros 94
def nsendState : State := running.setBytes 0x1_0000_0000 (leBytes 1 0x10 ++ zeros 127)
def linkOn : State := running.setFld Fld.HUB_LINK_STATUS_STATE 1 2
def linkRing : State := running.setFld Fld.HUB_LINK_STATUS_STATE 9 2
def hostOn : State :=
  ((((running.raise Fld.HOST_BAR2_EN).setFld Fld.HOST_BAR2_BASE 0 0x10).raise Fld.HOST_STATUS_DL_ACTIVE).setFld Fld.HOST_ATTACH_STATE 0 1)

set_option Elab.async false
set_option linter.unusedVariables false
set_option maxRecDepth 100000

theorem hostOn_addr : hostOn.bar2Addr 0 = 0x1_0000_0000 := by decide +kernel

theorem hostOn_read : hostOn.issueRead hostOn.bar2Rq none (hostOn.bar2Addr 0) 8 .hostRead =
    ((hostOn.issueRead hostOn.bar2Rq none 0x1_0000_0000 8 .hostRead).1, .done 0 (zeros 8)) := by rw [hostOn_addr]; decide +kernel

theorem hostOn_write : hostOn.issueWrite hostOn.bar2Rq none (hostOn.bar2Addr 0) (zeros 32) (.hostWrite true) =
    ((hostOn.issueWrite hostOn.bar2Rq none 0x1_0000_0000 (zeros 32) (.hostWrite true)).1, .done stOk []) := by rw [hostOn_addr]; decide +kernel

/-- A read of host memory that awaits its completion; Ethernet port 0 up; an RDMA window over a core's SRAM; a circuit to a queue pair. -/
def hostOpen : OpenAccess := ⟨5, fromModule, none, 0x1_0000_0000_0000, 8, 1, .plain, none, none, 0, [], 0⟩
def hostWrite0 : OpenAccess := { hostOpen with who := ⟨.host, 0, 0xFE⟩, op := 2 }
def ethOn : State := running.setFld Fld.ETH_STATUS_LINK_UP 0 1
def ethFrame0 : EthFrame := ⟨true, none, false, 4, 17, 0, 0, [], true, zeros 64⟩
def ethWin : State :=
  let s := ((ethOn.raise Fld.ETH_RWIN_CTL_VALID).setFld Fld.ETH_RWIN_CTL_PORTS 0 1).setFld Fld.ETH_RWIN_CTL_SIZE 0 1
  (((s.raise Fld.ETH_RWIN_CTL_WRITE).raise Fld.ETH_RWIN_CTL_READ).raise Fld.ETH_RWIN_CTL_ATOMIC).setFld Fld.ETH_RWIN_BASE_ADDR 0 0x10_0000
def ethCirc : State := withTables up (tablesOf [circBytes 21 8 0x1000 0x6000 1 0 0] [slotBytes 21 1 0 0 2])


/-- A start that has come to a stage; an OTP array whose generation 0 is valid; a dump in progress; a hub that samples its counters. -/
def stageAt (n : Nat) : State := State.reset.setFld Fld.HUB_BOOT_STAGE 0 n
def otpState : State :=
  withBoot State.reset (fun b => { b with otp := [(1, 1), (0x3FC, 0xB4), (0x3FD, 0x33), (0x3FE, 0xEA), (0x3FF, 0xFF)] })
def dump0 : Dump := ⟨0, [(Reg.offset .HUB_FT_LOAD 0, Reg.offset .HUB_FT_LOAD 0 + 8)], 0, 0, 0, 0, false⟩
def sampling : State :=
  (((((running.raise Fld.HUB_SMP_CFG_EN).raise Fld.HUB_SMP_CFG_HUB).setFld Fld.HUB_SMP_RING_LOG2_RECORDS 0 4).setFld
    Fld.HUB_SMP_RING_BASE 0 0x10_0000)).setFld Fld.HUB_SMP_CFG_PERIOD_LOG2 0 0
theorem sampling_writes : ({ sampling with trc := { sampling.trc with sampled := 1 } } : State).writeSamples 0 [({ sampling with trc := { sampling.trc with sampled := 1 } } : State).sampleRecord 3 0] =
    ((({ sampling with trc := { sampling.trc with sampled := 1 } } : State).writeSamples 0 [({ sampling with trc := { sampling.trc with sampled := 1 } } : State).sampleRecord 3 0]).1, true) := by
  decide +kernel
theorem reset_shows : StatusShown State.reset := ⟨by decide +kernel, by decide +kernel⟩

/-! ## WellFormed refuses an operand out of range: one term for each check -/

theorem test_refuses_portOk (a1 : Notice) : WellFormed.instrOk (.noticePropose 16 a1) = false := by simp [WellFormed.instrOk, WellFormed.portOk]
theorem test_refuses_ethPortOk (a1 : Nat) (a2 : PtpMsg) : WellFormed.instrOk (.ptpMessage 2 a1 a2) = false := by simp [WellFormed.instrOk, WellFormed.ethPortOk]
theorem test_refuses_ctxOk : WellFormed.instrOk (.ringPoll 256) = false := by simp [WellFormed.instrOk, WellFormed.ctxOk]
theorem test_refuses_seqOk (a0 : Nat) : WellFormed.instrOk (.nop a0 (2 ^ 32)) = false := by simp [WellFormed.instrOk, WellFormed.seqOk]
theorem test_refuses_engineOk : WellFormed.instrOk (.engineSave 512) = false := by simp [WellFormed.instrOk, WellFormed.engineOk]
theorem test_refuses_coreOk (a1 : Nat) (a2 : Nat) : WellFormed.instrOk (.histogramDelivery 128 a1 a2) = false := by simp [WellFormed.instrOk, WellFormed.coreOk]
theorem test_refuses_entryOk (a0 : Nat) (a2 : Nat) : WellFormed.instrOk (.tileResolve a0 64 a2) = false := by simp [WellFormed.instrOk, WellFormed.entryOk]
theorem test_refuses_circOk (a1 : Nat) : WellFormed.instrOk (.slotInstance (2 ^ 16) a1) = false := by simp [WellFormed.instrOk, WellFormed.circOk]
theorem test_refuses_addrOk (a0 : Requester) (a2 : MemOp) : WellFormed.instrOk (.sramEndpointAccess a0 (2 ^ 52) a2) = false := by simp [WellFormed.instrOk, WellFormed.addrOk]
theorem test_refuses_cpuOk (a1 : Nat) (a2 : Nat) (a3 : Nat) (a4 : Bool) (a5 : Bool) (a6 : Bool) : WellFormed.instrOk (.cpuLoad 96 a1 a2 a3 a4 a5 a6) = false := by simp [WellFormed.instrOk, WellFormed.cpuOk]
theorem test_refuses_xregOk (a0 : Nat) (a1 : Nat) (a2 : Nat) (a4 : Bool) (a5 : Bool) (a6 : Bool) : WellFormed.instrOk (.cpuLoad a0 a1 a2 32 a4 a5 a6) = false := by simp [WellFormed.instrOk, WellFormed.xregOk]
theorem test_refuses_lineOk : WellFormed.instrOk (.homeMemoryData (2 ^ 46)) = false := by simp [WellFormed.instrOk, WellFormed.lineOk]
theorem test_refuses_channelOk : WellFormed.instrOk (.coherentShareBeat 40) = false := by simp [WellFormed.instrOk, WellFormed.channelOk]
theorem test_refuses_stackOk : WellFormed.instrOk (.llmWriteback 8) = false := by simp [WellFormed.instrOk, WellFormed.stackOk]
theorem test_refuses_sliceOk (a1 : Nat) (a2 : Bool) (a3 : List Nat) : WellFormed.instrOk (.wayDisable 64 a1 a2 a3) = false := by simp [WellFormed.instrOk, WellFormed.sliceOk]
theorem test_refuses_wayOk (a0 : Nat) (a2 : Bool) (a3 : List Nat) : WellFormed.instrOk (.wayDisable a0 16 a2 a3) = false := by simp [WellFormed.instrOk, WellFormed.wayOk]
theorem test_refuses_wayMaskOk (a0 : Requester) (a1 : Nat) : WellFormed.instrOk (.wayReenable a0 a1 (2 ^ 16)) = false := by simp [WellFormed.instrOk, WellFormed.wayMaskOk]
theorem test_refuses_dieOk (a0 : Requester) (a2 : Nat) : WellFormed.instrOk (.llmZero a0 4 a2) = false := by simp [WellFormed.instrOk, WellFormed.dieOk]
theorem test_refuses_powerDieOk : WellFormed.instrOk (.droopDetect 10) = false := by simp [WellFormed.instrOk, WellFormed.powerDieOk]
theorem test_refuses_partOk (a0 : Requester) : WellFormed.instrOk (.tileFence a0 16) = false := by simp [WellFormed.instrOk, WellFormed.partOk]
theorem test_refuses_wordOk (a0 : Requester) : WellFormed.instrOk (.armEpoch a0 (2 ^ 64)) = false := by simp [WellFormed.instrOk, WellFormed.wordOk]
theorem test_refuses_word32Ok (a0 : Nat) : WellFormed.instrOk (.xtzfenceIllegal a0 (2 ^ 32)) = false := by simp [WellFormed.instrOk, WellFormed.word32Ok]
theorem test_refuses_linkOk (a1 : Nat) (a2 : FlitIn) : WellFormed.instrOk (.coherentFlit 17 a1 a2) = false := by simp [WellFormed.instrOk, WellFormed.linkOk]
theorem test_refuses_dirOk (a0 : Nat) (a2 : FlitIn) : WellFormed.instrOk (.coherentFlit a0 2 a2) = false := by simp [WellFormed.instrOk, WellFormed.dirOk]
theorem test_refuses_moduleOk (a0 : Nat) (a2 : Nat) (a3 : Nat) : WellFormed.instrOk (.trainingComplete a0 4096 a2 a3) = false := by simp [WellFormed.instrOk, WellFormed.moduleOk]
theorem test_refuses_ethQueueOk (a0 : Requester) (a1 : Nat) (a3 : Nat) : WellFormed.instrOk (.txqTailWrite a0 a1 256 a3) = false := by simp [WellFormed.instrOk, WellFormed.ethQueueOk]
theorem test_refuses_windowOk (a0 : Requester) (a2 : Nat) : WellFormed.instrOk (.rwinCtlWrite a0 256 a2) = false := by simp [WellFormed.instrOk, WellFormed.windowOk]
theorem test_refuses_qpOk (a0 : Nat) (a2 : Nat × Bool) (a3 : Nat) (a4 : Nat) (a5 : List Byte) : WellFormed.instrOk (.rdmaWrite a0 (2 ^ 24) a2 a3 a4 a5) = false := by simp [WellFormed.instrOk, WellFormed.qpOk]
theorem test_refuses_offsetOk (a1 : Nat) : WellFormed.instrOk (.bar2Read (2 ^ 28) a1) = false := by simp [WellFormed.instrOk, WellFormed.offsetOk]
theorem test_refuses_regOffOk : WellFormed.instrOk (.registerReadTimeout (2 ^ 26)) = false := by simp [WellFormed.instrOk, WellFormed.regOffOk]
theorem test_refuses_channelVcOk (a0 : Nat) (a2 : Nat) : WellFormed.instrOk (.vcCredit a0 3 a2) = false := by simp [WellFormed.instrOk, WellFormed.channelVcOk]
theorem test_refuses_instOk (a0 : Nat) : WellFormed.instrOk (.slotInstance a0 (2 ^ 16)) = false := by simp [WellFormed.instrOk, WellFormed.instOk]
theorem test_refuses_byteOk (a0 : Nat) : WellFormed.instrOk (.memTempSample a0 (2 ^ 8)) = false := by simp [WellFormed.instrOk, WellFormed.byteOk]
theorem test_refuses_bankOk (a0 : Nat) : WellFormed.instrOk (.drainFire a0 2) = false := by simp [WellFormed.instrOk, WellFormed.bankOk]
theorem test_refuses_classesOk (a0 : Nat) (a2 : Nat) (a3 : Bool) : WellFormed.instrOk (.fence a0 16 a2 a3) = false := by simp [WellFormed.instrOk, WellFormed.classesOk]
theorem test_refuses_endpointOk : WellFormed.instrOk (.contributionApply (2 ^ 16)) = false := by simp [WellFormed.instrOk, WellFormed.endpointOk]
theorem test_refuses_ctlOk (a0 : Requester) (a1 : Nat) : WellFormed.instrOk (.create a0 a1 16) = false := by simp [WellFormed.instrOk, WellFormed.ctlOk]
theorem test_refuses_aopOk (a0 : Nat) (a2 : Nat) (a3 : Nat) (a4 : Nat) (a5 : Nat) (a6 : Nat) (a7 : Bool) (a8 : Bool) (a9 : Bool) : WellFormed.instrOk (.cpuAmo a0 10 a2 a3 a4 a5 a6 a7 a8 a9) = false := by simp [WellFormed.instrOk, WellFormed.aopOk]
theorem test_refuses_counterOk (a0 : Requester) (a1 : Nat) (a2 : Nat) (a4 : Nat) : WellFormed.instrOk (.cntSelWrite a0 a1 a2 32 a4) = false := by simp [WellFormed.instrOk, WellFormed.counterOk]
theorem test_refuses_completionOk (a0 : Nat) (a2 : List Byte) : WellFormed.instrOk (.hostCompletion a0 3 a2) = false := by simp [WellFormed.instrOk, WellFormed.completionOk]
theorem test_refuses_clockOk : WellFormed.instrOk (.clockFailure 12) = false := by simp [WellFormed.instrOk, WellFormed.clockOk]
theorem test_refuses_imageLenOk (a0 : Requester) : WellFormed.instrOk (.fetchFirmware a0 (2 ^ 27)) = false := by simp [WellFormed.instrOk, WellFormed.imageLenOk]
theorem test_refuses_sizeOk (a0 : Nat) (a1 : Nat) (a3 : Nat) (a4 : Bool) (a5 : Bool) (a6 : Bool) : WellFormed.instrOk (.cpuLoad a0 a1 3 a3 a4 a5 a6) = false := by simp [WellFormed.instrOk, WellFormed.sizeOk]
theorem test_refuses_atomSizeOk (a0 : Nat) (a1 : Nat) (a2 : Nat) (a4 : Nat) (a5 : Nat) (a6 : Nat) (a7 : Bool) (a8 : Bool) (a9 : Bool) : WellFormed.instrOk (.cpuAmo a0 a1 a2 1 a4 a5 a6 a7 a8 a9) = false := by simp [WellFormed.instrOk, WellFormed.atomSizeOk]
theorem test_refuses_regSizeWf (a0 : Requester) (a1 : Nat) (a3 : Nat) : WellFormed.instrOk (.registerWrite a0 a1 2 a3) = false := by simp [WellFormed.instrOk, WellFormed.regSizeWf]
theorem test_refuses_barSizeOk (a0 : Nat) : WellFormed.instrOk (.bar2Read a0 0) = false := by simp [WellFormed.instrOk, WellFormed.barSizeOk]
theorem test_refuses_kindOk (a0 : Requester) (a2 : Nat) (a3 : Nat) (a4 : Nat) : WellFormed.instrOk (.cntSelWrite a0 0 a2 a3 a4) = false := by simp [WellFormed.instrOk, WellFormed.kindOk]
theorem test_refuses_componentOk (a1 : List Byte) : WellFormed.instrOk (.pldmComponent 3 a1) = false := by simp [WellFormed.instrOk, WellFormed.componentOk]
theorem test_refuses_noticeOk (a0 : Nat) : WellFormed.instrOk (.noticePropose a0 []) = false := by simp [WellFormed.instrOk, WellFormed.noticeOk]
theorem test_refuses_requesterOk (a1 : Nat) : WellFormed.instrOk (.armEpoch ⟨.cpu, 0, 0x20⟩ a1) = false := by simp [WellFormed.instrOk, WellFormed.requesterOk]
theorem test_refuses_msgOk (m : Msg) : WellFormed.instrOk (.rdS { m with line := 2 ^ 46 }) = false := by simp [WellFormed.instrOk, WellFormed.msgOk, WellFormed.lineOk]
theorem test_refuses_packetOk (a0 : Nat) (p : Packet) : WellFormed.instrOk (.packetRead a0 { p with typ := 8 }) = false := by simp [WellFormed.instrOk, WellFormed.packetOk]
theorem test_refuses_frameOk (a0 : Nat) (f : FrameIn) : WellFormed.instrOk (.fabricFrame a0 { f with raw := [] }) = false := by simp [WellFormed.instrOk, WellFormed.frameOk]
theorem test_refuses_ethFrameOk (a0 : Nat) (f : EthFrame) : WellFormed.instrOk (.ethRxFrame a0 { f with dport := 2 ^ 16 }) = false := by simp [WellFormed.instrOk, WellFormed.ethFrameOk, WellFormed.instOk]
theorem test_refuses_memOpOk (a0 : Requester) (a1 : Nat) : WellFormed.instrOk (.sramEndpointAccess a0 a1 (.read 0)) = false := by simp [WellFormed.instrOk, WellFormed.memOpOk]
theorem test_refuses_domainOk : WellFormed.instrOk (.fenceDrainEnd (.partition 16)) = false := by simp [WellFormed.instrOk, WellFormed.domainOk, WellFormed.partOk]
theorem test_refuses_walkOk (w : Walk) : WellFormed.instrOk (.translationMiss { w with access := 4 }) = false := by simp [WellFormed.instrOk, WellFormed.walkOk]

theorem test_accepts_in_range : WellFormed.instrOk (.retrain fromModule 15) = true := by decide +kernel

/-! ## Results from the spec's worked examples and tables -/

/-- Worked example after R117. -/
theorem test_fp8_ingestion : (fp8ToZ9 true 0x7E, fp8ToZ9 true 0x03, fp8ToZ9 true 0xFF, fp8ToZ9 false 0xFB, fp8ToZ9 false 0x7C) =
    (0x0BE, 0x03C, 0x0FF, 0x1F6, 0x0F8) := by decide +kernel
/-- Worked example after R126: each rounding mode. -/
theorem test_z16_modes : [Round.rne, .rtz, .rup, .rdn, .rto].map (fun r => (convert .z32 .z16 r false 0x3F88_4000, convert .z32 .z16 r false 0xBF88_4000)) =
    [(⟨0x3F10, 1⟩, ⟨0xBF10, 1⟩), (⟨0x3F10, 1⟩, ⟨0xBF10, 1⟩), (⟨0x3F11, 1⟩, ⟨0xBF10, 1⟩), (⟨0x3F10, 1⟩, ⟨0xBF11, 1⟩), (⟨0x3F11, 1⟩, ⟨0xBF11, 1⟩)] := by decide +kernel
theorem test_z16_overflow : (convert .z32 .z16 .rne false 0x5F80_0000, convert .z32 .z16 .rne true 0x5F80_0000, convert .z32 .z16 .rne false 0x1D80_0000) =
    (⟨0x7F00, 5⟩, ⟨0x7EFF, 13⟩, ⟨4, 0⟩) := by decide +kernel
/-- R124: a value whose rounding reaches 2^-126 gives the least normal. -/
theorem test_z32_underflow_edge : (fmtZ32.ofNum .rne false (.fin false (2 ^ 25 - 1) (-151))).bits = 0x0080_0000 := by decide +kernel
/-- Worked example after R131: the codes and the scale of one block. -/
theorem test_z4_block : (let b := z4Block .rne ([0x42A0, 0xC140, 0x3E80, 0x3D00, 0x41C0].map fmtZ16.decode ++ List.replicate 27 (.zero false))
    (b.1.take 6, b.2)) = ([⟨7, 9⟩, ⟨0xC, 1⟩, ⟨1, 3⟩, ⟨0, 3⟩, ⟨6, 1⟩, ⟨0, 0⟩], 0x80) := by decide +kernel
/-- Worked examples after R142. -/
theorem test_dropped_bit : cellStep 0x3F80_0000 [product (fmtZ16.decode 0x3F04) (fmtZ16.decode 0x2700)] = ⟨0x3F80_0000, flagInexact, 0⟩ := by decide +kernel
theorem test_cancellation : cellStep 0x3E40_0000 [productZ4 6 0x89 6 0x89, productZ4 6 0x89 0xE 0x89] = ⟨0, flagInexact, 0⟩ := by decide +kernel
theorem test_cancellation_kept : cellStep 0x3F40_0000 [productZ4 6 0x89 6 0x89, productZ4 6 0x89 0xE 0x89] = ⟨0x3F40_0000, 0, 0⟩ := by decide +kernel
/-- Worked example after R44: physical addresses. -/
theorem test_locate : (locate 0x1062_0000_4000, locate 0x205F_0000_0000, locate 0x8_0C80_0000_1000) = (.hbm 3 0x2_0000_4000, .nowhere, .remote 25 0x1000) := by decide +kernel
/-- Worked example after R531: offsets of registers. -/
theorem test_offsets : (Reg.offset .EN_EXC_TAG 77, Reg.offset .HUB_CTX_STATUS 17, Reg.offset .CO_EVT_REC ((19 * 256 + 200) * 4 + 2), blockAt 0x2C0_0000) =
    (0x189_A010, 0x2_1108, 0x113_3910, none) := by decide +kernel
/-- Worked example after R401: the window moves, and a base in the host aperture does not move it. -/
theorem test_bar2_moves : ((up.writeBar2 0x8FE0_1062_0000_0000 (2 ^ 64 - 1)).bar2Addr 0x4000) = 0x1062_0000_4000 := by decide +kernel
theorem test_bar2_refused : ((up.writeBar2 0x8FE1_0000_0000_0000 (2 ^ 64 - 1)).flag Fld.HOST_STATUS_BAD_BASE) = true := by decide +kernel
/-- R456: GO without ARM does nothing -/
theorem test_go_needs_arm : up.resetGo = up := rfl
/-- A step takes the front of the queue, and idles on none. -/
theorem test_step_pops : step { up with pending := [.resetNRelease] } = exec .resetNRelease up := rfl
theorem test_idle : step up = .next up := rfl
/-- R485: the CRC of an OTP generation: CRC-32 of "123456789" with the IEEE polynomial is 0xCBF43926. -/
theorem test_crc32 : crc32 [0x31, 0x32, 0x33, 0x34, 0x35, 0x36, 0x37, 0x38, 0x39] = 0xCBF4_3926 := by decide +kernel

/-! ## Hypotheses of the statements are met -/

theorem test_meets_TimeBaseEventsMoveTheState_1 :
    ∃ (s : State) (ps : Int), s.flag Fld.HUB_FT_CTL_ARM_EPOCH = true ∧ s.fld Fld.HUB_FT_CTL_SOURCE = 1 ∧ s.anyPartRuns = false :=
  ⟨(State.reset.raise Fld.HUB_FT_CTL_ARM_EPOCH).setFld Fld.HUB_FT_CTL_SOURCE 0 1, 0, by decide +kernel⟩

theorem test_meets_TimeBaseEventsMoveTheState_2 :
    ∃ (s : State) (ps : Int) (l : Nat), s.flag Fld.HUB_FT_CTL_ARM_EPOCH = false ∧ s.fld Fld.HUB_FT_CTL_SOURCE = 1 ∧ s.time.loaded = some
      l ∧ 1 < (((s.ft : Int) - l) % epochBeats).toNat ∧ (((s.ft : Int) - l) % epochBeats).toNat < epochBeats - 1 :=
  ⟨withTime (State.reset.setFld Fld.HUB_FT_CTL_SOURCE 0 1) (fun t => { t with ft := 2, loaded := some 0 }), 0, 0, by decide +kernel⟩

theorem test_meets_TimeBaseEventsMoveTheState_3 :
    ∃ (s : State), s.fld Fld.HUB_FT_CTL_SOURCE = 1 ∧ s.tbState = tbLocked :=
  ⟨(State.reset.setFld Fld.HUB_FT_CTL_SOURCE 0 1).setFld Fld.HUB_FT_STATUS_STATE 0 2, by decide +kernel⟩

theorem test_meets_TimeBaseEventsMoveTheState_4 :
    ∃ (s : State), s.fld Fld.HUB_FT_CTL_SOURCE = 2 ∧ s.tbState = tbLocked :=
  ⟨(State.reset.setFld Fld.HUB_FT_CTL_SOURCE 0 2).setFld Fld.HUB_FT_STATUS_STATE 0 2, by decide +kernel⟩

theorem test_meets_TimeBaseEventsMoveTheState_5 :
    ∃ (s : State), s.tbState = tbHoldover ∧ s.time.since + 1250000 ≤ s.ft ∧ s.anyPartRuns = true :=
  ⟨withTime (running.setFld Fld.HUB_FT_STATUS_STATE 0 3) (fun t => { t with ft := 1250000 }), by decide +kernel⟩

theorem test_meets_TimeBaseEventsMoveTheState_6 :
    ∃ (s : State) (ps : Int), 64000 < ps.natAbs ∧ s.tbState ≠ tbUnlocked ∧ s.anyPartRuns = true :=
  ⟨running.setFld Fld.HUB_FT_STATUS_STATE 0 2, 64001, by decide +kernel⟩

theorem test_meets_TimeBaseEventsMoveTheState_7 :
    ∃ (s : State), s.tbState = tbAcquiring ∧ 125000 ≤ s.time.good :=
  ⟨withTime (State.reset.setFld Fld.HUB_FT_STATUS_STATE 0 1) (fun t => { t with good := 125000 }), by decide +kernel⟩

theorem test_meets_TimeBaseEventsMoveTheState_8 :
    ∃ (s : State) (ps : Int), s.tbState = tbHoldover ∧ ps.natAbs ≤ 64000 :=
  ⟨State.reset.setFld Fld.HUB_FT_STATUS_STATE 0 3, 64000, by decide +kernel⟩

theorem test_meets_TimeBaseEventsMoveTheState_9 :
    ∃ (s : State) (ps : Int), s.tbState = tbUnlocked ∧ s.anyPartRuns = true ∧ s.fld Fld.HUB_FT_CTL_SOURCE ≠ 0 ∧ s.time.present = true ∧
      ps.natAbs ≤ 64000 :=
  ⟨withTime (running.setFld Fld.HUB_FT_CTL_SOURCE 0 1) (fun t => { t with present := true }), 64000, by decide +kernel⟩

theorem test_meets_TimeSourceWrites_1 :
    ∃ (s : State) (rq : Requester) (w : Nat), s.acceptsWrite rq .HUB_FT_CTL 0 = true ∧ s.anyPartRuns = true :=
  ⟨running, fromModule, 0, by decide +kernel⟩

theorem test_meets_TimeSourceWrites_2 :
    ∃ (s : State) (rq : Requester) (w : Nat), s.acceptsWrite rq .HUB_FT_CTL 0 = true ∧ s.anyPartRuns = false :=
  ⟨State.reset, fromModule, 0x10, by decide +kernel⟩

theorem test_meets_TimeSourceWrites_3 :
    ∃ (s : State) (rq : Requester) (w : Nat), s.acceptsWrite rq .HUB_FT_CTL 0 = true ∧ s.anyPartRuns = false ∧ getBits w 4 2 ≠ s.fld
      Fld.HUB_FT_CTL_SOURCE ∧ s.time.present = false :=
  ⟨withTime State.reset (fun t => { t with present := false }), fromModule, 0x20, by decide +kernel⟩

theorem test_meets_TimeSourceWrites_4 :
    ∃ (s : State) (port sub ns : Nat) (d : Int), s.fld Fld.HUB_FT_CTL_SOURCE = 2 ∧ s.fld Fld.HUB_FT_CTL_ETH_PORT = port ∧
      s.time.ptp.delay = some d :=
  ⟨withTime (State.reset.setFld Fld.HUB_FT_CTL_SOURCE 0 2) (fun t => { t with ptp := { t.ptp with delay := some 0 } }), 0, 0, 0, 0, by
    decide⟩

theorem test_meets_TimeSourceWrites_5 :
    ∃ (s : State) (port sub q : Nat), s.fld Fld.HUB_FT_CTL_SOURCE = 2 ∧ s.fld Fld.HUB_FT_CTL_ETH_PORT = port :=
  ⟨State.reset.setFld Fld.HUB_FT_CTL_SOURCE 0 2, 0, 0, 0, by decide +kernel⟩

theorem test_meets_TimeSourceWrites_6 :
    ∃ (s : State) (port sub q t : Nat) (t1 t2 t3 : Int), s.fld Fld.HUB_FT_CTL_SOURCE = 2 ∧ s.fld Fld.HUB_FT_CTL_ETH_PORT = port ∧
      s.time.ptp.asked = some (q, t3) ∧ s.time.ptp.last = some (t1, t2) :=
  ⟨withTime (State.reset.setFld Fld.HUB_FT_CTL_SOURCE 0 2) (fun t =>
    { t with ptp := { t.ptp with asked := some (0, 0), last := some (0, 0) } }), 0, 0, 0, 0, 0, 0, 0, by decide +kernel⟩

theorem test_meets_SlotInstances_1 :
    ∃ (s : State) (c h : Nat) (ce : CircEntry) (e : SlotEntry), s.circEntry c = some ce ∧ (s.hops c)[h]? = some e ∧ s.ft % 2 ^ ce.k =
      e.start ∧ (s.circ c).decided.contains (h, s.ft) = false ∧ ce.src / 4096 ≠ 5 :=
  ⟨running, 16, 0, circ16, slot16, by decide +kernel⟩

theorem test_meets_SlotInstances_2 :
    ∃ (s : State) (c h : Nat) (ce : CircEntry) (e : SlotEntry), s.circEntry c = some ce ∧ (s.hops c)[h + 1]? = some e ∧ s.ft % 2 ^ ce.k
      = e.start ∧ (s.circ c).decided.contains (h + 1, s.ft) = false ∧ ce.src / 4096 = 5 ∧ ce.dst / 4096 ≠ 5 :=
  ⟨fabricIn, 22, 0, circ22, slot22, by decide +kernel⟩

theorem test_meets_SlotInstances_3 :
    ∃ (s : State) (c h : Nat) (ce : CircEntry) (e : SlotEntry), s.circEntry c = some ce ∧ (s.hops c)[h + 1]? = some e ∧ s.ft % 2 ^ ce.k
      = e.start ∧ (s.circ c).decided.contains (h + 1, s.ft) = false ∧ ce.src / 4096 = 5 ∧ ce.dst / 4096 = 5 :=
  ⟨withTime fabricIn (fun t => { t with ft := 2 }), 23, 0, circ23, slot23, by decide +kernel⟩

theorem test_meets_SlotInstances_4 :
    ∃ (s : State) (c : Nat) (ce : CircEntry) (e : SlotEntry), s.circEntry c = some ce ∧ (s.hops c)[0]? = some e ∧ s.ft % 2 ^ ce.k =
      e.start ∧ (s.circ c).decided.contains (0, s.ft) = false ∧ ce.src / 4096 = 5 :=
  ⟨fabricIn, 22, circ22, slot22a, by decide +kernel⟩

theorem test_meets_SlotInstances_5 :
    ∃ (s : State) (c h : Nat) (ce : CircEntry) (e : SlotEntry), s.circEntry c = some ce ∧ (s.hops c)[h]? = some e ∧ (s.ft % 2 ^ ce.k ≠
      e.start ∨ (s.circ c).decided.contains (h, s.ft) = true) :=
  ⟨withTime running (fun t => { t with ft := 1 }), 16, 0, circ16, slot16, by decide +kernel⟩

theorem test_meets_SlotInstances_6 :
    ∃ (s : State) (c h : Nat), (s.circEntry c = none ∨ (s.hops c)[h]? = none) :=
  ⟨running, 99, 0, by decide +kernel⟩

theorem test_meets_SlotInstances_7 :
    ∃ (s : State) (ce : CircEntry) (e : SlotEntry) (h n : Nat), (s.epFenced ce.dst || (s.hops ce.id).any s.resFenced) = true :=
  ⟨{ running with fences := [⟨.chip, 0, 11⟩] }, circ16, slot16, 0, 0, by decide +kernel⟩

theorem test_meets_SlotInstances_8 :
    ∃ (s : State) (ce : CircEntry) (e : SlotEntry) (h n : Nat), (s.epFenced ce.dst || (s.hops ce.id).any s.resFenced) = false ∧
      s.linkAgain ce.id (some e) = true :=
  ⟨running.setDieLink 26 { DieLink.init with again := [(16, 0)] }, circ16, { slot16 with kind := 3 }, 0, 0, by decide +kernel⟩

theorem test_meets_SlotInstances_9 :
    ∃ (s : State) (ce : CircEntry) (e : SlotEntry) (h n : Nat) (r : CmdRef), (s.epFenced ce.dst || (s.hops ce.id).any s.resFenced) =
      false ∧ s.linkAgain ce.id (some e) = false ∧ s.pathDown ce.id = true ∧ s.concerned ce.id (s.tokenAt ce h) = some r :=
  ⟨fabricIn.setCirc 22 { Circ.init with pend := [⟨0, 0⟩] }, circ22, slot22, 1, 0, ⟨0, 0⟩, by decide +kernel⟩

theorem test_meets_SlotInstances_10 :
    ∃ (s : State) (ce : CircEntry) (e : SlotEntry) (h n : Nat), (s.epFenced ce.dst || (s.hops ce.id).any s.resFenced) = false ∧
      s.linkAgain ce.id (some e) = false ∧ s.pathDown ce.id = false ∧ ((e.kind = 7 ∧ s.timeHolds = true) ∨ s.slotTraced e = true ∨
      s.producerHeld ce = true) ∧ (e.kind = 7 → s.timeHolds = true → s.slotTraced e = false) :=
  ⟨running, circ16, { slot16 with kind := 7 }, 0, 0, by decide +kernel⟩

theorem test_meets_SlotInstances_11 :
    ∃ (s : State) (ce : CircEntry) (e : SlotEntry) (n : Nat), (s.epFenced ce.dst || (s.hops ce.id).any s.resFenced) = false ∧
      s.linkAgain ce.id (some e) = false ∧ s.pathDown ce.id = false ∧ (e.kind == 7 && s.timeHolds) = false ∧ s.slotTraced e = false ∧
      s.producerHeld ce = false ∧ s.hasCredit ce = false :=
  ⟨running, circ16, slot16, 0, by decide +kernel⟩

theorem test_meets_SlotInstances_12 :
    ∃ (s : State) (ce : CircEntry) (e : SlotEntry) (n : Nat), (s.epFenced ce.dst || (s.hops ce.id).any s.resFenced) = false ∧
      s.linkAgain ce.id (some e) = false ∧ s.pathDown ce.id = false ∧ (e.kind == 7 && s.timeHolds) = false ∧ s.slotTraced e = false ∧
      s.producerHeld ce = false ∧ s.hasCredit ce = true :=
  ⟨running.setCirc 17 { Circ.init with credits := 1 }, circ17, slot17, 0, by decide +kernel⟩

theorem test_meets_SlipsCreditsAudits_1 :
    ∃ (s u : State) (c : Nat) (ce : CircEntry) (e : SlotEntry), s.circEntry c = some ce ∧ ce.slipLimit ≠ 0 ∧ ce.slipLimit ≤ (s.circ
      c).run ∧ (s.circ c).pend.isEmpty = false ∧ s.lastSlot c = some e ∧ (if ce.part < 16 then ((s.setCirc c
      { s.circ c with run := 0 }).raise Fld.HUB_SLIP_MAX_LIMIT_HIT ce.part).setFld Fld.HUB_SLIP_MAX_CIRCUIT ce.part c else s.setCirc c
      { s.circ c with run := 0 }) = u :=
  by exact ⟨slipping.setCirc 18 { Circ.init with pend := [⟨0, 0⟩], run := 3 }, _, 18, circ18, slot18, by decide +kernel, by decide +kernel, by decide +kernel,
    by decide +kernel, by decide +kernel, rfl⟩

theorem test_meets_SlipsCreditsAudits_2 :
    ∃ (s : State) (c : Nat), (∀ ce, s.circEntry c = some ce → ce.slipLimit = 0 ∨ (s.circ c).run < ce.slipLimit ∨ (s.circ c).pend.isEmpty
      = true) :=
  by exact ⟨running, 16, fun ce h => .inr (.inr (by rfl))⟩

theorem test_meets_SlipsCreditsAudits_3 :
    ∃ (s : State) (c : Nat) (ce : CircEntry), s.circEntry c = some ce ∧ ce.src / 4096 ≠ 5 ∧ (s.circ c).returning ≠ 0 :=
  ⟨running.setCirc 17 { Circ.init with returning := 1 }, 17, circ17, by decide +kernel⟩

theorem test_meets_SlipsCreditsAudits_4 :
    ∃ (s : State) (c : Nat) (ce : CircEntry), s.circEntry c = some ce ∧ ce.src / 4096 = 5 ∧ ce.dst / 4096 ≠ 5 ∧ 0 < (s.circ c).returning :=
  ⟨fabricIn.setCirc 22 { Circ.init with returning := 1 }, 22, circ22, by decide +kernel⟩

theorem test_meets_SlipsCreditsAudits_5 :
    ∃ (s : State) (c : Nat) (ce : CircEntry), s.circEntry c = some ce ∧ ce.src / 4096 = 5 ∧ ce.dst / 4096 = 1 ∧ (s.circ c).returning = 0
      ∧ s.occupied c < (s.circ c).held :=
  ⟨fabricIn.setCirc 22 { Circ.init with held := 1 }, 22, circ22, by decide +kernel⟩

theorem test_meets_SlipsCreditsAudits_6 :
    ∃ (s : State) (c : Nat), (s.circ c).returning = 0 ∧ (s.circ c).held ≤ s.occupied c :=
  ⟨running, 17, by decide +kernel⟩

theorem test_meets_SlipsCreditsAudits_7 :
    ∃ (s : State) (rq : Requester) (w : Nat), s.acceptsWrite rq .HUB_AUDIT_SNAP 0 = true :=
  ⟨State.reset, fromModule, 1, by decide +kernel⟩

theorem test_meets_SlipsCreditsAudits_8 :
    ∃ (s : State), s.ft % 64 = 0 :=
  ⟨State.reset, by decide +kernel⟩

theorem test_meets_SlipsCreditsAudits_9 :
    ∃ (s : State), s.ft % 64 ≠ 0 :=
  ⟨withTime State.reset (fun t => { t with ft := 1 }), by decide +kernel⟩

theorem test_meets_ImageLoads_1 :
    ∃ (s : State) (rq : Requester), s.acceptsWrite rq .HUB_SIMG_CTL 0 = true ∧ s.isUp = true ∧ s.phase = 0 ∧ s.flag
      Fld.HUB_SIMG_STATUS_NEXT_PENDING = false :=
  ⟨up, fromModule, by decide +kernel⟩

theorem test_meets_ImageLoads_2 :
    ∃ (s : State) (rq : Requester), s.acceptsWrite rq .HUB_SIMG_CTL 0 = true ∧ s.isUp = true ∧ 1 ≤ s.phase :=
  ⟨up.setPhaseOf 2, fromModule, by decide +kernel⟩

theorem test_meets_ImageLoads_3 :
    ∃ (s : State) (rq : Requester), s.acceptsWrite rq .HUB_SIMG_CTL 0 = true ∧ s.phase = 2 :=
  ⟨up.setPhaseOf 2, fromModule, by decide +kernel⟩

theorem test_meets_ImageLoads_4 :
    ∃ (s : State) (rq : Requester), s.acceptsWrite rq .HUB_SIMG_CTL 0 = true ∧ s.phase = 4 :=
  ⟨up.setPhaseOf 4, fromModule, by decide +kernel⟩

theorem test_meets_ImageLoads_5 :
    ∃ (s : State) (rq : Requester), s.acceptsWrite rq .HUB_SIMG_CTL 0 = true ∧ s.proposalCode (s.fld Fld.HUB_SOLSTICE_TARGET) none = 0 ∧
      s.localAgain (s.fld Fld.HUB_SOLSTICE_TARGET) = false :=
  ⟨staged.setFld Fld.HUB_SOLSTICE_TARGET 0 (2 ^ 20), fromModule, by decide +kernel⟩

theorem test_meets_ImageLoads_6 :
    ∃ (s : State) (rq : Requester), s.acceptsWrite rq .HUB_SIMG_CTL 0 = true ∧ s.proposalCode (s.fld Fld.HUB_SOLSTICE_TARGET) none ≠ 0 ∧
      s.localAgain (s.fld Fld.HUB_SOLSTICE_TARGET) = false :=
  ⟨up, fromModule, by decide +kernel⟩

theorem test_meets_ImageLoads_7 :
    ∃ (s : State) (f : Fetch), s.loadOf true = some f ∧ f.torn = true ∧ s.phase = 1 :=
  ⟨withBoot (up.setPhaseOf 1) (fun b => { b with load := some ⟨0, 0, 64, [], true⟩ }), ⟨0, 0, 64, [], true⟩, by decide +kernel⟩

theorem test_meets_SolsticeNotices_1 :
    ∃ (s : State) (port : Nat) (n : Notice), noticeKind n = nkPropose ∧ (s.takeNotice port n).fromManager n = true ∧ (s.takeNotice port
      n).sameProposal (noticeTarget n) ((n.drop 0x40).take 64) = false ∧ (s.takeNotice port n).proposalCode (noticeTarget n) (some
      (noticeGroup n, (n.drop 0x40).take 64)) = 0 :=
  ⟨managed staged, 0, propose, by decide +kernel⟩

theorem test_meets_SolsticeNotices_2 :
    ∃ (s : State) (port : Nat) (n : Notice), noticeKind n = nkPropose ∧ (s.takeNotice port n).fromManager n = false :=
  ⟨State.reset, 0, propose, by decide +kernel⟩

theorem test_meets_SolsticeNotices_3 :
    ∃ (s : State) (port : Nat) (n : Notice) (x : Solstice), noticeKind n = nkCommit ∧ (s.takeNotice port n).fromManager n = true ∧
      (s.takeNotice port n).img.solstice = some x ∧ (s.takeNotice port n).phase = 4 ∧ x.s = noticeTarget n :=
  ⟨solstice (managed staged) 4 ⟨2 ^ 20, false, false, 0⟩, 0, noticeOf 4 (2 ^ 20), ⟨2 ^ 20, false, false, 0⟩, by decide +kernel⟩

theorem test_meets_SolsticeNotices_4 :
    ∃ (s : State) (port : Nat) (n : Notice), noticeKind n = nkAbort ∧ (s.takeNotice port n).fromManager n = true ∧ (s.takeNotice port
      n).phase = 4 :=
  ⟨solstice (managed staged) 4 ⟨2 ^ 20, false, false, 0⟩, 0, noticeOf 5 (2 ^ 20), by decide +kernel⟩

theorem test_meets_SolsticeNotices_5 :
    ∃ (s : State) (port : Nat) (n : Notice), noticeKind n = nkAccept :=
  ⟨State.reset, 0, noticeOf 2 0, by decide +kernel⟩

theorem test_meets_SolsticeNotices_6 :
    ∃ (s : State) (port : Nat) (n : Notice), noticeKind n = nkRefuse :=
  ⟨State.reset, 0, noticeOf 3 0, by decide +kernel⟩

theorem test_meets_SolsticeBeats_1 :
    ∃ (s : State) (x : Solstice) (im : Image), s.img.solstice = some x ∧ s.img.staged = some im ∧ s.phase = 3 ∧ s.ft ≤ x.s - 62500 ∧
      s.slicesReady = true ∧ ((bitsOf 16 (s.fld Fld.HUB_SIMG_STATUS_SCOPE)).all (fun p => s.partIdle p && (s.auditSums p).balance)) =
      true ∧ x.sole = true :=
  ⟨solstice staged 3 ⟨2 ^ 20, true, false, 0⟩, ⟨2 ^ 20, true, false, 0⟩, stagedImage, by decide +kernel⟩

theorem test_meets_SolsticeBeats_2 :
    ∃ (s : State) (x : Solstice), s.img.solstice = some x ∧ s.phase = 3 ∧ x.s - 62500 ≤ s.ft ∧ x.sole = true :=
  ⟨solstice staged 3 ⟨62500, true, false, 0⟩, ⟨62500, true, false, 0⟩, by decide +kernel⟩

theorem test_meets_SolsticeBeats_3 :
    ∃ (s : State) (x : Solstice), s.img.solstice = some x ∧ x.s - 12500 ≤ s.ft ∧ s.phase = 4 ∧ x.committed = true ∧ tbLocked ≤ s.tbState :=
  ⟨(solstice staged 4 ⟨12500, true, true, 0⟩).setFld Fld.HUB_FT_STATUS_STATE 0 2, ⟨12500, true, true, 0⟩, by decide +kernel⟩

theorem test_meets_SolsticeBeats_4 :
    ∃ (s : State) (x : Solstice), s.img.solstice = some x ∧ x.s - 12500 ≤ s.ft ∧ s.phase = 4 ∧ x.committed = false :=
  ⟨solstice staged 4 ⟨12500, false, false, 0⟩, ⟨12500, false, false, 0⟩, by decide +kernel⟩

theorem test_meets_SolsticeBeats_5 :
    ∃ (s : State) (x : Solstice) (im : Image), s.img.solstice = some x ∧ s.img.staged = some im ∧ s.phase = 5 ∧ x.s ≤ s.ft ∧ im.hdr.kind
      ≠ 2 :=
  ⟨solstice staged 5 ⟨0, true, true, 0⟩, ⟨0, true, true, 0⟩, stagedImage, by decide +kernel⟩

theorem test_meets_SolsticeBeats_6 :
    ∃ (s : State) (x : Solstice), s.img.solstice = some x ∧ s.phase = 5 ∧ x.s + 1 ≤ s.ft ∧ s.img.staged = none :=
  ⟨withTime (solstice up 5 ⟨0, true, true, 0⟩) (fun t => { t with ft := 1 }), ⟨0, true, true, 0⟩, by decide +kernel⟩

theorem test_meets_RingAndCommandStarts_1 :
    ∃ (s : State) (c : Nat), c < 256 ∧ s.pollBeat c = true ∧ s.ctxRuns c = true ∧ s.partRuns (s.partOfCtx c) = true ∧ s.quiescing
      (s.partOfCtx c) = false ∧ (s.ctx c).fetch = none :=
  ⟨running.setCtx 0 { Ctx.init with st := .running }, 0, by decide +kernel⟩

theorem test_meets_RingAndCommandStarts_2 :
    ∃ (s : State) (c : Nat), c < 256 ∧ s.pollBeat c = true ∧ s.ctxRuns c = true ∧ s.partRuns (s.partOfCtx c) = true ∧ s.quiescing
      (s.partOfCtx c) = false ∧ (s.ctx c).fetch.isSome = true :=
  ⟨fetching, 0, by decide +kernel⟩

theorem test_meets_RingAndCommandStarts_3 :
    ∃ (s : State) (c : Nat) (m : Cmd), (s.ctx c).next = some m ∧ s.ctxRuns c = true ∧ s.partRuns (s.partOfCtx c) = true ∧ (s.ctx
      c).mayStart m = true ∧ (m.opcode ≠ 3 ∨ m.recordsRead = true) ∧ s.startReason m = 0 :=
  ⟨waiting (cmdOf 0 0 0 []), 0, { cmdOf 0 0 0 [] with started := false }, by decide +kernel⟩

theorem test_meets_RingAndCommandStarts_4 :
    ∃ (s : State) (c : Nat) (m : Cmd), (s.ctx c).next = some m ∧ s.ctxRuns c = true ∧ s.partRuns (s.partOfCtx c) = true ∧ (s.ctx
      c).mayStart m = true ∧ (m.opcode ≠ 3 ∨ m.recordsRead = true) ∧ s.startReason m ≠ 0 :=
  ⟨waiting twoHists, 0, { twoHists with started := false }, by decide +kernel⟩

theorem test_meets_RingAndCommandStarts_5 :
    ∃ (s : State) (c q : Nat) (m : Cmd), s.acting ⟨c, q⟩ 0 = some m :=
  ⟨acts 0 0 0 [], 0, 0, cmdOf 0 0 0 [], by decide +kernel⟩

theorem test_meets_RingAndCommandStarts_6 :
    ∃ (s : State) (c q : Nat) (m : Cmd), s.acting ⟨c, q⟩ 6 = some m :=
  ⟨acts 6 0 0 [], 0, 0, cmdOf 6 0 0 [], by decide +kernel⟩

theorem test_meets_RingAndCommandStarts_7 :
    ∃ (s : State) (c q : Nat) (m : Cmd), s.acting ⟨c, q⟩ 8 = some m :=
  ⟨acts 8 0 0 [], 0, 0, cmdOf 8 0 0 [], by decide +kernel⟩

theorem test_meets_RingAndCommandStarts_8 :
    ∃ (s : State) (c q : Nat) (m : Cmd), s.acting ⟨c, q⟩ 7 = some m :=
  ⟨acts 7 0 0 [], 0, 0, cmdOf 7 0 0 [], by decide +kernel⟩

theorem test_meets_RingAndCommandStarts_9 :
    ∃ (s : State) (c q : Nat) (m : Cmd), s.cmd ⟨c, q⟩ = some m ∧ m.opcode = 7 ∧ m.installed = true ∧ m.finished = false ∧ s.ctxOpens c =
      false ∧ (s.ctx c).st = .running ∧ (s.ctx c).covered = 0 :=
  ⟨holds { cmdOf 7 0 0 [] with installed := true }, 0, 0, { cmdOf 7 0 0 [] with installed := true }, by decide +kernel⟩

theorem test_meets_RingAndCommandStarts_10 :
    ∃ (s u : State) (c q : Nat) (m : Cmd), s.doReverts (fun v => v.cmd == (⟨c, q⟩ : CmdRef)) = u ∧ u.cmd ⟨c, q⟩ = some m ∧ (u.ctx c).st
      ≠ .ending ∧ (u.ctx c).st ≠ .free ∧ u.effectDone ⟨c, q⟩ m = true ∧ m.latched = true :=
  by exact ⟨holds { cmdOf 0 0 0 [] with finished := true, latched := true }, _, 0, 0,
    { cmdOf 0 0 0 [] with finished := true, latched := true }, rfl, by decide +kernel, by decide +kernel, by decide +kernel, by decide +kernel, by decide +kernel⟩

theorem test_meets_RingAndCommandStarts_11 :
    ∃ (s u : State) (c q : Nat) (m : Cmd), s.doReverts (fun v => v.cmd == (⟨c, q⟩ : CmdRef)) = u ∧ u.cmd ⟨c, q⟩ = some m ∧ u.effectDone
      ⟨c, q⟩ m = false :=
  by exact ⟨holds (cmdOf 0 0 0 []), _, 0, 0, cmdOf 0 0 0 [], rfl, by decide +kernel, by decide +kernel⟩

theorem test_meets_CommandEffects_1 :
    ∃ (s t : State) (c q : Nat) (m : Cmd), s.acting ⟨c, q⟩ 1 = some m ∧ s.qfreeBusy m = false ∧ applyAll (fun s => s.checkQcfg c) (fun s
      => s.applyQcfg c) 0 (cutEntries 16 (fieldAt m.slot 0x20 8) (m.slot.drop 0x40)) s = .inr t :=
  by exact ⟨acts 1 0 0 [], acts 1 0 0 [], 0, 0, cmdOf 1 0 0 [], by decide +kernel, by decide +kernel, rfl⟩

theorem test_meets_CommandEffects_2 :
    ∃ (s : State) (c q : Nat) (m : Cmd), s.acting ⟨c, q⟩ 2 = some m ∧ s.qfreeBusy m = true :=
  ⟨busyFree, 0, 0, cmdOf 2 1 0 (leBytes 8 0), by decide +kernel⟩

theorem test_meets_CommandEffects_3 :
    ∃ (s t : State) (c q : Nat) (m : Cmd), s.acting ⟨c, q⟩ 2 = some m ∧ s.qfreeBusy m = false ∧ applyAll (fun s => s.checkQfree c)
      State.applyQfree 0 (cutEntries 8 (fieldAt m.slot 0x20 8) (m.slot.drop 0x40)) s = .inr t :=
  by exact ⟨acts 2 0 0 [], acts 2 0 0 [], 0, 0, cmdOf 2 0 0 [], by decide +kernel, by decide +kernel, rfl⟩

theorem test_meets_CommandEffects_4 :
    ∃ (s : State) (c q : Nat) (m : Cmd) (l : List Nat), s.acting ⟨c, q⟩ 3 = some m ∧ m.installed = false ∧ s.recoversFor (launchRecords
      m) = false ∧ (histAddrs (launchRecords m)).length ≤ 1 ∧ s.checkRecords ⟨c, q⟩ m.coresField 0 (launchRecords m) [] = .inr l :=
  ⟨acts 3 0 0 [], 0, 0, cmdOf 3 0 0 [], [], by decide +kernel⟩

theorem test_meets_CommandEffects_5 :
    ∃ (s t : State) (c q : Nat) (m : Cmd), s.accessing ⟨c, q⟩ 4 = some m ∧ s.cmdWrite ⟨c, q⟩ m m.arg0 ((m.slot.drop 0x40).take (fieldAt
      m.slot 0xC 2)) = some (t, true) :=
  by exact ⟨acts 4 0x1_0000_0000 0 [1], _, 0, 0, cmdOf 4 0x1_0000_0000 0 [1], by decide +kernel, rfl⟩

theorem test_meets_CommandEffects_6 :
    ∃ (s : State) (c q : Nat) (m : Cmd), s.accessing ⟨c, q⟩ 5 = some m ∧ s.readOpen ⟨c, q⟩ = false :=
  ⟨acts 5 0 0 [8], 0, 0, cmdOf 5 0 0 [8], by decide +kernel⟩

theorem test_meets_CommandEffects_7 :
    ∃ (s u : State) (c q : Nat) (m : Cmd) (pa n st : Nat) (b : List Byte), s.accessing ⟨c, q⟩ 8 = some m ∧ m.installed = true ∧
      s.pollBeat c = true ∧ s.readOpen ⟨c, q⟩ = false ∧ s.xlateOne m.phys cmdCache c 1 m.arg0 = .ok pa n ∧ s.issueRead (s.cmdRq c) (some
      ⟨c, q⟩) pa 8 (.wait ⟨c, q⟩) 4 = (u, .done st b) :=
  by exact ⟨holds { cmdOf 8 0x1_0000_0000 0 [] with installed := true }, _, 0, 0, { cmdOf 8 0x1_0000_0000 0 [] with installed := true },
    0x1_0000_0000, 0, _, _, by decide +kernel, by decide +kernel, by decide +kernel, by decide +kernel, by decide +kernel, rfl⟩

theorem test_meets_CommandEffects_8 :
    ∃ (s t : State) (c q : Nat) (m : Cmd), s.accessing ⟨c, q⟩ 9 = some m ∧ s.cmdWrite ⟨c, q⟩ m m.arg0 (leBytes 8 m.startBeat) = some (t,
      true) :=
  by exact ⟨acts 9 0x1_0000_0000 0 [], _, 0, 0, cmdOf 9 0x1_0000_0000 0 [], by decide +kernel, rfl⟩

theorem test_meets_ContextOperations_1 :
    ∃ (s : State) (rq : Requester) (c b : Nat), s.acceptsWrite rq .HUB_CTX_CTL c = true ∧ c < 256 ∧ (b ||| 1) % 16 = 1 ∧ (s.ctx c).st =
      .free :=
  ⟨running, fromModule, 0, 0, by decide +kernel⟩

theorem test_meets_ContextOperations_2 :
    ∃ (s : State) (rq : Requester) (c b : Nat), s.acceptsWrite rq .HUB_CTX_CTL c = true ∧ c < 256 ∧ (b ||| 1) % 16 = 1 ∧ (s.ctx c).st ≠
      .free :=
  ⟨running.setCtx 0 { Ctx.init with st := .running }, fromModule, 0, 0, by decide +kernel⟩

theorem test_meets_ContextOperations_3 :
    ∃ (s : State) (rq : Requester) (c b : Nat), s.acceptsWrite rq .HUB_CTX_CTL c = true ∧ c < 256 ∧ (b ||| 2) % 16 = 2 ∧ (s.ctx c).st =
      .running ∧ s.isReplaying c = false :=
  ⟨running.setCtx 0 { Ctx.init with st := .running }, fromModule, 0, 0, by decide +kernel⟩

theorem test_meets_ContextOperations_4 :
    ∃ (s : State) (rq : Requester) (c b : Nat), s.acceptsWrite rq .HUB_CTX_CTL c = true ∧ c < 256 ∧ (b ||| 4) % 16 = 4 ∧ (s.ctx c).st =
      .preempted :=
  ⟨running.setCtx 0 { Ctx.init with st := .preempted }, fromModule, 0, 0, by decide +kernel⟩

theorem test_meets_ContextOperations_5 :
    ∃ (s : State) (rq : Requester) (c b : Nat), s.acceptsWrite rq .HUB_CTX_CTL c = true ∧ c < 256 ∧ (b ||| 8) % 16 = 8 ∧ (s.ctx c).st =
      .running :=
  ⟨running.setCtx 0 { Ctx.init with st := .running }, fromModule, 0, 0, by decide +kernel⟩

theorem test_meets_ContextOperations_6 :
    ∃ (s : State) (rq : Requester) (c b : Nat), s.acceptsWrite rq .HUB_CTX_CTL c = true ∧ c < 256 ∧ (b ||| 8) % 16 ≠ 8 ∧ 8 ≤ (b ||| 8) %
      16 :=
  ⟨running, fromModule, 0, 2, by decide +kernel⟩

theorem test_meets_PreemptionSaves_1 :
    ∃ (s : State) (e c : Nat), s.ctxIds.find? (s.savable e) = some c :=
  ⟨((running.setCtx 0 { Ctx.init with st := .preempting }).setEntry 0 0 (some entry0)).setEngine 0 engine0, 0, 0, by decide +kernel⟩

theorem test_meets_PreemptionSaves_2 :
    ∃ (s : State) (e c i : Nat) (v : EngineSave), s.fld Fld.CO_SAVE_CFG_SLOTS (e / 4) ≠ 0 ∧ s.freeSlot e = none ∧ s.oldestSave e = some
      (c, v) ∧ v.slot = some i ∧ (s.writeLocal (s.cmdRq c) none (s.saveArea c e) (s.bytes (slotAddr e i) saveBytes)).2 = stOk :=
  by exact ⟨saving, 0, 0, 0, save0, by decide +kernel, by decide +kernel, by decide +kernel, by decide +kernel, by decide +kernel⟩

theorem test_meets_PreemptionSaves_3 :
    ∃ (s : State) (c : Nat), (s.ctx c).st = .preempting ∧ s.isSuspect c = false ∧ s.firingsRun c = false ∧ s.enginesHold c = false ∧
      (s.ctx c).saveErr = 0 ∧ (s.ctx c).haltAfter = false :=
  ⟨running.setCtx 0 { Ctx.init with st := .preempting }, 0, by decide +kernel⟩

theorem test_meets_PreemptionSaves_4 :
    ∃ (s : State) (c : Nat), (s.ctx c).st = .preempting ∧ s.isSuspect c = false ∧ s.firingsRun c = false ∧ s.enginesHold c = false ∧
      (s.ctx c).saveErr ≠ 0 :=
  ⟨running.setCtx 0 { Ctx.init with st := .preempting, saveErr := 1 }, 0, by decide +kernel⟩

theorem test_meets_VectorPrograms_1 :
    ∃ (s : State) (k i : Nat) (x : Entry), s.vecRun k = none ∧ s.lowestEntry k (fun _ x => s.vectorReady k x) = some (i, x) :=
  ⟨withEntry (holds (cmdOf 3 0 0 [])) (unitDesc 2), 0, 0, unitEntry (unitDesc 2), by decide +kernel⟩

theorem test_meets_VectorPrograms_2 :
    ∃ (s : State) (k w : Nat) (r : VecRun) (x : Entry), s.vecNext k 0x00 = some (r, x, w) :=
  ⟨vecState 0, 0, vecWord 0, ⟨0, 0, 0, false⟩, vecEntry 0, by decide +kernel⟩

theorem test_meets_VectorPrograms_3 :
    ∃ (s : State) (k w : Nat) (r : VecRun) (x : Entry) (ty : FCode), s.vecNext k 0x01 = some (r, x, w) ∧ FCode.ofCode (vType w) = some
      ty :=
  ⟨vecState 0x1, 0, vecWord 0x1, ⟨0, 0, 0, false⟩, vecEntry 0x1, .b32, by decide +kernel⟩

theorem test_meets_VectorPrograms_4 :
    ∃ (s : State) (k w : Nat) (r : VecRun) (x : Entry) (ty : FCode), s.vecNext k 0x02 = some (r, x, w) ∧ FCode.ofCode (vType w) = some
      ty :=
  ⟨vecState 0x2, 0, vecWord 0x2, ⟨0, 0, 0, false⟩, vecEntry 0x2, .b32, by decide +kernel⟩

theorem test_meets_VectorPrograms_5 :
    ∃ (s : State) (k w : Nat) (r : VecRun) (x : Entry) (ty : FCode), s.vecNext k 0x03 = some (r, x, w) ∧ FCode.ofCode (vType w) = some
      ty :=
  ⟨vecState 0x3, 0, vecWord 0x3, ⟨0, 0, 0, false⟩, vecEntry 0x3, .b32, by decide +kernel⟩

theorem test_meets_VectorPrograms_6 :
    ∃ (s : State) (k w : Nat) (r : VecRun) (x : Entry) (ty : FCode), s.vecNext k 0x04 = some (r, x, w) ∧ FCode.ofCode (vType w) = some
      ty :=
  ⟨vecState 0x4, 0, vecWord 0x4, ⟨0, 0, 0, false⟩, vecEntry 0x4, .b32, by decide +kernel⟩

theorem test_meets_VectorPrograms_7 :
    ∃ (s : State) (k w : Nat) (r : VecRun) (x : Entry) (ty : FCode), s.vecNext k 0x05 = some (r, x, w) ∧ FCode.ofCode (vType w) = some
      ty :=
  ⟨vecState 0x5, 0, vecWord 0x5, ⟨0, 0, 0, false⟩, vecEntry 0x5, .b32, by decide +kernel⟩

theorem test_meets_VectorPrograms_8 :
    ∃ (s : State) (k w : Nat) (r : VecRun) (x : Entry) (ty : FCode), s.vecNext k 0x06 = some (r, x, w) ∧ FCode.ofCode (vType w) = some
      ty :=
  ⟨vecState 0x6, 0, vecWord 0x6, ⟨0, 0, 0, false⟩, vecEntry 0x6, .b32, by decide +kernel⟩

theorem test_meets_VectorPrograms_9 :
    ∃ (s : State) (k w : Nat) (r : VecRun) (x : Entry) (ty : FCode), s.vecNext k 0x07 = some (r, x, w) ∧ FCode.ofCode (vType w) = some
      ty :=
  ⟨vecState 0x7, 0, vecWord 0x7, ⟨0, 0, 0, false⟩, vecEntry 0x7, .b32, by decide +kernel⟩

theorem test_meets_VectorPrograms_10 :
    ∃ (s : State) (k w : Nat) (r : VecRun) (x : Entry) (ty : FCode), s.vecNext k 0x0d = some (r, x, w) ∧ FCode.ofCode (vType w) = some
      ty :=
  ⟨vecState 0xd, 0, vecWord 0xd, ⟨0, 0, 0, false⟩, vecEntry 0xd, .b32, by decide +kernel⟩

theorem test_meets_VectorPrograms_11 :
    ∃ (s : State) (k w : Nat) (r : VecRun) (x : Entry) (ty : FCode), s.vecNext k 0x0e = some (r, x, w) ∧ FCode.ofCode (vType w) = some
      ty :=
  ⟨vecState 0xe, 0, vecWord 0xe, ⟨0, 0, 0, false⟩, vecEntry 0xe, .b32, by decide +kernel⟩

theorem test_meets_VectorPrograms_12 :
    ∃ (s : State) (k w : Nat) (r : VecRun) (x : Entry) (ty : FCode), s.vecNext k 0x0f = some (r, x, w) ∧ FCode.ofCode (vType w) = some
      ty :=
  ⟨vecState 0xf, 0, vecWord 0xf, ⟨0, 0, 0, false⟩, vecEntry 0xf, .b32, by decide +kernel⟩

theorem test_meets_VectorPrograms_13 :
    ∃ (s : State) (k w : Nat) (r : VecRun) (x : Entry) (ty : FCode), s.vecNext k 0x10 = some (r, x, w) ∧ FCode.ofCode (vType w) = some
      ty :=
  ⟨vecState 0x10, 0, vecWord 0x10, ⟨0, 0, 0, false⟩, vecEntry 0x10, .b32, by decide +kernel⟩

theorem test_meets_VectorPrograms_14 :
    ∃ (s : State) (k w : Nat) (r : VecRun) (x : Entry) (ty : FCode), s.vecNext k 0x08 = some (r, x, w) ∧ FCode.ofCode (vType w) = some
      ty :=
  ⟨vecState 0x8, 0, vecWord 0x8, ⟨0, 0, 0, false⟩, vecEntry 0x8, .b32, by decide +kernel⟩

theorem test_meets_VectorPrograms_15 :
    ∃ (s : State) (k w : Nat) (r : VecRun) (x : Entry) (ty : FCode), s.vecNext k 0x09 = some (r, x, w) ∧ FCode.ofCode (vType w) = some
      ty :=
  ⟨vecState 0x9, 0, vecWord 0x9, ⟨0, 0, 0, false⟩, vecEntry 0x9, .b32, by decide +kernel⟩

theorem test_meets_VectorPrograms_16 :
    ∃ (s : State) (k w : Nat) (r : VecRun) (x : Entry) (ty : FCode), s.vecNext k 0x0a = some (r, x, w) ∧ FCode.ofCode (vType w) = some
      ty :=
  ⟨vecState 0xa, 0, vecWord 0xa, ⟨0, 0, 0, false⟩, vecEntry 0xa, .b32, by decide +kernel⟩

theorem test_meets_VectorPrograms_17 :
    ∃ (s : State) (k w : Nat) (r : VecRun) (x : Entry), s.vecNext k 0x0b = some (r, x, w) :=
  ⟨vecState 0xb, 0, vecWord 0xb, ⟨0, 0, 0, false⟩, vecEntry 0xb, by decide +kernel⟩

theorem test_meets_VectorPrograms_18 :
    ∃ (s : State) (k w : Nat) (r : VecRun) (x : Entry) (ty tz : FCode), s.vecNext k 0x0c = some (r, x, w) ∧ FCode.ofCode (vType w) =
      some ty ∧ FCode.ofCode (vType2 w) = some tz :=
  ⟨vecState 0xc, 0, vecWord 0xc, ⟨0, 0, 0, false⟩, vecEntry 0xc, .b32, .z4, by decide +kernel⟩

theorem test_meets_VectorPrograms_19 :
    ∃ (s : State) (k w : Nat) (r : VecRun) (x : Entry) (ty : FCode), s.vecNext k 0x11 = some (r, x, w) ∧ FCode.ofCode (vType w) = some
      ty :=
  ⟨vecState 0x11, 0, vecWord 0x11, ⟨0, 0, 0, false⟩, vecEntry 0x11, .b32, by decide +kernel⟩

theorem test_meets_VectorPrograms_20 :
    ∃ (s : State) (k w : Nat) (r : VecRun) (x : Entry) (ty : FCode), s.vecNext k 0x12 = some (r, x, w) ∧ FCode.ofCode (vType w) = some
      ty :=
  ⟨vecState 0x12, 0, vecWord 0x12, ⟨0, 0, 0, false⟩, vecEntry 0x12, .b32, by decide +kernel⟩

theorem test_meets_VectorPrograms_21 :
    ∃ (s : State) (k w first : Nat) (r : VecRun) (x : Entry) (q : Queue) (a b : FCode), s.vecNext k 0x20 = some (r, x, w) ∧ s.vecSlots k
      x w = some (q, first) ∧ FCode.ofCode (vType w) = some a ∧ FCode.ofCode (vType2 w) = some b :=
  ⟨vecState 0x20, 0, vecWord 0x20, 0, ⟨0, 0, 0, false⟩, vecEntry 0x20, Queue.none, .b32, .z4, by decide +kernel⟩

theorem test_meets_VectorPrograms_22 :
    ∃ (s : State) (k w first : Nat) (r : VecRun) (x : Entry) (q : Queue) (a b : FCode), s.vecNext k 0x21 = some (r, x, w) ∧ s.vecSlots k
      x w = some (q, first) ∧ FCode.ofCode (vType w) = some a ∧ FCode.ofCode (vType2 w) = some b :=
  ⟨vecState 0x21, 0, vecWord 0x21, 0, ⟨0, 0, 0, false⟩, vecEntry 0x21, Queue.none, .b32, .z4, by decide +kernel⟩

theorem test_meets_VectorPrograms_23 :
    ∃ (s : State) (k w first : Nat) (r : VecRun) (x : Entry) (q : Queue) (a b : FCode), s.vecNext k 0x22 = some (r, x, w) ∧ s.vecSlots k
      x w = some (q, first) ∧ FCode.ofCode (vType w) = some a ∧ FCode.ofCode (vType2 w) = some b ∧ b.bits ≠ 4 :=
  ⟨(vecState 0x22).setEntry 0 0 (some vecEntry2), 0, vecWord 0x22 + 2 ^ 48, 0, ⟨0, 0, 0, false⟩, vecEntry2, Queue.none, .b32, .e4m3, by
    decide⟩

theorem test_meets_VectorPrograms_24 :
    ∃ (s : State) (k w first : Nat) (r : VecRun) (x : Entry) (q : Queue) (a b : FCode), s.vecNext k 0x22 = some (r, x, w) ∧ s.vecSlots k
      x w = some (q, first) ∧ FCode.ofCode (vType w) = some a ∧ FCode.ofCode (vType2 w) = some b ∧ b.bits = 4 :=
  ⟨vecState 0x22, 0, vecWord 0x22, 0, ⟨0, 0, 0, false⟩, vecEntry 0x22, Queue.none, .b32, .z4, by decide +kernel⟩

theorem test_meets_VectorLanes_1 :
    ∃ (s : State) (k w opc : Nat) (r : VecRun) (x : Entry) (ty : FCode) (c : Instr) (op : LaneOp), (c, opc, op) ∈ [(Instr.vadd k, 0x01,
      LaneOp.add), (Instr.vsub k, 0x02, LaneOp.sub), (Instr.vmul k, 0x03, LaneOp.mul), (Instr.vfma k, 0x04, LaneOp.fma), (Instr.vmin k,
      0x05, LaneOp.vmin), (Instr.vmax k, 0x06, LaneOp.vmax), (Instr.vaddsat k, 0x07, LaneOp.addSat), (Instr.vrcp k, 0x0d, LaneOp.rcp),
      (Instr.vrsqrt k, 0x0e, LaneOp.rsqrt), (Instr.vexp2 k, 0x0f, LaneOp.exp2), (Instr.vlog2 k, 0x10, LaneOp.log2)] ∧ s.vecNext k opc =
      some (r, x, w) ∧ FCode.ofCode (vType w) = some ty :=
  by exact ⟨vecState 4, 0, vecWord 4, 4, ⟨0, 0, 0, false⟩, vecEntry 4, .b32, .vfma 0, .fma, by decide +kernel, by decide +kernel, by decide +kernel⟩

theorem test_meets_EngineAccumulates_1 :
    ∃ (s : State) (e b : Nat) (x : Entry), (s.engine e).accumulating = some b ∧ s.entry (e / 4) ((s.engine e).bank b).entry = some x ∧
      (s.engine e).opnd = none ∧ s.engineHung e = false ∧ ((s.engine e).bank b).k < engK x.desc ∧ (((s.engine e).bank b).k % 64 == 0) =
      false :=
  ⟨engineAt 1, 0, 0, unitEntry (unitDesc 1), by decide +kernel⟩

theorem test_meets_EngineAccumulates_2 :
    ∃ (s : State) (e b i : Nat) (x : Entry), (s.engine e).freeBank = some b ∧ s.lowestEntry (e / 4) (s.engineReady e) = some (i, x) ∧
      s.engineHung e = false ∧ engInitLoad x.desc = false :=
  ⟨(withEntry (holds (cmdOf 3 0 0 [])) (unitDesc 1)).setQueue 0 0 { Queue.none with tokens := 2 }, 0, 0, 0, unitEntry (unitDesc 1), by
    decide⟩

theorem test_meets_EngineAccumulates_3 :
    ∃ (s : State) (e b : Nat) (x : Entry), ((s.engine e).bank b).st = .completed ∧ (s.engine e).drain = none ∧ (s.engine
      e).olderCompleted b = false ∧ s.engineHung e = false ∧ s.entry (e / 4) ((s.engine e).bank b).entry = some x ∧ (s.queue (e / 4)
      (outQueue x.desc 0)).credits ≠ 0 ∧ (s.ctx x.ctx).st.drains = true ∧ fieldAt x.desc 0x23 1 ≠ 0 :=
  ⟨(drainAt none).setQueue 0 0 { Queue.none with depth := 1 }, 0, 0, unitEntry (unitDesc 1), by decide +kernel⟩

theorem test_meets_EngineAccumulates_4 :
    ∃ (s : State) (e b : Nat) (x : Entry), ((s.engine e).bank b).st = .completed ∧ (s.engine e).drain = none ∧ (s.engine
      e).olderCompleted b = false ∧ s.engineHung e = false ∧ s.entry (e / 4) ((s.engine e).bank b).entry = some x ∧ (s.queue (e / 4)
      (outQueue x.desc 0)).credits ≠ 0 ∧ (s.ctx x.ctx).st.drains = true ∧ fieldAt x.desc 0x23 1 = 0 ∧ 8 ≤ (s.queue (e / 4) (outQueue
      x.desc 0)).scaleUnits :=
  ⟨(drainZ4).setQueue 0 0 { Queue.none with depth := 1, scaleUnits := 8 }, 0, 0, unitEntry drainDesc4, by decide +kernel⟩

theorem test_meets_EngineAccumulates_5 :
    ∃ (s : State) (e : Nat) (dr : DrainRun) (x : Entry), (s.engine e).drain = some dr ∧ s.entry (e / 4) dr.entry = some x :=
  ⟨drainAt (some ⟨0, 0⟩), 0, ⟨0, 0⟩, unitEntry (unitDesc 1), by decide +kernel⟩

theorem test_meets_EngineAccumulates_6 :
    ∃ (s : State) (k c q cc va : Nat) (m : Cmd) (h : HistFrom) (ps : List (Nat × Nat)), s.cmd ⟨c, q⟩ = some m ∧ s.histWork k ⟨c, q⟩ =
      some (h, cc, va) ∧ (s.ctx h.ctx).st.acts = true ∧ s.stopped (histSite h ⟨c, q⟩).ctx ⟨c, q⟩ k (histSite h ⟨c, q⟩).entry 0 = false ∧
      s.accessHeld ⟨c, q⟩ = false ∧ s.pieces k h.ctx 3 va 3 0 576 = (ps, none) ∧ ps.find? (fun p => !inEndpoint (((s.circEntry cc).map
      (·.dst)).getD 0) p.1 || !inEndpoint (((s.circEntry cc).map (·.dst)).getD 0) (p.1 + p.2 - 1)) = none :=
  ⟨histState, 0, 0, 0, 17, 0x1000_0000_0000, histCmd, ⟨0, 0, 0, 0, 0⟩, [(0x1000_0000_0000, 576)], by decide +kernel⟩

theorem test_meets_EngineStepCells_1 :
    ∃ (s : State) (e b : Nat) (o : Operands) (x : Entry), (s.engine e).accumulating = some b ∧ (s.engine e).opnd = some o ∧ s.entry (e /
      4) ((s.engine e).bank b).entry = some x ∧ o.k = ((s.engine e).bank b).k ∧ s.engineHung e = false ∧ s.coreHeld (e / 4) = false ∧
      s.traceHolds 3 1 (e / 4) (descLayer x.desc) (descOper x.desc) = false :=
  ⟨(engineAt 1).setEngine 0 { (engineAt 1).engine 0 with opnd := some ⟨1, [], []⟩ }, 0, 0, ⟨1, [], []⟩, unitEntry (unitDesc 1), by
    decide⟩

theorem test_meets_TileMovers_1 :
    ∃ (s u : State) (k i : Nat) (x : Entry), s.lowestEntry k (fun _ x => s.moverReady k x) = some (i, x) ∧
      (({ s.takePorts k x.desc with firings := (s.takePorts k x.desc).firings ++ [(⟨k, i, x.started, 0, [], none, none, false, 0, none, .active, 0, false, 0, none⟩ : Firing)] }).countCore
      k 0x0E 0 1).fireStart k i x = u :=
  by exact ⟨withEntry (holds (cmdOf 3 0 0 [])) (moverDesc 16 0), _, 0, 0, unitEntry (moverDesc 16 0), by decide +kernel, rfl⟩

theorem test_meets_TileMovers_2 :
    ∃ (s u : State) (k e f a w : Nat) (fr : Firing) (x : Entry) (ce : CircEntry), s.moverFiring k e f = some (fr, x, ce) ∧ moverTile
      x.desc = true ∧ moverDir x.desc = 0 ∧ fr.stage = .active ∧ fr.pieces = none ∧ s.firingActs k e f x = true ∧ s.tileEntry
      (s.partOfCtx x.ctx) (tileId x.desc fr.f) = some a ∧ s.ttRead (s.moverRq fr.core) a = (u, stOk, w) ∧ tileState w = 1 ∧ formatOk
      (tileFormat w) = true ∧ footprint (tileFormat w) = moverBytes x.desc ∧ inEndpoint ce.src (tileLoc w) = true :=
  by exact ⟨moverAt 16 8 .active tileWord, _, 0, 0, 0, 0x1_0000_0000, tileWord, firing .active, unitEntry (moverDesc 16 8), circ16, by
    decide, by decide +kernel, by decide +kernel, by decide +kernel, by decide +kernel, by decide +kernel, by decide +kernel, rfl, by decide +kernel, by decide +kernel, by decide +kernel, by decide +kernel⟩

theorem test_meets_TileMovers_3 :
    ∃ (s : State) (k e f : Nat) (fr : Firing) (x : Entry) (ce : CircEntry), s.moverFiring k e f = some (fr, x, ce) ∧ fr.stage = .waiting
      ∧ s.firingActs k e f x = true ∧ s.ft % 2 ^ ce.k = 0 ∧ fr.resolvedAt ≠ some s.ft ∧ moverDir x.desc = 0 :=
  ⟨moverAt 16 8 .waiting tileWord, 0, 0, 0, firing .waiting, unitEntry (moverDesc 16 8), circ16, by decide +kernel⟩

theorem test_meets_TileMovers_4 :
    ∃ (s u : State) (k e f a : Nat) (fr : Firing) (x : Entry) (ce : CircEntry), s.moverFiring k e f = some (fr, x, ce) ∧ fr.stage =
      .poisoned ∧ moverTile x.desc = true ∧ s.tileBusy (s.partOfCtx x.ctx) (tileId x.desc f) = false ∧ (s.event ⟨s.ft, 0x8007, 1, k,
      some x.ctx, descLayer x.desc, descOper x.desc, x.cmd.seq, tileLoc fr.word0⟩).failCmd x.cmd stPoisoned = u ∧ u.tileEntry
      (s.partOfCtx x.ctx) (tileId x.desc f) = some a :=
  by exact ⟨(moverAt 16 8 .poisoned tileWord).setFld Fld.CL_EVT_CTL_COPY_MASK 0 0, _, 0, 0, 0, 0x1_0000_0000, firing .poisoned,
    unitEntry (moverDesc 16 8), circ16, by decide +kernel, by decide +kernel, by decide +kernel, by decide +kernel, rfl, by decide +kernel⟩

theorem test_meets_TileMovers_5 :
    ∃ (s : State) (k e f : Nat) (fr : Firing) (x : Entry) (ce : CircEntry), s.moverFiring k e f = some (fr, x, ce) ∧ moverTile x.desc =
      true ∧ moverDir x.desc = 1 ∧ fr.stage = .active ∧ s.firingActs k e f x = true ∧ s.stagerTurn k e f = true ∧ s.tileBusy
      (s.partOfCtx x.ctx) (tileId x.desc f) = false :=
  ⟨moverAt 17 9 .active tileWord, 0, 0, 0, firing .active, unitEntry (moverDesc 17 9), circ17, by decide +kernel⟩

theorem test_meets_TileMovers_6 :
    ∃ (s u v w : State) (k e f a claim next : Nat) (fr : Firing) (x : Entry) (ce : CircEntry), s.doReverts (fun v => v.core == k &&
      v.entry == e && v.f == f) = u ∧ u.moverFiring k e f = some (fr, x, ce) ∧ fr.stage = .claimed claim next ∧ (u.firingsBefore k e
      f).any (fun y => y.stage != .finished) = false ∧ u.undelivered ce.id x.cmd e f = false ∧ u.tileBusy (u.partOfCtx x.ctx) (tileId
      x.desc f) = false ∧ u.firingActs k e f x = true ∧ u.tileEntry (u.partOfCtx x.ctx) (tileId x.desc f) = some a ∧ u.ttSwap (u.moverRq
      k) a claim (putBits (putBits (putBits claim 0 4 1) 8 44 (next / 256)) 52 12 (tileEpoch claim + 1)) = (v, stOk, true) ∧ v.ttWrite
      (u.moverRq k) x.cmd (a + 8) (word1Of 0 (tileLoc claim)) = (w, stOk) :=
  by exact ⟨moverAt 17 9 (.claimed claimWord 0x1000_0000_1000) claimWord, _, _, _, 0, 0, 0, 0x1_0000_0000, claimWord, 0x1000_0000_1000,
    firing (.claimed claimWord 0x1000_0000_1000), unitEntry (moverDesc 17 9), circ17, rfl, by decide +kernel, by decide +kernel, by decide +kernel, by decide +kernel,
    by decide +kernel, by decide +kernel, by decide +kernel, rfl, rfl⟩

theorem test_meets_TileMovers_7 :
    ∃ (s : State) (k e f : Nat) (fr : Firing) (x : Entry) (ce : CircEntry), s.entry k e = some x ∧ descUnit x.desc ≠ 2 ∧ s.moverFiring k
      e f = some (fr, x, ce) ∧ fr.stage = .finished ∧ s.firingsBefore k e f = [] :=
  ⟨moverAt 16 8 .finished tileWord, 0, 0, 0, firing .finished, unitEntry (moverDesc 16 8), circ16, by decide +kernel⟩

theorem test_meets_TileMovers_8 :
    ∃ (s : State) (k e f : Nat) (r : VecRun) (x : Entry), s.entry k e = some x ∧ descUnit x.desc = 2 ∧ s.vecRun k = some r ∧ r.entry = e
      ∧ r.f = f ∧ r.ended = true :=
  ⟨(vecState 0).setVecRun 0 (some ⟨0, 0, 1, true⟩), 0, 0, 0, ⟨0, 0, 1, true⟩, vecEntry 0, by decide +kernel⟩

theorem test_meets_ContributionsAndEndpoints_1 :
    ∃ (s : State) (c n : Nat) (ce : CircEntry) (t : Nat × Token), (s.hops c).length = n ∧ n ≠ 0 ∧ s.circEntry c = some ce ∧ (s.circ
      c).flight.find? (fun t => t.1 == n) = some t ∧ ce.reduce = true ∧ ce.src / 4096 ≠ 5 :=
  ⟨adderState.setCirc 19 { Circ.init with flight := [(1, addTok)] }, 19, 1, circ19, (1, addTok), by decide +kernel⟩

theorem test_meets_ContributionsAndEndpoints_2 :
    ∃ (s u w v : State) (ep fl : Nat) (t : Contribution) (ce : CircEntry), s.firstContrib ep = some t ∧ s.mustWait ep (s.contribPos t) =
      (u, false) ∧ s.circEntry t.circ = some ce ∧ u.contribBusy t.tok = false ∧ ce.src / 4096 ≠ 5 ∧
      ({ u with contribs := u.contribs.erase t } : State) = w ∧ w.epFenced ep = false ∧ w.addPieces (w.moverRq (circCore ce)) t.tok
      t.tok.pieces t.tok.data = (v, stOk, fl) :=
  by exact ⟨{ adderState with contribs := [⟨19, addTok⟩] }, _, _, _, 0x2000, _, ⟨19, addTok⟩, circ19, by decide +kernel, rfl, by decide +kernel, by
    decide, by decide +kernel, rfl, by decide +kernel, rfl⟩

theorem test_meets_ContributionsAndEndpoints_3 :
    ∃ (s u w v : State) (ep fl : Nat) (t : Contribution) (ce : CircEntry) (st : Nat), s.firstContrib ep = some t ∧ s.mustWait ep
      (s.contribPos t) = (u, false) ∧ s.circEntry t.circ = some ce ∧ u.contribBusy t.tok = false ∧ ce.src / 4096 = 5 ∧
      ({ u with contribs := u.contribs.erase t } : State) = w ∧ w.epFenced ep = false ∧ w.addPieces ⟨.remote, ce.src % 4096, ce.part⟩
      t.tok t.tok.pieces t.tok.data = (v, st, fl) :=
  by exact ⟨{ adderState with contribs := [⟨25, addTok⟩] }, _, _, _, 0x2000, _, ⟨25, addTok⟩, circ25, _, by decide +kernel, rfl, by decide +kernel, by
    decide, by decide +kernel, rfl, by decide +kernel, rfl⟩

theorem test_meets_ContributionsAndEndpoints_4 :
    ∃ (s u : State) (rq : Requester) (a n k o st : Nat) (b : List Byte), locate a = .sram k o ∧ s.readLocal rq a n = (u, st, b) :=
  by exact ⟨running, _, fromModule, 0x1_0000_0000, 8, 0, 0, _, _, by decide +kernel, rfl⟩

theorem test_meets_ContributionsAndEndpoints_5 :
    ∃ (s u : State) (rq : Requester) (a k o st : Nat) (d : List Byte), locate a = .sram k o ∧ s.writeLocal rq none a d = (u, st) :=
  by exact ⟨running, _, fromModule, 0x1_0000_0000, 0, 0, _, [1], by decide +kernel, rfl⟩

theorem test_meets_ContributionsAndEndpoints_6 :
    ∃ (s u : State) (rq : Requester) (a p n x c k o st v : Nat), locate a = .sram k o ∧ s.atomicLocal rq a n p x c = (u, st, v) :=
  by exact ⟨running, _, fromModule, 0x1_0000_0000, 0, 8, 1, 0, 0, 0, _, _, by decide +kernel, rfl⟩

theorem test_meets_ContributionsAndEndpoints_7 :
    ∃ (s u : State) (rq : Requester) (a p n x c k o st v : Nat), locate a = .llm k o ∧ s.atomicLocal rq a n p x c = (u, st, v) :=
  by exact ⟨running, _, fromModule, 0x2_0000_0000, 0, 8, 1, 0, 0, 0, _, _, by decide +kernel, rfl⟩

theorem test_meets_ContributionsAndEndpoints_8 :
    ∃ (s u : State) (rq : Requester) (a n k o st : Nat) (b : List Byte), locate a = .llm k o ∧ s.readLocal rq a n = (u, st, b) :=
  by exact ⟨running, _, fromModule, 0x2_0000_0000, 8, 0, 0, _, _, by decide +kernel, rfl⟩

theorem test_meets_ContributionsAndEndpoints_9 :
    ∃ (s u : State) (rq : Requester) (a k o st : Nat) (d : List Byte), locate a = .llm k o ∧ s.writeLocal rq none a d = (u, st) :=
  by exact ⟨running, _, fromModule, 0x2_0000_0000, 0, 0, _, [1], by decide +kernel, rfl⟩

theorem test_meets_ContributionsAndEndpoints_10 :
    ∃ (s : State) (rq : Requester) (k v : Nat), s.acceptsWrite rq .CO_SAVE_CFG k = true ∧ k < 128 ∧ ((List.range 4).any (fun g =>
      (List.range 4).any (fun n => (s.slotHolder (4 * k + g) n).isSome))) = false ∧ v % 8 ≤ 4 ∧ (s.coreQueues k).any (fun x => meetsSave
      (v % 8) x.2.base x.2.bytes) = false :=
  ⟨running, fromModule, 0, 2, by decide +kernel⟩

theorem test_meets_CpuAccesses_1 :
    ∃ (s u v : State) (c a n d : Nat) (x f nc : Bool), s.cpuRuns c = true ∧ CpuOp.sizeOk (.load a n d x f) = true ∧
      ({ s with nextId := s.nextId + 1 } : State) = u ∧ u.barred c s.nextId nc (.load a n d x f) = false ∧ u.behind c s.nextId (.load a
      n d x f) = false ∧ u.cpuDo c nc (.load a n d x f) (u.opMark c s.nextId nc (.load a n d x f)) = (v, true) :=
  by exact ⟨coreOn, _, _, 0, 0x1_0000_0000, 8, 1, false, false, true, by decide +kernel, by decide +kernel, rfl, by decide +kernel, by decide +kernel, rfl⟩

theorem test_meets_CpuAccesses_2 :
    ∃ (s u v : State) (c a n w : Nat) (nc : Bool), s.cpuRuns c = true ∧ CpuOp.sizeOk (.store a n w) = true ∧
      ({ s with nextId := s.nextId + 1 } : State) = u ∧ u.barred c s.nextId nc (.store a n w) = false ∧ u.behind c s.nextId (.store a n
      w) = false ∧ u.cpuDo c nc (.store a n w) (u.opMark c s.nextId nc (.store a n w)) = (v, true) :=
  by exact ⟨coreOn, _, _, 0, 0x1_0000_0000, 8, 5, true, by decide +kernel, by decide +kernel, rfl, by decide +kernel, by decide +kernel, rfl⟩

theorem test_meets_CpuAccesses_3 :
    ∃ (s u v : State) (c p a n w x d : Nat) (nc q r : Bool), s.cpuRuns c = true ∧ CpuOp.sizeOk (.amo p a n w x d q r) = true ∧
      CpuOp.alignTrap (.amo p a n w x d q r) = none ∧ ({ s with nextId := s.nextId + 1 } : State).markHolds c s.nextId (.amo p a n w x d
      q r) = u ∧ u.barred c s.nextId nc (.amo p a n w x d q r) = false ∧ u.behind c s.nextId (.amo p a n w x d q r) = false ∧ u.cpuDo c
      nc (.amo p a n w x d q r) (u.opMark c s.nextId nc (.amo p a n w x d q r)) = (v, true) :=
  by exact ⟨coreOn, _, _, 0, 0, 0x1000_0000_0000, 8, 1, 0, 1, true, true, false, by decide +kernel, by decide +kernel, by decide +kernel, rfl, by decide +kernel, by
    decide, rfl⟩

theorem test_meets_CpuAccesses_4 :
    ∃ (s u v : State) (c a n d : Nat) (nc q r : Bool), s.cpuRuns c = true ∧ CpuOp.sizeOk (.lr a n d q r) = true ∧ CpuOp.alignTrap (.lr a
      n d q r) = none ∧ ({ s with nextId := s.nextId + 1 } : State).markHolds c s.nextId (.lr a n d q r) = u ∧ u.barred c s.nextId nc
      (.lr a n d q r) = false ∧ u.behind c s.nextId (.lr a n d q r) = false ∧ u.cpuDo c nc (.lr a n d q r) (u.opMark c s.nextId nc (.lr
      a n d q r)) = (v, true) :=
  by exact ⟨coreOn, _, _, 0, 0x1000_0000_0000, 8, 1, true, true, false, by decide +kernel, by decide +kernel, by decide +kernel, rfl, by decide +kernel, by decide +kernel, rfl⟩

theorem test_meets_CpuAccesses_5 :
    ∃ (s u v : State) (c a n w d : Nat) (nc q r : Bool), s.cpuRuns c = true ∧ CpuOp.sizeOk (.sc a n w d q r) = true ∧ CpuOp.alignTrap
      (.sc a n w d q r) = none ∧ ({ s with nextId := s.nextId + 1 } : State).markHolds c s.nextId (.sc a n w d q r) = u ∧ u.barred c
      s.nextId nc (.sc a n w d q r) = false ∧ u.behind c s.nextId (.sc a n w d q r) = false ∧ u.cpuDo c nc (.sc a n w d q r) (u.opMark c
      s.nextId nc (.sc a n w d q r)) = (v, true) :=
  by exact ⟨coreOn, _, _, 0, 0x1000_0000_0000, 8, 1, 1, true, false, true, by decide +kernel, by decide +kernel, by decide +kernel, rfl, by decide +kernel, by decide +kernel,
    rfl⟩

theorem test_meets_CpuAccesses_6 :
    ∃ (s u v : State) (c a : Nat), s.cpuRuns c = true ∧ CpuOp.sizeOk (.flush a) = true ∧ ({ s with nextId := s.nextId + 1 } : State) = u
      ∧ u.barred c s.nextId false (.flush a) = false ∧ u.behind c s.nextId (.flush a) = false ∧ u.cpuDo c false (.flush a) (u.opMark c
      s.nextId false (.flush a)) = (v, true) :=
  by exact ⟨coreOn, _, _, 0, 0x1000_0000_0000, by decide +kernel, by decide +kernel, rfl, by decide +kernel, by decide +kernel, rfl⟩

theorem test_meets_CpuAccesses_7 :
    ∃ (s u v : State) (c a : Nat), s.cpuRuns c = true ∧ CpuOp.sizeOk (.flush a) = true ∧ ({ s with nextId := s.nextId + 1 } : State) = u
      ∧ u.barred c s.nextId false (.flush a) = false ∧ u.behind c s.nextId (.flush a) = false ∧ u.cpuDo c false (.flush a) (u.opMark c
      s.nextId false (.flush a)) = (v, true) :=
  by exact ⟨coreOn, _, _, 0, 0x1000_0000_0000, by decide +kernel, by decide +kernel, rfl, by decide +kernel, by decide +kernel, rfl⟩

theorem test_meets_CpuAccesses_8 :
    ∃ (s u v : State) (c a : Nat), s.cpuRuns c = true ∧ CpuOp.sizeOk (.flush a) = true ∧ ({ s with nextId := s.nextId + 1 } : State) = u
      ∧ u.barred c s.nextId false (.flush a) = false ∧ u.behind c s.nextId (.flush a) = false ∧ u.cpuDo c false (.flush a) (u.opMark c
      s.nextId false (.flush a)) = (v, true) :=
  by exact ⟨coreOn, _, _, 0, 0x1000_0000_0000, by decide +kernel, by decide +kernel, rfl, by decide +kernel, by decide +kernel, rfl⟩

theorem test_meets_CpuAccesses_9 :
    ∃ (s u v : State) (c a : Nat), s.cpuRuns c = true ∧ CpuOp.sizeOk (.zero a) = true ∧ ({ s with nextId := s.nextId + 1 } : State) = u
      ∧ u.barred c s.nextId false (.zero a) = false ∧ u.behind c s.nextId (.zero a) = false ∧ u.cpuDo c false (.zero a) (u.opMark c
      s.nextId false (.zero a)) = (v, true) :=
  by exact ⟨coreOn, _, _, 0, 0x1_0000_0000, by decide +kernel, by decide +kernel, rfl, by decide +kernel, by decide +kernel, rfl⟩

theorem test_meets_CpuAccesses_10 :
    ∃ (s : State) (c p a n v x d : Nat) (nc q r : Bool), s.cpuRuns c = true ∧ (n = 4 ∨ n = 8) ∧ p ≤ 9 ∧ a % n ≠ 0 :=
  ⟨coreOn, 0, 0, 0x1_0000_0002, 8, 0, 0, 1, true, false, true, by decide +kernel⟩

theorem test_meets_CpuAccesses_11 :
    ∃ (s : State) (c a n d : Nat) (nc q r : Bool), s.cpuRuns c = true ∧ (n = 4 ∨ n = 8) ∧ a % n ≠ 0 :=
  ⟨coreOn, 0, 0x1_0000_0002, 8, 1, true, true, false, by decide +kernel⟩

theorem test_meets_CpuAccesses_12 :
    ∃ (s : State) (c a n v d : Nat) (nc q r : Bool), s.cpuRuns c = true ∧ (n = 4 ∨ n = 8) ∧ a % n ≠ 0 :=
  ⟨coreOn, 0, 0x1_0000_0002, 8, 0, 1, true, true, false, by decide +kernel⟩

theorem test_meets_CpuAccesses_13 :
    ∃ (s u v : State) (c a n d : Nat) (x f : Bool), s.cpuRuns c = true ∧ CpuOp.sizeOk (.load a n d x f) = true ∧
      ({ s with nextId := s.nextId + 1 } : State) = u ∧ u.barred c s.nextId false (.load a n d x f) = false ∧ u.behind c s.nextId (.load
      a n d x f) = false ∧ cacheable a = true ∧ u.judge (u.coreRq c) 1 a n = (v, none) ∧ v.allLines c a n LineSt.readable = true :=
  by exact ⟨lineOn .shared, _, _, 0, 0x1000_0000_0000, 8, 1, false, false, by decide +kernel, by decide +kernel, rfl, by decide +kernel, by decide +kernel, by decide +kernel,
    rfl, by decide +kernel⟩

theorem test_meets_CpuAccesses_14 :
    ∃ (s u v : State) (c a n d : Nat) (x f : Bool), s.cpuRuns c = true ∧ CpuOp.sizeOk (.load a n d x f) = true ∧
      ({ s with nextId := s.nextId + 1 } : State) = u ∧ u.barred c s.nextId false (.load a n d x f) = false ∧ u.behind c s.nextId (.load
      a n d x f) = false ∧ cacheable a = true ∧ u.judge (u.coreRq c) 1 a n = (v, none) ∧ v.allLines c a n LineSt.readable = false :=
  by exact ⟨coreOn, _, _, 0, 0x1000_0000_0000, 8, 1, false, false, by decide +kernel, by decide +kernel, rfl, by decide +kernel, by decide +kernel, by decide +kernel, rfl, by
    decide⟩

theorem test_meets_CpuAccesses_15 :
    ∃ (s u v : State) (c a n w : Nat), s.cpuRuns c = true ∧ CpuOp.sizeOk (.store a n w) = true ∧ ({ s with nextId := s.nextId + 1 } :
      State) = u ∧ u.barred c s.nextId false (.store a n w) = false ∧ u.behind c s.nextId (.store a n w) = false ∧ cacheable a = true ∧
      u.judge (u.coreRq c) 2 a n = (v, none) ∧ v.allLines c a n LineSt.writable = true ∧ v.poisonedLine c a (leBytes n w).length = false :=
  by exact ⟨lineOn .excl, _, _, 0, 0x1000_0000_0000, 8, 5, by decide +kernel, by decide +kernel, rfl, by decide +kernel, by decide +kernel, by decide +kernel, rfl, by decide +kernel,
    by decide +kernel⟩

theorem test_meets_CpuAccesses_16 :
    ∃ (s u v : State) (c p a n w x d : Nat) (q r : Bool), s.cpuRuns c = true ∧ CpuOp.sizeOk (.amo p a n w x d q r) = true ∧
      CpuOp.alignTrap (.amo p a n w x d q r) = none ∧ ({ s with nextId := s.nextId + 1 } : State).markHolds c s.nextId (.amo p a n w x d
      q r) = u ∧ u.barred c s.nextId false (.amo p a n w x d q r) = false ∧ u.behind c s.nextId (.amo p a n w x d q r) = false ∧
      cacheable a = true ∧ u.judge (u.coreRq c) 3 a n = (v, none) ∧ v.allLines c a n LineSt.writable = true ∧ v.touchesPoison c a n =
      false :=
  by exact ⟨lineOn .modified, _, _, 0, 0, 0x1000_0000_0000, 8, 1, 0, 1, true, false, by decide +kernel, by decide +kernel, by decide +kernel, rfl, by decide +kernel, by
    decide, by decide +kernel, rfl, by decide +kernel, by decide +kernel⟩

theorem test_meets_CpuAccesses_17 :
    ∃ (s u v : State) (c a n d : Nat) (q r : Bool), s.cpuRuns c = true ∧ CpuOp.sizeOk (.lr a n d q r) = true ∧ CpuOp.alignTrap (.lr a n
      d q r) = none ∧ ({ s with nextId := s.nextId + 1 } : State).markHolds c s.nextId (.lr a n d q r) = u ∧ u.barred c s.nextId false
      (.lr a n d q r) = false ∧ u.behind c s.nextId (.lr a n d q r) = false ∧ cacheable a = true ∧ u.judge (u.coreRq c) 1 a n = (v,
      none) ∧ v.allLines c a n LineSt.readable = true ∧ v.touchesPoison c a n = false :=
  by exact ⟨lineOn .shared, _, _, 0, 0x1000_0000_0000, 8, 1, true, false, by decide +kernel, by decide +kernel, by decide +kernel, rfl, by decide +kernel, by decide +kernel, by
    decide, rfl, by decide +kernel, by decide +kernel⟩

theorem test_meets_CpuAccesses_18 :
    ∃ (s u v : State) (c a n w d : Nat) (q r : Bool), s.cpuRuns c = true ∧ CpuOp.sizeOk (.sc a n w d q r) = true ∧ CpuOp.alignTrap (.sc
      a n w d q r) = none ∧ ({ s with nextId := s.nextId + 1 } : State).markHolds c s.nextId (.sc a n w d q r) = u ∧ u.barred c s.nextId
      false (.sc a n w d q r) = false ∧ u.behind c s.nextId (.sc a n w d q r) = false ∧ cacheable a = true ∧ u.judge (u.coreRq c) 2 a n
      = (v, none) ∧ v.allLines c a n LineSt.writable = true ∧ v.poisonedLine c a n = false ∧ (v.line c (a / 64)).reserved = true :=
  by exact ⟨(lineOn .excl).setLine 0 (line0 / 64) { (lineOn .excl).line 0 (line0 / 64) with reserved := true }, _, _, 0,
    0x1000_0000_0000, 8, 1, 1, false, true, by decide +kernel, by decide +kernel, by decide +kernel, rfl, by decide +kernel, by decide +kernel, by decide +kernel, rfl, by decide +kernel, by
    decide, by decide +kernel⟩

theorem test_meets_CpuAccesses_19 :
    ∃ (s u v : State) (c a n w d : Nat) (q r : Bool), s.cpuRuns c = true ∧ CpuOp.sizeOk (.sc a n w d q r) = true ∧ CpuOp.alignTrap (.sc
      a n w d q r) = none ∧ ({ s with nextId := s.nextId + 1 } : State).markHolds c s.nextId (.sc a n w d q r) = u ∧ u.barred c s.nextId
      false (.sc a n w d q r) = false ∧ u.behind c s.nextId (.sc a n w d q r) = false ∧ cacheable a = true ∧ u.judge (u.coreRq c) 2 a n
      = (v, none) ∧ v.allLines c a n LineSt.writable = true ∧ (v.line c (a / 64)).reserved = false :=
  by exact ⟨lineOn .excl, _, _, 0, 0x1000_0000_0000, 8, 1, 1, false, true, by decide +kernel, by decide +kernel, by decide +kernel, rfl, by decide +kernel, by decide +kernel,
    by decide +kernel, rfl, by decide +kernel, by decide +kernel⟩

theorem test_meets_CpuAccesses_20 :
    ∃ (s u v : State) (c a : Nat), s.cpuRuns c = true ∧ CpuOp.sizeOk (.zero a) = true ∧ ({ s with nextId := s.nextId + 1 } : State) = u
      ∧ u.barred c s.nextId false (.zero a) = false ∧ u.behind c s.nextId (.zero a) = false ∧ cacheable a = true ∧ u.judge (u.coreRq c)
      2 (a / 64 * 64) 64 = (v, none) ∧ v.allLines c (a / 64 * 64) 64 LineSt.writable = true ∧ v.poisonedLine c (a / 64 * 64) 64 = false :=
  by exact ⟨lineOn .excl, _, _, 0, 0x1000_0000_0000 + 8, by decide +kernel, by decide +kernel, rfl, by decide +kernel, by decide +kernel, by decide +kernel, rfl, by decide +kernel, by
    decide⟩

theorem test_meets_CpuAccesses_21 :
    ∃ (s u : State) (c a : Nat), s.cpuRuns c = true ∧ ({ s with nextId := s.nextId + 1 } : State) = u ∧ u.barred c s.nextId false
      (.flush a) = false ∧ u.behind c s.nextId (.flush a) = false ∧ cacheable (a / 64 * 64) = true ∧ u.allLines c (a / 64 * 64) 1 (fun x
      => x == .shared || x == .excl || x == .modified || x == .owned) = true :=
  by exact ⟨lineOn .modified, _, 0, 0x1000_0000_0000 + 8, by decide +kernel, rfl, by decide +kernel, by decide +kernel, by decide +kernel, by decide +kernel⟩

theorem test_meets_CpuAccesses_22 :
    ∃ (s u : State) (c a : Nat), s.cpuRuns c = true ∧ ({ s with nextId := s.nextId + 1 } : State) = u ∧ u.barred c s.nextId false
      (.flush a) = false ∧ u.behind c s.nextId (.flush a) = false ∧ (u.line c (a / 64)).st = .inv :=
  by exact ⟨coreOn, _, 0, 0x1000_0000_0000 + 8, by decide +kernel, rfl, by decide +kernel, by decide +kernel, by decide +kernel⟩

theorem test_meets_CpuAccesses_23 :
    ∃ (s u : State) (c a : Nat), s.cpuRuns c = true ∧ ({ s with nextId := s.nextId + 1 } : State) = u ∧ u.barred c s.nextId false
      (.flush a) = false ∧ u.behind c s.nextId (.flush a) = false ∧ cacheable (a / 64 * 64) = true ∧ u.allLines c (a / 64 * 64) 1 (fun x
      => x == .shared || x == .excl || x == .modified || x == .owned) = true :=
  by exact ⟨lineOn .modified, _, 0, 0x1000_0000_0000 + 8, by decide +kernel, rfl, by decide +kernel, by decide +kernel, by decide +kernel, by decide +kernel⟩

theorem test_meets_CpuAccesses_24 :
    ∃ (s u : State) (c a : Nat), s.cpuRuns c = true ∧ ({ s with nextId := s.nextId + 1 } : State) = u ∧ u.barred c s.nextId false
      (.flush a) = false ∧ u.behind c s.nextId (.flush a) = false ∧ (u.line c (a / 64)).st = .inv :=
  by exact ⟨coreOn, _, 0, 0x1000_0000_0000 + 8, by decide +kernel, rfl, by decide +kernel, by decide +kernel, by decide +kernel⟩

theorem test_meets_CpuAccesses_25 :
    ∃ (s u : State) (c a : Nat), s.cpuRuns c = true ∧ ({ s with nextId := s.nextId + 1 } : State) = u ∧ u.barred c s.nextId false
      (.flush a) = false ∧ u.behind c s.nextId (.flush a) = false ∧ cacheable (a / 64 * 64) = true ∧ u.allLines c (a / 64 * 64) 1 (fun x
      => x == .shared || x == .excl || x == .modified || x == .owned) = true :=
  by exact ⟨lineOn .modified, _, 0, 0x1000_0000_0000 + 8, by decide +kernel, rfl, by decide +kernel, by decide +kernel, by decide +kernel, by decide +kernel⟩

theorem test_meets_CpuAccesses_26 :
    ∃ (s u : State) (c a : Nat), s.cpuRuns c = true ∧ ({ s with nextId := s.nextId + 1 } : State) = u ∧ u.barred c s.nextId false
      (.flush a) = false ∧ u.behind c s.nextId (.flush a) = false ∧ (u.line c (a / 64)).st = .inv :=
  by exact ⟨coreOn, _, 0, 0x1000_0000_0000 + 8, by decide +kernel, rfl, by decide +kernel, by decide +kernel, by decide +kernel⟩

theorem test_meets_CpuAccesses_27 :
    ∃ (s : State) (c a : Nat) (w : Bool), s.cpuRuns c = true ∧ cacheable a = true ∧ s.judge (s.coreRq c) (if w then 2 else 1) (a / 64 *
      64) 64 = (s, none) ∧ (s.line c (a / 64)).st = .inv :=
  by exact ⟨coreOn, 0, 0x1000_0000_0000, false, by decide +kernel, by decide +kernel, rfl, by decide +kernel⟩

theorem test_meets_CpuFences_1 :
    ∃ (s : State) (c p q : Nat) (b : Bool), s.cpuRuns c = true :=
  ⟨coreOn, 0, 3, 3, false, by decide +kernel⟩

theorem test_meets_CpuFences_2 :
    ∃ (s : State) (c : Nat), s.cpuRuns c = true :=
  ⟨coreOn, 0, by decide +kernel⟩

theorem test_meets_CpuFences_3 :
    ∃ (s : State) (c d : Nat), s.cpuRuns c = true :=
  ⟨coreOn, 0, 1, by decide +kernel⟩

theorem test_meets_CpuFences_4 :
    ∃ (s : State) (c w : Nat), s.cpuRuns c = true ∧ xtzfenceBad w = true :=
  ⟨coreOn, 0, 0x800b, by decide +kernel⟩

theorem test_meets_CoherenceRequests_1 :
    ∃ (s : State) (m : Msg), m.agent < 96 ∧ (homeOf m.line).isSome = true ∧ s.net.contains (rowMsg mRdS m) = true ∧ s.homeFenced m.line
      = false :=
  ⟨{ running with net := [msg mRdS hbmLine 0] }, msg mRdS hbmLine 0, by decide +kernel⟩

theorem test_meets_CoherenceRequests_2 :
    ∃ (s : State) (m : Msg), m.agent < 96 ∧ (homeOf m.line).isSome = true ∧ s.net.contains (rowMsg mRdX m) = true ∧ s.homeFenced m.line
      = false :=
  ⟨{ running with net := [msg mRdX hbmLine 0] }, msg mRdX hbmLine 0, by decide +kernel⟩

theorem test_meets_CoherenceRequests_3 :
    ∃ (s : State) (m : Msg), m.agent < 96 ∧ (homeOf m.line).isSome = true ∧ s.net.contains (rowMsg mUpg m) = true ∧ s.homeFenced m.line
      = false :=
  ⟨{ running with net := [msg mUpg hbmLine 0] }, msg mUpg hbmLine 0, by decide +kernel⟩

theorem test_meets_CoherenceRequests_4 :
    ∃ (s : State) (m : Msg), m.agent < 96 ∧ (homeOf m.line).isSome = true ∧ s.net.contains (rowMsg mPutM m) = true ∧ s.homeFenced m.line
      = false :=
  ⟨{ running with net := [rowMsg mPutM (msg mPutM hbmLine 0)] }, msg mPutM hbmLine 0, by decide +kernel⟩

theorem test_meets_CoherenceRequests_5 :
    ∃ (s : State) (m : Msg), m.agent < 96 ∧ (homeOf m.line).isSome = true ∧ s.net.contains (rowMsg mPutO m) = true ∧ s.homeFenced m.line
      = false :=
  ⟨{ running with net := [rowMsg mPutO (msg mPutO hbmLine 0)] }, msg mPutO hbmLine 0, by decide +kernel⟩

theorem test_meets_CoherenceRequests_6 :
    ∃ (s u : State) (m : Msg), m.agent < 96 ∧ (homeOf m.line).isSome = true ∧ s.net.contains (rowMsg mRdS m) = false ∧ s.homeFenced
      m.line = false ∧ (s.line m.agent m.line).st = .inv ∧ (s.setLine m.agent m.line { Line.empty with st := .isD }) = u :=
  by exact ⟨running.setLine 0 hbmLine { Line.empty with st := .inv }, _, msg mRdS hbmLine 0, by decide +kernel, by decide +kernel, by decide +kernel, by decide +kernel,
    by decide +kernel, rfl⟩

theorem test_meets_CoherenceRequests_7 :
    ∃ (s u : State) (m : Msg), m.agent < 96 ∧ (homeOf m.line).isSome = true ∧ s.net.contains (rowMsg mRdX m) = false ∧ s.homeFenced
      m.line = false ∧ (s.line m.agent m.line).st = .inv ∧ (s.setLine m.agent m.line { Line.empty with st := .imD }) = u :=
  by exact ⟨running.setLine 0 hbmLine { Line.empty with st := .inv }, _, msg mRdX hbmLine 0, by decide +kernel, by decide +kernel, by decide +kernel, by decide +kernel,
    by decide +kernel, rfl⟩

theorem test_meets_CoherenceRequests_8 :
    ∃ (s u : State) (m : Msg), m.agent < 96 ∧ (homeOf m.line).isSome = true ∧ s.net.contains (rowMsg mUpg m) = false ∧ s.homeFenced
      m.line = false ∧ (s.line m.agent m.line).st = .shared ∧ (s.setLine m.agent m.line { s.line m.agent m.line with st := .smA }) = u :=
  by exact ⟨running.setLine 0 hbmLine { Line.empty with st := .shared }, _, msg mUpg hbmLine 0, by decide +kernel, by decide +kernel, by decide +kernel, by
    decide, by decide +kernel, rfl⟩

theorem test_meets_CoherenceRequests_9 :
    ∃ (s u : State) (m : Msg), m.agent < 96 ∧ (homeOf m.line).isSome = true ∧ s.net.contains (rowMsg mUpg m) = false ∧ s.homeFenced
      m.line = false ∧ (s.line m.agent m.line).st = .owned ∧ (s.setLine m.agent m.line { s.line m.agent m.line with st := .omA }) = u :=
  by exact ⟨running.setLine 0 hbmLine { Line.empty with st := .owned }, _, msg mUpg hbmLine 0, by decide +kernel, by decide +kernel, by decide +kernel, by
    decide, by decide +kernel, rfl⟩

theorem test_meets_CoherenceRequests_10 :
    ∃ (s u : State) (m p : Msg), m.agent < 96 ∧ (homeOf m.line).isSome = true ∧ s.net.contains (rowMsg mPutM m) = false ∧ s.homeFenced
      m.line = false ∧ (s.line m.agent m.line).st = .modified ∧
      ({ msg mPutM m.line m.agent with data := (s.line m.agent m.line).data, poison := (s.line m.agent m.line).poison } : Msg) = p ∧
      (s.send p).setLine m.agent m.line { s.line m.agent m.line with st := .miA, reserved := false } = u :=
  by exact ⟨running.setLine 0 hbmLine { Line.empty with st := .modified }, _, msg mPutM hbmLine 0, _, by decide +kernel, by decide +kernel, by decide +kernel,
    by decide +kernel, by decide +kernel, rfl, rfl⟩

theorem test_meets_CoherenceRequests_11 :
    ∃ (s u : State) (m p : Msg), m.agent < 96 ∧ (homeOf m.line).isSome = true ∧ s.net.contains (rowMsg mPutO m) = false ∧ s.homeFenced
      m.line = false ∧ (s.line m.agent m.line).st = .owned ∧
      ({ msg mPutO m.line m.agent with data := (s.line m.agent m.line).data, poison := (s.line m.agent m.line).poison } : Msg) = p ∧
      (s.send p).setLine m.agent m.line { s.line m.agent m.line with st := .oiA, reserved := false } = u :=
  by exact ⟨running.setLine 0 hbmLine { Line.empty with st := .owned }, _, msg mPutO hbmLine 0, _, by decide +kernel, by decide +kernel, by decide +kernel, by
    decide, by decide +kernel, rfl, rfl⟩

theorem test_meets_CoherenceRequests_12 :
    ∃ (s : State) (m : Msg), m.agent < 96 ∧ (homeOf m.line).isSome = true ∧ s.net.contains (rowMsg mRdS m) = true ∧ s.homeFenced m.line
      = true :=
  ⟨{ { running with fences := [⟨.diePair 0, 0, 11⟩] }.setFld Fld.HUB_DIE_FENCE_FENCED 0 1 with net := [msg mRdS hbmLine 0] }, msg mRdS
    hbmLine 0, by decide +kernel⟩

theorem test_meets_CoherenceRequests_13 :
    ∃ (s : State) (m : Msg), (homeOf m.line).isSome = true ∧ s.homeFenced m.line = false ∧ m.off + max m.len m.data.length ≤ 64 :=
  ⟨running, msg mNCRd hbmLine 0, by decide +kernel⟩

theorem test_meets_CoherenceRequests_14 :
    ∃ (s : State) (m : Msg), (homeOf m.line).isSome = true ∧ s.homeFenced m.line = false ∧ max m.len m.data.length ≤ 64 :=
  ⟨running, msg mNCWr hbmLine 0, by decide +kernel⟩

theorem test_meets_CoherenceRequests_15 :
    ∃ (s : State) (m : Msg), (homeOf m.line).isSome = true ∧ s.homeFenced m.line = false ∧ m.off + max m.len m.data.length ≤ 64 :=
  ⟨running, msg mNCWrP hbmLine 0, by decide +kernel⟩

theorem test_meets_CoherenceRequests_16 :
    ∃ (s : State) (m : Msg), (homeOf m.line).isSome = true ∧ s.homeFenced m.line = false :=
  ⟨running, msg mNCAtom hbmLine 0, by decide +kernel⟩

theorem test_meets_CoherenceRequests_17 :
    ∃ (s : State) (m : Msg), (homeOf m.line).isSome = true ∧ s.homeFenced m.line = false ∧ m.off + max m.len m.data.length ≤ 64 :=
  ⟨running, msg mZeroL hbmLine 0, by decide +kernel⟩

theorem test_meets_HomeTransactions_1 :
    ∃ (s u : State) (l p : Nat) (t : Tx) (b : List Byte), s.homeFenced l = false ∧ (s.home l).tx = some t ∧ t.st = .mem ∧ s.mayServe l =
      true ∧ t.req.code = mRdS ∧ (s.home l).st = .di ∧ s.memLine (s.msgRq t.req) l = (u, b, p) :=
  by exact ⟨running.setHome hbmLine { HomeLine.init with tx := some (memTx mRdS) }, _, hbmLine, _, memTx mRdS, _, by decide +kernel, by decide +kernel,
    by decide +kernel, by decide +kernel, by decide +kernel, by decide +kernel, rfl⟩

theorem test_meets_HomeTransactions_2 :
    ∃ (s u : State) (l p : Nat) (t : Tx) (b : List Byte), s.homeFenced l = false ∧ (s.home l).tx = some t ∧ t.st = .mem ∧ s.mayServe l =
      true ∧ t.req.code = mRdX ∧ s.memLine (s.msgRq t.req) l = (u, b, p) :=
  by exact ⟨running.setHome hbmLine { HomeLine.init with tx := some (memTx mRdX) }, _, hbmLine, _, memTx mRdX, _, by decide +kernel, by decide +kernel,
    by decide +kernel, by decide +kernel, by decide +kernel, rfl⟩

theorem test_meets_HomeTransactions_3 :
    ∃ (s : State) (l : Nat) (t : Tx), s.homeFenced l = false ∧ (s.home l).tx = some t ∧ t.st = .mem ∧ s.mayServe l = true :=
  ⟨running.setHome hbmLine { HomeLine.init with tx := some (memTx mNCRd) }, hbmLine, memTx mNCRd, by decide +kernel⟩

theorem test_meets_HomeTransactions_4 :
    ∃ (s : State) (l : Nat) (t : Tx), s.homeFenced l = false ∧ (s.home l).tx = some t ∧ t.st = .mem ∧ s.mayServe l = false :=
  ⟨shareOff.setHome hbmLine { HomeLine.init with tx := some (memTx mRdS) }, hbmLine, memTx mRdS, by decide +kernel⟩

theorem test_meets_HomeTransactions_5 :
    ∃ (s : State) (m : Msg), m.agent < 96 ∧ (homeOf m.line).isSome = true ∧ s.homeFenced m.line = false :=
  ⟨running, msg mRspI hbmLine 0, by decide +kernel⟩

theorem test_meets_HomeTransactions_6 :
    ∃ (s : State) (m : Msg), m.agent < 96 ∧ (homeOf m.line).isSome = true ∧ s.homeFenced m.line = false :=
  ⟨running, msg mRspS hbmLine 0, by decide +kernel⟩

theorem test_meets_HomeTransactions_7 :
    ∃ (s : State) (m : Msg), m.agent < 96 ∧ (homeOf m.line).isSome = true ∧ s.homeFenced m.line = false :=
  ⟨running, msg mRspV hbmLine 0, by decide +kernel⟩

theorem test_meets_HomeTransactions_8 :
    ∃ (s : State) (m : Msg), m.agent < 96 ∧ (homeOf m.line).isSome = true ∧ s.homeFenced m.line = false :=
  ⟨running, msg mRspOD hbmLine 0, by decide +kernel⟩

theorem test_meets_HomeTransactions_9 :
    ∃ (s : State) (m : Msg), m.agent < 96 ∧ (homeOf m.line).isSome = true ∧ s.homeFenced m.line = false :=
  ⟨running, msg mRspSD hbmLine 0, by decide +kernel⟩

theorem test_meets_HomeTransactions_10 :
    ∃ (s : State) (m : Msg), m.agent < 96 ∧ (homeOf m.line).isSome = true ∧ s.homeFenced m.line = false :=
  ⟨running, msg mRspID hbmLine 0, by decide +kernel⟩

theorem test_meets_HomeTransactions_11 :
    ∃ (s : State) (m : Msg) (t : Tx), m.agent < 96 ∧ (homeOf m.line).isSome = true ∧ s.homeFenced m.line = false ∧ (s.home m.line).tx =
      some t ∧ t.st = .ack ∧ t.req.agent = m.agent :=
  ⟨running.setHome hbmLine { HomeLine.init with tx := some { memTx mRdS with st := .ack } }, msg mCmpAck hbmLine 0,
    { memTx mRdS with st := .ack }, by decide +kernel⟩

theorem test_meets_AgentGrants_1 :
    ∃ (s : State) (m : Msg), m.agent < 96 ∧ (homeOf m.line).isSome = true ∧ (s.line m.agent m.line).st = .isD :=
  ⟨running.setLine 0 hbmLine { Line.empty with st := .isD }, msg mDataS hbmLine 0, by decide +kernel⟩

theorem test_meets_AgentGrants_2 :
    ∃ (s : State) (m : Msg), m.agent < 96 ∧ (homeOf m.line).isSome = true ∧ (s.line m.agent m.line).st = .isD :=
  ⟨running.setLine 0 hbmLine { Line.empty with st := .isD }, msg mDataE hbmLine 0, by decide +kernel⟩

theorem test_meets_AgentGrants_3 :
    ∃ (s : State) (m : Msg), m.agent < 96 ∧ (homeOf m.line).isSome = true ∧ (s.line m.agent m.line).st = .imD :=
  ⟨running.setLine 0 hbmLine { Line.empty with st := .imD }, msg mDataM hbmLine 0, by decide +kernel⟩

theorem test_meets_AgentGrants_4 :
    ∃ (s : State) (m : Msg), m.agent < 96 ∧ (homeOf m.line).isSome = true ∧ (s.line m.agent m.line).st = .smA :=
  ⟨running.setLine 0 hbmLine { Line.empty with st := .smA }, msg mGntM hbmLine 0, by decide +kernel⟩

theorem test_meets_AgentGrants_5 :
    ∃ (s : State) (m : Msg), m.agent < 96 ∧ (homeOf m.line).isSome = true ∧ (s.line m.agent m.line).st = .miA :=
  ⟨running.setLine 0 hbmLine { Line.empty with st := .miA }, msg mCmpPut hbmLine 0, by decide +kernel⟩

theorem test_meets_AgentGrants_6 :
    ∃ (s u : State) (m : Msg) (o : OpenAccess), s.deliver { m with code := mNCCmp } = u ∧ u.opens.find? (fun o => o.id == m.tag) = some
      o ∧ o.left ≤ 1 :=
  by exact ⟨awaitState, _, { msg mNCCmp hbmLine ncAgent with tag := 5 }, open0, rfl, by decide +kernel, by decide +kernel⟩

theorem test_meets_AgentGrants_7 :
    ∃ (s u : State) (m : Msg) (o : OpenAccess), s.deliver { m with code := mNCCmp } = u ∧ u.opens.find? (fun o => o.id == m.tag) = some
      o ∧ 1 < o.left :=
  by exact ⟨awaitTwo, _, { msg mNCCmp hbmLine ncAgent with tag := 5 }, { open0 with left := 2 }, rfl, by decide +kernel, by decide +kernel⟩

theorem test_meets_AgentGrants_8 :
    ∃ (s u : State) (m : Msg) (o : OpenAccess), s.deliver { m with code := mNCData } = u ∧ u.opens.find? (fun o => o.id == m.tag) = some
      o ∧ o.left ≤ 1 :=
  by exact ⟨awaitState, _, { msg mNCData hbmLine ncAgent with tag := 5 }, open0, rfl, by decide +kernel, by decide +kernel⟩

theorem test_meets_AgentGrants_9 :
    ∃ (s u : State) (m : Msg), s.deliver { m with code := mNCData } = u ∧ u.opens.find? (fun o => o.id == m.tag) = none :=
  by exact ⟨running, _, msg mNCData hbmLine ncAgent, rfl, by decide +kernel⟩

theorem test_meets_AgentSnoops_1 :
    ∃ (s : State) (m : Msg) (st : LineSt), m.line < 2 ^ 46 ∧ m.agent < 96 ∧ (homeOf m.line).isSome = true ∧ s.stalls.filter (fun x =>
      x.cpu == m.agent) = [] ∧ (s.line m.agent m.line).st = st :=
  ⟨running, msg mSnpS hbmLine 0, .inv, by decide +kernel⟩

theorem test_meets_AgentSnoops_2 :
    ∃ (s : State) (m : Msg) (st : LineSt), m.line < 2 ^ 46 ∧ m.agent < 96 ∧ (homeOf m.line).isSome = true ∧ s.stalls.filter (fun x =>
      x.cpu == m.agent) = [] ∧ (s.line m.agent m.line).st = st :=
  ⟨running.setLine 0 hbmLine { Line.empty with st := .modified }, msg mSnpInv hbmLine 0, .modified, by decide +kernel⟩

theorem test_meets_MemoryChannels_1 :
    ∃ (s : State) (c k : Nat), (s.shareMask c) = some k ∧ bit k (s.ft % 64) = true ∧ s.channelRuns c = true ∧ ((s.memCtl c).refBeat !=
      some s.ft) = true ∧ s.refreshLate c = true :=
  ⟨shareLate, 0, 1, by decide +kernel⟩

theorem test_meets_MemoryChannels_2 :
    ∃ (s : State) (c k l : Nat) (t : Tx), (s.shareMask c) = some k ∧ bit k (s.ft % 64) = true ∧ s.channelRuns c = true ∧ ((s.memCtl
      c).refBeat != some s.ft) = true ∧ s.refreshLate c = false ∧ s.nextAwaiting c = some (l, t) :=
  ⟨shareState.setHome hbmLine { HomeLine.init with tx := some (memTx mRdS) }, 0, 1, hbmLine, memTx mRdS, by decide +kernel⟩

theorem test_meets_MemoryChannels_3 :
    ∃ (s : State) (c k : Nat) (e : CacheJob), (s.shareMask c) = some k ∧ bit k (s.ft % 64) = true ∧ s.channelRuns c = true ∧ ((s.memCtl
      c).refBeat != some s.ft) = true ∧ s.refreshLate c = false ∧ s.nextAwaiting c = none ∧ s.cacheWork c = some e :=
  ⟨{ shareState with wbuf := [⟨0, line0, none⟩] }, 0, 1, ⟨0, line0, none⟩, by decide +kernel⟩

theorem test_meets_MemoryChannels_4 :
    ∃ (s : State) (c k g : Nat), (s.shareMask c) = some k ∧ bit k (s.ft % 64) = true ∧ s.channelRuns c = true ∧ ((s.memCtl c).refBeat !=
      some s.ft) = true ∧ s.refreshLate c = false ∧ s.nextAwaiting c = none ∧ s.cacheWork c = none ∧ s.correctionOf c = some g :=
  ⟨shareFix, 0, 1, line0, by decide +kernel⟩

theorem test_meets_MemoryChannels_5 :
    ∃ (s : State) (c k : Nat), (s.shareMask c) = some k ∧ bit k (s.ft % 64) = true ∧ s.channelRuns c = true ∧ ((s.memCtl c).refBeat !=
      some s.ft) = true ∧ s.refreshLate c = false ∧ s.nextAwaiting c = none ∧ s.cacheWork c = none ∧ s.correctionOf c = none :=
  ⟨shareState, 0, 1, by decide +kernel⟩

theorem test_meets_MemoryChannels_6 :
    ∃ (s u : State) (c : Nat), s.shareBeatOf c = true ∧ s.workWaits c = false ∧ s.fld Fld.MEM_SCRUB_PERIOD c ≠ 0 ∧ s.scrubDue c ≤ s.ft ∧
      (s.readGranule (channelBase c + (s.memCtl c).scrub) .scrub).1 = u ∧ (s.memCtl c).scrub + 32 < channelUsable c :=
  by exact ⟨scrubOn 0 MemCtl.init, _, 0, by decide +kernel, by decide +kernel, by decide +kernel, by decide +kernel, rfl, by decide +kernel⟩

theorem test_meets_MemoryChannels_7 :
    ∃ (s u : State) (c : Nat), s.shareBeatOf c = true ∧ s.workWaits c = false ∧ s.fld Fld.MEM_SCRUB_PERIOD c ≠ 0 ∧ s.scrubDue c ≤ s.ft ∧
      (s.readGranule (channelBase c + (s.memCtl c).scrub) .scrub).1 = u ∧ channelUsable c ≤ (s.memCtl c).scrub + 32 :=
  by exact ⟨scrubOn 125000000 { MemCtl.init with scrub := channelUsable 0 - 32 }, _, 0, by decide +kernel, by decide +kernel, by decide +kernel, by decide +kernel, rfl,
    by decide +kernel⟩

theorem test_meets_MemoryChannels_8 :
    ∃ (s : State) (c : Nat), s.shareBeatOf c = true ∧ s.workWaits c = false ∧ s.ft < s.scrubDue c :=
  ⟨scrubOn 0 { MemCtl.init with scrub := channelUsable 0 - 32 }, 0, by decide +kernel⟩

theorem test_meets_MemoryChannels_10 :
    ∃ (s : State) (c l : Nat), (s.memCtl c).pending = some l ∧ s.ft % 64 = 0 :=
  ⟨running.setMemCtl 0 { MemCtl.init with pending := some 1 }, 0, 1, by decide +kernel⟩

theorem test_meets_MemoryChannels_11 :
    ∃ (s : State) (rq : Requester) (c v : Nat), s.acceptsWrite rq .MEM_REFRESH c = true ∧ c < 40 ∧ v % 4 ≠ 3 :=
  ⟨running, fromModule, 0, 1, by decide +kernel⟩

theorem test_meets_MemoryChannels_12 :
    ∃ (s : State) (rq : Requester) (c v : Nat), s.acceptsWrite rq .MEM_REFRESH c = true ∧ c < 40 ∧ v % 4 = 3 :=
  ⟨running, fromModule, 0, 3, by decide +kernel⟩

theorem test_meets_MemoryChannels_13 :
    ∃ (s : State) (k : Nat) (e : CacheJob), s.cacheWork k = some e ∧ e.fill = none ∧ s.shareBeatOf k = true ∧ s.demandWaits k = false :=
  ⟨{ running with wbuf := [⟨0, line0, none⟩] }, 0, ⟨0, line0, none⟩, by decide +kernel⟩

theorem test_meets_MemoryChannels_14 :
    ∃ (s : State) (i w : Nat) (l : List Nat), i < 64 ∧ w < 16 ∧ s.flag Fld.LLM_SLICE_MODE i = true ∧ s.wayOff i w = false ∧ (s.wayHealth
      i w).disabling = false :=
  ⟨running.setFld Fld.LLM_SLICE_MODE 0 1, 0, 3, [], by decide +kernel⟩

theorem test_meets_MemoryChannels_15 :
    ∃ (s u : State) (i w : Nat) (l : List Nat), i < 64 ∧ w < 16 ∧ s.flag Fld.LLM_SLICE_MODE i = true ∧ s.wayOff i w = false ∧
      (s.wayHealth i w).disabling = false ∧ (s.bump Fld.LLM_SLICE_CORRECTED i).setWayHealth i w
      { s.wayHealth i w with beats := (s.ft :: (s.wayHealth i w).beats).take 3 } = u :=
  by exact ⟨running.setFld Fld.LLM_SLICE_MODE 0 1, _, 0, 3, [], by decide +kernel, by decide +kernel, by decide +kernel, by decide +kernel, by decide +kernel, rfl⟩

theorem test_meets_MemoryChannels_16 :
    ∃ (s : State) (rq : Requester) (i m : Nat), s.acceptsWrite rq .LLM_SLICE i = true ∧ i < 64 :=
  ⟨running, fromModule, 0, 1, by decide +kernel⟩

theorem test_meets_MemoryChannels_17 :
    ∃ (s u : State) (rq : Requester) (d w : Nat), s.acceptsWrite rq .LLM_ZERO d = true ∧ d < 4 ∧ bit w 0 = true ∧ s.zeroBusy d = false ∧
      ((s.setFld Fld.LLM_ZERO_LINES d (getBits w 52 12)).setFld Fld.LLM_ZERO_ADDR d (getBits w 10 42)).zeroLines d (getBits w 10 42 *
      1024) (getBits w 52 12 + 1) = u :=
  by exact ⟨running, _, fromModule, 0, 1, by decide +kernel, by decide +kernel, by decide +kernel, by decide +kernel, rfl⟩

theorem test_meets_Translations_1 :
    ∃ (s : State) (rq : Requester) (p : Nat), s.acceptsWrite rq .HUB_TT_CTL p = true ∧ p < 16 :=
  ⟨running, fromModule, 0, by decide +kernel⟩

theorem test_meets_Translations_2 :
    ∃ (s : State) (w : Walk) (x : FaultSite), s.walkNeed w = some ((w.va, w.access), x) ∧ s.walks.length < 32 ∧ (s.walks.filter (fun x
      => s.partOfCtx x.ctx == s.partOfCtx w.ctx)).length < 8 ∧ s.stopped x.ctx x.cmd x.core x.entry x.f = false ∧ s.walks.any (fun x =>
      x.cache == w.cache && x.ctx == w.ctx && x.seq == w.seq && x.entry == w.entry && x.f == w.f) = false ∧ 128 ≤ w.cache :=
  by exact ⟨missState, ⟨cmdCache, 0, 0, 0xFF, 0, 0x1000, 2, 0, 0, false⟩, _, rfl, by decide +kernel, by decide +kernel, by decide +kernel, by decide +kernel, by decide +kernel⟩

theorem test_meets_Translations_3 :
    ∃ (s : State) (w : Walk) (x : FaultSite), s.walkNeed w = some ((w.va, w.access), x) ∧ s.walks.length < 32 ∧ (s.walks.filter (fun x
      => s.partOfCtx x.ctx == s.partOfCtx w.ctx)).length < 8 ∧ s.stopped x.ctx x.cmd x.core x.entry x.f = false ∧ s.walks.any (fun x =>
      x.cache == w.cache && x.ctx == w.ctx && x.seq == w.seq && x.entry == w.entry && x.f == w.f) = false ∧ w.cache < 128 :=
  by exact ⟨missMover, ⟨0, 0, 0, 0, 0, 0, 1, 0, 0, false⟩, _, rfl, by decide +kernel, by decide +kernel, by decide +kernel, by decide +kernel, by decide +kernel⟩

theorem test_meets_Translations_4 :
    ∃ (s u : State) (i pte : Nat) (w : Walk) (b : List Byte), s.walks[i]? = some w ∧ s.walkPart = some (s.partOfCtx w.ctx) ∧
      s.walkWanted w = true ∧ s.accessNow (unitRq (s.partOfCtx w.ctx)) (w.table + 8 * (w.va % 2 ^ 57 / 2 ^ (12 + 9 * w.level) % 512)) 8
      = true ∧ cacheable (w.table + 8 * (w.va % 2 ^ 57 / 2 ^ (12 + 9 * w.level) % 512)) = true ∧
      ({ s with walkTurn := s.partOfCtx w.ctx } : State).readLocal (s.walkRq w) (w.table + 8 * (w.va % 2 ^ 57 / 2 ^ (12 + 9 * w.level) %
      512)) 8 = (u, stOk, b) ∧ leNat b = pte ∧ pteBad pte = false ∧ pteLeaf pte = true ∧ leafCause pte w.level w.access = 0 :=
  by exact ⟨walkState, _, 0, leafPte, walk0, _, by decide +kernel, by decide +kernel, by decide +kernel, by decide +kernel, by decide +kernel, rfl, by decide +kernel, by decide +kernel, by
    decide, by decide +kernel⟩

theorem test_meets_Translations_5 :
    ∃ (s : State) (rq : Requester) (p w : Nat), s.acceptsWrite rq .HUB_TLBI p = true ∧ p < 16 ∧ s.flag Fld.HUB_TLBI_GO p = false :=
  ⟨running, fromModule, 0, 0, by decide +kernel⟩

theorem test_meets_Translations_6 :
    ∃ (s : State) (p : Nat), s.flag Fld.HUB_TLBI_GO p = true ∧ s.tlbiOutstanding p = false :=
  ⟨running.raise Fld.HUB_TLBI_GO 0, 0, by decide +kernel⟩

theorem test_meets_FabricLinks_1 :
    ∃ (s : State) (p k : Nat) (raw : List Byte) (n : FrameNote) (f : Frame) (c : Bool), s.portUp p = true ∧ decodeFrame raw n = some (f,
      c) :=
  by exact ⟨portOn, 0, 0, goodRaw, .none, heardFrame, false, by decide +kernel, by decide +kernel⟩

theorem test_meets_FabricLinks_2 :
    ∃ (s : State) (p k : Nat) (raw : List Byte) (n : FrameNote), s.portUp p = true ∧ decodeFrame raw n = none :=
  ⟨portOn, 0, 0, [], .none, by decide +kernel⟩

theorem test_meets_FabricLinks_3 :
    ∃ (s : State) (p q : Nat), s.portUp p = true :=
  ⟨portOn, 0, 0, by decide +kernel⟩

theorem test_meets_FabricLinks_4 :
    ∃ (s : State) (p q : Nat), s.portUp p = true :=
  ⟨portOn, 0, 0, by decide +kernel⟩

theorem test_meets_FabricLinks_5 :
    ∃ (s : State) (p : Nat), s.portUp p = true ∧ (s.port p).retry ≠ [] ∧ (s.port p).ackBeat + 250 ≤ s.ft :=
  ⟨withTime (portOn.setPort 0 { Port.init with retry := [⟨0, [], []⟩] }) (fun t => { t with ft := 250 }), 0, by decide +kernel⟩

theorem test_meets_FabricLinks_6 :
    ∃ (s : State) (p v n : Nat), s.portUp p = true ∧ v ≤ 2 :=
  ⟨portOn, 0, 1, 3, by decide +kernel⟩

theorem test_meets_FabricLinks_7 :
    ∃ (s u : State) (p c n : Nat) (x : Nat × Nat) (ce : CircEntry), s.portUp p = true ∧ s.circEntry c = some ce ∧ ce.dst = 0x5000 + p ∧
      ce.src / 4096 ≠ 5 ∧ (s.setCirc ce.id ((s.circ ce.id).addCredits s.ft (min n (ce.credits - (s.circ ce.id).credits)))).setSeg ce.id
      { s.seg ce.id with owed := (s.seg ce.id).owed.drop n } = u :=
  by exact ⟨portOn, _, 0, 20, 1, (0, 0), circ20, by decide +kernel, by decide +kernel, by decide +kernel, by decide +kernel, rfl⟩

theorem test_meets_FabricLinks_8 :
    ∃ (s : State) (p c n : Nat) (x : Nat × Nat) (ce : CircEntry), s.portUp p = true ∧ s.circEntry c = some ce ∧ ce.dst = 0x5000 + p ∧
      ce.src / 4096 = 5 :=
  ⟨transitOn, 1, 23, 1, (0, 0), circ23, by decide +kernel⟩

theorem test_meets_FabricLinks_9 :
    ∃ (s : State) (p c i : Nat) (ce : CircEntry), s.portUp p = true ∧ s.circEntry c = some ce ∧ ce.dst = 0x5000 + p ∧ ce.src / 4096 ≠ 5 :=
  ⟨portOn, 0, 20, 0, circ20, by decide +kernel⟩

theorem test_meets_FabricLinks_10 :
    ∃ (s : State) (p c i : Nat) (ce : CircEntry), s.portUp p = true ∧ s.circEntry c = some ce ∧ ce.dst = 0x5000 + p ∧ ce.src / 4096 ≠ 5 :=
  ⟨portOn, 0, 20, 0, circ20, by decide +kernel⟩

theorem test_meets_FabricLinks_11 :
    ∃ (s : State) (c i : Nat) (ce : CircEntry), s.circEntry c = some ce ∧ ce.dst / 4096 = 5 ∧ ce.src / 4096 ≠ 5 ∧ (s.seg
      ce.id).sent.findIdx? (fun t => decide (s.ft ≥ t.beat + 4 * 2 ^ ce.k)) = some i :=
  ⟨withTime (portOn.setSeg 20 { Segment.init with sent := [⟨0, { addTok with data := [], pieces := [], op := 0 }, 0⟩] }) (fun t =>
    { t with ft := 1024 }), 20, 0, circ20, by decide +kernel⟩

theorem test_meets_FabricPackets_1 :
    ∃ (s u v w : State) (port st : Nat) (p : Packet) (b : List Byte), p.typ = pkRead ∧ s.packetHeld port p = false ∧ s.packetBusy p =
      false ∧ s.takePacket port p = u ∧ p.dest = u.selfModule ∧ u.admitRequest p = (v, true) ∧ p.inReach p.len = true ∧ p.len ≤ 256 ∧
      regOffset p.addr = none ∧ v.issueRead p.rq none p.addr p.len p.waiter = (w, .done st b) :=
  by exact ⟨portOn, _, _, _, 0, _, packet 1 [], _, rfl, by decide +kernel, by decide +kernel, rfl, by decide +kernel, rfl, by decide +kernel, by decide +kernel, by decide +kernel, rfl⟩

theorem test_meets_FabricPackets_2 :
    ∃ (s u v w : State) (port st : Nat) (p : Packet) (b : List Byte), p.typ = pkWrite ∧ s.packetHeld port p = false ∧ s.packetBusy p =
      false ∧ s.takePacket port p = u ∧ p.dest = u.selfModule ∧ u.admitRequest p = (v, true) ∧ p.inReach p.data.length = true ∧
      p.data.length ≤ 256 ∧ regOffset p.addr = none ∧ v.issueWrite p.rq none p.addr p.data p.waiter = (w, .done st b) :=
  by exact ⟨portOn, _, _, _, 0, _, packet 2 (zeros 32), _, rfl, by decide +kernel, by decide +kernel, rfl, by decide +kernel, rfl, by decide +kernel, by decide +kernel, by
    decide, rfl⟩

theorem test_meets_FabricPackets_3 :
    ∃ (s u v w : State) (port st : Nat) (p : Packet) (b : List Byte), p.typ = pkAtomic ∧ s.packetHeld port p = false ∧ s.packetBusy p =
      false ∧ s.takePacket port p = u ∧ p.dest = u.selfModule ∧ u.admitRequest p = (v, true) ∧ p.inReach p.atomSize = true ∧ (p.atomSize
      = 4 ∨ p.atomSize = 8) ∧ (0x10 ≤ p.op ∧ p.op ≤ 0x18) ∧ p.addr % p.atomSize = 0 ∧ regOffset p.addr = none ∧ v.issueAtomic p.rq none
      p.addr p.atomSize (opOfPacket p.op) (leNat (p.data.take p.atomSize)) 0 p.waiter = (w, .done st b) :=
  by exact ⟨portOn, _, _, _, 0, _, packet 3 (zeros 8), _, rfl, by decide +kernel, by decide +kernel, rfl, by decide +kernel, rfl, by decide +kernel, by decide +kernel, by
    decide, by decide +kernel, by decide +kernel, rfl⟩

theorem test_meets_FabricPackets_4 :
    ∃ (s u v w : State) (port st o : Nat) (p : Packet), p.typ = pkAtomic ∧ s.packetHeld port p = false ∧ s.packetBusy p = false ∧
      s.takePacket port p = u ∧ p.dest = u.selfModule ∧ u.admitRequest p = (v, true) ∧ p.inReach p.atomSize = true ∧ (p.atomSize = 4 ∨
      p.atomSize = 8) ∧ (1 ≤ p.op ∧ p.op ≤ 4) ∧ v.packetAdd p = (w, st, o) :=
  by exact ⟨portOn, _, _, _, 0, _, _, { packet 3 (zeros 4) with op := 1, addr := 0x1000_0000_0000 }, rfl, by decide +kernel, by decide +kernel, rfl, by
    decide, rfl, by decide +kernel, by decide +kernel, by decide +kernel, rfl⟩

theorem test_meets_FabricPackets_5 :
    ∃ (s : State) (port : Nat) (p : Packet), p.typ = pkRead ∧ s.packetHeld port p = false ∧ s.packetBusy p = false ∧ p.dest ≠
      (s.takePacket port p).selfModule :=
  ⟨portOn, 0, { packet 1 [] with dest := 9 }, by decide +kernel⟩

theorem test_meets_FabricPackets_6 :
    ∃ (s : State) (port : Nat) (p : Packet), p.typ = pkWrite ∧ s.packetHeld port p = true :=
  ⟨heldOn, 0, { packet 2 (zeros 32) with flags := 8 }, by decide +kernel⟩

theorem test_meets_FabricPackets_7 :
    ∃ (s u v : State) (port : Nat) (p : Packet) (o : OpenAccess), p.typ = pkData ∧ s.packetHeld port p = false ∧ s.packetBusy p = false
      ∧ s.takePacket port p = u ∧ p.dest = u.selfModule ∧ u.admitRequest p = (v, true) ∧ v.opens.find? (fun o => o.id == p.tag &&
      o.module == some p.src) = some o :=
  by exact ⟨awaitState, _, _, 0, packet 4 [], open0, rfl, by decide +kernel, by decide +kernel, rfl, by decide +kernel, rfl, by decide +kernel⟩

theorem test_meets_FabricPackets_8 :
    ∃ (s u v : State) (port : Nat) (p : Packet) (o : OpenAccess), p.typ = pkAck ∧ s.packetHeld port p = false ∧ s.packetBusy p = false ∧
      s.takePacket port p = u ∧ p.dest = u.selfModule ∧ u.admitRequest p = (v, true) ∧ v.opens.find? (fun o => o.id == p.tag && o.module
      == some p.src) = some o :=
  by exact ⟨awaitState, _, _, 0, packet 5 [], open0, rfl, by decide +kernel, by decide +kernel, rfl, by decide +kernel, rfl, by decide +kernel⟩

theorem test_meets_FabricPackets_9 :
    ∃ (s u v : State) (port : Nat) (p : Packet) (o : OpenAccess), p.typ = pkError ∧ s.packetHeld port p = false ∧ s.packetBusy p = false
      ∧ s.takePacket port p = u ∧ p.dest = u.selfModule ∧ u.admitRequest p = (v, true) ∧ v.opens.find? (fun o => o.id == p.tag &&
      o.module == some p.src) = some o ∧ p.status ≠ stOk :=
  by exact ⟨awaitState, _, _, 0, { packet 6 [] with status := stAccessError }, open0, rfl, by decide +kernel, by decide +kernel, rfl, by decide +kernel, rfl, by
    decide, by decide +kernel⟩

theorem test_meets_FabricNotices_1 :
    ∃ (s : State) (port : Nat) (n : Notice), noticeKind n = nkLoss :=
  ⟨State.reset, 0, noticeOf 0x10 0, by decide +kernel⟩

theorem test_meets_FabricNotices_2 :
    ∃ (s u : State) (port : Nat) (n : Notice), noticeKind n = nkMembership ∧ s.takeNotice port n = u ∧ u.fromManager n = true ∧
      noticeModule n < 4096 ∧ noticeArg n = 1 :=
  by exact ⟨managed running, _, 0, membership 1, rfl, rfl, by decide +kernel, by decide +kernel, by decide +kernel⟩

theorem test_meets_FabricNotices_3 :
    ∃ (s u : State) (port : Nat) (n : Notice), noticeKind n = nkMembership ∧ s.takeNotice port n = u ∧ u.fromManager n = true ∧
      noticeModule n < 4096 ∧ noticeArg n = 2 :=
  by exact ⟨managed running, _, 0, membership 2, rfl, rfl, by decide +kernel, by decide +kernel, by decide +kernel⟩

theorem test_meets_FabricNotices_4 :
    ∃ (s u : State) (port : Nat) (n : Notice), noticeKind n = nkAbortCircuits ∧ s.takeNotice port n = u ∧ u.fromManager n = true :=
  by exact ⟨managed running, _, 0, noticeOf 0x12 0, rfl, rfl, by decide +kernel⟩

theorem test_meets_FabricNotices_5 :
    ∃ (s u : State) (port : Nat) (n : Notice), noticeKind n = nkReset ∧ s.takeNotice port n = u ∧ u.fromManager n = true ∧ noticeArg n =
      2 ∧ u.resetMask n ≠ [] :=
  by exact ⟨managed running, _, 0, resetAsk, rfl, rfl, by decide +kernel, by decide +kernel, by decide +kernel⟩

theorem test_meets_FabricNotices_6 :
    ∃ (s u v z : State) (rq : Requester) (w : Nat) (b : List Byte) (ok : Bool), s.acceptsWrite rq .FAB_NSEND 0 = true ∧ bit (w % 2 ^ 64)
      63 = true ∧ (s.setFld Fld.FAB_NSEND_BROADCAST 0 (getBits (s.stored .FAB_NSEND 0 w (2 ^ 64 - 1)) 62 1)).setFld Fld.FAB_NSEND_ADDR 0
      (getBits (s.stored .FAB_NSEND 0 w (2 ^ 64 - 1)) 7 45) = u ∧ u.readLocal (unitRq 0xFE) (u.fld Fld.FAB_NSEND_ADDR * 128) 128 = (v,
      stOk, b) ∧ badNotice b = false ∧ v.sendCopies (v.fillNotice b) (if v.flag Fld.FAB_NSEND_BROADCAST then v.routed else [fieldAt
      (v.fillNotice b) 4 2 % 4096]) = (z, ok) :=
  by exact ⟨nsendState, _, _, _, fromModule, 2 ^ 63 + 0x1_0000_0000, _, _, by decide +kernel, by decide +kernel, rfl, rfl, by decide +kernel, rfl⟩

theorem test_meets_FabricPorts_1 :
    ∃ (s : State) (rq : Requester) (p : Nat), s.acceptsWrite rq .FAB_PORT_CTL p = true ∧ p < 16 ∧ (s.portState p = psDown ∨ s.portState
      p = psMismatch) :=
  ⟨running, fromModule, 0, by decide +kernel⟩

theorem test_meets_FabricPorts_2 :
    ∃ (s : State) (rq : Requester) (p : Nat), s.acceptsWrite rq .FAB_PORT_CTL p = true ∧ p < 16 :=
  ⟨running, fromModule, 0, by decide +kernel⟩

theorem test_meets_FabricPorts_3 :
    ∃ (s : State) (rq : Requester) (p : Nat), s.acceptsWrite rq .FAB_PORT_CTL p = true ∧ p < 16 ∧ (s.setFld Fld.FAB_PORT_CTL_DISABLE p
      0).portState p = psDisabled :=
  ⟨running.setPortState 0 psDisabled, fromModule, 0, by decide +kernel⟩

theorem test_meets_FabricPorts_4 :
    ∃ (s u v : State) (p m n g : Nat), s.portState p = psTraining ∧ (s.setFld Fld.FAB_PORT_STATUS_NBR_MODULE p m).setFld
      Fld.FAB_PORT_STATUS_NBR_PORT p n = u ∧ g = u.groupId ∧ (u.endTraining p psUp).setPort p
      { Port.init with arrived := (u.port p).arrived, lastGood := u.ft, ackBeat := u.ft } = v :=
  by exact ⟨running.setPortState 0 psTraining, _, _, 0, 0, 0, 0, by decide +kernel, rfl, by decide +kernel, rfl⟩

theorem test_meets_FabricPorts_5 :
    ∃ (s u : State) (p m n g : Nat), s.portState p = psTraining ∧ (s.setFld Fld.FAB_PORT_STATUS_NBR_MODULE p m).setFld
      Fld.FAB_PORT_STATUS_NBR_PORT p n = u ∧ g ≠ u.groupId :=
  by exact ⟨running.setPortState 0 psTraining, _, 0, 0, 0, 1, by decide +kernel, rfl, by decide +kernel⟩

theorem test_meets_FabricPorts_6 :
    ∃ (s : State) (p : Nat), s.portState p = psTraining ∧ (s.port p).trainBeat + 6250000 ≤ s.ft :=
  ⟨withTime (running.setPortState 0 psTraining) (fun t => { t with ft := 6250000 }), 0, by decide +kernel⟩

theorem test_meets_FabricPorts_7 :
    ∃ (s : State) (p : Nat), s.portUp p = true ∧ (s.port p).lastGood + 125 ≤ s.ft :=
  ⟨withTime portOn (fun t => { t with ft := 125 }), 0, by decide +kernel⟩

theorem test_meets_FabricPorts_8 :
    ∃ (s : State) (p : Nat), s.portUp p = true ∧ 64 ≤ ((s.port p).bad.filter (fun b => decide (s.ft < b + 125000))).length :=
  ⟨portOn.setPort 0 { Port.init with bad := List.replicate 64 0 }, 0, by decide +kernel⟩

theorem test_meets_FabricPorts_9 :
    ∃ (s : State) (p : Nat), s.portUp p = true :=
  ⟨portOn, 0, by decide +kernel⟩

theorem test_meets_DieLinks_1 :
    ∃ (s u : State) (l d : Nat) (raw : List Byte) (e : List (Nat × Byte)) (f g : Flit), l < 17 ∧ coherentLink l = true ∧ s.linkState l =
      lsUp ∧ decodeFlit raw = some f ∧ decodeFlit (strike raw e) = some g ∧ s.setDieLink (2 * l + d % 2) ((s.dieLink (2 * l + d %
      2)).transmit f s.ft) = u :=
  by exact ⟨linkOn, _, 1, 0, goodFlit, [], ⟨1, 0, 0, 0, 0, 0⟩, ⟨1, 0, 0, 0, 0, 0⟩, by decide +kernel, by decide +kernel, by decide +kernel, by decide +kernel, by
    decide, rfl⟩

theorem test_meets_DieLinks_2 :
    ∃ (s u : State) (l d : Nat) (raw : List Byte) (e : List (Nat × Byte)) (f : Flit), l < 17 ∧ coherentLink l = true ∧ s.linkState l =
      lsUp ∧ decodeFlit raw = some f ∧ decodeFlit (strike raw e) = none ∧ s.setDieLink (2 * l + d % 2) ((s.dieLink (2 * l + d %
      2)).transmit f s.ft) = u :=
  by exact ⟨linkOn, _, 1, 0, goodFlit, [(20, 1)], ⟨1, 0, 0, 0, 0, 0⟩, by decide +kernel, by decide +kernel, by decide +kernel, by decide +kernel, by decide +kernel, rfl⟩

theorem test_meets_DieLinks_3 :
    ∃ (s : State) (l d : Nat) (raw : List Byte) (e : List (Nat × Byte)) (g : Flit), l < 17 ∧ coherentLink l = false ∧ s.linkState l =
      lsUp ∧ decodeFlit (strike raw e) = some g :=
  ⟨linkRing, 9, 0, goodFlit, [], ⟨1, 0, 0, 0, 0, 0⟩, by decide +kernel⟩

theorem test_meets_DieLinks_4 :
    ∃ (s : State) (l d : Nat), l < 17 ∧ s.linkState l = lsUp ∧ (s.dieLink (2 * l + d % 2)).sent ≠ [] ∧ (s.dieLink (2 * l + d %
      2)).ackBeat + resendBeats l ≤ s.ft :=
  ⟨withTime (linkOn.setDieLink 2 { DieLink.init with sent := [(0, 0)] }) (fun t => { t with ft := 1000 }), 1, 0, by decide +kernel⟩

theorem test_meets_DieLinks_5 :
    ∃ (s u : State) (l d c i : Nat) (v : DieLink), (1 ≤ l ∧ l ≤ 4) ∧ s.linkState l = lsUp ∧ s.dieLink (2 * l + d % 2) = v ∧ s.setDieLink
      (2 * l + d % 2)
      { v with insts := (if v.insts.contains (c, i % 2 ^ 16) then v.insts else v.insts ++ [(c, i % 2 ^ 16)]).drop ((if v.insts.contains (c, i % 2 ^ 16) then v.insts else v.insts ++ [(c, i % 2 ^ 16)]).length - 2) }
      = u :=
  by exact ⟨linkOn, _, 1, 0, 16, 0, _, by decide +kernel, by decide +kernel, rfl, rfl⟩

theorem test_meets_DieLinks_6 :
    ∃ (s : State) (l d c i : Nat), (s.dieLink (2 * l + d % 2)).insts.any (fun x => x.1 == c && x.2 == i % 2 ^ 16) = true :=
  ⟨linkOn.setDieLink 2 { DieLink.init with insts := [(16, 0)] }, 1, 0, 16, 0, by decide +kernel⟩

theorem test_meets_DieLinks_7 :
    ∃ (s : State) (l d c i : Nat), (s.dieLink (2 * l + d % 2)).insts.contains (c, i % 2 ^ 16) = true ∧ (s.dieLink (2 * l + d %
      2)).again.contains (c, i % 2 ^ 16) = false :=
  ⟨linkOn.setDieLink 2 { DieLink.init with insts := [(16, 0)] }, 1, 0, 16, 0, by decide +kernel⟩

theorem test_meets_DieLinks_8 :
    ∃ (s : State) (l d : Nat), l < 17 ∧ s.linkState l = lsUp ∧ (s.dieLink (otherEnd (2 * l + d % 2))).lastGood + 8 ≤ s.ft :=
  ⟨withTime linkOn (fun t => { t with ft := 8 }), 1, 0, by decide +kernel⟩

theorem test_meets_DieLinks_9 :
    ∃ (s : State) (l d : Nat), l < 17 ∧ s.linkState l = lsUp ∧ 32 ≤ (s.dieLink (2 * l + d % 2)).retries :=
  ⟨linkOn.setDieLink 2 { DieLink.init with retries := 32 }, 1, 0, by decide +kernel⟩

theorem test_meets_DieLinks_10 :
    ∃ (s : State) (l : Nat), l < 17 ∧ s.linkState l = lsUp :=
  ⟨linkOn, 1, by decide +kernel⟩

theorem test_meets_DieLinks_11 :
    ∃ (s : State) (w : Nat), (4 ≤ w ∧ w < 8) :=
  ⟨running, 5, by decide +kernel⟩

theorem test_meets_DieLinks_12 :
    ∃ (s : State) (w : Nat), w = 11 :=
  ⟨running, 11, by decide +kernel⟩

theorem test_meets_DieLinks_13 :
    ∃ (s : State) (n : Nat), n < 4 ∧ s.dieFenced n = true :=
  ⟨running.setFld Fld.HUB_DIE_FENCE_FENCED 0 1, 0, by decide +kernel⟩

theorem test_meets_HostLink_1 :
    ∃ (s u : State) (o n st : Nat) (b : List Byte), s.bar2Open o = true ∧ s.hostWritesOpen = false ∧ s.issueRead s.bar2Rq none
      (s.bar2Addr o) n .hostRead = (u, .done st b) :=
  by exact ⟨hostOn, (hostOn.issueRead hostOn.bar2Rq none 0x1_0000_0000 8 .hostRead).1, 0, 8, 0, zeros 8, by decide +kernel, by decide +kernel,
    hostOn_read⟩

theorem test_meets_HostLink_2 :
    ∃ (s : State) (o n : Nat), s.bar2Open o = true ∧ s.hostWritesOpen = true :=
  ⟨{ hostOn with opens := [hostWrite0] }, 0, 8, by decide +kernel⟩

theorem test_meets_HostLink_3 :
    ∃ (s : State) (o n : Nat), s.bar2Open o = false :=
  ⟨running, 0, 8, by decide +kernel⟩

theorem test_meets_HostLink_4 :
    ∃ (s u : State) (o st : Nat) (d b : List Byte) (e : Bool), s.bar2Open o = true ∧ s.hostWritesOpen = false ∧ s.issueWrite s.bar2Rq
      none (s.bar2Addr o) d (.hostWrite e) = (u, .done st b) :=
  by exact ⟨hostOn, (hostOn.issueWrite hostOn.bar2Rq none 0x1_0000_0000 (zeros 32) (.hostWrite true)).1, 0, 0, zeros 32, [], true, by
    decide, by decide +kernel, hostOn_write⟩

theorem test_meets_HostLink_5 :
    ∃ (s : State) (o : Nat) (d : List Byte) (e : Bool), s.bar2Open o = true ∧ s.hostWritesOpen = true :=
  ⟨{ hostOn with opens := [hostWrite0] }, 0, [], false, by decide +kernel⟩

theorem test_meets_HostLink_6 :
    ∃ (s : State) (o : Nat) (d : List Byte) (e : Bool), s.bar2Open o = false :=
  ⟨running, 0, [], false, by decide +kernel⟩

theorem test_meets_HostLink_7 :
    ∃ (s : State) (w : Bool) (o n v : Nat), regSizeOk o n = false :=
  ⟨running, false, 2, 4, 0, by decide +kernel⟩

theorem test_meets_HostLink_8 :
    ∃ (s u : State) (o n v st x : Nat), regSizeOk o n = true ∧ s.hostWritesOpen = false ∧ s.regRead hostRq o n = (u, st, x) :=
  by exact ⟨running, _, 8, 8, 0, _, _, by decide +kernel, by decide +kernel, rfl⟩

theorem test_meets_HostLink_9 :
    ∃ (s u : State) (o n v : Nat), regSizeOk o n = true ∧ s.hostWritesOpen = false ∧ s.regWrite hostRq o n v = (u, stOk) :=
  by exact ⟨running, _, Reg.offset .HUB_SMP_RING 0, 8, 0, by decide +kernel, by decide +kernel, rfl⟩

theorem test_meets_HostLink_10 :
    ∃ (s : State) (w : Bool) (o n v : Nat), regSizeOk o n = true ∧ s.hostWritesOpen = true :=
  ⟨{ running with opens := [hostWrite0] }, false, 8, 8, 0, by decide +kernel⟩

theorem test_meets_HostLink_11 :
    ∃ (s : State) (rq : Requester) (w b : Nat), s.acceptsWrite rq .HOST_BAR2 0 = true ∧ locate (getBits (s.stored .HOST_BAR2 0 w (2 ^ 64
      - 1)) 28 24 * 2 ^ 28) = .host b :=
  ⟨running, fromModule, 0x1_0000_0000_0000, 0, by decide +kernel⟩

theorem test_meets_HostLink_12 :
    ∃ (s : State) (rq : Requester) (w b c : Nat), s.acceptsWrite rq .HOST_BAR2 0 = true ∧ locate (getBits (s.stored .HOST_BAR2 0 w (2 ^
      64 - 1)) 28 24 * 2 ^ 28) = .hbm b c :=
  ⟨running, fromModule, 0x1000_0000_0001, 0, 0, by decide +kernel⟩

theorem test_meets_HostLink_13 :
    ∃ (s : State), s.flag Fld.HOST_STATUS_DL_ACTIVE = true :=
  ⟨running.raise Fld.HOST_STATUS_DL_ACTIVE, by decide +kernel⟩

theorem test_meets_HostLink_16 :
    ∃ (s : State), s.bme = true :=
  ⟨{ running with bme := true }, by decide +kernel⟩

theorem test_meets_HostAttachment_2 :
    ∃ (s : State) (rq : Requester), s.acceptsWrite rq .HOST_ATTACH 0 = true ∧ s.hostUp = true :=
  ⟨hostOn, fromModule, by decide +kernel⟩

theorem test_meets_HostAttachment_3 :
    ∃ (s : State) (rq : Requester), s.acceptsWrite rq .HOST_ATTACH 0 = true ∧ s.hostUp = false ∧ s.fld Fld.HOST_ATTACH_GEN_ACK_GEN =
      s.fld Fld.HOST_ATTACH_GENERATION ∧ s.flag Fld.HOST_STATUS_DL_ACTIVE = true ∧ s.bme = true :=
  ⟨{ (running.raise Fld.HOST_STATUS_DL_ACTIVE).setFld Fld.HOST_ATTACH_GEN_ACK_GEN 0 1 with bme := true }, fromModule, by decide +kernel⟩

theorem test_meets_HostAttachment_4 :
    ∃ (s : State) (rq : Requester), s.acceptsWrite rq .HOST_ATTACH 0 = true ∧ s.hostUp = true :=
  ⟨hostOn, fromModule, by decide +kernel⟩

theorem test_meets_HostAttachment_5 :
    ∃ (s : State) (i k : Nat) (d : List Byte), s.hostReadOpen i = true ∧ s.opens.any (fun o => o.id == i && o.op == 2) = false :=
  ⟨{ running with opens := [hostOpen] }, 5, 0, zeros 8, by decide +kernel⟩

theorem test_meets_HostAttachment_6 :
    ∃ (s : State) (i k : Nat) (d : List Byte), s.hostReadOpen i = true ∧ s.opens.any (fun o => o.id == i && o.op == 2) = true :=
  ⟨{ running with opens := [{ hostOpen with op := 2 }] }, 5, 0, [], by decide +kernel⟩

theorem test_meets_HostAttachment_7 :
    ∃ (s : State) (i : Nat), s.hostReadOpen i = true :=
  ⟨{ running with opens := [hostOpen] }, 5, by decide +kernel⟩

theorem test_meets_Ethernet_1 :
    ∃ (s : State) (p : Nat) (f : EthFrame), p < 2 ∧ s.flag Fld.ETH_STATUS_LINK_UP p = true ∧ f.fcsOk = true ∧ f.ptp = none ∧ f.roce =
      false :=
  ⟨ethOn, 0, ethFrame0, by decide +kernel⟩

theorem test_meets_Ethernet_2 :
    ∃ (s : State) (p : Nat) (f : EthFrame), p < 2 ∧ s.flag Fld.ETH_STATUS_LINK_UP p = true ∧ f.fcsOk = false :=
  ⟨ethOn, 0, { ethFrame0 with fcsOk := false }, by decide +kernel⟩

theorem test_meets_Ethernet_3 :
    ∃ (s m u v : State) (p q g r va w a : Nat) (d : List Byte) (e b : Bool) (rq : Requester), p < 2 ∧ s.ecnMarked p q e = m ∧
      m.rdmaWindow p r va d.length Fld.ETH_RWIN_CTL_WRITE = some (w, a, rq) ∧ m.rdmaWriteParts rq (.rdma p q g w) d (parts256 a
      d.length) = (u, stOk, b) ∧ u.claimOpens m.nextId (.rdma p q g w) = v ∧ v.opens.any (fun o => o.waiter == .rdma p q g w) = false :=
  by exact ⟨ethWin, _, _, _, 0, 0, 0, 0, 0, 0, 0x1_0000_0000, zeros 32, false, _, ⟨.eth, 0, 254⟩, by decide +kernel, rfl, by decide +kernel, rfl, rfl,
    by decide +kernel⟩

theorem test_meets_Ethernet_4 :
    ∃ (s m : State) (p q g r va n w a : Nat) (e : Bool) (rq : Requester), p < 2 ∧ s.ecnMarked p q e = m ∧ m.rdmaWindow p r va n
      Fld.ETH_RWIN_CTL_READ = some (w, a, rq) ∧ n ≠ 0 :=
  by exact ⟨ethWin, _, 0, 0, 0, 0, 0, 64, 0, 0x1_0000_0000, true, ⟨.eth, 0, 254⟩, by decide +kernel, rfl, by decide +kernel, by decide +kernel⟩

theorem test_meets_Ethernet_5 :
    ∃ (s m : State) (p q g r va n : Nat) (e : Bool), p < 2 ∧ s.ecnMarked p q e = m ∧ m.rdmaWindow p r va n Fld.ETH_RWIN_CTL_READ = none :=
  by exact ⟨ethWin, _, 0, 0, 0, 256, 0, 64, false, by decide +kernel, rfl, by decide +kernel⟩

theorem test_meets_Ethernet_6 :
    ∃ (s m u : State) (p q g r va x y w a st : Nat) (c e : Bool) (rq : Requester) (b : List Byte), p < 2 ∧ s.ecnMarked p q e = m ∧
      m.rdmaWindow p r va 8 Fld.ETH_RWIN_CTL_ATOMIC = some (w, a, rq) ∧ va % 8 = 0 ∧ m.issueAtomic rq none a 8 (if c then 9 else 1) x y
      (.rdma p q g w) = (u, .done st b) :=
  by exact ⟨ethWin, _, _, 0, 0, 0, 0, 0, 1, 0, 0, 0x1_0000_0000, _, false, false, ⟨.eth, 0, 254⟩, _, by decide +kernel, rfl, by decide +kernel, by
    decide, rfl⟩

theorem test_meets_Ethernet_7 :
    ∃ (s : State) (p q : Nat), p < 2 ∧ q < 8192 :=
  ⟨running, 0, 0, by decide +kernel⟩

theorem test_meets_Ethernet_8 :
    ∃ (s : State) (c : Nat), s.isEthCirc c = true ∧ (s.circ c).held ≠ 0 :=
  ⟨ethCirc.setCirc 21 { Circ.init with held := 1 }, 21, by decide +kernel⟩

theorem test_meets_Ethernet_9 :
    ∃ (s u : State) (c : Nat), s.isEthCirc c = true ∧ s.killCircuit c = u :=
  by exact ⟨ethCirc, _, 21, by decide +kernel, rfl⟩

theorem test_meets_Ethernet_10 :
    ∃ (s : State) (a : Nat) (d : List Byte) (ok : Bool), ok = false :=
  ⟨running, 0, [], false, by decide +kernel⟩

theorem test_meets_Ethernet_11 :
    ∃ (s u : State) (a st : Nat) (d : List Byte) (ok : Bool), ok = true ∧ a % 32 = 0 ∧ d.length % 32 = 0 ∧ d.isEmpty = false ∧ cacheable
      a = true ∧ s.writeLocal nvmeRq none a d = (u, st) :=
  by exact ⟨running, _, 0x1000_0000_0000, _, zeros 32, true, rfl, by decide +kernel, by decide +kernel, by decide +kernel, by decide +kernel, rfl⟩

theorem test_meets_Ethernet_12 :
    ∃ (s : State) (rq : Requester) (w v : Nat), s.acceptsWrite rq .ETH_RWIN_CTL w = true ∧ w < 256 ∧ (s.storePlain .ETH_RWIN_CTL w v (2
      ^ 64 - 1)).rwinOpen w = false :=
  ⟨running, fromModule, 0, 1, by decide +kernel⟩

theorem test_meets_Ethernet_13 :
    ∃ (s : State) (rq : Requester) (p q v : Nat), s.acceptsWrite rq .ETH_TXQ_PTR (p * 256 + q) = true ∧ p < 2 ∧ q < 256 :=
  ⟨running, fromModule, 0, 0, 0, by decide +kernel⟩

theorem test_meets_Ethernet_14 :
    ∃ (s : State) (p : Nat), p < 2 :=
  ⟨running, 0, by decide +kernel⟩

theorem test_meets_Ethernet_15 :
    ∃ (s : State) (p : Nat), p < 2 :=
  ⟨running, 0, by decide +kernel⟩

theorem test_meets_PowerSamples_1 :
    ∃ (s : State) (m v : Nat), s.pwr.sampled ≠ s.ft / 12500 + 1 :=
  ⟨running, 0, 48000, by decide +kernel⟩

theorem test_meets_PowerSamples_2 :
    ∃ (s : State) (m v : Nat), s.pwr.sampled = s.ft / 12500 + 1 :=
  ⟨running.updPwr (fun p => { p with sampled := 1 }), 0, 48000, by decide +kernel⟩

theorem test_meets_PowerSamples_3 :
    ∃ (s : State) (l : List Nat) (x : Nat), s.pwr.updated ≠ s.ft / 125 + 1 :=
  ⟨running, [], 0, by decide +kernel⟩

theorem test_meets_PowerSamples_4 :
    ∃ (s : State) (l : List Nat) (x : Nat), s.pwr.updated = s.ft / 125 + 1 :=
  ⟨running.updPwr (fun p => { p with updated := 1 }), [], 0, by decide +kernel⟩

theorem test_meets_PowerSamples_5 :
    ∃ (s : State) (l : List Nat) (x v : Nat), s.pwr.updated ≠ s.ft / 125 + 1 ∧ s.pwr.rampNext = some v :=
  ⟨running.updPwr (fun p => { p with rampNext := some 0x10001 }), [], 0, 0x10001, by decide +kernel⟩

theorem test_meets_PowerSamples_6 :
    ∃ (s u : State) (l : List Nat), (l.take 10).any (fun t => decide (125 ≤ t)) = false ∧ s.pwr.thermal ≠ s.ft / 1250 + 1 ∧
      s.pwr.restored + 12500 ≤ s.ft ∧ (List.range 10).foldl (fun s d => s.thermalDie l true d) (s.updPwr (fun p =>
      { p with thermal := s.ft / 1250 + 1 })) = u :=
  by exact ⟨withTime running (fun t => { t with ft := 12500 }), _, [60], by decide +kernel, by decide +kernel, by decide +kernel, rfl⟩

theorem test_meets_PowerSamples_7 :
    ∃ (s : State) (l : List Nat), (l.take 10).any (fun t => decide (125 ≤ t)) = false ∧ s.pwr.thermal ≠ s.ft / 1250 + 1 ∧ s.ft <
      s.pwr.restored + 12500 :=
  ⟨running, [60], by decide +kernel⟩

theorem test_meets_PowerSamples_8 :
    ∃ (s : State) (l : List Nat), (l.take 10).any (fun t => decide (125 ≤ t)) = false ∧ s.pwr.thermal = s.ft / 1250 + 1 :=
  ⟨running.updPwr (fun p => { p with thermal := 1 }), [60], by decide +kernel⟩

theorem test_meets_PowerSamples_9 :
    ∃ (s : State) (l : List Nat), (l.take 10).any (fun t => decide (125 ≤ t)) = true ∧ s.elec.powered = true :=
  ⟨running, [125], by decide +kernel⟩

theorem test_meets_PowerSamples_10 :
    ∃ (s : State), s.elec.powered = true :=
  ⟨running, by decide +kernel⟩

theorem test_meets_PowerSamples_11 :
    ∃ (s : State) (x : Nat), x ≤ 550 :=
  ⟨running, 300, by decide +kernel⟩

theorem test_meets_PowerSamples_12 :
    ∃ (s : State) (x : Nat), 550 < x :=
  ⟨running, 600, by decide +kernel⟩

theorem test_meets_PowerSamples_13 :
    ∃ (s : State), s.pwr.boosted ≠ s.ft / 12500 + 1 :=
  ⟨running, by decide +kernel⟩

theorem test_meets_PowerSamples_14 :
    ∃ (s : State), s.pwr.boosted = s.ft / 12500 + 1 :=
  ⟨running.updPwr (fun p => { p with boosted := 1 }), by decide +kernel⟩

theorem test_meets_PowerSamples_15 :
    ∃ (s : State) (d : Nat), d < 10 :=
  ⟨running, 2, by decide +kernel⟩

theorem test_meets_PowerSamples_16 :
    ∃ (s : State) (d : Nat), d < 10 ∧ (s.dpwr d).armed ≤ s.ft :=
  ⟨running, 2, by decide +kernel⟩

theorem test_meets_PowerSamples_17 :
    ∃ (s : State) (d b : Nat), (s.dpwr d).stretch = some b ∧ d < 10 ∧ b + 250 < s.ft :=
  ⟨withTime (running.updDpwr 2 (fun v => { v with stretch := some 0 })) (fun t => { t with ft := 251 }), 2, 0, by decide +kernel⟩

theorem test_meets_PowerSamples_18 :
    ∃ (s : State), s.elec.powered = true :=
  ⟨running, by decide +kernel⟩

theorem test_meets_PowerRequests_1 :
    ∃ (s : State) (rq : Requester) (v : Nat), s.acceptsWrite rq .PWR_CAP 0 = true ∧ v < 4096 ∧ capOk v = true :=
  ⟨running, fromModule, 1500, by decide +kernel⟩

theorem test_meets_PowerRequests_2 :
    ∃ (s : State) (rq : Requester) (v : Nat), s.acceptsWrite rq .PWR_CAP 0 = true ∧ capOk (v % 2 ^ 12) = false :=
  ⟨running, fromModule, 5, by decide +kernel⟩

theorem test_meets_PowerRequests_3 :
    ∃ (s : State) (v : Nat), capOk v = true :=
  ⟨running, 1500, by decide +kernel⟩

theorem test_meets_PowerRequests_4 :
    ∃ (s : State) (v : Nat), capOk v = false :=
  ⟨running, 5, by decide +kernel⟩

theorem test_meets_PowerRequests_5 :
    ∃ (s : State) (v : Nat), s.atBoundary = true ∧ s.pwr.capBeat < s.ft ∧ s.pwr.swNext = some v ∧ s.pwr.trayNext = none :=
  ⟨withTime (running.updPwr (fun p => { p with swNext := some 1500 })) (fun t => { t with ft := 2 ^ 20 }), 1500, by decide +kernel⟩

theorem test_meets_PowerRequests_6 :
    ∃ (s : State) (v : Nat), s.atBoundary = true ∧ s.pwr.capBeat < s.ft ∧ s.pwr.swNext = none ∧ s.pwr.trayNext = some v :=
  ⟨withTime (running.updPwr (fun p => { p with trayNext := some 1500 })) (fun t => { t with ft := 2 ^ 20 }), 1500, by decide +kernel⟩

theorem test_meets_PowerRequests_7 :
    ∃ (s : State) (rq : Requester) (w v : Nat), s.acceptsWrite rq .PWR_MODE 0 = true ∧ s.stored .PWR_MODE 0 w (2 ^ 64 - 1) = v ∧ 2400 ≤
      getBits v 8 12 ∧ getBits v 8 12 ≤ 3600 ∧ getBits v 8 12 % 50 = 0 :=
  by exact ⟨running, fromModule, 3000 * 2 ^ 8, _, by decide +kernel, rfl, by decide +kernel, by decide +kernel, by decide +kernel⟩

theorem test_meets_PowerRequests_8 :
    ∃ (s : State) (rq : Requester) (w : Nat), s.acceptsWrite rq .PWR_MODE 0 = true ∧ getBits (s.stored .PWR_MODE 0 w (2 ^ 64 - 1)) 8 12
      < 2400 :=
  ⟨running, fromModule, 0, by decide +kernel⟩

theorem test_meets_PowerRequests_9 :
    ∃ (s : State) (m : Nat), s.pwr.modeNext = some m ∧ s.atBoundary = true ∧ s.pwr.modeBeat < s.ft :=
  ⟨withTime (running.updPwr (fun p => { p with modeNext := some 2 })) (fun t => { t with ft := 2 ^ 20 }), 2, by decide +kernel⟩

theorem test_meets_PowerRequests_10 :
    ∃ (s : State) (rq : Requester) (f : Bool) (w : Nat), s.acceptsWrite rq .PWR_MODE 0 = true ∧ f = true :=
  ⟨running, fromModule, true, 1, by decide +kernel⟩

theorem test_meets_PowerRequests_11 :
    ∃ (s : State) (rq : Requester) (f : Bool) (w v : Nat), s.acceptsWrite rq .PWR_RAMP 0 = true ∧ f = false ∧ s.stored .PWR_RAMP 0 w (2
      ^ 64 - 1) = v ∧ rateOk (getBits v 0 10) = true ∧ rateOk (getBits v 16 10) = true :=
  by exact ⟨running, fromModule, false, 0x50005, _, by decide +kernel, rfl, rfl, by decide +kernel, by decide +kernel⟩

theorem test_meets_PowerRequests_12 :
    ∃ (s : State) (rq : Requester), s.acceptsWrite rq .PWR_FAULT 0 = true ∧ s.fallback = true :=
  ⟨running.raise Fld.PWR_FAULT_POWER_MODEL, fromModule, by decide +kernel⟩

theorem test_meets_HangsAndReplays_1 :
    ∃ (s : State) (e : Nat), e < 512 ∧ 2 ^ 20 ≤ Store.get (fun _ => 0) s.hangRuns e ∧ s.hangHolds e = true ∧ s.engineHung e = false ∧
      s.hangBarred e = false :=
  ⟨{ (engineAt 1).setEngine 0 { (engineAt 1).engine 0 with opnd := some ⟨1, [], []⟩ } with hangRuns := [(0, 2 ^ 20)] }, 0, by decide +kernel⟩

theorem test_meets_HangsAndReplays_2 :
    ∃ (s : State) (rq : Requester) (e : Nat), s.acceptsWrite rq .EN_HANG e = true ∧ e < 512 ∧ s.engineHung e = false ∧ s.hangBarred e =
      false :=
  ⟨running, fromModule, 0, by decide +kernel⟩

theorem test_meets_HangsAndReplays_3 :
    ∃ (s : State) (rq : Requester) (p : Nat), s.acceptsWrite rq .HUB_RECOV_CTL p = true ∧ p < 16 ∧ (s.recov p).stage = 3 :=
  ⟨running.setRecov 0 { Recov.idle with stage := 3 }, fromModule, 0, by decide +kernel⟩

theorem test_meets_HangsAndReplays_4 :
    ∃ (s : State) (rq : Requester) (p : Nat), s.acceptsWrite rq .HUB_RECOV_CTL p = true ∧ p < 16 ∧ (s.recov p).stage ≠ 3 :=
  ⟨running, fromModule, 0, by decide +kernel⟩

theorem test_meets_HangsAndReplays_5 :
    ∃ (s : State) (p c : Nat), (s.recov p).current = some c ∧ (s.ctx c).st = .running ∧ (s.ctx c).buf = [] ∧ (s.ctx c).replayTo = some
      (s.fld Fld.HUB_CTX_SEQ_NEXT c) :=
  ⟨(running.setCtx 0 { Ctx.init with st := .running, replayTo := some 0 }).setRecov 0 { Recov.idle with current := some 0 }, 0, 0, by
    decide⟩

theorem test_meets_HangsAndReplays_6 :
    ∃ (s : State) (rq : Requester) (p : Nat) (e : PartEntry), s.acceptsWrite rq .HUB_PART_RESET p = true ∧ p < 16 ∧ partOf s.tables p =
      some e ∧ s.partLost p = false :=
  ⟨running, fromModule, 0, ⟨0, 8, 1, 1, 1, 0, 1⟩, by decide +kernel⟩

theorem test_meets_HangsAndReplays_7 :
    ∃ (s : State) (c b : Nat), (s.ctx c).fenceBeat = some b ∧ (s.ctx c).st = .ending ∧ b + 625000 ≤ s.ft :=
  ⟨withTime (running.setCtx 0 { Ctx.init with st := .ending, fenceBeat := some 0 }) (fun t => { t with ft := 625000 }), 0, 0, by decide +kernel⟩

theorem test_meets_HangsAndReplays_8 :
    ∃ (s : State) (p : Nat), (s.recov p).stage = 1 ∧ (s.recov p).since + 2500000 ≤ s.ft :=
  ⟨withTime (running.setRecov 0 { Recov.idle with stage := 1 }) (fun t => { t with ft := 2500000 }), 0, by decide +kernel⟩

theorem test_meets_HangsAndReplays_9 :
    ∃ (s : State) (p : Nat) (f : Fence), s.fences.find? (fun f => f.dom == .partition p) = some f ∧ f.beat + 31250000 ≤ s.ft :=
  ⟨withTime { running with fences := [⟨.partition 0, 0, stFenced⟩] } (fun t => { t with ft := 31250000 }), 0, ⟨.partition 0, 0,
    stFenced⟩, by decide +kernel⟩

theorem test_meets_HangsAndReplays_10 :
    ∃ (s : State) (d : Domain) (f : Fence), s.fences.find? (fun f => f.dom == d) = some f ∧ s.drainEnds f = true :=
  ⟨{ running with fences := [⟨.partition 0, 0, stFenced⟩] }, .partition 0, ⟨.partition 0, 0, stFenced⟩, by decide +kernel⟩

theorem test_meets_ChipResets_1 :
    ∃ (s : State) (rq : Requester), s.acceptsWrite rq .HUB_CHIP_RESET 0 = true :=
  ⟨running, fromModule, by decide +kernel⟩

theorem test_meets_ChipResets_2 :
    ∃ (s : State) (b : Nat), s.boot.armBeat = some b ∧ b + 125000 ≤ s.ft :=
  ⟨withTime (withBoot running (fun b => { b with armBeat := some 0 })) (fun t => { t with ft := 125000 }), 0, by decide +kernel⟩

theorem test_meets_ChipResets_3 :
    ∃ (s : State) (rq : Requester) (b : Nat), s.acceptsWrite rq .HUB_CHIP_RESET 0 = true ∧ s.boot.armBeat = some b ∧ s.ft ≤ b + 125000 :=
  ⟨withBoot running (fun b => { b with armBeat := some 0 }), fromModule, 0, by decide +kernel⟩

theorem test_meets_ChipResets_4 :
    ∃ (s : State) (rq : Requester) (b : Nat), s.acceptsWrite rq .HUB_CHIP_RESET 0 = true ∧ s.boot.armBeat = some b ∧ b + 125000 < s.ft :=
  ⟨withTime (withBoot running (fun b => { b with armBeat := some 0 })) (fun t => { t with ft := 125001 }), fromModule, 0, by decide +kernel⟩

theorem test_meets_ChipResets_5 :
    ∃ (s : State) (rq : Requester), s.acceptsWrite rq .HUB_CHIP_RESET 0 = true ∧ s.boot.armBeat = none :=
  ⟨running, fromModule, by decide +kernel⟩

theorem test_meets_ChipResets_6 :
    ∃ (s : State), s.chipResetting = true ∧ s.elec.cycleReq = false ∧ 500000000 ≤ s.boot.startBeats :=
  ⟨withBoot { running with fences := [⟨.chip, 0, stFenced⟩] } (fun b => { b with startBeats := 500000000 }), by decide +kernel⟩

theorem test_meets_ModulePower_1 :
    ∃ (s : State), s.elec.powered = false ∧ s.elec.input = true ∧ s.elec.housekeeping = true ∧ s.elec.trip = false ∧ s.elec.overvoltage
      = false ∧ s.elec.regFail = false :=
  ⟨{ running with elec := { running.elec with powered := false } }, by decide +kernel⟩

theorem test_meets_ModulePower_2 :
    ∃ (s : State), s.elec.trip = true :=
  ⟨{ running with elec := { running.elec with trip := true } }, by decide +kernel⟩

theorem test_meets_ModulePower_3 :
    ∃ (s : State), s.elec.overvoltage = false :=
  ⟨running, by decide +kernel⟩

theorem test_meets_ModulePower_4 :
    ∃ (s : State), s.elec.powered = true :=
  ⟨running, by decide +kernel⟩

theorem test_meets_ModulePower_5 :
    ∃ (s : State), s.elec.powered = false :=
  ⟨{ running with elec := { running.elec with powered := false } }, by decide +kernel⟩

theorem test_meets_ModulePower_6 :
    ∃ (s : State), s.elec.powered = true :=
  ⟨running, by decide +kernel⟩

theorem test_meets_ModulePower_7 :
    ∃ (s : State), s.elec.powered = true :=
  ⟨running, by decide +kernel⟩

theorem test_meets_ModulePower_8 :
    ∃ (s : State), s.elec.powered = true :=
  ⟨running, by decide +kernel⟩

theorem test_meets_BootStages_1 :
    ∃ (s : State) (r : Bool) (g : Nat), s.atStage 1 = true ∧ s.elec.resetLow = false ∧ s.boot.validGens.getLast? = some g ∧ r = true :=
  ⟨otpState, true, 0, by decide +kernel⟩

theorem test_meets_BootStages_2 :
    ∃ (s : State) (r : Bool), s.atStage 1 = true ∧ s.elec.resetLow = false ∧ s.boot.validGens.getLast? = none :=
  ⟨State.reset, true, by decide +kernel⟩

theorem test_meets_BootStages_3 :
    ∃ (s : State) (ok : Bool), s.atStage 2 = true ∧ ok = true ∧ s.boot.cold = true ∧ s.winterStart = false :=
  ⟨stageAt 2, true, by decide +kernel⟩

theorem test_meets_BootStages_4 :
    ∃ (s : State) (ok : Bool), s.atStage 2 = true ∧ ok = true ∧ s.boot.cold = false :=
  ⟨withBoot (stageAt 2) (fun b => { b with cold := false }), true, by decide +kernel⟩

theorem test_meets_BootStages_5 :
    ∃ (s : State) (ok : Bool), s.atStage 2 = true ∧ ok = false :=
  ⟨stageAt 2, false, by decide +kernel⟩

theorem test_meets_BootStages_6 :
    ∃ (s : State) (c : Nat), s.atStage 3 = true ∧ s.winterStart = false ∧ s.boot.delivered = true ∧ s.firmwareCode = c :=
  ⟨withBoot (stageAt 3) (fun b => { b with delivered := true }), 1, by decide +kernel⟩

theorem test_meets_BootStages_7 :
    ∃ (s : State), s.atStage 3 = true ∧ s.winterStart = true ∧ s.boot.cold = false :=
  ⟨withBoot ((stageAt 3).setFld Fld.HUB_BOOT_START_COUNT 0 3) (fun b => { b with cold := false }), by decide +kernel⟩

theorem test_meets_BootStages_8 :
    ∃ (s : State) (c : Nat), s.atStage 4 = true ∧ s.boot.delivered = true ∧ s.img.holdNext = none ∧ s.boot.tryNext = false ∧ s.judgeHeld
      validateOuter = c :=
  ⟨withBoot (stageAt 4) (fun b => { b with delivered := true }), 1, by decide +kernel⟩

theorem test_meets_BootStages_9 :
    ∃ (s u v : State) (l : List Lane) (d : List DieRev), s.atStage 5 = true ∧ s.testLinks l = u ∧ u.fenceFailedLinks.revisions d = v :=
  by exact ⟨stageAt 5, _, _, [], [], by decide +kernel, rfl, rfl⟩

theorem test_meets_BootStages_10 :
    ∃ (s : State) (c : Nat), s.atStage 6 = true ∧ s.boot.tryNext = false ∧ s.judgeHeld innerCode = c :=
  ⟨stageAt 6, 1, by decide +kernel⟩

theorem test_meets_BootStages_11 :
    ∃ (s : State) (ok : Bool), s.atStage 7 = true ∧ ok = true ∧ s.boot.cold = false :=
  ⟨withBoot (stageAt 7) (fun b => { b with cold := false }), true, by decide +kernel⟩

theorem test_meets_BootStages_12 :
    ∃ (s : State) (ok : Bool), s.atStage 7 = true ∧ ok = true ∧ s.boot.cold = true :=
  ⟨stageAt 7, true, by decide +kernel⟩

theorem test_meets_BootStages_13 :
    ∃ (s : State) (ok : Bool), s.atStage 7 = true ∧ ok = false :=
  ⟨stageAt 7, false, by decide +kernel⟩

theorem test_meets_BootStages_14 :
    ∃ (s : State) (e : Nat), s.atStage 8 = true :=
  ⟨stageAt 8, 3, by decide +kernel⟩

theorem test_meets_BootStages_15 :
    ∃ (s u : State), s.atStage 9 = true ∧ s.img.full = none ∧
      { s.setFromSource with img := { s.setFromSource.img with full := heldImage s.img.holdFull, update := heldImage s.img.holdUpdate } }
      = u :=
  by exact ⟨stageAt 9, _, by decide +kernel, by decide +kernel, rfl⟩

theorem test_meets_BootStages_16 :
    ∃ (s : State), s.isUp = false ∧ s.stage ≤ 9 ∧ s.elec.powered = true ∧ s.elec.cycleReq = false ∧ s.fencing .chip = false ∧
      s.boot.cold = true ∧ s.stageBound ≤ s.boot.stageBeats :=
  ⟨withBoot (stageAt 2) (fun b => { b with stageBeats := 37500000 }), by decide +kernel⟩

theorem test_meets_BootDelivery_1 :
    ∃ (s : State) (n : Nat), s.atStage 3 = true ∧ s.boot.cold = true ∧ s.boot.delivered = false ∧ s.sourceNow = some n ∧ s.fetchBeats *
      (s.boot.source + 1) ≤ s.boot.stageBeats ∧ s.winterStart = true :=
  ⟨withBoot ((stageAt 3).setFld Fld.HUB_BOOT_START_COUNT 0 3) (fun b => { b with stageBeats := 30 * 125000000 }), 0, by decide +kernel⟩

theorem test_meets_BootDelivery_2 :
    ∃ (s : State) (i : Nat) (d : List Byte), s.elec.powered = true ∧ i = 1 :=
  ⟨up, 1, [], by decide +kernel⟩

theorem test_meets_BootDelivery_3 :
    ∃ (s : State) (i : Nat) (d : List Byte), s.elec.powered = true ∧ i = 2 ∧ s.fetchAccepted 2 = true :=
  ⟨stageAt 4, 2, [], by decide +kernel⟩

theorem test_meets_BootDelivery_4 :
    ∃ (s : State) (i : Nat) (d : List Byte), s.elec.powered = true ∧ i = 2 ∧ s.fetchAccepted 2 = false :=
  ⟨up, 2, [], by decide +kernel⟩

theorem test_meets_BootDelivery_5 :
    ∃ (s u : State) (rq : Requester) (n : Nat), s.acceptsWrite rq .HUB_BOOT_CTL 0 = true ∧ (s.setFld Fld.HUB_BOOT_CTL_LENGTH 0 n).setFld
      Fld.HUB_BOOT_CTL_OBJECT 0 1 = u ∧ u.boot.fetch = none ∧ u.fetchAccepted 1 = true :=
  by exact ⟨stageAt 3, _, fromModule, 64, by decide +kernel, rfl, by decide +kernel, by decide +kernel⟩

theorem test_meets_BootDelivery_6 :
    ∃ (s u : State) (rq : Requester) (n : Nat), s.acceptsWrite rq .HUB_BOOT_CTL 0 = true ∧ (s.setFld Fld.HUB_BOOT_CTL_LENGTH 0 n).setFld
      Fld.HUB_BOOT_CTL_OBJECT 0 2 = u ∧ u.boot.fetch = none ∧ u.fetchAccepted 2 = true :=
  by exact ⟨stageAt 4, _, fromModule, 64, by decide +kernel, rfl, by decide +kernel, by decide +kernel⟩

theorem test_meets_BootDelivery_7 :
    ∃ (s u : State) (rq : Requester) (n : Nat), s.acceptsWrite rq .HUB_BOOT_CTL 0 = true ∧ (s.setFld Fld.HUB_BOOT_CTL_LENGTH 0 n).setFld
      Fld.HUB_BOOT_CTL_OBJECT 0 2 = u ∧ u.boot.fetch = none ∧ u.fetchAccepted 2 = false :=
  by exact ⟨up, _, fromModule, 64, by decide +kernel, rfl, by decide +kernel, by decide +kernel⟩

theorem test_meets_BootDelivery_8 :
    ∃ (s u : State) (rq : Requester) (n : Nat), s.acceptsWrite rq .HUB_BOOT_CTL 0 = true ∧ (s.setFld Fld.HUB_BOOT_CTL_LENGTH 0 n).setFld
      Fld.HUB_BOOT_CTL_OBJECT 0 3 = u ∧ u.boot.fetch = none ∧ u.fetchAccepted 3 = true ∧ u.fld Fld.HUB_BOOT_CTL_LENGTH = 0 :=
  by exact ⟨up, _, fromModule, 0, by decide +kernel, rfl, by decide +kernel, by decide +kernel, by decide +kernel⟩

theorem test_meets_BootDelivery_9 :
    ∃ (s : State) (f : Fetch), s.boot.fetch = some f ∧ f.torn = true :=
  ⟨withBoot up (fun b => { b with fetch := some ⟨1, 0, 64, [], true⟩ }), ⟨1, 0, 64, [], true⟩, by decide +kernel⟩

theorem test_meets_BootDelivery_10 :
    ∃ (s : State) (f : Fetch), s.boot.fetch = some f ∧ f.torn = false ∧ f.len ≤ f.data.length ∧ f.object = 1 :=
  ⟨withBoot up (fun b => { b with fetch := some ⟨1, 0, 0, [], false⟩ }), ⟨1, 0, 0, [], false⟩, by decide +kernel⟩

theorem test_meets_BootDelivery_11 :
    ∃ (s : State) (rq : Requester), s.acceptsWrite rq .HUB_BOOT_CTL 0 = true ∧ s.flag Fld.HUB_BOOT_WINTER = true :=
  ⟨up.raise Fld.HUB_BOOT_WINTER, fromModule, by decide +kernel⟩

theorem test_meets_BootDelivery_12 :
    ∃ (s u : State) (rq : Requester) (w : Nat), s.acceptsWrite rq .SEC_OTP_PROG 0 = true ∧ s.setReg .SEC_OTP_PROG 0 (BitVec.ofNat 64
      (Field.store Fld.SEC_OTP_PROG_ADDR (s.reg .SEC_OTP_PROG 0).toNat (w ||| 2 ^ 63) (2 ^ 64 - 1))) = u ∧ bit ((w ||| 2 ^ 63) &&& (2 ^
      64 - 1)) 63 = true :=
  by exact ⟨up, _, fromModule, 0, by decide +kernel, rfl, by decide +kernel⟩

theorem test_meets_BootDelivery_13 :
    ∃ (s : State) (ok : Bool) (g : Nat) (d : List Byte), s.boot.prog = some (g, d) :=
  ⟨withBoot up (fun b => { b with prog := some (0, []) }), true, 0, [], by decide +kernel⟩

theorem test_meets_Attestation_1 :
    ∃ (s : State) (w v : Nat), s.responds = true ∧ w = 0 :=
  ⟨up, 0, 0x13, by decide +kernel⟩

theorem test_meets_Attestation_2 :
    ∃ (s : State) (n : List Byte), s.responds = true :=
  ⟨up, [], by decide +kernel⟩

theorem test_meets_Attestation_3 :
    ∃ (s : State) (i : Nat) (n : List Byte) (b : Bool), s.responds = true ∧ i = 0 :=
  ⟨up, 0, [], true, by decide +kernel⟩

theorem test_meets_Attestation_4 :
    ∃ (s : State) (w : Nat), s.elec.housekeeping = true ∧ w = 1 :=
  ⟨up, 1, by decide +kernel⟩

theorem test_meets_Attestation_5 :
    ∃ (s : State) (w : Nat), s.elec.housekeeping = true ∧ s.elec.trip = true ∧ w ≠ 1 :=
  ⟨{ up with elec := { up.elec with trip := true } }, 0, by decide +kernel⟩

theorem test_meets_Attestation_6 :
    ∃ (s : State) (w : Nat), s.elec.housekeeping = true ∧ s.elec.trip = false ∧ s.elec.powered = true ∧ w = 0 :=
  ⟨up, 0, by decide +kernel⟩

theorem test_meets_Observation_1 :
    ∃ (s : State) (rq : Requester) (k u i w : Nat), selExists k u i = true ∧ s.acceptsWrite rq (selReg k) (u * (counterRegs k).per + i)
      = true :=
  ⟨running, fromModule, 3, 0, 0, 1, by decide +kernel⟩

theorem test_meets_Observation_2 :
    ∃ (s : State), s.ft % 64 = 0 :=
  ⟨running, by decide +kernel⟩

theorem test_meets_Observation_3 :
    ∃ (s : State), s.flag Fld.HUB_SMP_CFG_EN = true ∧ s.ft % 2 ^ s.fld Fld.HUB_SMP_CFG_PERIOD_LOG2 = 0 ∧ s.sampleUnits.isEmpty = false ∧
      s.trc.sampled ≠ s.ft + 1 ∧ 2 ^ s.fld Fld.HUB_SMP_RING_LOG2_RECORDS < (s.fld Fld.HUB_SMP_PTR_HEAD + 2 ^ 32 - s.fld
      Fld.HUB_SMP_PTR_TAIL) % 2 ^ 32 + s.sampleUnits.length :=
  ⟨(((running.raise Fld.HUB_SMP_CFG_EN).raise Fld.HUB_SMP_CFG_HUB).setFld Fld.HUB_SMP_RING_LOG2_RECORDS 0 0).setFld Fld.HUB_SMP_PTR_HEAD
    0 1, by decide +kernel⟩

theorem test_meets_Observation_4 :
    ∃ (s u z : State), s.flag Fld.HUB_SMP_CFG_EN = true ∧ s.ft % 2 ^ s.fld Fld.HUB_SMP_CFG_PERIOD_LOG2 = 0 ∧ s.sampleUnits.isEmpty =
      false ∧ s.trc.sampled ≠ s.ft + 1 ∧ (s.fld Fld.HUB_SMP_PTR_HEAD + 2 ^ 32 - s.fld Fld.HUB_SMP_PTR_TAIL) % 2 ^ 32 +
      s.sampleUnits.length ≤ 2 ^ s.fld Fld.HUB_SMP_RING_LOG2_RECORDS ∧ ({ s with trc := { s.trc with sampled := s.ft + 1 } } : State) =
      z ∧ z.writeSamples (s.fld Fld.HUB_SMP_PTR_HEAD) (s.sampleUnits.map (fun u => z.sampleRecord u.1 u.2)) = (u, true) :=
  by exact ⟨sampling, _, { sampling with trc := { sampling.trc with sampled := 1 } }, by decide +kernel, by decide +kernel, by decide +kernel, by decide +kernel, by
    decide, rfl, sampling_writes⟩

theorem test_meets_Observation_5 :
    ∃ (s u : State) (rq : Requester) (w v : Nat), s.acceptsWrite rq .DBG_DUMP_CTL 0 = true ∧ s.stored .DBG_DUMP_CTL 0 (w ||| 2 ^ 63) (2
      ^ 64 - 1) = v ∧ bit ((w ||| 2 ^ 63) &&& (2 ^ 64 - 1)) 63 = true ∧ s.dump = none ∧ ((s.setFld Fld.DBG_DUMP_CTL_ON_HANG 0 (getBits v
      62 1)).setFld Fld.DBG_DUMP_CTL_LIMIT 0 (getBits v 24 24)).setFld Fld.DBG_DUMP_CTL_BLOCKS 0 (getBits v 0 16) = u :=
  by exact ⟨running, _, fromModule, 0, _, by decide +kernel, rfl, by decide +kernel, by decide +kernel, rfl⟩

theorem test_meets_Observation_6 :
    ∃ (s : State) (o : Nat) (d : Dump), s.dump = some d ∧ (d.before (2 ^ 26)).contains o = true :=
  ⟨{ running with dump := some dump0 }, dump0.ranges.head!.1, dump0, by decide +kernel⟩

theorem test_meets_Observation_7 :
    ∃ (s u : State) (d e : Dump), s.dump = some d ∧ s.dumpTo d (2 ^ 26) = (u, e) ∧ cacheable (u.fld Fld.DBG_DUMP_DEST_ADDR * 2 ^ 16) =
      false :=
  by exact ⟨{ running with dump := some { dump0 with ranges := [] } }, _, { dump0 with ranges := [] }, _, rfl, rfl, by decide +kernel⟩

theorem test_meets_Observation_8 :
    ∃ (s : State), s.trc.first + 125 ≤ s.ft :=
  ⟨withTime running (fun t => { t with ft := 125 }), by decide +kernel⟩

theorem test_meets_RegisterWrites_1 :
    ∃ (s t : State) (rq : Requester) (o n v i : Nat) (r : Reg), regSizeOk o n = true ∧ s.judgeReg rq o true = (t, none) ∧ regAt o = some
      (r, i) :=
  by exact ⟨running, _, fromModule, Reg.offset .HUB_FT_LOAD 0, 8, 5, 0, .HUB_FT_LOAD, by decide +kernel, rfl, by decide +kernel⟩

theorem test_meets_RegisterWrites_2 :
    ∃ (s t : State) (rq : Requester) (o n v : Nat), regSizeOk o n = true ∧ s.judgeReg rq o true = (t, none) ∧ regAt o = none :=
  by exact ⟨running, _, fromModule, 0x60, 8, 5, by decide +kernel, rfl, by decide +kernel⟩

theorem test_meets_RegisterWrites_3 :
    ∃ (s : State) (rq : Requester) (o n v : Nat), regSizeOk o n = false :=
  ⟨running, fromModule, 4, 8, 5, by decide +kernel⟩

theorem test_meets_RegisterWrites_4 :
    ∃ (s : State) (c : Nat), (s.cpu c).fenceRd.isSome = true :=
  ⟨coreOn.updCpu 0 (fun x => { x with fenceRd := some 1 }), 0, by decide +kernel⟩

theorem test_meets_StepTakesTheFront_1 :
    ∃ (s : State), s.pending = [] :=
  ⟨State.reset, by decide +kernel⟩

theorem test_meets_BeatAdvances_1 :
    ∃ (s : State), s.elec.powered = true ∧ s.elec.cycleReq = false ∧ s.reverts = [] ∧ s.stalls = [] ∧ s.ctxs = [] ∧ s.opens.filter
      OpenAccess.isReg = [] :=
  ⟨running, by decide +kernel⟩

theorem test_meets_BeatAdvances_2 :
    ∃ (s : State), s.elec.powered = false ∨ s.elec.cycleReq = true :=
  ⟨{ running with elec := { running.elec with powered := false } }, by decide +kernel⟩

theorem test_meets_StepKeepsStatusShown_1 :
    ∃ (s t : State), StatusShown s ∧ step s = .next t :=
  by exact ⟨State.reset, State.reset, reset_shows, rfl⟩

theorem test_meets_MirrorFrame_1 :
    ∃ (g : Field) (j : Nat), j < 2 ^ 20 ∧ ((g.reg = .HUB_CTX_STATUS ∧ (Fld.HUB_CTX_STATUS_STATE.lo + Fld.HUB_CTX_STATUS_STATE.width ≤
      g.lo ∨ g.lo + g.width ≤ Fld.HUB_CTX_STATUS_STATE.lo)) ∨ (g.reg = .TRC_STATUS ∧ (Fld.TRC_STATUS_OCCUPANCY.lo +
      Fld.TRC_STATUS_OCCUPANCY.width ≤ g.lo ∨ g.lo + g.width ≤ Fld.TRC_STATUS_OCCUPANCY.lo))) :=
  ⟨Fld.TRC_STATUS_LINK_UP, 0, by decide +kernel⟩

theorem test_meets_RefusedRegisterWrites_1 :
    ∃ (s : State) (rq : Requester) (w : Nat) (c : Instr) (r : Reg) (i : Nat), (c, r, i) ∈ [(Instr.armEpoch rq w, Reg.HUB_FT_CTL, 0)] ∧
      s.acceptsWrite rq r i = false :=
  by exact ⟨running, ⟨.tensor, 0, 0⟩, 0, _, _, _, List.mem_cons_self, by decide +kernel⟩

theorem test_meets_RegisterRowFrames_1 :
    ∃ (s t : State) (rq : Requester) (w : Nat) (c : Instr) (r : Reg) (i : Nat) (l : List Reg), (c, r, i, l) ∈ [(Instr.auditSnap rq w,
      Reg.HUB_AUDIT_SNAP, 0, [Reg.HUB_AUDIT_SNAP])] ∧ s.acceptsWrite rq r i = true ∧ exec c s = .next t :=
  by exact ⟨running, _, fromModule, 1, _, _, _, _, List.mem_cons_self, by decide +kernel, rfl⟩

theorem test_meets_MemoryReadsBack_1 :
    ∃ (g : Nat) (b : List Byte), coded g = true ∧ g % 32 = 0 ∧ b.length = 32 :=
  ⟨0x1000_0000_0000, zeros 32, by decide +kernel⟩

theorem test_meets_SramStoreFrame_1 :
    ∃ (s : State) (rq : Requester) (a k o : Nat) (d : List Byte), locate a = .sram k o ∧ s.judge rq 2 a d.length = (s, none) :=
  by exact ⟨running, fromModule, 0x1_0000_0000, 0, 0, [1], by decide +kernel, rfl⟩

theorem test_meets_UndefinedOffsets_1 :
    ∃ (s : State) (rq : Requester) (o n : Nat), regSizeOk o n = true ∧ regAt o = none ∧ s.judgeReg rq o false = (s, none) ∧ s.judgeReg
      rq o true = (s, none) :=
  by exact ⟨running, fromModule, 0x60, 8, by decide +kernel, by decide +kernel, rfl, rfl⟩

theorem test_meets_UndefinedOffsets_2 :
    ∃ (o : Nat), blockAt o = none :=
  ⟨0x7FF_FFF8, by decide +kernel⟩

theorem test_meets_SidebandReset_1 :
    ∃ (s : State), s.elec.trip = false ∧ s.elec.powered = true ∧ s.elec.cycleReq = false ∧ s.chipResetting = false :=
  ⟨running, by decide +kernel⟩

theorem test_meets_SidebandReset_2 :
    ∃ (s : State), s.elec.trip = false ∧ s.chipResetting = true :=
  ⟨{ running with fences := [⟨.chip, 0, stFenced⟩] }, by decide +kernel⟩

theorem test_meets_SidebandReset_3 :
    ∃ (s : State), s.elec.trip = true :=
  ⟨{ running with elec := { running.elec with trip := true } }, by decide +kernel⟩

theorem test_meets_SidebandReset_4 :
    ∃ (s : State), s.elec.resetLow = true :=
  ⟨{ running with elec := { running.elec with resetLow := true } }, by decide +kernel⟩

theorem test_meets_EngineResetZeroes_1 :
    ∃ (e f : Nat), e < 512 ∧ f ≠ e :=
  ⟨0, 1, by decide +kernel⟩

theorem test_meets_Z16Values_1 :
    ∃ (n e m : Nat), n < 2 ∧ e < 128 ∧ m < 256 :=
  ⟨1, 64, 1, by decide +kernel⟩

theorem test_meets_Z4ElementValues_1 :
    ∃ (c s : Nat), c < 16 ∧ s < 256 :=
  ⟨15, 1, by decide +kernel⟩

theorem test_meets_ProductsAreExact_1 :
    ∃ (f : Fmt) (x y : Nat) (a b : Sys2Proof.Machine.Num), f ∈ [fmtZ9, fmtZ16] ∧ f.decode x = a ∧ f.decode y = b :=
  by exact ⟨fmtZ16, 0, 0x8001, _, _, by decide +kernel, rfl, rfl⟩

theorem test_meets_Z32Underflow_1 :
    ∃ (r : Round) (neg : Bool) (m : Nat) (e l : Int) (q : Nat × Rem) (t : Nat), 0 < m ∧ log2Of m e = l ∧ truncAt m e (l - 23) = q ∧ (if
      roundUp r neg q.1 q.2 then q.1 + 1 else q.1) = t ∧ l = -127 ∧ t = 2 ^ 24 :=
  by exact ⟨.rne, false, 2 ^ 25 - 1, -151, _, _, _, by decide +kernel, rfl, rfl, rfl, by decide +kernel⟩

theorem test_meets_Z32Underflow_2 :
    ∃ (r : Round) (neg : Bool) (m : Nat) (e l : Int) (q : Nat × Rem) (t : Nat), 0 < m ∧ log2Of m e = l ∧ truncAt m e (l - 23) = q ∧ (if
      roundUp r neg q.1 q.2 then q.1 + 1 else q.1) = t ∧ (l < -127 ∨ l = -127 ∧ t < 2 ^ 24) :=
  by exact ⟨.rne, true, 1, -127, _, _, _, by decide +kernel, rfl, rfl, rfl, by decide +kernel⟩

end Sys2Proof.Tests
end

/-! PROOF. A register access by a requester (R13, R18, R34): what its two operations answer when the size is wrong, when the block
refuses it, and when the block takes it at an offset that defines a register and at one that defines none; and the statements about
REGISTER_WRITE, CPU_INTERRUPT and undefined offsets. -/

namespace Sys2Proof.Machine

section RegisterAccess

variable {s t : State} {rq : Requester} {o n v : Nat}

/-! ## Judging -/

/-- R18: an offset outside every block is an access error, with no isolation error recorded. -/
theorem State.judgeReg_of_blockAt_none {write : Bool} (hblock : blockAt o = none) :
    s.judgeReg rq o write = (s, some stAccessError) := by
  simp [State.judgeReg, hblock]

/-! ## Writes -/

theorem State.regWrite_of_badSize (hsize : regSizeOk o n = false) : s.regWrite rq o n v = (s, stAccessError) := by
  simp [State.regWrite, hsize]

theorem State.regWrite_of_refused {e : Nat} (hsize : regSizeOk o n = true) (hjudge : s.judgeReg rq o true = (t, some e)) :
    s.regWrite rq o n v = (t, e) := by
  simp [State.regWrite, hsize, hjudge]

theorem State.regWrite_of_regAt_none (hsize : regSizeOk o n = true) (hjudge : s.judgeReg rq o true = (t, none))
    (hreg : regAt o = none) : s.regWrite rq o n v = (t, stOk) := by
  simp [State.regWrite, hsize, hjudge, hreg]

theorem State.regWrite_fst_of_regAt_some {r : Reg} {i : Nat} (hsize : regSizeOk o n = true)
    (hjudge : s.judgeReg rq o true = (t, none)) (hreg : regAt o = some (r, i)) :
    (s.regWrite rq o n v).1 = t.writeReg r i (writeValue o n v) (writeMask o n) := by
  simp [State.regWrite, hsize, hjudge, hreg]

theorem State.regWrite_of_blockAt_none (hblock : blockAt o = none) : s.regWrite rq o n v = (s, stAccessError) := by
  cases hsize : regSizeOk o n with
  | false => exact regWrite_of_badSize hsize
  | true => exact regWrite_of_refused hsize (judgeReg_of_blockAt_none hblock)

/-! ## Reads -/

theorem State.wordAt_of_regAt_none (hreg : regAt o = none) : s.wordAt o = 0 := by
  simp [State.wordAt, hreg]

theorem State.regRead_of_badSize (hsize : regSizeOk o n = false) : s.regRead rq o n = (s, stAccessError, 0) := by
  simp [State.regRead, hsize]

theorem State.regRead_of_refused {e : Nat} (hsize : regSizeOk o n = true) (hjudge : s.judgeReg rq o false = (t, some e)) :
    s.regRead rq o n = (t, e, 0) := by
  simp [State.regRead, hsize, hjudge]

theorem State.regRead_of_regAt_none (hsize : regSizeOk o n = true) (hjudge : s.judgeReg rq o false = (t, none))
    (hreg : regAt o = none) : s.regRead rq o n = (t, stOk, 0) := by
  simp [State.regRead, hsize, hjudge, wordAt_of_regAt_none hreg]

theorem State.regRead_of_blockAt_none (hblock : blockAt o = none) : s.regRead rq o n = (s, stAccessError, 0) := by
  cases hsize : regSizeOk o n with
  | false => exact regRead_of_badSize hsize
  | true => exact regRead_of_refused hsize (judgeReg_of_blockAt_none hblock)

end RegisterAccess

/-! ## The commands -/

theorem exec_registerWrite (s : State) (rq : Requester) (o n v : Nat) :
    exec (.registerWrite rq o n v) s = .next (s.regWrite rq o n v).1.mirror := rfl

theorem exec_cpuInterrupt (s : State) (c : Nat) :
    exec (.cpuInterrupt c) s =
      .next (if (s.cpu c).fenceRd.isSome then s.updCpu c (fun x => { x with fenceRd := none }) else s).mirror := rfl

/-! ## The statements -/

/-- Settles O43, by what `State.regWrite` answers in each case of R34 and R18; that a write of the wrong size changes nothing is the
model's choice (log 11). -/
theorem registerWrites : Obligations.RegisterWrites := by
  unfold Obligations.RegisterWrites
  refine ⟨?register, ?undefined, ?badSize, ?interrupt, exec_registerWrite, exec_cpuInterrupt⟩
  case register =>
    intro s t rq o n v i r hsize hjudge hreg
    rw [exec_registerWrite, State.regWrite_fst_of_regAt_some hsize hjudge hreg]
  case undefined =>
    intro s t rq o n v hsize hjudge hreg
    rw [exec_registerWrite, State.regWrite_of_regAt_none hsize hjudge hreg]
  case badSize =>
    intro s rq o n v hsize
    rw [exec_registerWrite, State.regWrite_of_badSize hsize]
  case interrupt =>
    intro s c hwaits
    rw [exec_cpuInterrupt, if_pos hwaits]

/-- Settles O53, by the cases of `State.regRead` and `State.regWrite` that R18 names. -/
theorem undefinedOffsets : Obligations.UndefinedOffsets := by
  unfold Obligations.UndefinedOffsets
  refine ⟨?read, ?write, ?outside⟩
  case read =>
    intro s rq o n hsize hreg hjudge
    exact State.regRead_of_regAt_none hsize hjudge hreg
  case write =>
    intro s rq o n v hsize hreg hjudge
    exact State.regWrite_of_regAt_none hsize hjudge hreg
  case outside =>
    intro s rq o n v hblock
    exact ⟨State.regRead_of_blockAt_none hblock, State.regWrite_of_blockAt_none hblock⟩

end Sys2Proof.Machine

/-! PROOF. Commands that write a register at a fixed place (R34, R529, R531): which register each of them writes, that such a command is
the gated write of that register and nothing else, and that a write its block does not take changes nothing but the record of an
isolation error. -/

namespace Sys2Proof.Machine

/-! ## Steps that change only some registers -/

/-- From s to t only registers changed, and of these only those of l and the two that mirror a unit's state. -/
def RegFrame (l : List Reg) (s t : State) : Prop := RegistersOnly s t ∧ OtherRegistersKept l s t

section RegFrame

variable {l : List Reg} {s t u : State}

theorem RegFrame.refl (l : List Reg) (s : State) : RegFrame l s s := ⟨rfl, fun _ _ _ _ _ _ => rfl⟩

theorem RegistersOnly.trans (hst : RegistersOnly s t) (htu : RegistersOnly t u) : RegistersOnly s u :=
  Eq.trans htu (congrArg (fun x : State => { x with regs := u.regs }) hst)

theorem RegFrame.trans (hst : RegFrame l s t) (htu : RegFrame l t u) : RegFrame l s u := by
  obtain ⟨hst_only, hst_kept⟩ := hst
  obtain ⟨htu_only, htu_kept⟩ := htu
  refine ⟨hst_only.trans htu_only, fun r i hi hl hctx htrc => ?_⟩
  exact (htu_kept r i hi hl hctx htrc).trans (hst_kept r i hi hl hctx htrc)

theorem RegFrame.setReg {r : Reg} {i : Nat} (w : Word) (h : RegFrame l s t) (hr : r ∈ l) (hi : i < 2 ^ 20) :
    RegFrame l s (t.setReg r i w) := by
  refine h.trans ⟨rfl, fun q j hj hq _ _ => ?_⟩
  have hne : r ≠ q := fun heq => hq (heq ▸ hr)
  exact State.reg_setReg_other t w (Or.inl hne) hi hj

theorem RegFrame.setFld {f : Field} {i : Nat} (v : Nat) (h : RegFrame l s t) (hr : f.reg ∈ l) (hi : i < 2 ^ 20) :
    RegFrame l s (t.setFld f i v) :=
  h.setReg _ hr hi

theorem RegFrame.mirror (h : RegFrame l s t) : RegFrame l s t.mirror :=
  h.trans ⟨t.mirror_regs, fun _ _ hi _ hctx htrc => t.mirror_reg hctx htrc hi⟩

end RegFrame

/-! ## The record of an isolation error -/

/-- The registers in which an isolation error is recorded: the sticky summary, and the record's two words. -/
def isolationRegs : List Reg := [.HUB_STICKY, .HUB_ISO_REC, .HUB_ISO_SRC]

theorem RegFrame.setIsolationFld {s t : State} {f : Field} (v : Nat) (h : RegFrame isolationRegs s t) (hr : f.reg ∈ isolationRegs) :
    RegFrame isolationRegs s (t.setFld f 0 v) :=
  h.setFld v hr (by decide)

theorem State.isolation_regFrame (s : State) (rq : Requester) (op a : Nat) : RegFrame isolationRegs s (s.isolation rq op a) := by
  have hsticky : RegFrame isolationRegs s (s.raise Fld.HUB_STICKY_ISOLATION) := (RegFrame.refl _ s).setIsolationFld 1 (by decide)
  unfold State.isolation
  dsimp only
  by_cases hfull : (s.raise Fld.HUB_STICKY_ISOLATION).flag Fld.HUB_ISO_REC_VALID = true
  · rw [if_pos hfull]
    exact hsticky
  · rw [if_neg hfull]
    have hrec := ((hsticky.setIsolationFld (f := Fld.HUB_ISO_REC_KIND) rq.kind.isoKind (by decide)).setIsolationFld
      (f := Fld.HUB_ISO_REC_ACCESS) op (by decide)).setIsolationFld (f := Fld.HUB_ISO_REC_ADDR) a (by decide)
    have hvalid := hrec.setIsolationFld (f := Fld.HUB_ISO_REC_VALID) 1 (by decide)
    exact (hvalid.setIsolationFld _ (by decide)).setIsolationFld _ (by decide)

theorem State.gated_regFrame_of_refused {s : State} {rq : Requester} {r : Reg} {i : Nat} (act : State → State)
    (hrefused : s.acceptsWrite rq r i = false) : RegFrame isolationRegs s (s.gated rq r i act) := by
  rcases State.gated_refused act hrefused with hsame | hiso
  · rw [hsame]; exact RegFrame.refl _ s
  · rw [hiso]; exact s.isolation_regFrame rq 2 _

/-! ## Commands that are gated writes -/

/-- The requester of a command that writes one register at a fixed place, the register and its number among its kind; none where the command
has another effect, or where its operand is out of range. -/
def gateOf : Instr → Option (Requester × Reg × Nat)
  | .armEpoch rq _ => some (rq, .HUB_FT_CTL, 0)
  | .ftSourceWrite rq _ => some (rq, .HUB_FT_CTL, 0)
  | .auditSnap rq _ => some (rq, .HUB_AUDIT_SNAP, 0)
  | .simgLoad rq => some (rq, .HUB_SIMG_CTL, 0)
  | .simgAbort rq => some (rq, .HUB_SIMG_CTL, 0)
  | .simgPropose rq => some (rq, .HUB_SIMG_CTL, 0)
  | .create rq c _ => if c < 256 then some (rq, .HUB_CTX_CTL, c) else none
  | .preempt rq c _ => if c < 256 then some (rq, .HUB_CTX_CTL, c) else none
  | .resume rq c _ => if c < 256 then some (rq, .HUB_CTX_CTL, c) else none
  | .ctxEnd rq c _ => if c < 256 then some (rq, .HUB_CTX_CTL, c) else none
  | .saveCfgWrite rq k _ => if k < 128 then some (rq, .CO_SAVE_CFG, k) else none
  | .refreshFloorWrite rq ch _ => if ch < 40 then some (rq, .MEM_REFRESH, ch) else none
  | .wayReenable rq slice _ => if slice < 64 then some (rq, .LLM_SLICE, slice) else none
  | .llmZero rq die _ => if die < 4 then some (rq, .LLM_ZERO, die) else none
  | .tileFence rq p => if p < 16 then some (rq, .HUB_TT_CTL, p) else none
  | .tlbi rq p _ => if p < 16 then some (rq, .HUB_TLBI, p) else none
  | .noticeSend rq _ => some (rq, .FAB_NSEND, 0)
  | .retrain rq port => if port < 16 then some (rq, .FAB_PORT_CTL, port) else none
  | .portDisable rq port _ => if port < 16 then some (rq, .FAB_PORT_CTL, port) else none
  | .hostBar2Write rq _ => some (rq, .HOST_BAR2, 0)
  | .detach rq => some (rq, .HOST_ATTACH, 0)
  | .attach rq => some (rq, .HOST_ATTACH, 0)
  | .rwinCtlWrite rq win _ => if win < 256 then some (rq, .ETH_RWIN_CTL, win) else none
  | .txqTailWrite rq port q _ => if port < 2 ∧ q < 256 then some (rq, .ETH_TXQ_PTR, port * 256 + q) else none
  | .capWrite rq _ => some (rq, .PWR_CAP, 0)
  | .powerModeWrite rq _ => some (rq, .PWR_MODE, 0)
  | .rampWrite rq filler _ => some (rq, if filler then .PWR_MODE else .PWR_RAMP, 0)
  | .powerModelClear rq => some (rq, .PWR_FAULT, 0)
  | .hangReset rq e => if e < 512 then some (rq, .EN_HANG, e) else none
  | .replay rq p => if p < 16 then some (rq, .HUB_RECOV_CTL, p) else none
  | .partitionReset rq p => if p < 16 then some (rq, .HUB_PART_RESET, p) else none
  | .chipResetArm rq => some (rq, .HUB_CHIP_RESET, 0)
  | .chipResetGo rq => some (rq, .HUB_CHIP_RESET, 0)
  | .fetchFirmware rq _ => some (rq, .HUB_BOOT_CTL, 0)
  | .fetchImage rq _ => some (rq, .HUB_BOOT_CTL, 0)
  | .fetchNextImage rq _ => some (rq, .HUB_BOOT_CTL, 0)
  | .leaveWinter rq => some (rq, .HUB_BOOT_CTL, 0)
  | .otpProgram rq _ => some (rq, .SEC_OTP_PROG, 0)
  | .cntSelWrite rq kind unit i _ =>
    if selExists kind unit i then some (rq, selReg kind, unit * (counterRegs kind).per + i) else none
  | .dump rq _ => some (rq, .DBG_DUMP_CTL, 0)
  | _ => none

section GatedWrites

variable {s : State} {rq : Requester} {c : Instr} {r : Reg} {i : Nat}

/-- A command that writes a register at a fixed place answers with the gated write of that register, and does nothing else. -/
theorem exec_of_gateOf (hgate : gateOf c = some (rq, r, i)) : ∃ act, ∀ s, exec c s = answer (s.gated rq r i act) := by
  cases c with
  -- the register stands once: no operand to check
  | armEpoch | ftSourceWrite | auditSnap | simgLoad | simgAbort | simgPropose | noticeSend | hostBar2Write | detach | attach | capWrite
  | powerModeWrite | powerModelClear | chipResetArm | chipResetGo | fetchFirmware | fetchImage | fetchNextImage | leaveWinter
  | otpProgram | dump =>
    cases hgate
    exact ⟨_, fun _ => rfl⟩
  | rampWrite _ filler _ => cases filler <;> cases hgate <;> exact ⟨_, fun _ => rfl⟩
  -- an operand numbers the register, and is in range
  | saveCfgWrite | refreshFloorWrite | wayReenable | llmZero | tileFence | tlbi | retrain | portDisable | rwinCtlWrite | txqTailWrite
  | hangReset | replay | partitionReset | cntSelWrite =>
    obtain ⟨hrange, hplace⟩ := Option.ite_none_right_eq_some.mp hgate
    cases hplace
    exact ⟨_, fun _ => congrArg answer (if_pos hrange)⟩
  | create | preempt | resume | ctxEnd =>
    obtain ⟨hrange, hplace⟩ := Option.ite_none_right_eq_some.mp hgate
    cases hplace
    exact ⟨_, fun _ => congrArg answer (if_neg (Nat.not_le.mpr hrange))⟩
  | _ => cases hgate

/-- R34, R531: where the block does not take the write, the command changes only the record of the isolation error. -/
theorem exec_regFrame_of_refused (hgate : gateOf c = some (rq, r, i)) (hrefused : s.acceptsWrite rq r i = false) :
    ∃ t, exec c s = .next t ∧ RegFrame isolationRegs s t := by
  obtain ⟨act, hexec⟩ := exec_of_gateOf hgate
  exact ⟨_, hexec s, (State.gated_regFrame_of_refused act hrefused).mirror⟩

end GatedWrites

/-! ## The statement -/

/-- Settles O49: each command of the list is the gated write of its register, and a gated write that is refused leaves everything but the
record of the isolation error (R34). -/
theorem refusedRegisterWrites : Obligations.RefusedRegisterWrites := by
  unfold Obligations.RefusedRegisterWrites
  intro s rq x w v n on c r i hmem hrefused
  have hgate : gateOf c = some (rq, r, i) := by
    -- of each entry of the list: the operands are taken modulo the number of registers, so they are in range
    refine (?_ : ∀ e ∈ (_ : List (Instr × Reg × Nat)), gateOf e.1 = some (rq, e.2)) _ hmem
    simp [gateOf, Nat.mod_lt, selExists, selReg, counterRegs]
  exact exec_regFrame_of_refused hgate hrefused

end Sys2Proof.Machine

/-! PROOF. Loads of a structure image and the Solstice (R64, R70 to R78): what each operation of software, of the fabric manager's notices
and of the Solstice's beats does in each of its cases, what the identity registers leave untouched at S + 1, and the statements about
them. -/

namespace Sys2Proof.Machine

/-! ## Fields that a write leaves untouched -/

/-- Two fields share no bit: they stand in different registers, or apart in one. -/
abbrev Field.Apart (f g : Field) : Prop := f.reg ≠ g.reg ∨ f.lo + f.width ≤ g.lo ∨ g.lo + g.width ≤ f.lo

section Untouched

variable {f g : Field} {i j : Nat}

theorem State.fld_setFld_apart (s : State) (v : Nat) (hfg : f.Apart g) (hf : f.lo + f.width ≤ 64) (hi : i < 2 ^ 20) (hj : j < 2 ^ 20) :
    (s.setFld f i v).fld g j = s.fld g j := by
  by_cases hreg : f.reg = g.reg
  · by_cases hinst : i = j
    · subst hinst
      exact s.fld_setFld_bits f g i v hreg hf (hfg.resolve_left (not_not_intro hreg))
    · exact s.fld_setFld_reg f g i j v (.inr hinst) hi hj
  · exact s.fld_setFld_reg f g i j v (.inl hreg) hi hj

theorem State.fld_foldl_setFld_apart (v : Nat → Nat) (hfg : f.Apart g) (hf : f.lo + f.width ≤ 64) (hj : j < 2 ^ 20) (l : List Nat)
    (hl : ∀ i ∈ l, i < 2 ^ 20) (s : State) : (l.foldl (fun s i => s.setFld f i (v i)) s).fld g j = s.fld g j := by
  induction l generalizing s with
  | nil => rfl
  | cons i rest ih =>
    obtain ⟨hi, hrest⟩ := List.forall_mem_cons.mp hl
    rw [List.foldl_cons, ih hrest, s.fld_setFld_apart _ hfg hf hi hj]

theorem State.foldl_setFld_img (v : Nat → Nat) (l : List Nat) (s : State) :
    (l.foldl (fun s i => s.setFld f i (v i)) s).img = s.img := by
  induction l generalizing s with
  | nil => rfl
  | cons i rest ih => exact ih _

end Untouched

/-! ## Loads, aborts and proposals (R64, R70 to R75) -/

section Loads

variable {s : State}

theorem State.simgLoad_of_idle (hup : s.isUp = true) (hphase : s.phase = 0) (hnext : s.flag Fld.HUB_SIMG_STATUS_NEXT_PENDING = false) :
    s.simgLoad = (((s.raise Fld.HUB_SIMG_CTL_LOAD).setPhaseOf 1).setLoad true
      (some ⟨0, s.fld Fld.HUB_SIMG_SRC_ADDR * 64, s.fld Fld.HUB_SIMG_CTL_LENGTH, [], false⟩)).loadReads true (2 ^ 24 + 1) := by
  have hidle : ¬ (s.phase ≥ 1 ∨ s.flag Fld.HUB_SIMG_STATUS_NEXT_PENDING = true) := by simp [hphase, hnext]
  rw [simgLoad, if_neg (by simp [hup]), if_neg hidle]

/-- R75: BUSY while a load or a Solstice is in progress or a next image is pending. -/
theorem State.simgLoad_of_busy (hup : s.isUp = true) (hbusy : 1 ≤ s.phase ∨ s.flag Fld.HUB_SIMG_STATUS_NEXT_PENDING = true) :
    s.simgLoad = s.simgResult 0x15 := by
  rw [simgLoad, if_neg (by simp [hup]), if_pos hbusy]

/-- R70, R71: at PHASE 1 or 2, ABORT discards the copy. -/
theorem State.simgAbort_of_load (hphase : s.phase = 1 ∨ s.phase = 2) : s.simgAbort = s.loadEnds 0x1A := by
  rcases hphase with h | h <;> simp only [simgAbort, h]

/-- R74: at PHASE 3 or 4, ABORT ends the Solstice. -/
theorem State.simgAbort_of_solstice (hphase : s.phase = 3 ∨ s.phase = 4) : s.simgAbort = s.solsticeEnds 0x1A := by
  rcases hphase with h | h <;> simp only [simgAbort, h]

theorem State.simgPropose_of_passes (hcode : s.proposalCode (s.fld Fld.HUB_SOLSTICE_TARGET) none = 0)
    (hnew : s.localAgain (s.fld Fld.HUB_SOLSTICE_TARGET) = false) :
    s.simgPropose = (s.raise Fld.HUB_SIMG_CTL_PROPOSE).beginSolstice (s.fld Fld.HUB_SOLSTICE_TARGET) true := by
  rw [simgPropose, if_neg (Bool.eq_false_iff.mp hnew), if_neg (not_not_intro hcode)]

theorem State.simgPropose_of_fails (hcode : s.proposalCode (s.fld Fld.HUB_SOLSTICE_TARGET) none ≠ 0)
    (hnew : s.localAgain (s.fld Fld.HUB_SOLSTICE_TARGET) = false) :
    s.simgPropose = s.simgResult (s.proposalCode (s.fld Fld.HUB_SOLSTICE_TARGET) none) := by
  rw [simgPropose, if_neg (Bool.eq_false_iff.mp hnew), if_pos hcode]

/-- R70: a source that has ended torn. -/
theorem State.simgLoaded_of_torn {f : Fetch} (hload : s.loadOf true = some f) (htorn : f.torn = true) (hphase : s.phase = 1) :
    s.simgLoaded = s.loadEnds 0x1B := by
  have hboot : s.boot.load = some f := hload
  have hended : f.ended = true := by simp [Fetch.ended, htorn]
  simp [simgLoaded, hboot, hphase, hended, htorn]

end Loads

theorem exec_simgLoad (s : State) (rq : Requester) :
    exec (.simgLoad rq) s = .next (s.gated rq .HUB_SIMG_CTL 0 State.simgLoad).mirror := rfl

theorem exec_simgAbort (s : State) (rq : Requester) :
    exec (.simgAbort rq) s = .next (s.gated rq .HUB_SIMG_CTL 0 State.simgAbort).mirror := rfl

theorem exec_simgPropose (s : State) (rq : Requester) :
    exec (.simgPropose rq) s = .next (s.gated rq .HUB_SIMG_CTL 0 State.simgPropose).mirror := rfl

theorem exec_simgLoadComplete (s : State) : exec .simgLoadComplete s = .next s.simgLoaded.mirror := rfl

/-- Settles O5: an accepted write of HUB_SIMG_CTL acts, and each operation is read off in the case of its PHASE and checks. -/
theorem imageLoads : Obligations.ImageLoads := by
  unfold Obligations.ImageLoads
  refine ⟨?load, ?busy, ?abortLoad, ?abortSolstice, ?propose, ?proposeFails, ?torn, exec_simgLoad, exec_simgAbort, exec_simgPropose,
    exec_simgLoadComplete⟩
  case load =>
    intro s rq hwrite hup hphase hnext
    rw [exec_simgLoad, State.gated_accepted _ hwrite, State.simgLoad_of_idle hup hphase hnext]
  case busy =>
    intro s rq hwrite hup hphase
    rw [exec_simgLoad, State.gated_accepted _ hwrite, State.simgLoad_of_busy hup (.inl hphase)]
  case abortLoad =>
    intro s rq hwrite hphase
    rw [exec_simgAbort, State.gated_accepted _ hwrite, State.simgAbort_of_load (.inr hphase)]
  case abortSolstice =>
    intro s rq hwrite hphase
    rw [exec_simgAbort, State.gated_accepted _ hwrite, State.simgAbort_of_solstice (.inr hphase)]
  case propose =>
    intro s rq hwrite hcode hnew
    rw [exec_simgPropose, State.gated_accepted _ hwrite, State.simgPropose_of_passes hcode hnew]
  case proposeFails =>
    intro s rq hwrite hcode hnew
    rw [exec_simgPropose, State.gated_accepted _ hwrite, State.simgPropose_of_fails hcode hnew]
  case torn =>
    intro s f hload htorn hphase
    rw [exec_simgLoadComplete, State.simgLoaded_of_torn hload htorn hphase]

/-! ## Notices of a Solstice (R73 to R75, R377) -/

section Notices

variable {s : State} {n : Notice} {kind : Nat}

theorem State.managed_of_fromManager (act : State → State) (hkind : noticeKind n = kind) (hmanager : s.fromManager n = true) :
    s.managed kind n act = (act s).toNoticeRing n := by
  rw [managed, if_neg (not_not_intro hkind), if_pos hmanager]

/-- R377: a notice that only the manager may send, from another. -/
theorem State.managed_of_not_fromManager (act : State → State) (hkind : noticeKind n = kind) (hother : s.fromManager n = false) :
    s.managed kind n act = s.discardPacket := by
  rw [managed, if_neg (not_not_intro hkind), if_neg (Bool.eq_false_iff.mp hother)]

theorem State.ringed_of_kind (hkind : noticeKind n = kind) : s.ringed kind n = s.toNoticeRing n := if_pos hkind

theorem State.noticePropose_of_passes {t group : Nat} {digest : List Byte} (hnew : s.sameProposal t digest = false)
    (hcode : s.proposalCode t (some (group, digest)) = 0) :
    s.noticePropose t group digest = (s.setFld Fld.HUB_SOLSTICE_TARGET 0 t).beginSolstice t false := by
  rw [noticePropose, if_neg (Bool.eq_false_iff.mp hnew), if_neg (not_not_intro hcode)]

theorem State.noticeCommit_of_accepted {t : Nat} {x : Solstice} (hsol : s.img.solstice = some x) (hphase : s.phase = 4) (ht : x.s = t) :
    s.noticeCommit t = { s with img := { s.img with solstice := some { x with committed := true } } } := by
  simp only [noticeCommit, hsol, if_pos (And.intro hphase ht)]

theorem State.noticeAbort_of_solstice (hphase : s.phase = 3 ∨ s.phase = 4) : s.noticeAbort = s.solsticeEnds 0x1A := if_pos hphase

end Notices

section NoticeCommands

variable (s : State) (port : Nat) (n : Notice)

theorem exec_noticePropose :
    exec (.noticePropose port n) s = .next ((s.takeNotice port n).managed nkPropose n
      (fun s => s.noticePropose (noticeTarget n) (noticeGroup n) ((n.drop 0x40).take 64))).mirror := rfl

theorem exec_noticeCommit :
    exec (.noticeCommit port n) s =
      .next ((s.takeNotice port n).managed nkCommit n (fun s => s.noticeCommit (noticeTarget n))).mirror := rfl

theorem exec_noticeAbort :
    exec (.noticeAbort port n) s = .next ((s.takeNotice port n).managed nkAbort n State.noticeAbort).mirror := rfl

theorem exec_noticeAccept : exec (.noticeAccept port n) s = .next ((s.takeNotice port n).ringed nkAccept n).mirror := rfl

theorem exec_noticeRefuse : exec (.noticeRefuse port n) s = .next ((s.takeNotice port n).ringed nkRefuse n).mirror := rfl

end NoticeCommands

/-- Settles O6: what a notice of its kind does from the manager and from another (R377), and then each operation in the case of its
PHASE and checks, on the state whose packet is consumed. -/
theorem solsticeNotices : Obligations.SolsticeNotices := by
  unfold Obligations.SolsticeNotices
  refine ⟨?propose, ?stranger, ?commit, ?abort, ?accept, ?refuse, exec_noticePropose, exec_noticeCommit, exec_noticeAbort,
    exec_noticeAccept, exec_noticeRefuse⟩
  case propose =>
    intro s port n hkind hmanager hnew hcode
    rw [exec_noticePropose, State.managed_of_fromManager _ hkind hmanager, State.noticePropose_of_passes hnew hcode]
  case stranger =>
    intro s port n hkind hother
    rw [exec_noticePropose, State.managed_of_not_fromManager _ hkind hother]
  case commit =>
    intro s port n x hkind hmanager hsol hphase ht
    rw [exec_noticeCommit, State.managed_of_fromManager _ hkind hmanager, State.noticeCommit_of_accepted hsol hphase ht]
  case abort =>
    intro s port n hkind hmanager hphase
    rw [exec_noticeAbort, State.managed_of_fromManager _ hkind hmanager, State.noticeAbort_of_solstice (.inr hphase)]
  case accept =>
    intro s port n hkind
    rw [exec_noticeAccept, State.ringed_of_kind hkind]
  case refuse =>
    intro s port n hkind
    rw [exec_noticeRefuse, State.ringed_of_kind hkind]

/-! ## The identity registers (R78, R79) -/

/-- The fields that show the identity of the image in force. -/
def identityFields : List Field :=
  [Fld.HUB_SIMG_ID_IMAGE_ID, Fld.HUB_SIMG_BASE_BASE_IMAGE_ID, Fld.HUB_SIMG_VER_IMAGE_VERSION, Fld.HUB_SIMG_VER_SECURITY_VERSION,
   Fld.HUB_SIMG_GEN_MODULE_ID, Fld.HUB_SIMG_GEN_GENERATION, Fld.HUB_SIMG_STATUS_PERSONALITY, Fld.HUB_SIMG_STATUS_KEY_SLOT,
   Fld.HUB_SIMG_DIGEST_DIGEST]

@[simp] theorem State.identify_img (s : State) : s.identify.img = s.img := by
  unfold State.identify
  split
  · simp only [foldl_setFld_img, setFld_frame]
  · rfl

theorem State.identify_fld {g : Field} (s : State) (hg : ∀ f ∈ identityFields, f.Apart g) : s.identify.fld g = s.fld g := by
  have hwidth : ∀ f ∈ identityFields, f.lo + f.width ≤ 64 := by decide
  have hkeeps {f : Field} (u : State) (v : Nat) (hf : f ∈ identityFields) : (u.setFld f 0 v).fld g = u.fld g :=
    u.fld_setFld_apart v (hg f hf) (hwidth f hf) (by decide) (by decide)
  have hdigest : Fld.HUB_SIMG_DIGEST_DIGEST ∈ identityFields := by decide
  unfold State.identify
  split
  · rw [fld_foldl_setFld_apart _ (hg _ hdigest) (hwidth _ hdigest) (by decide) _ (by decide)]
    simp (disch := decide) only [hkeeps]
  · rfl

/-! ## The beats of a Solstice (R73, R76, R77) -/

section Beats

variable {s : State} {x : Solstice} {im : Image}

/-- R73: quiesced in time, its slices ready. The module of a local Solstice commits to itself; QUIESCED takes SCOPE at PHASE 4 by the
model's choice (log 64). -/
theorem State.solsticeQuiesced_of_sole (hsol : s.img.solstice = some x) (hstaged : s.img.staged = some im) (hphase : s.phase = 3)
    (htime : s.ft ≤ x.s - 62500) (hslices : s.slicesReady = true)
    (hidle : (bitsOf 16 (s.fld Fld.HUB_SIMG_STATUS_SCOPE)).all (fun p => s.partIdle p && (s.auditSums p).balance) = true)
    (hsole : x.sole = true) :
    s.solsticeQuiesced =
      ((({ s with img := { s.img with solstice := some { x with committed := true } } } : State).zeroSlices.setPhaseOf 4).setFld
        Fld.HUB_SIMG_STATUS_QUIESCED 0 (s.fld Fld.HUB_SIMG_STATUS_SCOPE)) := by
  have hready : s.phase = 3 ∧ s.ft ≤ x.s - 62500 ∧ s.slicesReady = true ∧
      (bitsOf 16 (s.fld Fld.HUB_SIMG_STATUS_SCOPE)).all (fun p => s.partIdle p && (s.auditSums p).balance) = true :=
    ⟨hphase, htime, hslices, hidle⟩
  simp only [solsticeQuiesced, hsol, hstaged, if_pos hready, hsole, if_true]

theorem State.acceptDeadline_of_sole (hsol : s.img.solstice = some x) (hphase : s.phase = 3) (htime : x.s - 62500 ≤ s.ft)
    (hsole : x.sole = true) : s.acceptDeadline = s.solsticeEnds 0x18 := by
  simp only [acceptDeadline, hsol, if_pos (And.intro hphase htime), hsole, if_true]

theorem State.solsticeCutoff_of_committed (hsol : s.img.solstice = some x) (htime : x.s - 12500 ≤ s.ft) (hphase : s.phase = 4)
    (hcommitted : x.committed = true) (hlocked : tbLocked ≤ s.tbState) : s.solsticeCutoff = s.setPhaseOf 5 := by
  have hdue : s.ft ≥ x.s - 12500 ∧ (s.phase = 3 ∨ s.phase = 4) := ⟨htime, .inr hphase⟩
  have harmed : s.phase = 4 ∧ x.committed = true ∧ s.tbState ≥ tbLocked := ⟨hphase, hcommitted, hlocked⟩
  simp only [solsticeCutoff, hsol, if_pos hdue, if_pos harmed]

theorem State.solsticeCutoff_of_not_committed (hsol : s.img.solstice = some x) (htime : x.s - 12500 ≤ s.ft) (hphase : s.phase = 4)
    (hcommitted : x.committed = false) : s.solsticeCutoff = s.solsticeEnds 0x19 := by
  have hdue : s.ft ≥ x.s - 12500 ∧ (s.phase = 3 ∨ s.phase = 4) := ⟨htime, .inr hphase⟩
  have hunarmed : ¬ (s.phase = 4 ∧ x.committed = true ∧ s.tbState ≥ tbLocked) := by simp [hcommitted]
  simp only [solsticeCutoff, hsol, if_pos hdue, if_neg hunarmed]

/-- R76: at S a full image takes the place of the image and of the update in force. -/
theorem State.solsticeSwitch_of_full (hsol : s.img.solstice = some x) (hstaged : s.img.staged = some im) (hphase : s.phase = 5)
    (htime : x.s ≤ s.ft) (hkind : im.hdr.kind ≠ 2) :
    s.solsticeSwitch = ({ s with img := { s.img with full := some im, update := none, staged := none } } : State).applyTables
      s.tables (inForceSections (some im) none) im.hdr.moduleId (s.fld Fld.HUB_SIMG_STATUS_SCOPE) true := by
  simp only [solsticeSwitch, hsol, hstaged, if_pos (And.intro hphase htime), if_neg hkind]

/-- R73, R76: at S + 1 the Solstice has left the state before the identity registers are brought up to date. -/
theorem State.pointerStore_of_switched (hsol : s.img.solstice = some x) (hphase : s.phase = 5) (htime : x.s + 1 ≤ s.ft)
    (hstaged : s.img.staged = none) :
    ∃ u : State, s.pointerStore = u.identify ∧ u.img.solstice = none ∧ u.img.holdStaged = none ∧ u.phase = 0 ∧
      u.fld Fld.HUB_SIMG_STATUS_RESULT = 0 ∧ u.fld Fld.HUB_SIMG_STATUS_STAGED_VALID = 0 := by
  have hdue : s.phase = 5 ∧ s.ft ≥ x.s + 1 ∧ s.img.staged.isNone = true := ⟨hphase, htime, Option.isNone_iff_eq_none.mpr hstaged⟩
  simp only [pointerStore, hsol, if_pos hdue]
  refine ⟨_, rfl, rfl, rfl, ?_⟩
  simp (disch := decide) [phase, setPhaseOf, simgResult, fld_setFld_apart, fld_setFld_same]

end Beats

theorem exec_solsticeQuiesced (s : State) : exec .solsticeQuiesced s = .next s.solsticeQuiesced.mirror := rfl

theorem exec_solsticeAcceptDeadline (s : State) : exec .solsticeAcceptDeadline s = .next s.acceptDeadline.mirror := rfl

theorem exec_solsticeCutoff (s : State) : exec .solsticeCutoff s = .next s.solsticeCutoff.mirror := rfl

theorem exec_solsticeSwitch (s : State) : exec .solsticeSwitch s = .next s.solsticeSwitch.mirror := rfl

theorem exec_solsticePointerStore (s : State) : exec .solsticePointerStore s = .next s.pointerStore.mirror := rfl

/-- Settles O7: each beat's operation in the case of its PHASE and time; the answer at S + 1 is read through the mirrors and the identity
registers, which leave PHASE, RESULT, STAGED_VALID and the images alone. That QUIESCED takes SCOPE at PHASE 4 is the model's choice
(log 64). -/
theorem solsticeBeats : Obligations.SolsticeBeats := by
  unfold Obligations.SolsticeBeats
  refine ⟨?quiesced, ?deadline, ?armed, ?abandoned, ?switch, ?pointer, exec_solsticeQuiesced, exec_solsticeAcceptDeadline,
    exec_solsticeCutoff, exec_solsticeSwitch, exec_solsticePointerStore⟩
  case quiesced =>
    intro s x im hsol hstaged hphase htime hslices hidle hsole
    rw [exec_solsticeQuiesced, State.solsticeQuiesced_of_sole hsol hstaged hphase htime hslices hidle hsole]
  case deadline =>
    intro s x hsol hphase htime hsole
    rw [exec_solsticeAcceptDeadline, State.acceptDeadline_of_sole hsol hphase htime hsole]
  case armed =>
    intro s x hsol htime hphase hcommitted hlocked
    rw [exec_solsticeCutoff, State.solsticeCutoff_of_committed hsol htime hphase hcommitted hlocked]
  case abandoned =>
    intro s x hsol htime hphase hcommitted
    rw [exec_solsticeCutoff, State.solsticeCutoff_of_not_committed hsol htime hphase hcommitted]
  case switch =>
    intro s x im hsol hstaged hphase htime hkind
    rw [exec_solsticeSwitch, State.solsticeSwitch_of_full hsol hstaged hphase htime hkind]
  case pointer =>
    intro s x hsol hphase htime hstaged
    obtain ⟨u, hstore, hsolstice, hheld, hphase0, hresult, hvalid⟩ := State.pointerStore_of_switched hsol hphase htime hstaged
    have hkept {g : Field} (hstatus : ∀ f ∈ identityFields, f.Apart g) (hmirror : g.reg = .HUB_SIMG_STATUS) :
        u.identify.mirror.fld g = u.fld g := by
      rw [State.mirror_fld _ g 0 (by decide) (.inl (by simp [hmirror])) (.inl (by simp [hmirror])), State.identify_fld u hstatus]
    rw [exec_solsticePointerStore, hstore]
    refine ⟨_, rfl, by simpa using hsolstice, ?_, ?_, ?_, by simpa using hheld⟩
    · exact (hkept (by decide) rfl).trans hphase0
    · exact (hkept (by decide) rfl).trans hresult
    · rw [State.flag, hkept (by decide) rfl, hvalid]; rfl

end Sys2Proof.Machine

/-! PROOF. The beat (R80): the statement about it fails. It puts no bound on the unit of a counter overflow that waits, and the event
of an overflow in a cluster that does not exist is recorded in another register: the status of a fabric port, which comes up within the
beat, and whose ingress window then closes. -/

namespace Sys2Proof.Machine

/-- A cluster that does not exist: its CL_EVT_PTR has the key of port 0's FAB_PORT_STATUS in the register store. -/
def strayCluster : Nat := (Reg.FAB_PORT_STATUS.num - Reg.CL_EVT_PTR.num) * 2 ^ 20

/-- CIRCUITS entry 22, of period 2^8: from fabric port 0 to core 0. -/
def ingressCircuit : List Byte :=
  leBytes 2 22 ++ leBytes 1 0 ++ leBytes 1 8 ++ leBytes 2 0x5000 ++ leBytes 2 0x1000 ++ leBytes 1 1 ++ leBytes 1 0 ++ leBytes 2 0

/-- SLOTS entry of circuit 22: at the ingress of fabric port 0, from beat 0 on, with 1600 bytes in two frames. -/
def ingressSlot : List Byte :=
  leBytes 2 22 ++ leBytes 1 7 ++ leBytes 1 0 ++ leBytes 4 0 ++ leBytes 2 1 ++ leBytes 1 1 ++ leBytes 1 0 ++ leBytes 4 1600

/-- Port 0 is in MISMATCH, one short of UP. Its circuit 22 has one of its two frames at beat 100, after the window of its slot; and an
overflow of the stray cluster's counter 0 waits for its event, which counts the port's status word up. -/
def strayOverflow : State :=
  let s := State.reset.setFld Fld.FAB_PORT_STATUS_STATE 0 psMismatch
  { s with
    time := { s.time with ft := 100 }
    img := { s.img with tables := [⟨2, [ingressCircuit]⟩, ⟨3, [ingressSlot]⟩] }
    segs := [(22, { Segment.init with frames := [(0, [])] })]
    ovfs := [(2, strayCluster, 0)] }

theorem strayOverflow_portUp : strayOverflow.portUp 0 = false := by decide +kernel

theorem strayOverflow_msgs : (strayOverflow.port 0).msgs = [] := rfl

/-- The overflow's event takes port 0 from MISMATCH to UP, and the port closes the window of circuit 22's slot and asks for its frames again. -/
theorem strayOverflow_beat_msgs : (strayOverflow.beat.port 0).msgs = [⟨6, 0, 22, (0, 0)⟩] := by decide +kernel

theorem exec_beat (s : State) : exec .beat s = .next s.beat.mirror := rfl

theorem State.mirror_port (s : State) (p : Nat) : s.mirror.port p = s.port p := by
  simp only [State.port, State.mirror_frame]

/-- Refutes O45: a port that is not UP has other link messages after the beat, where the event of a waiting overflow is recorded in the
port's status. -/
theorem not_beatAdvances : ¬ Obligations.BeatAdvances := by
  unfold Obligations.BeatAdvances
  rintro ⟨-, hbeat, -⟩
  obtain ⟨t, hexec, -, -, -, hdown, -⟩ :=
    hbeat strayOverflow (by decide +kernel) (by decide +kernel) rfl rfl rfl rfl
  have ht : t = strayOverflow.beat.mirror := Host.Outcome.next.inj (hexec.symm.trans (exec_beat strayOverflow))
  have hkept := hdown 0 (by decide) strayOverflow_portUp
  rw [ht, State.mirror_port, strayOverflow_beat_msgs, strayOverflow_msgs] at hkept
  cases hkept

end Sys2Proof.Machine

/-! PROOF. The time base (R80 to R86): what each of its operations does to fabric time, to the state of the time base and to the phase
error, and what it leaves alone; and the statements about the events of its source, about writes of HUB_FT_CTL and about PTP messages. -/

namespace Sys2Proof.Machine

section TimeBase

variable {s : State} {p ps : Int} {st n : Nat} {g : Field}

/-! ## Registers that stand once, the partitions that run, and the mirrors -/

/-- Registers that stand once: a write of a field leaves every field apart from it alone. -/
theorem State.fld_setFld_once_apart {f : Field} (v : Nat) (hf : f.Apart g ∧ f.lo + f.width ≤ 64) : (s.setFld f 0 v).fld g = s.fld g :=
  s.fld_setFld_apart v hf.1 hf.2 (by decide) (by decide)

theorem State.anyPartRuns_setFld {f : Field} (v : Nat) (hf : f.Apart Fld.HUB_DIE_FENCE_FENCED ∧ f.lo + f.width ≤ 64) :
    (s.setFld f 0 v).anyPartRuns = s.anyPartRuns := by
  have hdies : (s.setFld f 0 v).fld Fld.HUB_DIE_FENCE_FENCED = s.fld Fld.HUB_DIE_FENCE_FENCED :=
    fld_setFld_once_apart v hf
  have hlost (p : Nat) : (s.setFld f 0 v).partLost p = s.partLost p := by
    simp only [partLost, dieFenced, hdies]; rfl
  have hruns (p : Nat) : (s.setFld f 0 v).partRuns p = s.partRuns p := by
    rw [partRuns, hlost]; rfl
  simp only [anyPartRuns, funext hruns]

theorem State.mirror_fld_time (hg : g.reg = .HUB_FT_STATUS ∨ g.reg = .HUB_FT_CTL) : s.mirror.fld g = s.fld g :=
  s.mirror_fld g 0 (by decide) (.inl (by rcases hg with h | h <;> simp [h])) (.inl (by rcases hg with h | h <;> simp [h]))

@[simp] theorem State.mirror_tbState : s.mirror.tbState = s.tbState := mirror_fld_time (.inl rfl)

/-- Memory is kept by a command whose operation leaves it alone. -/
theorem MemSame.mirror_kept {t : State} (h : MemSame s t) : MemoryKept s t.mirror :=
  (h.trans (by simp [MemSame] : MemSame t t.mirror)).kept

theorem MemSame.time (s : State) (x : TimeBase) : MemSame s { s with time := x } := ⟨rfl, rfl, rfl⟩

/-! ## Measured phase errors -/

@[simp] theorem State.setPhase_time : (s.setPhase p).time = { s.time with phase := p } := rfl

@[simp] theorem State.setPhase_errorAbove : (s.setPhase p).errorAbove n = decide (n * 25000 < p.natAbs) := rfl

theorem State.setPhase_fld (hg : Fld.HUB_FT_STATUS_PHASE_ERR.Apart g) : (s.setPhase p).fld g = s.fld g :=
  fld_setFld_once_apart _ ⟨hg, by decide⟩

@[simp] theorem State.setPhase_tbState : (s.setPhase p).tbState = s.tbState := setPhase_fld (by decide)

@[simp] theorem State.setPhase_anyPartRuns : (s.setPhase p).anyPartRuns = s.anyPartRuns := anyPartRuns_setFld _ (by decide)

theorem MemSame.setPhase (s : State) (p : Int) : MemSame s (s.setPhase p) := ⟨rfl, rfl, rfl⟩

/-- The state once its source, which is present, has been measured. -/
def State.heard (s : State) (p : Int) : State := ({ s with time := { s.time with present := true } }).setPhase p

theorem State.measure_eq (s : State) (p : Int) :
    s.measure p = if (s.heard p).errorAbove 64 ∧ (s.heard p).tbState ≠ tbUnlocked then (s.heard p).unlock else (s.heard p).setFromSource := rfl

@[simp] theorem State.heard_time : (s.heard p).time = { s.time with present := true, phase := p } := rfl

@[simp] theorem State.heard_tbState : (s.heard p).tbState = s.tbState := setPhase_tbState

@[simp] theorem State.heard_anyPartRuns : (s.heard p).anyPartRuns = s.anyPartRuns := setPhase_anyPartRuns

theorem MemSame.heard (s : State) (p : Int) : MemSame s (s.heard p) := ⟨rfl, rfl, rfl⟩

/-! ## States of the time base -/

/-- STATE reads the state entered. -/
theorem State.tbState_setFld (hst : st < 8) : (s.setFld Fld.HUB_FT_STATUS_STATE 0 st).tbState = st :=
  (s.fld_setFld_same _ _ _ (by decide)).trans (Nat.mod_eq_of_lt hst)

theorem State.tbState_setFld_apart {f : Field} (v : Nat) (hf : f.Apart Fld.HUB_FT_STATUS_STATE ∧ f.lo + f.width ≤ 64) :
    (s.setFld f 0 v).tbState = s.tbState :=
  fld_setFld_once_apart v hf

theorem State.enterTb_holdover :
    s.enterTb tbHoldover = ({ s with time := { s.time with since := s.ft } }).setFld Fld.HUB_FT_STATUS_STATE 0 tbHoldover := rfl

theorem State.enterTb_acquiring :
    s.enterTb tbAcquiring = ({ s with time := { s.time with good := 0 } }).setFld Fld.HUB_FT_STATUS_STATE 0 tbAcquiring := rfl

theorem MemSame.enterTb_acquiring (s : State) : MemSame s (s.enterTb tbAcquiring) := (MemSame.time ..).trans (MemSame.setFld ..)

theorem State.enterTb_locked : s.enterTb tbLocked = s.setFld Fld.HUB_FT_STATUS_STATE 0 tbLocked := rfl

theorem State.enterTb_fld (hg : Fld.HUB_FT_STATUS_STATE.Apart g) : (s.enterTb st).fld g = s.fld g := by
  unfold enterTb
  dsimp only
  split <;> split <;> exact fld_setFld_once_apart _ ⟨hg, by decide⟩

/-- R85: no time is set while a partition runs, without a source, or in a state other than UNLOCKED. -/
theorem State.setFromSource_of_kept (h : s.tbState ≠ tbUnlocked ∨ s.anyPartRuns = true ∨ s.time.present = false) :
    s.setFromSource = s := by
  rw [setFromSource, if_neg]
  rintro ⟨hstate, hruns, hpresent, -⟩
  rcases h with h | h | h <;> simp_all

theorem State.unlock_of_kept (h : s.anyPartRuns = true ∨ s.time.present = false) :
    s.unlock = s.setFld Fld.HUB_FT_STATUS_STATE 0 tbUnlocked := by
  have henter : s.enterTb tbUnlocked = s.setFld Fld.HUB_FT_STATUS_STATE 0 tbUnlocked := rfl
  rw [unlock, henter, setFromSource_of_kept]
  refine .inr (h.imp_left fun hruns => ?_)
  rw [anyPartRuns_setFld _ (by decide), hruns]

/-- R84: an error above 64 ns takes the time base to UNLOCKED. -/
theorem State.measure_of_above (hp : 64 * 25000 < p.natAbs) (hstate : s.tbState ≠ tbUnlocked) (hruns : s.anyPartRuns = true) :
    s.measure p = (s.heard p).setFld Fld.HUB_FT_STATUS_STATE 0 tbUnlocked := by
  rw [measure_eq, if_pos ⟨decide_eq_true hp, by simpa using hstate⟩, unlock_of_kept (.inl (by simpa using hruns))]

theorem State.measure_of_within (hp : p.natAbs ≤ 64 * 25000) (hstate : s.tbState ≠ tbUnlocked) : s.measure p = s.heard p := by
  have hnear : ¬ ((s.heard p).errorAbove 64 = true ∧ (s.heard p).tbState ≠ tbUnlocked) :=
    fun h => absurd (of_decide_eq_true h.1) (Nat.not_lt.mpr hp)
  rw [measure_eq, if_neg hnear, setFromSource_of_kept (.inl (by simpa using hstate))]

/-! ## Events of the source -/

@[simp] theorem State.setTime_ft : (s.setTime n p).ft = n % 2 ^ 64 := rfl

theorem State.setTime_phase : (s.setTime n p).time.phase = p := rfl

theorem State.setTime_tbState : (s.setTime n p).tbState = tbAcquiring := tbState_setFld (by decide)

theorem State.setTime_stepped : (s.setTime n p).flag Fld.HUB_FT_STATUS_STEPPED = true := by
  have hraised (u : State) : (u.raise Fld.HUB_FT_STATUS_STEPPED).fld Fld.HUB_FT_STATUS_STEPPED = 1 := u.fld_setFld_same _ _ _ (by decide)
  rw [setTime, flag, enterTb_fld (by decide), fld_setFld_once_apart _ (by decide), hraised]
  rfl

theorem MemSame.setTime (s : State) (n : Nat) (p : Int) : MemSame s (s.setTime n p) :=
  ((((MemSame.time ..).trans (MemSame.setPhase ..)).trans (MemSame.raise ..)).trans (MemSame.setFld ..)).trans
    (MemSame.enterTb_acquiring ..)

/-- R81: an edge that ARM_EPOCH armed loads HUB_FT_LOAD. -/
theorem State.epochPulse_of_armed (harm : s.flag Fld.HUB_FT_CTL_ARM_EPOCH = true) (hsource : s.fld Fld.HUB_FT_CTL_SOURCE = 1)
    (hruns : s.anyPartRuns = false) :
    s.epochPulse ps =
      (({ s with time := { s.time with loaded := some (s.fld Fld.HUB_FT_LOAD_VALUE) } }).setTime (s.fld Fld.HUB_FT_LOAD_VALUE) 0).setFld
        Fld.HUB_FT_CTL_ARM_EPOCH 0 0 := by
  rw [epochPulse, if_pos ⟨harm, hsource, by simp [hruns]⟩]

/-- R83: an edge more than one beat from its place. -/
theorem State.epochPulse_of_missed {l : Nat} (harm : s.flag Fld.HUB_FT_CTL_ARM_EPOCH = false) (hsource : s.fld Fld.HUB_FT_CTL_SOURCE = 1)
    (hloaded : s.time.loaded = some l) (hafter : 1 < (((s.ft : Int) - l) % epochBeats).toNat)
    (hbefore : (((s.ft : Int) - l) % epochBeats).toNat < epochBeats - 1) :
    s.epochPulse ps = s.raise Fld.HUB_FT_STATUS_EPOCH_MISS := by
  have hfar : ¬ ((((s.ft : Int) - l) % epochBeats).toNat ≤ 1 ∨ (((s.ft : Int) - l) % epochBeats).toNat ≥ epochBeats - 1) := by omega
  rw [epochPulse, if_neg (by simp [harm]), if_pos hsource]
  simp only [hloaded, if_neg hfar]

/-- R84: LOCKED is left for HOLDOVER when the source is lost. -/
theorem State.sourceLost_of_locked (hlocked : s.tbState = tbLocked) :
    s.sourceLost =
      (({ s with time := { s.time with present := false } } : State).raise Fld.HUB_FT_STATUS_REF_LOST).enterTb tbHoldover := by
  have hstate : (({ s with time := { s.time with present := false } } : State).raise Fld.HUB_FT_STATUS_REF_LOST).tbState = tbLocked :=
    (fld_setFld_once_apart _ (by decide)).trans hlocked
  rw [sourceLost, if_pos hstate]

theorem State.holdoverTimeout_of_partRuns (hstate : s.tbState = tbHoldover) (hsince : s.time.since + 1250000 ≤ s.ft)
    (hruns : s.anyPartRuns = true) : s.holdoverTimeout = s.setFld Fld.HUB_FT_STATUS_STATE 0 tbUnlocked := by
  rw [holdoverTimeout, if_pos ⟨hstate, hsince⟩, unlock_of_kept (.inl hruns)]

theorem State.lockAchieved_of_good (hstate : s.tbState = tbAcquiring) (hgood : 125000 ≤ s.time.good) :
    s.lockAchieved = s.setFld Fld.HUB_FT_STATUS_STATE 0 tbLocked := by
  rw [lockAchieved, if_pos ⟨hstate, hgood⟩, enterTb_locked]

/-- R84: HOLDOVER ends in LOCKED with a source that returns within 64 ns. -/
theorem State.sourceReturn_of_holdover (hstate : s.tbState = tbHoldover) (hp : ps.natAbs ≤ 64000) :
    s.sourceReturn ps = (s.heard (ps * 25)).setFld Fld.HUB_FT_STATUS_STATE 0 tbLocked := by
  have hmeasure : s.measure (ps * 25) = s.heard (ps * 25) := measure_of_within (by omega) (by simp [hstate, tbHoldover, tbUnlocked])
  rw [sourceReturn, hmeasure, if_pos (by simpa using hstate), enterTb_locked]

/-- R86: slewed to within 64 ns while a partition runs. -/
theorem State.slewConverged_of_within (hstate : s.tbState = tbUnlocked) (hruns : s.anyPartRuns = true)
    (hsource : s.fld Fld.HUB_FT_CTL_SOURCE ≠ 0) (hpresent : s.time.present = true) (hp : ps.natAbs ≤ 64000) :
    s.slewConverged ps =
      ((s.setPhase (ps * 25)).setFld Fld.HUB_FT_STATUS_SOURCE_IN_USE 0 (s.fld Fld.HUB_FT_CTL_SOURCE)).enterTb tbAcquiring := by
  have hkept : (s.setPhase (ps * 25)).fld Fld.HUB_FT_CTL_SOURCE = s.fld Fld.HUB_FT_CTL_SOURCE := setPhase_fld (by decide)
  have hnear : ¬ 64 * 25000 < (ps * 25).natAbs := by omega
  rw [slewConverged, hkept, if_pos (by simp [hstate, hruns, hsource, hpresent, hnear])]

end TimeBase

/-! ## The events as commands -/

theorem exec_epochPulse (s : State) (ps : Int) : exec (.epochPulse ps) s = .next (s.epochPulse ps).mirror := rfl

theorem exec_ref10mEdgeLoss (s : State) :
    exec .ref10mEdgeLoss s = .next (if s.fld Fld.HUB_FT_CTL_SOURCE = 1 then s.sourceLost else s).mirror := rfl

theorem exec_ptpSyncLoss (s : State) :
    exec .ptpSyncLoss s = .next (if s.fld Fld.HUB_FT_CTL_SOURCE = 2 then s.sourceLost else s).mirror := rfl

theorem exec_holdoverTimeout (s : State) : exec .holdoverTimeout s = .next s.holdoverTimeout.mirror := rfl

theorem exec_phaseErrorExceeded (s : State) (ps : Int) : exec (.phaseErrorExceeded ps) s = .next (s.measure (ps * 25)).mirror := rfl

theorem exec_lockAchieved (s : State) : exec .lockAchieved s = .next s.lockAchieved.mirror := rfl

theorem exec_sourceReturn (s : State) (ps : Int) : exec (.sourceReturn ps) s = .next (s.sourceReturn ps).mirror := rfl

theorem exec_slewConverged (s : State) (ps : Int) : exec (.slewConverged ps) s = .next (s.slewConverged ps).mirror := rfl

/-- The answer to the loss of the source in use, by whichever command tells it: HOLDOVER, with REF_LOST, at the same beat. -/
theorem State.sourceLost_holdover {s : State} (hlocked : s.tbState = tbLocked) :
    s.sourceLost.mirror.tbState = tbHoldover ∧ s.sourceLost.mirror.flag Fld.HUB_FT_STATUS_REF_LOST = true ∧
      s.sourceLost.mirror.time.since = s.ft ∧ s.sourceLost.mirror.ft = s.ft ∧ MemoryKept s s.sourceLost.mirror := by
  have hraised (u : State) : (u.raise Fld.HUB_FT_STATUS_REF_LOST).fld Fld.HUB_FT_STATUS_REF_LOST = 1 := u.fld_setFld_same _ _ _ (by decide)
  rw [State.sourceLost_of_locked hlocked]
  refine ⟨?_, ?_, ?_, ?_, ?_⟩
  · rw [mirror_tbState, enterTb_holdover, tbState_setFld (by decide)]
  · rw [flag, mirror_fld_time (.inl rfl), enterTb_fld (by decide), hraised]; rfl
  · simp [enterTb_holdover, State.ft]
  · simp [enterTb_holdover, State.ft]
  · rw [enterTb_holdover]
    exact (((MemSame.time ..).trans (MemSame.raise ..)).trans ((MemSame.time ..).trans (MemSame.setFld ..))).mirror_kept

/-- Settles O1: each operation is read off in the state of the time base in which the spec lets it act, and the mirrors of the answer leave
HUB_FT_STATUS and HUB_FT_CTL alone. -/
theorem timeBaseEventsMoveTheState : Obligations.TimeBaseEventsMoveTheState := by
  unfold Obligations.TimeBaseEventsMoveTheState
  refine ⟨?armed, ?missed, ?edgeLoss, ?syncLoss, ?holdover, ?exceeded, ?locks, ?returns, ?slewed, exec_epochPulse, exec_ref10mEdgeLoss,
    exec_ptpSyncLoss, exec_holdoverTimeout, exec_phaseErrorExceeded, exec_lockAchieved, exec_sourceReturn, exec_slewConverged⟩
  case armed =>
    intro s ps harm hsource hruns
    have hload : s.fld Fld.HUB_FT_LOAD_VALUE % 2 ^ 64 = s.fld Fld.HUB_FT_LOAD_VALUE := Nat.mod_eq_of_lt (Regs.fld_lt s.regs _ 0)
    rw [exec_epochPulse, State.epochPulse_of_armed harm hsource hruns]
    refine ⟨_, rfl, ?_, ?_, ?_, ?_, ?_, ?_⟩
    · simpa using hload
    · rw [State.mirror_tbState, State.tbState_setFld_apart _ (by decide), State.setTime_tbState]
    · rw [State.flag, State.mirror_fld_time (.inr rfl), State.fld_setFld_same _ _ _ _ (by decide)]; rfl
    · rw [State.flag, State.mirror_fld_time (.inl rfl), State.fld_setFld_once_apart _ (by decide)]
      exact State.setTime_stepped
    · simp [State.setTime_phase]
    · exact (((MemSame.time ..).trans (MemSame.setTime ..)).trans (MemSame.setFld ..)).mirror_kept
  case missed =>
    intro s ps l harm hsource hloaded hafter hbefore
    rw [exec_epochPulse, State.epochPulse_of_missed harm hsource hloaded hafter hbefore]
  case edgeLoss =>
    intro s hsource hlocked
    rw [exec_ref10mEdgeLoss, if_pos hsource]
    exact ⟨_, rfl, State.sourceLost_holdover hlocked⟩
  case syncLoss =>
    intro s hsource hlocked
    rw [exec_ptpSyncLoss, if_pos hsource]
    exact ⟨_, rfl, State.sourceLost_holdover hlocked⟩
  case holdover =>
    intro s hstate hsince hruns
    rw [exec_holdoverTimeout, State.holdoverTimeout_of_partRuns hstate hsince hruns]
    refine ⟨_, rfl, ?_, ?_, ?_⟩
    · rw [State.mirror_tbState, State.tbState_setFld (by decide)]
    · simp
    · exact (MemSame.setFld ..).mirror_kept
  case exceeded =>
    intro s ps hp hstate hruns
    rw [exec_phaseErrorExceeded, State.measure_of_above (by omega) hstate hruns]
    refine ⟨_, rfl, ?_, ?_, ?_, ?_⟩
    · rw [State.mirror_tbState, State.tbState_setFld (by decide)]
    · simp
    · simp [State.ft]
    · exact ((MemSame.heard ..).trans (MemSame.setFld ..)).mirror_kept
  case locks =>
    intro s hstate hgood
    rw [exec_lockAchieved, State.lockAchieved_of_good hstate hgood]
  case returns =>
    intro s ps hstate hp
    rw [exec_sourceReturn, State.sourceReturn_of_holdover hstate hp]
    refine ⟨_, rfl, ?_, ?_, ?_, ?_, ?_⟩
    · rw [State.mirror_tbState, State.tbState_setFld (by decide)]
    · simp
    · simp
    · simp [State.ft]
    · exact ((MemSame.heard ..).trans (MemSame.setFld ..)).mirror_kept
  case slewed =>
    intro s ps hstate hruns hsource hpresent hp
    rw [exec_slewConverged, State.slewConverged_of_within hstate hruns hsource hpresent hp]
    refine ⟨_, rfl, ?_, ?_, ?_, ?_⟩
    · rw [State.mirror_tbState, State.enterTb_acquiring, State.tbState_setFld (by decide)]
    · rw [State.mirror_fld_time (.inl rfl), State.enterTb_fld (by decide), State.fld_setFld_same _ _ _ _ (by decide)]
      exact Nat.mod_eq_of_lt (Regs.fld_lt s.regs _ 0)
    · simp [State.enterTb_acquiring, State.ft]
    · exact (((MemSame.setPhase ..).trans (MemSame.setFld ..)).trans (MemSame.enterTb_acquiring _)).mirror_kept

/-! ## Words stored in HUB_FT_CTL (R14) -/

theorem Field.store_lt {f : Field} {old : Nat} (w mask : Nat) (hold : old < 2 ^ 64) (hf : f.lo + f.width ≤ 64) :
    f.store old w mask < 2 ^ 64 := putBits_lt hold hf

theorem Field.getBits_store_apart {f : Field} {lo n : Nat} (old w mask : Nat) (h : f.lo + f.width ≤ lo ∨ lo + n ≤ f.lo) :
    getBits (f.store old w mask) lo n = getBits old lo n := getBits_putBits_other _ _ _ _ _ _ h

/-- A write of the whole word stores what it writes in an RW field. -/
theorem Field.getBits_store_rw {f : Field} (old w : Nat) (hacc : f.acc = .rw) (hf : f.lo + f.width ≤ 64) :
    getBits (f.store old w (2 ^ 64 - 1)) f.lo f.width = getBits w f.lo f.width := by
  have hones : getBits (2 ^ 64 - 1) f.lo f.width = 2 ^ f.width - 1 := by
    apply Nat.eq_of_testBit_eq
    intro k
    rw [testBit_getBits, Nat.testBit_two_pow_sub_one, Nat.testBit_two_pow_sub_one, ← Bool.decide_and]
    exact decide_eq_decide.mpr (by omega)
  simp only [Field.store, hacc, hones, getBits_putBits_same, Nat.and_two_pow_sub_one_eq_mod, Nat.sub_self, Nat.and_zero, Nat.or_zero,
    Nat.mod_mod]
  simp [getBits]

section FtCtl

variable {s : State} {w : Nat}

theorem State.stored_ftCtl_source (s : State) (w : Nat) : getBits (s.stored .HUB_FT_CTL 0 w (2 ^ 64 - 1)) 4 2 = getBits w 4 2 := by
  have hport := Field.store_lt (f := Fld.HUB_FT_CTL_PORT) w (2 ^ 64 - 1) (s.reg .HUB_FT_CTL 0).isLt (by decide)
  have hsource := Field.store_lt (f := Fld.HUB_FT_CTL_SOURCE) w (2 ^ 64 - 1) hport (by decide)
  have heth := Field.store_lt (f := Fld.HUB_FT_CTL_ETH_PORT) w (2 ^ 64 - 1) hsource (by decide)
  have harm := Field.store_lt (f := Fld.HUB_FT_CTL_ARM_EPOCH) w (2 ^ 64 - 1) heth (by decide)
  simp only [stored, storePlain, reg_setReg_same, Reg.fields, List.foldl, BitVec.toNat_ofNat, Nat.mod_eq_of_lt harm]
  rw [Field.getBits_store_apart _ _ _ (by decide), Field.getBits_store_apart _ _ _ (by decide)]
  exact Field.getBits_store_rw _ _ rfl (by decide)

/-- The word on which a write of the whole of HUB_FT_CTL acts: RW fields as stored, ARM_EPOCH as written. -/
def State.ftCtlValue (s : State) (w : Nat) : Nat := s.stored .HUB_FT_CTL 0 w (2 ^ 64 - 1) / 4 * 4 + (w &&& (2 ^ 64 - 1)) / 2 % 2 * 2

theorem State.writeFtCtlWord_eq (s : State) (w : Nat) : s.writeFtCtlWord w (2 ^ 64 - 1) = s.writeFtCtl (s.ftCtlValue w) := rfl

theorem State.ftCtlValue_source (s : State) (w : Nat) : getBits (s.ftCtlValue w) 4 2 = getBits w 4 2 := by
  rw [← s.stored_ftCtl_source w, ftCtlValue, getBits, getBits]
  omega

theorem State.ftCtlValue_arm (s : State) (w : Nat) : bit (s.ftCtlValue (w ||| 2)) 1 = true := by
  have hset : ((w ||| 2) &&& (2 ^ 64 - 1)) / 2 % 2 = 1 := by
    have hbit : ((w ||| 2) &&& (2 ^ 64 - 1)).testBit 1 = true := by
      rw [Nat.testBit_and, Nat.testBit_or, show Nat.testBit 2 1 = true from rfl, Bool.or_true]
      rfl
    simpa [Nat.testBit_eq_decide_div_mod_eq] using hbit
  rw [bit, Nat.testBit_eq_decide_div_mod_eq, ftCtlValue, hset]
  exact decide_eq_true (by omega)

/-! ## Writes of HUB_FT_CTL (R84, R85) -/

/-- R85: refused as a whole. -/
theorem State.writeFtCtl_of_partRuns (hruns : s.anyPartRuns = true) (harm : bit w 1 = true) : s.writeFtCtl w = s := by
  rw [writeFtCtl, if_pos ⟨hruns, .inl harm⟩]

/-- HUB_FT_CTL as a write that is not refused leaves it. -/
def State.storeFtCtl (s : State) (w : Nat) : State :=
  let s := ((s.setFld Fld.HUB_FT_CTL_PORT 0 (getBits w 8 4)).setFld Fld.HUB_FT_CTL_SOURCE 0 (getBits w 4 2)).setFld
    Fld.HUB_FT_CTL_ETH_PORT 0 (getBits w 3 1)
  if bit w 1 then s.raise Fld.HUB_FT_CTL_ARM_EPOCH else s

/-- The hub turns to another source: nothing has been heard of it. -/
def State.turnToSource (s : State) (source : Nat) : State :=
  (({ s with time := { s.time with present := false, loaded := none, ptp := Ptp.init } } : State).setFld Fld.HUB_FT_STATUS_SOURCE_IN_USE 0
    source).setFld Fld.HUB_FT_STATUS_STATE 0 tbUnlocked

theorem State.writeFtCtl_of_not_partRuns (hruns : s.anyPartRuns = false) :
    s.writeFtCtl w = if s.ftCtlChanges w then (s.storeFtCtl w).turnToSource (getBits w 4 2) else s.storeFtCtl w := by
  have hunlock (t : State) : (({ t with time := { t.time with present := false, loaded := none, ptp := Ptp.init } } : State).setFld
      Fld.HUB_FT_STATUS_SOURCE_IN_USE 0 (getBits w 4 2)).unlock = t.turnToSource (getBits w 4 2) := unlock_of_kept (.inr rfl)
  rw [writeFtCtl, if_neg (by simp [hruns]), ← hunlock]
  rfl

theorem State.storeFtCtl_arm (harm : bit w 1 = true) : (s.storeFtCtl w).flag Fld.HUB_FT_CTL_ARM_EPOCH = true := by
  rw [storeFtCtl, if_pos harm, flag, raise, fld_setFld_same _ _ _ _ (by decide)]
  rfl

theorem State.storeFtCtl_source : (s.storeFtCtl w).fld Fld.HUB_FT_CTL_SOURCE = getBits w 4 2 := by
  have hstored (u : State) : ((u.setFld Fld.HUB_FT_CTL_SOURCE 0 (getBits w 4 2)).setFld Fld.HUB_FT_CTL_ETH_PORT 0 (getBits w 3 1)).fld
      Fld.HUB_FT_CTL_SOURCE = getBits w 4 2 := by
    rw [fld_setFld_once_apart _ (by decide), fld_setFld_same _ _ _ _ (by decide)]
    exact Nat.mod_mod _ _
  unfold storeFtCtl
  dsimp only
  split
  · rw [raise, fld_setFld_once_apart _ (by decide), hstored]
  · exact hstored _

theorem MemSame.storeFtCtl (s : State) (w : Nat) : MemSame s (s.storeFtCtl w) := by
  unfold State.storeFtCtl
  dsimp only
  split
  · exact (((MemSame.setFld ..).trans (MemSame.setFld ..)).trans (MemSame.setFld ..)).trans (MemSame.raise ..)
  · exact ((MemSame.setFld ..).trans (MemSame.setFld ..)).trans (MemSame.setFld ..)

theorem State.turnToSource_tbState (n : Nat) : (s.turnToSource n).tbState = tbUnlocked := tbState_setFld (by decide)

theorem State.turnToSource_inUse (n : Nat) : (s.turnToSource n).fld Fld.HUB_FT_STATUS_SOURCE_IN_USE = n % 4 := by
  rw [turnToSource, fld_setFld_once_apart _ (by decide), fld_setFld_same _ _ _ _ (by decide)]
  rfl

theorem State.turnToSource_fld_ftCtl {g : Field} (n : Nat) (hg : g.reg = .HUB_FT_CTL) : (s.turnToSource n).fld g = s.fld g := by
  have happart {f : Field} (hf : f.reg = .HUB_FT_STATUS) : f.Apart g := .inl (by simp [hf, hg])
  rw [turnToSource, fld_setFld_once_apart _ ⟨happart rfl, by decide⟩, fld_setFld_once_apart _ ⟨happart rfl, by decide⟩]
  rfl

theorem MemSame.turnToSource (s : State) (n : Nat) : MemSame s (s.turnToSource n) := ⟨rfl, rfl, rfl⟩

theorem State.writeFtCtl_arms (hruns : s.anyPartRuns = false) (harm : bit w 1 = true) :
    (s.writeFtCtl w).flag Fld.HUB_FT_CTL_ARM_EPOCH = true ∧ MemSame s (s.writeFtCtl w) := by
  rw [writeFtCtl_of_not_partRuns hruns]
  split
  · refine ⟨?_, (MemSame.storeFtCtl s w).trans (MemSame.turnToSource _ _)⟩
    rw [flag, turnToSource_fld_ftCtl _ rfl]
    exact storeFtCtl_arm harm
  · exact ⟨storeFtCtl_arm harm, MemSame.storeFtCtl s w⟩

/-- R84: a change of the source. -/
theorem State.writeFtCtl_of_newSource (hruns : s.anyPartRuns = false) (hnew : getBits w 4 2 ≠ s.fld Fld.HUB_FT_CTL_SOURCE) :
    s.writeFtCtl w = (s.storeFtCtl w).turnToSource (getBits w 4 2) := by
  have hchanges : s.ftCtlChanges w = true := by simp [ftCtlChanges, Ne.symm hnew]
  rw [writeFtCtl_of_not_partRuns hruns, if_pos hchanges]

end FtCtl

/-! ## PTP messages (R82) -/

section Ptp

variable {s : State} {port sub : Nat}

/-- R82: a Sync is measured with the path delay held; that a Delay_Req follows each is the model's choice (log 63). -/
theorem State.ptpMessage_sync {ns : Nat} {d : Int} (hsource : s.fld Fld.HUB_FT_CTL_SOURCE = 2) (hport : s.fld Fld.HUB_FT_CTL_ETH_PORT = port)
    (hdelay : s.time.ptp.delay = some d) :
    s.ptpMessage port sub (.sync ns) = ((s.setPtp { s.time.ptp with
        waiting := none, last := some ((ns : Int) * 1000, s.ptpStamp sub), asked := some (s.time.ptp.seq, s.ptpStamp 0),
        seq := (s.time.ptp.seq + 1) % 2 ^ 16 }).emit (.ptpDelayReq port s.time.ptp.seq)).sourceReturn
      (s.ptpStamp sub - (ns : Int) * 1000 - d) := by
  rw [ptpMessage, if_pos ⟨hsource, hport⟩]
  simp only [ptpSync, hdelay]

theorem State.ptpMessage_syncTwoStep {q : Nat} (hsource : s.fld Fld.HUB_FT_CTL_SOURCE = 2) (hport : s.fld Fld.HUB_FT_CTL_ETH_PORT = port) :
    s.ptpMessage port sub (.syncTwoStep q) = s.setPtp { s.time.ptp with waiting := some (q, s.ptpStamp sub) } := by
  rw [ptpMessage, if_pos ⟨hsource, hport⟩]

/-- The path delay is half the sum of the two ways, by the model's choice (log 63). -/
theorem State.ptpMessage_delayResp {q t : Nat} {t1 t2 t3 : Int} (hsource : s.fld Fld.HUB_FT_CTL_SOURCE = 2)
    (hport : s.fld Fld.HUB_FT_CTL_ETH_PORT = port) (hasked : s.time.ptp.asked = some (q, t3)) (hlast : s.time.ptp.last = some (t1, t2)) :
    s.ptpMessage port sub (.delayResp q t) =
      s.setPtp { s.time.ptp with asked := none, delay := some (((t2 - t1) + ((t : Int) * 1000 - t3)) / 2) } := by
  rw [ptpMessage, if_pos ⟨hsource, hport⟩]
  simp only [ptpDelay, hasked, hlast, if_true]

end Ptp

theorem exec_armEpoch (s : State) (rq : Requester) (w : Nat) :
    exec (.armEpoch rq w) s =
      .next (s.gated rq .HUB_FT_CTL 0 (fun s => s.writeFtCtlWord (w ||| 2) (2 ^ 64 - 1))).mirror := rfl

theorem exec_ftSourceWrite (s : State) (rq : Requester) (w : Nat) :
    exec (.ftSourceWrite rq w) s = .next (s.gated rq .HUB_FT_CTL 0 (fun s => s.writeFtCtlWord w (2 ^ 64 - 1))).mirror := rfl

theorem exec_ptpMessage (s : State) (port sub : Nat) (m : PtpMsg) :
    exec (.ptpMessage port sub m) s = .next (s.ptpMessage port sub m).mirror := rfl

/-- Settles O2: an accepted write of HUB_FT_CTL acts on the word it leaves, in the cases of R84 and R85, and a PTP message in the case of its
kind. That a Delay_Req follows each Sync, and how the path delay comes of it, is the model's choice (log 63). -/
theorem timeSourceWrites : Obligations.TimeSourceWrites := by
  unfold Obligations.TimeSourceWrites
  refine ⟨?refused, ?arms, ?newSource, ?sync, ?twoStep, ?delayResp, exec_armEpoch, exec_ftSourceWrite, exec_ptpMessage⟩
  case refused =>
    intro s rq w hwrite hruns
    rw [exec_armEpoch, State.gated_accepted _ hwrite, State.writeFtCtlWord_eq,
      State.writeFtCtl_of_partRuns hruns (s.ftCtlValue_arm w)]
  case arms =>
    intro s rq w hwrite hruns
    obtain ⟨harmed, hmem⟩ := State.writeFtCtl_arms hruns (s.ftCtlValue_arm w)
    rw [exec_armEpoch, State.gated_accepted _ hwrite, State.writeFtCtlWord_eq]
    refine ⟨_, rfl, ?_, hmem.mirror_kept⟩
    rw [State.flag, State.mirror_fld_time (.inr rfl)]
    exact harmed
  case newSource =>
    intro s rq w hwrite hruns hnew _
    have hsource := s.ftCtlValue_source w
    rw [exec_ftSourceWrite, State.gated_accepted _ hwrite, State.writeFtCtlWord_eq,
      State.writeFtCtl_of_newSource hruns (by rwa [hsource])]
    refine ⟨_, rfl, ?_, ?_, ?_, ((MemSame.storeFtCtl s _).trans (MemSame.turnToSource _ _)).mirror_kept⟩
    · rw [State.mirror_tbState, State.turnToSource_tbState]
    · rw [State.mirror_fld_time (.inr rfl), State.turnToSource_fld_ftCtl _ rfl, State.storeFtCtl_source, hsource]
    · rw [State.mirror_fld_time (.inl rfl), State.turnToSource_inUse, hsource]
      exact Nat.mod_mod _ _
  case sync =>
    intro s port sub ns d hsource hport hdelay
    rw [exec_ptpMessage, State.ptpMessage_sync hsource hport hdelay]
  case twoStep =>
    intro s port sub q hsource hport
    rw [exec_ptpMessage, State.ptpMessage_syncTwoStep hsource hport]
  case delayResp =>
    intro s port sub q t t1 t2 t3 hsource hport hasked hlast
    rw [exec_ptpMessage, State.ptpMessage_delayResp hsource hport hasked hlast]

end Sys2Proof.Machine

/-! PROOF. Slips, returned credits and audits (R96, R102, R106, R107, R358): what each of their operations does in each of its cases, and
the statement about their commands. -/

namespace Sys2Proof.Machine

section SlipsCreditsAudits

variable {s : State} {c : Nat} {ce : CircEntry} {e : SlotEntry}

/-! ## The limit of a run of slips (R102) -/

/-- The run of slips of a circuit ends, and HUB_SLIP_MAX of its partition records that it has come to the limit. -/
def State.recordLimit (s : State) (c part : Nat) : State :=
  let s := s.setCirc c { s.circ c with run := 0 }
  if part < 16 then (s.raise Fld.HUB_SLIP_MAX_LIMIT_HIT part).setFld Fld.HUB_SLIP_MAX_CIRCUIT part c else s

theorem State.recordLimit_lastSlot (s : State) (c part : Nat) : (s.recordLimit c part).lastSlot c = s.lastSlot c := by
  have himg : (s.recordLimit c part).img = s.img := by
    unfold recordLimit
    dsimp only
    split <;> simp
  rw [lastSlot, lastSlot, tables, tables, himg]

/-- R102: a run that has come to the limit; that each of several pending commands ends is the model's choice (log 72). -/
theorem State.slipLimit_of_reached (hcirc : s.circEntry c = some ce) (hlimit : ce.slipLimit ≠ 0) (hrun : ce.slipLimit ≤ (s.circ c).run)
    (hpend : (s.circ c).pend.isEmpty = false) (hlast : s.lastSlot c = some e) :
    s.slipLimit c = (s.circ c).pend.foldl (fun u r => u.failCmd r stSlipLimit)
      (if e.kind = 1 then (s.recordLimit c ce.part).event ⟨(s.recordLimit c ce.part).ft, 0x800E, 2, e.res,
        (s.circ c).pend.head?.map (·.ctx), 0xFFFF, 0xFFFF, ((s.circ c).pend.head?.map (·.seq)).getD 0, c⟩ else s.recordLimit c ce.part) := by
  have hreached : ¬ (ce.slipLimit = 0 ∨ (s.circ c).run < ce.slipLimit ∨ (s.circ c).pend.isEmpty = true) := by
    simp [hlimit, hpend]; omega
  have hslot := (s.recordLimit_lastSlot c ce.part).trans hlast
  unfold recordLimit at hslot ⊢
  simp only [slipLimit, hcirc, if_neg hreached, hslot]

theorem State.slipLimit_of_not_reached (hcirc : s.circEntry c = some ce)
    (hbelow : ce.slipLimit = 0 ∨ (s.circ c).run < ce.slipLimit ∨ (s.circ c).pend.isEmpty = true) : s.slipLimit c = s := by
  simp only [slipLimit, hcirc, if_pos hbelow]

/-! ## Credits that return (R96, R97, R358) -/

theorem State.creditReturn_of_local (hcirc : s.circEntry c = some ce) (hsrc : ce.src / 4096 ≠ 5) (hreturning : (s.circ c).returning ≠ 0) :
    s.creditReturn c = s.setCirc c ({ s.circ c with returning := (s.circ c).returning - 1 }.addCredits s.ft 1) := by
  simp only [creditReturn, hcirc, if_neg hsrc, if_neg hreturning]

/-- R358: from a fabric circuit's consumer segment the credit leaves as CIRCUIT_CREDIT. -/
theorem State.creditReturn_of_consumer (hcirc : s.circEntry c = some ce) (hsrc : ce.src / 4096 = 5) (hdst : ce.dst / 4096 ≠ 5)
    (hreturning : 0 < (s.circ c).returning) :
    s.creditReturn c = (s.setCirc c { s.circ c with
      returning := (s.circ c).returning - 1, notes := (s.circ c).notes.drop 1 }).pushMsg (ce.src % 4096)
        ⟨4, 1, c, (s.circ c).notes.head?.getD (0, 0)⟩ := by
  simp only [creditReturn, hcirc, if_pos hsrc, if_neg hdst, if_pos hreturning]

/-- A slot of the queue that the consumer segment fills has become free. -/
theorem State.creditReturn_of_freed (hcirc : s.circEntry c = some ce) (hsrc : ce.src / 4096 = 5) (hdst : ce.dst / 4096 = 1)
    (hreturning : (s.circ c).returning = 0) (hfreed : s.occupied c < (s.circ c).held) :
    s.creditReturn c = (s.setCirc c { s.circ c with held := (s.circ c).held - 1 }).pushMsg (ce.src % 4096) ⟨4, 1, c, (0, 0)⟩ := by
  have hconsumer : ¬ ce.dst / 4096 = 5 := by omega
  simp only [creditReturn, hcirc, if_pos hsrc, if_neg hconsumer, hreturning, Nat.lt_irrefl, if_false, if_pos (And.intro hdst hfreed)]

theorem State.creditReturn_of_none (hreturning : (s.circ c).returning = 0) (hheld : (s.circ c).held ≤ s.occupied c) :
    s.creditReturn c = s := by
  have hoccupied (P : Prop) : ¬ (P ∧ s.occupied c < (s.circ c).held) := by omega
  unfold creditReturn
  dsimp only
  split
  · rfl
  · simp only [hreturning, Nat.lt_irrefl, if_false, if_true, if_neg (hoccupied _), ite_self]

/-! ## Audit snapshots (R106, R107) -/

theorem State.auditLatch_of_multiple (hbeat : s.ft % 64 = 0) :
    s.auditLatch = (((bitsOf 16 (s.fld Fld.HUB_AUDIT_SNAP_SNAP)).filter (fun p => (partOf s.tables p).isSome)).foldl State.auditLatch1
      s).setFld Fld.HUB_AUDIT_SNAP_SNAP 0 0 := if_neg (not_not_intro hbeat)

theorem State.auditLatch_of_not_multiple (hbeat : s.ft % 64 ≠ 0) : s.auditLatch = s := if_pos hbeat

end SlipsCreditsAudits

theorem exec_slipLimitReached (s : State) (c : Nat) : exec (.slipLimitReached c) s = .next (s.slipLimit c).mirror := rfl

theorem exec_creditReturn (s : State) (c : Nat) : exec (.creditReturn c) s = .next (s.creditReturn c).mirror := rfl

theorem exec_auditSnap (s : State) (rq : Requester) (w : Nat) :
    exec (.auditSnap rq w) s = .next (s.gated rq .HUB_AUDIT_SNAP 0 (fun s => s.auditRequest w)).mirror := rfl

theorem exec_auditLatch (s : State) : exec .auditLatch s = .next s.auditLatch.mirror := rfl

/-- Settles O4: each command's operation in the case of its circuit, or of its beat. That each of several pending commands ends at the
limit is the model's choice (log 72). -/
theorem slipsCreditsAudits : Obligations.SlipsCreditsAudits := by
  unfold Obligations.SlipsCreditsAudits
  refine ⟨?limit, ?noLimit, ?creditLocal, ?creditConsumer, ?creditFreed, ?noCredit, ?snap, ?latch, ?noLatch, exec_slipLimitReached,
    exec_creditReturn, exec_auditSnap, exec_auditLatch⟩
  case limit =>
    intro s u c ce e hcirc hlimit hrun hpend hlast hrecord
    have hu : s.recordLimit c ce.part = u := hrecord
    rw [exec_slipLimitReached, State.slipLimit_of_reached hcirc hlimit hrun hpend hlast, hu]
  case noLimit =>
    intro s c ce hcirc hbelow
    rw [exec_slipLimitReached, State.slipLimit_of_not_reached hcirc hbelow]
  case creditLocal =>
    intro s c ce hcirc hsrc hreturning
    rw [exec_creditReturn, State.creditReturn_of_local hcirc hsrc hreturning]
  case creditConsumer =>
    intro s c ce hcirc hsrc hdst hreturning
    rw [exec_creditReturn, State.creditReturn_of_consumer hcirc hsrc hdst hreturning]
  case creditFreed =>
    intro s c ce hcirc hsrc hdst hreturning hfreed
    rw [exec_creditReturn, State.creditReturn_of_freed hcirc hsrc hdst hreturning hfreed]
  case noCredit =>
    intro s c hreturning hheld
    rw [exec_creditReturn, State.creditReturn_of_none hreturning hheld]
  case snap =>
    intro s rq w hwrite
    rw [exec_auditSnap, State.gated_accepted _ hwrite, State.auditRequest]
  case latch =>
    intro s hbeat
    rw [exec_auditLatch, State.auditLatch_of_multiple hbeat]
  case noLatch =>
    intro s hbeat
    rw [exec_auditLatch, State.auditLatch_of_not_multiple hbeat]

end Sys2Proof.Machine

/-! PROOF. Memory-side adders, endpoint accesses and save slots (R101, R163, R185, R233, R247 to R251): what each of their operations does
in each of its cases, and the statement about their commands. -/

namespace Sys2Proof.Machine

section Adders

variable {s u w v : State} {c ep fl st : Nat} {t : Contribution} {ce : CircEntry}

/-! ## Contributions (R101, R250, R251) -/

/-- A token that has crossed the LAST slot of a circuit of this module enters the adder's reorder buffer. -/
theorem State.contribArrive_of_crossed {n : Nat} {x : Nat × Token} (hhops : (s.hops c).length = n) (hn : n ≠ 0)
    (hcirc : s.circEntry c = some ce) (hcrossed : (s.circ c).flight.find? (fun t => t.1 == n) = some x) (hreduce : ce.reduce = true)
    (hsrc : ce.src / 4096 ≠ 5) :
    s.contribArrive c = ({ s with contribs := s.contribs ++ [(⟨c, x.2⟩ : Contribution)] }).setCirc c
      { s.circ c with flight := (s.circ c).flight.erase x, held := (s.circ c).held + 1 } := by
  have hadds : ¬ ((!ce.reduce) = true ∨ n = 0) := by simp [hreduce, hn]
  simp only [contribArrive, hhops, hcirc, hcrossed, if_neg hadds, if_neg hsrc]

/-- The requester of a contribution's accesses: the port that it came in at, or the mover of the core at its circuit's end. -/
def State.contribRq (s : State) (ce : CircEntry) : Requester :=
  if ce.src / 4096 == 5 then ⟨.remote, ce.src % 4096, ce.part⟩ else s.moverRq (circCore ce)

/-- The adder's flag register of a channel takes what an addition met (R247). -/
def State.addFlags (s : State) (ep fl : Nat) : State :=
  s.setReg .MEM_ADD_FLAGS (epChannel ep) (s.reg .MEM_ADD_FLAGS (epChannel ep) ||| BitVec.ofNat 64 fl)

/-- R101: the contribution that is first in schedule order, which waits for none, is applied; whether one from another module is still to
come is the model's choice (log 74). -/
theorem State.contribApply_of_applied (hfirst : s.firstContrib ep = some t) (hwait : s.mustWait ep (s.contribPos t) = (u, false))
    (hcirc : s.circEntry t.circ = some ce) (hbusy : u.contribBusy t.tok = false)
    (hleft : ({ u with contribs := u.contribs.erase t } : State) = w) (hfence : w.epFenced ep = false)
    (hadd : w.addPieces (w.contribRq ce) t.tok t.tok.pieces t.tok.data = (v, st, fl)) :
    s.contribApply ep =
      if ce.src / 4096 == 5 then (v.retireContrib t st fl).addFlags ep fl
      else
        let x := ((v.retireContrib t st fl).addFlags ep fl).updCmd t.tok.cmd (fun m => { m with flags := m.flags ||| fl })
        if st = stOk then x
        else x.accessFault (t.tok.site (circCore ce) 3 0) ((t.tok.pieces.head?.map (·.1)).getD 0) st := by
  subst hleft
  unfold contribRq at hadd
  simp only [contribApply, hfirst, hwait, hcirc, hbusy, hfence, hadd, addFlags]
  rfl

/-- Applied without error, for a command of this module, whose summary takes the flags. -/
theorem State.contribApply_of_own (hfirst : s.firstContrib ep = some t) (hwait : s.mustWait ep (s.contribPos t) = (u, false))
    (hcirc : s.circEntry t.circ = some ce) (hbusy : u.contribBusy t.tok = false) (hsrc : ce.src / 4096 ≠ 5)
    (hleft : ({ u with contribs := u.contribs.erase t } : State) = w) (hfence : w.epFenced ep = false)
    (hadd : w.addPieces (w.moverRq (circCore ce)) t.tok t.tok.pieces t.tok.data = (v, stOk, fl)) :
    s.contribApply ep = ((v.retireContrib t stOk fl).addFlags ep fl).updCmd t.tok.cmd (fun m => { m with flags := m.flags ||| fl }) := by
  have hown : ¬ (ce.src / 4096 == 5) = true := by simpa using hsrc
  have hrq : w.contribRq ce = w.moverRq (circCore ce) := if_neg hown
  rw [← hrq] at hadd
  rw [contribApply_of_applied hfirst hwait hcirc hbusy hleft hfence hadd, if_neg hown]
  exact if_pos rfl

/-- Applied for another module, whose credit carries the status and the flags. -/
theorem State.contribApply_of_foreign (hfirst : s.firstContrib ep = some t) (hwait : s.mustWait ep (s.contribPos t) = (u, false))
    (hcirc : s.circEntry t.circ = some ce) (hbusy : u.contribBusy t.tok = false) (hsrc : ce.src / 4096 = 5)
    (hleft : ({ u with contribs := u.contribs.erase t } : State) = w) (hfence : w.epFenced ep = false)
    (hadd : w.addPieces ⟨.remote, ce.src % 4096, ce.part⟩ t.tok t.tok.pieces t.tok.data = (v, st, fl)) :
    s.contribApply ep = (v.retireContrib t st fl).addFlags ep fl := by
  have hforeign : (ce.src / 4096 == 5) = true := by simpa using hsrc
  have hrq : w.contribRq ce = ⟨.remote, ce.src % 4096, ce.part⟩ := if_pos hforeign
  rw [← hrq] at hadd
  rw [contribApply_of_applied hfirst hwait hcirc hbusy hleft hfence hadd, if_pos hforeign]

end Adders

/-! ## Endpoints (R163, R233) -/

section Endpoints

variable {s u : State} {rq : Requester} {a k o n st : Nat}

theorem State.sramAccess_of_sram {op : MemOp} (hplace : locate a = .sram k o) :
    s.sramAccess rq a op = (s.endpointAccess rq a op).countCore k 0x14 0 1 := by
  simp only [sramAccess, hplace]

theorem State.scratchAccess_of_llm {op : MemOp} (hplace : locate a = .llm k o) : s.scratchAccess rq a op = s.endpointAccess rq a op := by
  simp only [scratchAccess, hplace]

theorem State.endpointAccess_read {b : List Byte} (hread : s.readLocal rq a n = (u, st, b)) :
    s.endpointAccess rq a (.read n) = u.emit (.endpointAnswer rq.unit a st b) := by
  simp only [endpointAccess, hread]

theorem State.endpointAccess_write {d : List Byte} (hwrite : s.writeLocal rq none a d = (u, st)) :
    s.endpointAccess rq a (.write d) = u.emit (.endpointAnswer rq.unit a st []) := by
  simp only [endpointAccess, hwrite]

theorem State.endpointAccess_atomic {p x c v : Nat} (hatomic : s.atomicLocal rq a n p x c = (u, st, v)) :
    s.endpointAccess rq a (.atomic p n x c) = u.emit (.endpointAnswer rq.unit a st (leBytes n v)) := by
  simp only [endpointAccess, hatomic]

end Endpoints

/-! ## Save slots (R185, R186) -/

theorem State.writeSaveCfg_of_free {s : State} {k v : Nat}
    (hfree : ((List.range 4).any (fun g => (List.range 4).any (fun n => (s.slotHolder (4 * k + g) n).isSome))) = false) (hslots : v % 8 ≤ 4)
    (hqueues : (s.coreQueues k).any (fun x => meetsSave (v % 8) x.2.base x.2.bytes) = false) :
    s.writeSaveCfg k v = s.setFld Fld.CO_SAVE_CFG_SLOTS k v := by
  have htakes : ¬ (((List.range 4).any (fun g => (List.range 4).any (fun n => (s.slotHolder (4 * k + g) n).isSome))) = true ∨ v % 8 > 4 ∨
      (s.coreQueues k).any (fun x => meetsSave (v % 8) x.2.base x.2.bytes) = true) := by
    rw [hfree, hqueues]; simp [hslots]
  exact if_neg htakes

theorem exec_contributionArrive (s : State) (c : Nat) : exec (.contributionArrive c) s = .next (s.contribArrive c).mirror := rfl

theorem exec_contributionApply (s : State) (ep : Nat) : exec (.contributionApply ep) s = .next (s.contribApply ep).mirror := rfl

theorem exec_sramEndpointAccess (s : State) (rq : Requester) (a : Nat) (op : MemOp) :
    exec (.sramEndpointAccess rq a op) s = .next (s.sramAccess rq a op).mirror := rfl

theorem exec_llmScratchAccess (s : State) (rq : Requester) (a : Nat) (op : MemOp) :
    exec (.llmScratchAccess rq a op) s = .next (s.scratchAccess rq a op).mirror := rfl

theorem exec_saveCfgWrite (s : State) (rq : Requester) (k v : Nat) :
    exec (.saveCfgWrite rq k v) s = .next (if k < 128 then s.gated rq .CO_SAVE_CFG k (fun s => s.writeSaveCfg k v) else s).mirror := rfl

/-- Settles O17: a contribution in the case of its origin, an endpoint access in the case of its operation, and an accepted write of
CO_SAVE_CFG that its checks let through. Whether another module's contribution is still to come is the model's choice (log 74). -/
theorem contributionsAndEndpoints : Obligations.ContributionsAndEndpoints := by
  unfold Obligations.ContributionsAndEndpoints
  refine ⟨?arrive, ?applyOwn, ?applyForeign, ?sramRead, ?sramWrite, ?sramAtomic, ?llmAtomic, ?llmRead, ?llmWrite, ?saveCfg,
    exec_contributionArrive, exec_contributionApply, exec_sramEndpointAccess, exec_llmScratchAccess, exec_saveCfgWrite⟩
  case arrive =>
    intro s c n ce x hhops hn hcirc hcrossed hreduce hsrc
    rw [exec_contributionArrive, State.contribArrive_of_crossed hhops hn hcirc hcrossed hreduce hsrc]
  case applyOwn =>
    intro s u w v ep fl t ce hfirst hwait hcirc hbusy hsrc hleft hfence hadd
    rw [exec_contributionApply, State.contribApply_of_own hfirst hwait hcirc hbusy hsrc hleft hfence hadd, State.addFlags]
  case applyForeign =>
    intro s u w v ep fl t ce st hfirst hwait hcirc hbusy hsrc hleft hfence hadd
    rw [exec_contributionApply, State.contribApply_of_foreign hfirst hwait hcirc hbusy hsrc hleft hfence hadd, State.addFlags]
  case sramRead =>
    intro s u rq a n k o st b hplace hread
    rw [exec_sramEndpointAccess, State.sramAccess_of_sram hplace, State.endpointAccess_read hread]
  case sramWrite =>
    intro s u rq a k o st d hplace hwrite
    rw [exec_sramEndpointAccess, State.sramAccess_of_sram hplace, State.endpointAccess_write hwrite]
  case sramAtomic =>
    intro s u rq a p n x c k o st v hplace hatomic
    rw [exec_sramEndpointAccess, State.sramAccess_of_sram hplace, State.endpointAccess_atomic hatomic]
  case llmAtomic =>
    intro s u rq a p n x c k o st v hplace hatomic
    rw [exec_llmScratchAccess, State.scratchAccess_of_llm hplace, State.endpointAccess_atomic hatomic]
  case llmRead =>
    intro s u rq a n k o st b hplace hread
    rw [exec_llmScratchAccess, State.scratchAccess_of_llm hplace, State.endpointAccess_read hread]
  case llmWrite =>
    intro s u rq a k o st d hplace hwrite
    rw [exec_llmScratchAccess, State.scratchAccess_of_llm hplace, State.endpointAccess_write hwrite]
  case saveCfg =>
    intro s rq k v hwrite hk hfree hslots hqueues
    rw [exec_saveCfgWrite, if_pos hk, State.gated_accepted _ hwrite, State.writeSaveCfg_of_free hfree hslots hqueues]

end Sys2Proof.Machine

/-! PROOF. Number formats (R110 to R124): the value of a pattern read from its sign, exponent and mantissa, the value of a Z4 element in
its block, and the rounding to a format without subnormals below its smallest normal; and the statements about Z16, Z4 and Z32. -/

namespace Sys2Proof.Machine

/-- The value of a pattern from its sign n and its magnitude mag, of exponent ef and mantissa mf (R110), in a format other than Z4. -/
theorem Fmt.decode_of_fields {f : Fmt} {n ef mf mag : Nat} (hwidth : f.width ≠ 4) (hn : n < 2) (hmf : mf < 2 ^ (f.p - 1))
    (hfields : ef * 2 ^ (f.p - 1) + mf = mag) (hmag : mag < 2 ^ (f.width - 1)) :
    f.decode (n * 2 ^ (f.width - 1) + mag) =
      if f.infBits = some mag then .inf (n == 1)
      else if f.maxBits < mag then .nan
      else if ef = 0 then
        if mf = 0 ∨ f.subnormals = false then .zero (n == 1) else .fin (n == 1) mf (f.emin - (f.p - 1 : Nat))
      else .fin (n == 1) (2 ^ (f.p - 1) + mf) ((ef : Int) - f.bias - (f.p - 1 : Nat)) := by
  have hlow : (n * 2 ^ (f.width - 1) + mag) % 2 ^ (f.width - 1) = mag := Nat.mul_add_mod_of_lt hmag
  have hsign : (n * 2 ^ (f.width - 1) + mag) / 2 ^ (f.width - 1) % 2 = n := by
    rw [Nat.mul_comm n, Nat.mul_add_div (Nat.two_pow_pos _), Nat.div_eq_of_lt hmag, Nat.add_zero, Nat.mod_eq_of_lt hn]
  have hexp : mag / 2 ^ (f.p - 1) = ef := by
    rw [← hfields, Nat.mul_comm ef, Nat.mul_add_div (Nat.two_pow_pos _), Nat.div_eq_of_lt hmf, Nat.add_zero]
  have hman : mag % 2 ^ (f.p - 1) = mf := by
    rw [← hfields, Nat.mul_add_mod_of_lt hmf]
  have hneg : (n == 1) = decide (n = 1) := rfl
  simp only [Fmt.decode, hlow, hsign, hexp, hman, hwidth, hneg, false_and, if_false]

/-- R118: the magnitude of infinity is the least of exponent 127, so the magnitudes above the largest finite one are those of exponent
127. -/
theorem fmtZ16_decode {n e m : Nat} (hn : n < 2) (he : e < 128) (hm : m < 256) :
    fmtZ16.decode (n * 2 ^ 15 + e * 2 ^ 8 + m) =
      if e = 127 then (if m = 0 then .inf (n == 1) else .nan)
      else if e = 0 then (if m = 0 then .zero (n == 1) else .fin (n == 1) m (1 - 63 - 8))
      else .fin (n == 1) (256 + m) ((e : Int) - 63 - 8) := by
  have hinf : fmtZ16.infBits = some (e * 2 ^ 8 + m) ↔ e = 127 ∧ m = 0 := by
    simp only [fmtZ16, Option.some.injEq]; omega
  have hnan : fmtZ16.maxBits < e * 2 ^ 8 + m ↔ e = 127 := by
    simp only [fmtZ16]; omega
  have hmag : e * 2 ^ 8 + m < 2 ^ (fmtZ16.width - 1) := by
    simp only [fmtZ16]; omega
  rw [Nat.add_assoc]
  refine (Fmt.decode_of_fields (f := fmtZ16) (mag := e * 2 ^ 8 + m) (by decide) hn hm rfl hmag).trans ?_
  simp only [hinf, hnan]
  by_cases htop : e = 127
  · simp [htop]
  · simp [htop, fmtZ16, Fmt.emin]

/-- Settles O56: the pattern's fields decide among the cases of R118. -/
theorem z16Values : Obligations.Z16Values := by
  unfold Obligations.Z16Values
  intro n e m hn he hm
  exact ⟨fmtZ16_decode hn he hm, by omega, by omega⟩

theorem z4Value_scale_255 (c : Nat) : z4Value c 255 = .nan := rfl

theorem z4Value_scale_0 (c : Nat) : z4Value c 0 = .zero false := rfl

/-- Code 0x8 is the single NaN of R113. -/
theorem z4Value_code_8 {s : Nat} (hmax : s ≠ 255) (hpos : s ≠ 0) : z4Value 8 s = .nan := by
  simp [z4Value, hmax, hpos, show fmtZ4.decode 8 = .nan from rfl]

theorem z4Value_code_0 {s : Nat} (hmax : s ≠ 255) : z4Value 0 s = .zero false := by
  simp [z4Value, hmax, show fmtZ4.decode 0 = .zero false from rfl]

theorem z4Value_of_decode_fin {c s m : Nat} {neg : Bool} {e : Int} (hmax : s ≠ 255) (hpos : s ≠ 0) (hdecode : fmtZ4.decode c = .fin neg m e) :
    z4Value c s = .fin neg m (e + (s : Int) - 127) := by
  simp [z4Value, hmax, hpos, hdecode]

/-- The magnitudes of R113's table: every code but those of +0 and of NaN is one of them, negated where bit 3 is set. -/
theorem fmtZ4_decode_magnitude : ∀ c < 16, c ≠ 0 → c ≠ 8 →
    (([(0, 0), (1, -1), (2, -1), (3, -1), (2, 0), (3, 0), (2, 1), (3, 1)] : List (Nat × Int))[c % 8]?).map
      (fun x => Num.fin (decide (8 ≤ c)) x.1 x.2) = some (fmtZ4.decode c) := by
  decide

/-- Settles O57: the two overriding scales, the codes of NaN and of +0, and then the magnitude of the code. -/
theorem z4ElementValues : Obligations.Z4ElementValues := by
  unfold Obligations.Z4ElementValues
  intro c s hc _
  by_cases hmax : s = 255
  · rw [if_pos hmax, hmax, z4Value_scale_255]
  by_cases hpos : s = 0
  · rw [if_neg hmax, if_pos hpos, hpos, z4Value_scale_0]
  by_cases hnan : c = 8
  · rw [if_neg hmax, if_neg hpos, if_pos hnan, hnan, z4Value_code_8 hmax hpos]
  by_cases hzero : c = 0
  · rw [if_neg hmax, if_neg hpos, if_neg hnan, if_pos hzero, hzero, z4Value_code_0 hmax]
  obtain ⟨⟨m, e⟩, hmagnitude, hdecode⟩ := Option.map_eq_some_iff.mp (fmtZ4_decode_magnitude c hc hzero hnan)
  rw [if_neg hmax, if_neg hpos, if_neg hnan, if_neg hzero, z4Value_of_decode_fin hmax hpos hdecode.symm, hmagnitude]

/-- A format without subnormals flushes what stays below its smallest normal after rounding (R124). -/
theorem Fmt.roundWith_of_tiny {f : Fmt} {r : Round} {satf neg : Bool} {e : Int} {trunc : Int → Nat × Rem} {q : Nat × Rem} {t : Nat}
    (hsub : f.subnormals = false) (hq : trunc (e - (f.p - 1 : Nat)) = q)
    (ht : (if roundUp r neg q.1 q.2 then q.1 + 1 else q.1) = t) (htiny : e + (if t = 2 ^ f.p then 1 else 0) < f.emin) :
    f.roundWith r satf neg e trunc = ⟨f.signed neg 0, flagUnderflow ||| flagInexact⟩ := by
  subst hq ht
  simp only [Fmt.roundWith, hsub, Bool.false_eq_true, if_false, true_and, if_pos htiny]

/-- A format without subnormals, Z4 not among them, delivers the pattern of the rounded count where it neither underflows nor overflows. -/
theorem Fmt.roundWith_bits_of_normal {f : Fmt} {r : Round} {satf neg : Bool} {e : Int} {trunc : Int → Nat × Rem} {q : Nat × Rem} {t : Nat}
    (hsub : f.subnormals = false) (hwidth : f.width ≠ 4) (hq : trunc (e - (f.p - 1 : Nat)) = q)
    (ht : (if roundUp r neg q.1 q.2 then q.1 + 1 else q.1) = t) (hnormal : ¬ e + (if t = 2 ^ f.p then 1 else 0) < f.emin)
    (hfits : ¬ f.maxBits < f.pattern e t) : (f.roundWith r satf neg e trunc).bits = f.signed neg (f.pattern e t) := by
  subst hq ht
  simp only [Fmt.roundWith, hsub, hwidth, Bool.false_eq_true, if_false, true_and, false_and, if_neg hnormal, if_neg hfits]

theorem fmtZ32_signed_zero (neg : Bool) : fmtZ32.signed neg 0 = if neg then 0x8000_0000 else 0 := by
  cases neg <;> rfl

/-- A count of 2^24 in the binade below the smallest normal is the smallest normal. -/
theorem fmtZ32_pattern_carry : fmtZ32.pattern (-127) (2 ^ 24) = 0x0080_0000 := by decide

theorem fmtZ32_signed_minNormal (neg : Bool) : fmtZ32.signed neg 0x0080_0000 = if neg then 0x8080_0000 else 0x0080_0000 := by
  cases neg <;> rfl

/-- Settles O59: in a binade below that of 2^-127 even a carry to 2^24 stays below 2^-126, so the value is flushed; in the binade of
2^-127 that carry alone reaches the smallest normal. -/
theorem z32Underflow : Obligations.Z32Underflow := by
  unfold Obligations.Z32Underflow
  intro r satf neg m e l q t _ hl hq ht
  have hround : fmtZ32.ofNum r satf (.fin neg m e) = fmtZ32.roundWith r satf neg l (truncAt m e) := by
    rw [← hl]; rfl
  rw [hround]
  refine ⟨fun hbelow => ?flushed, fun ⟨hbinade, hcarry⟩ => ?carried⟩
  case flushed =>
    have htiny : l + (if t = 2 ^ fmtZ32.p then 1 else 0) < fmtZ32.emin := by
      show l + (if t = 2 ^ 24 then 1 else 0) < -126
      split <;> omega
    rw [Fmt.roundWith_of_tiny rfl hq ht htiny, fmtZ32_signed_zero]
  case carried =>
    subst hbinade hcarry
    rw [Fmt.roundWith_bits_of_normal rfl (by decide) hq ht (by decide) (by decide), fmtZ32_pattern_carry, fmtZ32_signed_minNormal]

end Sys2Proof.Machine

/-! PROOF. The engine's arithmetic (R138 to R144): the fields of a finite Z9 or Z16 operand bound its products, and a step of one cell
depends on its terms only up to their order; and the statements about products and about the pair of a Z4 step. -/

namespace Sys2Proof.Machine

/-! ## Products (R138) -/

/-- A finite nonzero value of a pattern has at most p significant bits, and an exponent between that of the least normal binade and that
of the largest finite pattern's. -/
theorem Fmt.decode_fin_bounds {f : Fmt} {x m : Nat} {neg : Bool} {e : Int} (hp : 0 < f.p) (hdecode : f.decode x = .fin neg m e) :
    0 < m ∧ m < 2 ^ f.p ∧ f.emin - (f.p - 1 : Nat) ≤ e ∧
      e ≤ max f.emin ((f.maxBits / 2 ^ (f.p - 1) : Nat) - f.bias) - (f.p - 1 : Nat) := by
  have hpow : 2 ^ f.p = 2 ^ (f.p - 1) * 2 := (Nat.pow_pred_mul hp).symm
  have hfraction : x % 2 ^ (f.width - 1) % 2 ^ (f.p - 1) < 2 ^ (f.p - 1) := Nat.mod_lt _ (Nat.two_pow_pos _)
  unfold Fmt.decode at hdecode
  dsimp only at hdecode
  split at hdecode
  · cases hdecode
  split at hdecode
  · cases hdecode
  split at hdecode
  · cases hdecode
  next hfinite =>
    have hexp : x % 2 ^ (f.width - 1) / 2 ^ (f.p - 1) ≤ f.maxBits / 2 ^ (f.p - 1) := Nat.div_le_div_right (Nat.not_lt.mp hfinite)
    split at hdecode
    · split at hdecode
      · cases hdecode
      next hnonzero =>
        -- a subnormal
        cases hdecode
        omega
    next hnormal =>
      cases hdecode
      have hexp_pos : 0 < x % 2 ^ (f.width - 1) / 2 ^ (f.p - 1) := Nat.pos_of_ne_zero hnormal
      have hbias : f.emin = 1 - f.bias := rfl
      omega

/-- A finite nonzero operand of an engine: a Z9 operand lies well within the bounds of a Z16 operand. -/
theorem operand_fin_bounds {f : Fmt} {x m : Nat} {neg : Bool} {e : Int} (hf : f ∈ [fmtZ9, fmtZ16]) (hdecode : f.decode x = .fin neg m e) :
    0 < m ∧ m ≤ 511 ∧ -70 ≤ e ∧ e ≤ 55 := by
  rcases List.mem_cons.mp hf with rfl | hf
  · have hbounds : 0 < m ∧ m < 16 ∧ -17 ≤ e ∧ e ≤ 12 := Fmt.decode_fin_bounds (f := fmtZ9) (by decide) hdecode
    omega
  · obtain rfl := List.mem_singleton.mp hf
    have hbounds : 0 < m ∧ m < 512 ∧ -70 ≤ e ∧ e ≤ 55 := Fmt.decode_fin_bounds (f := fmtZ16) (by decide) hdecode
    omega

theorem magnitude_mul_le {m n : Nat} {e g : Int} (hm : m ≤ 511) (hn : n ≤ 511) (he : e ≤ 55) (hg : g ≤ 55) :
    m * n * 2 ^ (e + g + 140).toNat ≤ 261121 * 2 ^ 250 :=
  Nat.mul_le_mul (Nat.mul_le_mul hm hn) (Nat.pow_le_pow_right (by decide) (by omega))

/-- Settles O58: `product` is the exact product by definition, and the bounds of its magnitude are those of the two operands'. -/
theorem productsAreExact : Obligations.ProductsAreExact := by
  unfold Obligations.ProductsAreExact
  refine ⟨fun f x y a b hf ha hb => ?_, by decide⟩
  cases a with
  | nan => trivial
  | inf => trivial
  | zero =>
    cases b with
    | nan => trivial
    | inf => trivial
    | zero => rfl
    | fin => rfl
  | fin p m e =>
    cases b with
    | nan => trivial
    | inf => trivial
    | zero => rfl
    | fin q n g =>
      obtain ⟨hm, hm_le, he, he_le⟩ := operand_fin_bounds hf ha
      obtain ⟨hn, hn_le, hg, hg_le⟩ := operand_fin_bounds hf hb
      exact ⟨rfl, Nat.mul_pos hm hn, by omega, magnitude_mul_le hm_le hn_le he_le hg_le⟩

/-! ## The order of a step's products (R144) -/

section Order

variable {l l' : List Num}

theorem windowExp_perm (h : l.Perm l') : windowExp l = windowExp l' := by
  refine h.foldl_eq' (fun x _ y _ acc => ?_) none
  -- only finite terms have an exponent
  cases x with
  | fin =>
    cases y with
    | fin =>
      cases acc with
      | none => exact congrArg some (Int.max_comm ..)
      | some b => exact congrArg some (by omega)
    | _ => rfl
  | _ => rfl

theorem windowSum_perm (h : l.Perm l') (q : Int) :
    (l.map (windowTerm q)).foldl (fun (a : Int) w => a + w.1) 0 = (l'.map (windowTerm q)).foldl (fun (a : Int) w => a + w.1) 0 :=
  (h.map (windowTerm q)).foldl_eq' (fun _ _ _ _ _ => Int.add_right_comm ..) 0

theorem windowDropped_perm (h : l.Perm l') (q : Int) : (l.map (windowTerm q)).any (·.2) = (l'.map (windowTerm q)).any (·.2) :=
  (h.map (windowTerm q)).any_eq

/-- A step looks at its terms, their flags and their kinds only through operations that do not see the order. -/
theorem cellStep_perm (c : Nat) {ts us : List Term} (h : ts.Perm us) : cellStep c ts = cellStep c us := by
  have hterms : (fmtZ32.decode c :: ts.map (·.v)).Perm (fmtZ32.decode c :: us.map (·.v)) := (h.map _).cons _
  have hflags : ts.foldl (fun a t => a ||| t.flags) 0 = us.foldl (fun a t => a ||| t.flags) 0 :=
    h.foldl_eq' (fun x _ y _ a => by rw [Nat.or_assoc, Nat.or_comm x.flags, ← Nat.or_assoc]) 0
  have hkind : ts.foldl (fun a t => max a t.kind) 0 = us.foldl (fun a t => max a t.kind) 0 :=
    h.foldl_eq' (fun _ _ _ _ _ => by omega) 0
  unfold cellStep
  dsimp only
  simp only [hflags, hkind, windowExp_perm hterms, windowSum_perm hterms, windowDropped_perm hterms, hterms.any_eq, hterms.all_eq]

end Order

/-- Settles O60: two terms in either order are a permutation of each other. -/
theorem pairOrderFree : Obligations.PairOrderFree := by
  unfold Obligations.PairOrderFree
  exact fun c a b => cellStep_perm c (List.Perm.swap b a [])

end Sys2Proof.Machine

/-! PROOF. Engines left alone (R160): what counting, recording an event and a command's summary keep of engines, cells, memory and
registers; and the statement about the engine reset. -/

namespace Sys2Proof.Machine

/-! ## Engines, cells and memory kept -/

/-- Engines, their cells, memory and check bytes stand as they stood. -/
structure EngineFrame (s t : State) : Prop where
  engines : t.engines = s.engines
  cells : t.cells = s.cells
  memory : MemSame s t

namespace EngineFrame

variable {s t u : State}

theorem refl (s : State) : EngineFrame s s := ⟨rfl, rfl, MemSame.refl s⟩

theorem trans (hst : EngineFrame s t) (htu : EngineFrame t u) : EngineFrame s u :=
  ⟨htu.engines.trans hst.engines, htu.cells.trans hst.cells, hst.memory.trans htu.memory⟩

theorem foldl {α : Type} {f : State → α → State} (hf : ∀ s x, EngineFrame s (f s x)) (l : List α) (s : State) :
    EngineFrame s (l.foldl f s) := by
  induction l generalizing s with
  | nil => exact refl s
  | cons x rest ih => exact (hf s x).trans (ih _)

theorem engine (h : EngineFrame s t) (e : Nat) : t.engine e = s.engine e := by simp only [State.engine, h.engines]

theorem cell (h : EngineFrame s t) (e b i j : Nat) : t.cell e b i j = s.cell e b i j := by simp only [State.cell, h.cells]

theorem byte (h : EngineFrame s t) (a : Nat) : t.byte a = s.byte a := h.memory.byte a

theorem setReg (s : State) (r : Reg) (i : Nat) (w : Word) : EngineFrame s (s.setReg r i w) := ⟨rfl, rfl, MemSame.setReg ..⟩

theorem setFld (s : State) (f : Field) (i v : Nat) : EngineFrame s (s.setFld f i v) := setReg ..

theorem updQueue (s : State) (k q : Nat) (f : Queue → Queue) : EngineFrame s (s.updQueue k q f) := ⟨rfl, rfl, rfl, rfl, rfl⟩

theorem updCmd (s : State) (r : CmdRef) (f : Cmd → Cmd) : EngineFrame s (s.updCmd r f) := ⟨rfl, rfl, rfl, rfl, rfl⟩

theorem hangRuns (s : State) (l : List (Nat × Nat)) : EngineFrame s { s with hangRuns := l } := ⟨rfl, rfl, rfl, rfl, rfl⟩

theorem progress (s : State) (e : Nat) : EngineFrame s (s.progress e) := (setFld s Fld.EN_HANG_IDLE e 0).trans (hangRuns ..)

theorem clearResvs (s : State) (a n : Nat) : EngineFrame s (s.clearResvs a n) :=
  foldl (f := State.clearResv) (fun _ _ => ⟨rfl, rfl, rfl, rfl, rfl⟩) _ s

theorem mirror (s : State) : EngineFrame s s.mirror := by
  rw [State.mirror_regs]
  exact ⟨rfl, rfl, rfl, rfl, rfl⟩

theorem count1 (s : State) (kind unit i key inst : Nat) (valF ovfF : Field) (code n : Nat) :
    EngineFrame s (s.count1 kind unit i key inst valF ovfF code n) := by
  unfold State.count1
  dsimp only
  generalize min (2 ^ 48 - 1) (s.fld valF inst + n) = v
  split
  · refine (setFld s valF inst v).trans ?_
    split
    · refine (setFld _ ovfF inst 1).trans ?_
      split
      · exact ⟨rfl, rfl, MemSame.ovfs (MemSame.refl _) _⟩
      · exact refl _
    · exact refl _
  · exact refl s

theorem countCore (s : State) (k base q n : Nat) : EngineFrame s (s.countCore k base q n) := by
  unfold State.countCore
  split
  · exact foldl (fun _ _ => count1 ..) _ s
  · exact refl s

theorem countEngine (s : State) (e base n : Nat) : EngineFrame s (s.countEngine e base n) := (countCore ..).trans (countCore ..)

theorem raiseExc (s : State) (e fl : Nat) : EngineFrame s (s.raiseExc e fl) := setReg ..

theorem sumExc (s : State) (r : CmdRef) (e fl coord : Nat) : EngineFrame s (s.sumExc r e fl coord) := updCmd ..

end EngineFrame

/-! ## What an event changes -/

/-- The registers in which an engine's event is recorded and counted, and that of its progress: the engine's and the cluster's rings, the
counters, and the host's pending MSIs. -/
def reportRegs : List Reg :=
  [.EN_HANG, .EN_EVT_PTR, .EN_EVT_REC, .CL_EVT_PTR, .CL_EVT_REC, .CL_EVT_CTL, .CL_CNT, .HUB_CNT, .HOST_STATUS, .HOST_PBA, .TRC_STATUS]

/-- Engines, cells and memory stand as they stood, and so does every register but those of `reportRegs`. -/
structure Reported (s t : State) : Prop where
  frame : EngineFrame s t
  registers : OtherRegistersKept reportRegs s t

namespace Reported

variable {s t u : State}

theorem refl (s : State) : Reported s s := ⟨EngineFrame.refl s, fun _ _ _ _ _ _ => rfl⟩

theorem trans (hst : Reported s t) (htu : Reported t u) : Reported s u :=
  ⟨hst.frame.trans htu.frame, fun r i hi hr hctx htrc =>
    (htu.registers r i hi hr hctx htrc).trans (hst.registers r i hi hr hctx htrc)⟩

theorem foldl {α : Type} {f : State → α → State} {l : List α} (hf : ∀ x ∈ l, ∀ s, Reported s (f s x)) (s : State) :
    Reported s (l.foldl f s) := by
  induction l generalizing s with
  | nil => exact refl s
  | cons x rest ih =>
    obtain ⟨hx, hrest⟩ := List.forall_mem_cons.mp hf
    exact (hx s).trans (ih hrest _)

theorem setFld (s : State) {f : Field} {i : Nat} (v : Nat) (hf : f.reg ∈ reportRegs) (hi : i < 2 ^ 20) : Reported s (s.setFld f i v) := by
  refine ⟨EngineFrame.setFld .., fun r j hj hr _ _ => ?_⟩
  have hne : f.reg ≠ r := fun heq => hr (heq ▸ hf)
  exact State.reg_setReg_other s _ (.inl hne) hi hj

theorem bump (s : State) {f : Field} {i : Nat} (n : Nat) (hf : f.reg ∈ reportRegs) (hi : i < 2 ^ 20) : Reported s (s.bump f i n) :=
  setFld s _ hf hi

/-- What goes out, the count of free values, the trace buffer, waiting overflows and the collectors' MSIs are no part of the frame. -/
theorem logs (s : State) (out : List Out) (freeCtr : Nat) (trc : Trace) (ovfs : List (Nat × Nat × Nat))
    (evtMsi : List (Nat × Nat × Bool)) :
    Reported s { s with out := out, freeCtr := freeCtr, trc := trc, ovfs := ovfs, evtMsi := evtMsi } :=
  ⟨⟨rfl, rfl, rfl, rfl, rfl⟩, fun _ _ _ _ _ _ => rfl⟩

theorem count1 (s : State) (kind unit i key : Nat) {inst : Nat} {valF ovfF : Field} (code n : Nat) (hval : valF.reg ∈ reportRegs)
    (hovf : ovfF.reg ∈ reportRegs) (hinst : inst < 2 ^ 20) : Reported s (s.count1 kind unit i key inst valF ovfF code n) := by
  unfold State.count1
  dsimp only
  generalize min (2 ^ 48 - 1) (s.fld valF inst + n) = v
  split
  · refine (setFld s v hval hinst).trans ?_
    split
    · refine (setFld _ 1 hovf hinst).trans ?_
      split
      · exact logs ..
      · exact refl _
    · exact refl _
  · exact refl s

theorem countHub (s : State) (base q n : Nat) : Reported s (s.countHub base q n) := by
  refine foldl (fun i hi s => ?_) s
  have hlt : i < 32 := List.mem_range.mp hi
  exact count1 s _ _ _ _ _ _ (by decide) (by decide) (by omega)

theorem countCluster (s : State) {c : Nat} (base q n : Nat) (hc : c < 16) : Reported s (s.countCluster c base q n) := by
  unfold State.countCluster
  split
  · refine foldl (fun i hi s => ?_) s
    have hlt : i < 16 := List.mem_range.mp hi
    exact count1 s _ _ _ _ _ _ (by decide) (by decide) (by omega)
  · exact refl s

theorem packet (s : State) (kind : Nat) (p : TracePkt) : Reported s (s.packet kind p) := by
  unfold State.packet
  split
  · split
    · exact (bump s _ (by decide) (by decide)).trans (countHub ..)
    · exact (countHub s 0x0B 0 1).trans ((logs ..).trans (logs ..))
  · exact refl s

theorem ringRecord (s : State) {freeze lost writes word : Field} {unit n : Nat} (r : EvRec) (hlost : lost.reg ∈ reportRegs)
    (hwrites : writes.reg ∈ reportRegs) (hword : word.reg ∈ reportRegs) (hn : 0 < n) (hslots : (unit + 1) * n ≤ 2 ^ 18) :
    Reported s (s.ringRecord freeze lost writes word unit n r) := by
  have hrings : unit * n + n ≤ 2 ^ 18 := Nat.succ_mul unit n ▸ hslots
  have hunit : unit < 2 ^ 20 := by
    have hle : unit + 1 ≤ (unit + 1) * n := Nat.le_mul_of_pos_right _ hn
    omega
  unfold State.ringRecord
  dsimp only
  split
  · exact bump s _ hlost hunit
  · have hslot : s.fld writes unit % n < n := Nat.mod_lt _ hn
    refine (foldl (fun i hi s => ?_) s).trans (setFld _ _ hwrites hunit)
    have hlt : i < 4 := List.mem_range.mp hi
    exact setFld s _ hword (by omega)

theorem hostMsi (s : State) (ident : Nat) : Reported s (s.hostMsi ident) := by
  unfold State.hostMsi
  dsimp only
  split
  · exact bump s _ (by decide) (by decide)
  · split
    · exact setFld s _ (by decide) (by decide)
    · exact logs ..

theorem msi (s : State) (file en ident : Field) (i : Nat) : Reported s (s.msi file en ident i) := by
  unfold State.msi
  split
  · exact refl s
  · split
    · exact hostMsi ..
    · exact logs ..

theorem collectorMsi (s : State) (c : Nat) : Reported s (s.collectorMsi c) := by
  unfold State.collectorMsi
  dsimp only
  split
  · exact (msi ..).trans (logs ..)
  · exact logs ..

theorem clusterRecord (s : State) {c : Nat} (r : EvRec) (hc : c < 16) : Reported s (s.clusterRecord c r) := by
  have hring := (ringRecord s (freeze := Fld.CL_EVT_PTR_FREEZE) (lost := Fld.CL_EVT_PTR_LOST) (writes := Fld.CL_EVT_PTR_WRITES)
    (word := Fld.CL_EVT_REC_WORD) (unit := c) (n := 1024) r (by decide) (by decide) (by decide) (by decide) (by omega)).trans
    (countCluster _ 8 0 1 hc)
  unfold State.clusterRecord
  dsimp only
  split
  · exact hring.trans (collectorMsi ..)
  · exact hring

theorem copyToCluster (s : State) {c : Nat} (r : EvRec) (hc : c < 16) : Reported s (s.copyToCluster c r) := by
  unfold State.copyToCluster
  split
  · exact refl s
  · split
    · exact (logs s ..).trans ((bump s.spend 1 (by decide) (by omega)).trans (countCluster _ 7 0 1 hc))
    · exact (logs s ..).trans (clusterRecord s.spend r hc)

theorem engineEvent (s : State) {r : EvRec} (hkind : r.kind = 0) (hunit : r.unit < 512) : Reported s (s.event r) := by
  unfold State.event
  rw [if_pos hkind]
  exact ((ringRecord s r (by decide) (by decide) (by decide) (by decide) (by omega)).trans (copyToCluster _ r (by omega))).trans (packet ..)

theorem unitEvent (s : State) (code data : Nat) {e : Nat} (he : e < 512) : Reported s (s.unitEvent code 0 e data) :=
  engineEvent s rfl he

theorem hangRuns (s : State) (l : List (Nat × Nat)) : Reported s { s with hangRuns := l } :=
  ⟨EngineFrame.hangRuns s l, fun _ _ _ _ _ _ => rfl⟩

theorem progress (s : State) {e : Nat} (he : e < 512) : Reported s (s.progress e) :=
  (setFld s (f := Fld.EN_HANG_IDLE) 0 (by decide) (by omega)).trans (hangRuns ..)

end Reported

/-! ## The engine reset (R160) -/

/-- The cells that a reset leaves: those of other engines. -/
def State.dropCells (s : State) (e : Nat) : State := { s with cells := s.cells.filter (fun x => x.1 / 8192 != e) }

theorem Store.get_filter {α : Type} (d : Nat → α) (p : Nat → Bool) (l : List (Nat × α)) (k : Nat) :
    Store.get d (l.filter (fun x => p x.1)) k = if p k then Store.get d l k else d k := by
  induction l with
  | nil => simp [Store.get]
  | cons x rest ih =>
    obtain ⟨i, v⟩ := x
    by_cases hik : i = k
    · subst hik
      cases hp : p i <;> simp [Store.get, ih, hp]
    · cases hp : p i <;> simp [Store.get, ih, hp, hik]

theorem State.cell_dropCells (s : State) (e : Nat) {f b i j : Nat} (hb : b < 2) (hi : i < 64) (hj : j < 64) :
    (s.dropCells e).cell f b i j = if f = e then 0 else s.cell f b i j := by
  have hengine : (((f * 2 + b) * 64 + i) * 64 + j) / 8192 = f := by omega
  unfold State.cell State.dropCells
  rw [Store.get_filter (fun _ => 0) (fun k => k / 8192 != e), hengine]
  by_cases hfe : f = e <;> simp [hfe]

theorem State.engine_setEngine_same (s : State) (e : Nat) (g : Engine) : (s.setEngine e g).engine e = g := Store.get_set_same

theorem State.engine_setEngine_other (s : State) {e f : Nat} (g : Engine) (hne : f ≠ e) : (s.setEngine e g).engine f = s.engine f :=
  Store.get_set_other hne

theorem State.engineReset_reported (s : State) {e : Nat} (he : e < 512) :
    Reported ((s.dropCells e).setEngine e Engine.idle) (s.engineReset e) :=
  (Reported.progress _ he).trans (Reported.unitEvent _ 0x800C 0 he)

/-- Settles O55: the reset drops the engine's cells and sets it idle; its event and its progress are recorded in other registers. -/
theorem engineResetZeroes : Obligations.EngineResetZeroes := by
  unfold Obligations.EngineResetZeroes
  intro s e he
  obtain ⟨hframe, hregs⟩ := s.engineReset_reported he
  have hcell {f b i j : Nat} (hb : b < 2) (hi : i < 64) (hj : j < 64) :
      (s.engineReset e).cell f b i j = if f = e then 0 else s.cell f b i j :=
    (hframe.cell f b i j).trans (s.cell_dropCells e hb hi hj)
  refine ⟨fun b i j hb hi hj => ?cells, ?idle, fun r hr i hi => ?records, fun f hfe => ⟨?engine, fun b i j hb hi hj => ?otherCells⟩⟩
  case cells => rw [hcell hb hi hj, if_pos rfl]
  case idle => rw [hframe.engine, State.engine_setEngine_same]
  case records =>
    have hother : ∀ r ∈ [Reg.EN_EXC, .EN_EXC_COORD, .EN_EXC_TAG, .EN_EXC_BEAT],
        r ∉ reportRegs ∧ r ≠ .HUB_CTX_STATUS ∧ r ≠ .TRC_STATUS := by decide
    obtain ⟨hreport, hctx, htrc⟩ := hother r hr
    exact hregs r i hi hreport hctx htrc
  case engine =>
    rw [hframe.engine, State.engine_setEngine_other _ _ hfe]
    rfl
  case otherCells => rw [hcell hb hi hj, if_neg hfe]

end Sys2Proof.Machine

/-! PROOF. Firings of an engine (R132, R137, R151 to R153, R164, R170): what the feeders, the start of an accumulation, a drain, its end and
a histogram's delivery do in the cases of their statement; and that statement. -/

namespace Sys2Proof.Machine

/-! ## Firings of an engine (R137, R164, R170) -/

section Firings

variable {s : State} {e b : Nat} {x : Entry}

/-- Within a block of 64 k-indices the feeders take no token. -/
theorem State.feederFire_of_withinBlock (hacc : (s.engine e).accumulating = some b)
    (hentry : s.entry (e / 4) ((s.engine e).bank b).entry = some x) (hopnd : (s.engine e).opnd = none) (hhung : s.engineHung e = false)
    (hk : ((s.engine e).bank b).k < engK x.desc) (hedge : (((s.engine e).bank b).k % 64 == 0) = false) :
    s.feederFire e = s.setEngine e { s.engine e with opnd := some (s.stepOperands (e / 4) ((s.engine e).bank b).k x.desc) } := by
  simp only [feederFire, hacc, hentry, hopnd, hhung, hedge, Nat.not_le.mpr hk, Option.isSome_none, Bool.false_and, Bool.or_false,
    decide_false, Bool.false_eq_true, if_false]

theorem State.engineFire_of_fromZero {i : Nat} (hfree : (s.engine e).freeBank = some b)
    (hlowest : s.lowestEntry (e / 4) (s.engineReady e) = some (i, x)) (hhung : s.engineHung e = false)
    (hload : engInitLoad x.desc = false) :
    s.engineFire e = ((((s.updQueue (e / 4) (inQueue x.desc 0) (fun q => q.takeIn 1)).updQueue (e / 4) (inQueue x.desc 1)
      (fun q => q.takeIn 1)).fillBank e b (fun _ _ => 0)).setEngine e { (s.engine e).setBank b ⟨.accumulating, i, x.started, 0⟩ with
        feed := (s.engine e).accumulating.getD b }).fireStart (e / 4) i x := by
  simp only [engineFire, hfree, hlowest, hhung, hload, Bool.false_eq_true, if_false]

theorem State.progress_entry (k i : Nat) : (s.progress e).entry k i = s.entry k i := by
  simp only [entry, progress, setFld_frame]

theorem State.drainComplete_of_drains {dr : DrainRun} (hdrain : (s.engine e).drain = some dr)
    (hentry : s.entry (e / 4) dr.entry = some x) :
    s.drainComplete e = (((s.setEngine e { (s.engine e).setBank dr.bank Bank.empty with drain := none }).progress e).updQueue (e / 4)
      (outQueue x.desc 0) (fun q => q.fillOut 1 x.cmd)).firingDone (e / 4) dr.entry x := by
  have hkept (g : Engine) : ((s.setEngine e g).progress e).entry (e / 4) dr.entry = some x := by
    rw [progress_entry]
    exact hentry
  simp only [drainComplete, hdrain, hkept]

end Firings

/-- R153: the record goes onto its circuit, and the core's counts begin again. -/
theorem State.histDelivery_of_delivers {s : State} {k cc va : Nat} {r : CmdRef} {m : Cmd} {h : HistFrom} {ps : List (Nat × Nat)}
    (hcmd : s.cmd r = some m) (hwork : s.histWork k r = some (h, cc, va)) (hacts : (s.ctx h.ctx).st.acts = true)
    (hstopped : s.stopped (histSite h r).ctx r k (histSite h r).entry 0 = false) (hheld : s.accessHeld r = false)
    (hpieces : s.pieces k h.ctx 3 va 3 0 576 = (ps, none))
    (hinside : ps.find? (fun p => !inEndpoint (((s.circEntry cc).map (·.dst)).getD 0) p.1 ||
      !inEndpoint (((s.circEntry cc).map (·.dst)).getD 0) (p.1 + p.2 - 1)) = none) :
    s.histDelivery k r = (s.setCirc cc { s.circ cc with ready := (s.circ cc).ready ++
      [⟨histBytes (m.coreHist k), false, ps, 2, 0, r, h.ctx, 256 + h.entry, 0, (h.layer, h.oper), s.ft + 1⟩] }).updCmd r (fun m =>
        { m with sums := m.sums.map (fun y => if y.engine / 4 = k then { y with hist := List.replicate 69 0 } else y) }) := by
  simp only [histDelivery, hcmd, hwork, hacts, hstopped, hheld, hpieces, hinside, Bool.not_true, Bool.false_eq_true, or_self, if_false]

/-! ## The drain (R132, R151, R257) -/

theorem EngineFrame.congr_setEngine {s t : State} (h : EngineFrame s t) (e : Nat) (g : Engine) :
    EngineFrame (s.setEngine e g) (t.setEngine e g) := by
  obtain ⟨hengines, hcells, hmemory⟩ := h
  exact ⟨by simp only [State.setEngine, hengines], hcells, hmemory⟩

/-- The output tile of bank b, lane by lane, as descriptor d converts it. -/
def State.drainLanes (s : State) (e b : Nat) (d : List Byte) : List (List Byte × List Byte × List Res) :=
  (List.range 64).map (fun l => drainLane (fieldAt d 0x23 1) ((Round.ofCode (engConv d % 8)).getD .rne) (bit (engConv d) 3)
    ((List.range 64).map (fun p => s.drainValue e b (engAxis d) l p)))

/-- The output tile written at a, with a Z4 tile's scale plane at its offset. -/
def State.writeTile (s : State) (fmt a scaleOff : Nat) (lanes : List (List Byte × List Byte × List Res)) : State :=
  let s := (s.clearResvs a (footprint fmt)).setBytes a (lanes.map (·.1)).flatten
  if fmt = 0 then (s.clearResvs (a + scaleOff) 128).setBytes (a + scaleOff) (lanes.map (·.2.1)).flatten else s

theorem State.byte_setBytes_of_getElem? {s : State} {a i : Nat} {l : List Byte} {v : Byte} (hv : l[i]? = some v) :
    (s.setBytes a l).byte (a + i) = v := by
  obtain ⟨hi, hget⟩ := List.getElem?_eq_some_iff.mp hv
  rw [State.byte_setBytes_at l s a i hi, hget]

section WriteTile

variable {s : State} {fmt a off i : Nat} {v : Byte} {lanes : List (List Byte × List Byte × List Res)}

theorem State.byte_writeTile (hfmt : fmt ≠ 0) (hv : (lanes.map (·.1)).flatten[i]? = some v) :
    (s.writeTile fmt a off lanes).byte (a + i) = v := by
  rw [writeTile, if_neg hfmt, byte_setBytes_of_getElem? hv]

/-- The scale plane lies behind the elements. -/
theorem State.byte_writeTile_z4 (hlength : (lanes.map (·.1)).flatten.length ≤ off) (hv : (lanes.map (·.1)).flatten[i]? = some v) :
    (s.writeTile 0 a off lanes).byte (a + i) = v := by
  have hi : i < (lanes.map (·.1)).flatten.length := (List.getElem?_eq_some_iff.mp hv).1
  rw [writeTile, if_pos rfl, byte_setBytes_other _ _ _ _ (.inl (by omega)), (EngineFrame.clearResvs ..).byte, byte_setBytes_of_getElem? hv]

theorem State.byte_writeTile_z4_scale (hv : (lanes.map (·.2.1)).flatten[i]? = some v) :
    (s.writeTile 0 a off lanes).byte (a + off + i) = v := by
  rw [writeTile, if_pos rfl, byte_setBytes_of_getElem? hv]

end WriteTile

theorem packNibbles_length : ∀ l : List Nat, (packNibbles l).length = l.length / 2
  | [] => by simp [packNibbles]
  | [_] => by simp [packNibbles]
  | c :: d :: rest => by
    simp only [packNibbles, List.length_cons, packNibbles_length rest]
    omega

/-- 64 Z4 elements of a lane take 32 bytes. -/
theorem drainLane_z4_length (r : Round) (satf : Bool) {vs : List Nat} (hvs : vs.length = 64) : (drainLane 0 r satf vs).1.length = 32 := by
  simp [drainLane, packNibbles_length, z4Block, hvs]

theorem State.drainLanes_z4_length {s : State} {e b : Nat} {d : List Byte} (hfmt : fieldAt d 0x23 1 = 0) :
    ((s.drainLanes e b d).map (·.1)).flatten.length = 2048 := by
  have hlane : ∀ l ∈ (s.drainLanes e b d).map (·.1), l.length = 32 := by
    intro l hl
    simp only [drainLanes, hfmt, List.map_map, List.mem_map] at hl
    obtain ⟨p, -, rfl⟩ := hl
    exact drainLane_z4_length _ _ (by simp)
  rw [List.length_flatten, List.map_congr_left hlane, List.map_const', List.sum_replicate_nat]
  simp [drainLanes]

section Drain

variable {s : State} {e b : Nat} {x : Entry}

/-- What a bank needs to drain, with an output credit in hand (R151, R170). -/
structure State.Drains (s : State) (e b : Nat) (x : Entry) : Prop where
  completed : ((s.engine e).bank b).st = .completed
  idle : (s.engine e).drain = none
  first : (s.engine e).olderCompleted b = false
  alive : s.engineHung e = false
  entry : s.entry (e / 4) ((s.engine e).bank b).entry = some x
  credit : (s.queue (e / 4) (outQueue x.desc 0)).credits ≠ 0
  runs : (s.ctx x.ctx).st.drains = true

/-- The state with the output tile of bank b in the output slot and the drain begun. -/
def State.drained (s : State) (e b : Nat) (x : Entry) : State :=
  (s.writeTile (fieldAt x.desc 0x23 1) (sramOf (e / 4) (s.queue (e / 4) (outQueue x.desc 0)).outAt)
    ((s.queue (e / 4) (outQueue x.desc 0)).scaleUnits * 256) (s.drainLanes e b x.desc)).setEngine e
      { s.engine e with drain := some ⟨b, ((s.engine e).bank b).entry⟩ }

/-- What a drain counts and records beside its tile touches no engine, cell or byte. -/
theorem State.drainFire_frame (h : s.Drains e b x) : EngineFrame (s.drained e b x) (s.drainFire e b) := by
  obtain ⟨hst, hdrain, hfirst, hhung, hentry, hcredit, hruns⟩ := h
  have hfires : ¬ (((s.engine e).bank b).st ≠ .completed ∨ (s.engine e).drain.isSome ∨ (s.engine e).olderCompleted b ∨
      s.engineHung e) := by
    simp [hst, hdrain, hfirst, hhung]
  have hgoes : ¬ ((s.queue (e / 4) (outQueue x.desc 0)).credits = 0 ∨ !(s.ctx x.ctx).st.drains) := by
    simp [hcredit, hruns]
  have hlanes : ((List.range 64).map (fun l => (List.range 64).map (fun p => s.drainValue e b (engAxis x.desc) l p))).map
      (drainLane (fieldAt x.desc 0x23 1) ((Round.ofCode (engConv x.desc % 8)).getD .rne) (bit (engConv x.desc) 3)) =
        s.drainLanes e b x.desc := List.map_map
  have hrecorded (w : State) (fl : Nat) (f : Cmd → Cmd) (g : Queue → Queue) :
      EngineFrame w ((((w.raiseExc e fl).sumExc x.cmd e fl 0).updCmd x.cmd f).updQueue (e / 4) (outQueue x.desc 0) g) :=
    (((EngineFrame.raiseExc ..).trans (EngineFrame.sumExc ..)).trans (EngineFrame.updCmd ..)).trans (EngineFrame.updQueue ..)
  unfold drainFire
  dsimp only
  rw [if_neg hfires, hentry]
  dsimp only
  rw [if_neg hgoes, hlanes]
  exact ((hrecorded _ _ _ _).congr_setEngine _ _).trans ((EngineFrame.countEngine ..).trans (EngineFrame.progress ..))

theorem exec_drainFire (s : State) (e b : Nat) : exec (.drainFire e b) s = .next (s.drainFire e b).mirror := rfl

/-- The engine and the bytes after DRAIN_FIRE are those of the drained state. -/
theorem exec_drainFire_of_drains (h : s.Drains e b x) :
    ∃ t, exec (.drainFire e b) s = .next t ∧ (t.engine e).drain = some ⟨b, ((s.engine e).bank b).entry⟩ ∧
      (t.engine e).bank0 = (s.engine e).bank0 ∧ (t.engine e).bank1 = (s.engine e).bank1 ∧
      ∀ a, t.byte a = (s.writeTile (fieldAt x.desc 0x23 1) (sramOf (e / 4) (s.queue (e / 4) (outQueue x.desc 0)).outAt)
        ((s.queue (e / 4) (outQueue x.desc 0)).scaleUnits * 256) (s.drainLanes e b x.desc)).byte a := by
  have hframe := (s.drainFire_frame h).trans (EngineFrame.mirror _)
  have hengine := (hframe.engine e).trans (State.engine_setEngine_same ..)
  refine ⟨_, exec_drainFire s e b, ?_, ?_, ?_, fun a => (hframe.byte a).trans rfl⟩ <;> rw [hengine]

end Drain

/-! ## The statement -/

theorem exec_feederFire (s : State) (e : Nat) : exec (.feederFire e) s = .next (s.feederFire e).mirror := rfl

theorem exec_engineFire (s : State) (e : Nat) : exec (.engineFire e) s = .next (s.engineFire e).mirror := rfl

theorem exec_drainComplete (s : State) (e : Nat) : exec (.drainComplete e) s = .next (s.drainComplete e).mirror := rfl

theorem exec_histogramDelivery (s : State) (k c q : Nat) :
    exec (.histogramDelivery k c q) s = .next (s.histDelivery k ⟨c, q⟩).mirror := rfl

/-- Settles O14: each command's operation in the case of its statement; the tile that a drain writes is read back through the rest of the
drain, a Z4 tile's elements below its scale plane. The form of the feed is the model's
choice (log 39). -/
theorem engineAccumulates : Obligations.EngineAccumulates := by
  unfold Obligations.EngineAccumulates
  refine ⟨?feeder, ?engine, ?drain, ?drainZ4, ?complete, ?histogram, exec_feederFire, exec_engineFire, exec_drainFire, exec_drainComplete,
    exec_histogramDelivery⟩
  case feeder =>
    intro s e b x hacc hentry hopnd hhung hk hedge
    rw [exec_feederFire, State.feederFire_of_withinBlock hacc hentry hopnd hhung hk hedge]
  case engine =>
    intro s e b i x hfree hlowest hhung hload
    rw [exec_engineFire, State.engineFire_of_fromZero hfree hlowest hhung hload]
  case drain =>
    intro s e b x hst hdrain hfirst hhung hentry hcredit hruns hfmt
    obtain ⟨t, hexec, hdrained, hbank0, hbank1, hbyte⟩ :=
      exec_drainFire_of_drains ⟨hst, hdrain, hfirst, hhung, hentry, hcredit, hruns⟩
    refine ⟨t, hexec, hdrained, hbank0, hbank1, fun i v hv => ?_⟩
    rw [hbyte]
    exact State.byte_writeTile hfmt (by rwa [State.drainLanes, List.map_map])
  case drainZ4 =>
    intro s e b x hst hdrain hfirst hhung hentry hcredit hruns hfmt hunits
    obtain ⟨t, hexec, hdrained, hbank0, hbank1, hbyte⟩ :=
      exec_drainFire_of_drains ⟨hst, hdrain, hfirst, hhung, hentry, hcredit, hruns⟩
    refine ⟨t, hexec, hdrained, hbank0, hbank1, fun i v hv => ?_, fun i v hv => ?_⟩
    · rw [hbyte, hfmt]
      refine State.byte_writeTile_z4 ?_ (by rwa [State.drainLanes, List.map_map, hfmt])
      rw [State.drainLanes_z4_length hfmt]
      omega
    · rw [hbyte, hfmt]
      exact State.byte_writeTile_z4_scale (by rwa [State.drainLanes, List.map_map, hfmt])
  case complete =>
    intro s e dr x hdrain hentry
    rw [exec_drainComplete, State.drainComplete_of_drains hdrain hentry]
  case histogram =>
    intro s k c q cc va m h ps hcmd hwork hacts hstopped hheld hpieces hinside
    rw [exec_histogramDelivery, State.histDelivery_of_delivers hcmd hwork hacts hstopped hheld hpieces hinside]

end Sys2Proof.Machine

/-! PROOF. A step of an engine (R136, R141, R144, R170): it accumulates into every cell of the fed bank and into no other where that bank is
one of the engine's two. The statement about it fails: it puts no bound on the number of the bank that is fed. -/

namespace Sys2Proof.Machine

/-! ## What a step writes (R136, R141, R144) -/

section Cells

variable {s : State} {e b i j e' b' i' j' : Nat}

theorem State.cell_setCell_same (v : Nat) : (s.setCell e b i j v).cell e b i j = v % 2 ^ 32 := by
  simp only [cell, setCell, Store.get_set_same, BitVec.toNat_ofNat]

theorem State.cell_setCell_other (v : Nat) (hne : (e', b', i', j') ≠ (e, b, i, j)) (hb' : b' < 2) (hi' : i' < 64) (hj' : j' < 64)
    (hb : b < 2) (hi : i < 64) (hj : j < 64) : (s.setCell e b i j v).cell e' b' i' j' = s.cell e' b' i' j' := by
  have hkey : ((e' * 2 + b') * 64 + i') * 64 + j' ≠ ((e * 2 + b) * 64 + i) * 64 + j := by
    intro heq
    obtain ⟨rfl, rfl, rfl, rfl⟩ : e' = e ∧ b' = b ∧ i' = i ∧ j' = j := by omega
    exact hne rfl
  simp only [cell, setCell, Store.get_set_other hkey]

/-- Writes the listed results into a bank's cells, by row and column. -/
def State.setCells (s : State) (e b : Nat) (l : List (Nat × Nat × CellRes)) : State :=
  l.foldl (fun s r => s.setCell e b r.1 r.2.1 r.2.2.bits) s

/-- The list gives results of f, at rows and columns of a bank. -/
def ResultsOf (f : Nat → Nat → CellRes) (l : List (Nat × Nat × CellRes)) : Prop :=
  ∀ r ∈ l, r.1 < 64 ∧ r.2.1 < 64 ∧ r.2.2 = f r.1 r.2.1

variable {f : Nat → Nat → CellRes} {l : List (Nat × Nat × CellRes)}

theorem State.cell_setCells_other (hl : ResultsOf f l) (hne : (e', b') ≠ (e, b)) (hb : b < 2) (hb' : b' < 2) (hi : i < 64) (hj : j < 64) :
    (s.setCells e b l).cell e' b' i j = s.cell e' b' i j := by
  induction l generalizing s with
  | nil => rfl
  | cons r rest ih =>
    obtain ⟨⟨hrow, hcol, -⟩, hrest⟩ := List.forall_mem_cons.mp hl
    have hcell : (e', b', i, j) ≠ (e, b, r.1, r.2.1) := fun heq => hne (by injection heq with he heq; injection heq with hb; rw [he, hb])
    exact (ih hrest).trans (cell_setCell_other _ hcell hb' hi hj hb hrow hcol)

/-- A listed cell, or one that holds its result before, holds it after the writes. -/
theorem State.cell_setCells_same (hl : ResultsOf f l) (hb : b < 2) (hi : i < 64) (hj : j < 64)
    (hlisted : (i, j, f i j) ∈ l ∨ s.cell e b i j = (f i j).bits % 2 ^ 32) :
    (s.setCells e b l).cell e b i j = (f i j).bits % 2 ^ 32 := by
  induction l generalizing s with
  | nil => exact hlisted.resolve_left (List.not_mem_nil)
  | cons r rest ih =>
    obtain ⟨row, col, res⟩ := r
    obtain ⟨⟨hrow, hcol, hres⟩, hrest⟩ := List.forall_mem_cons.mp hl
    dsimp only at hrow hcol hres
    subst hres
    refine ih hrest ?_
    by_cases hhere : (i, j) = (row, col)
    · cases hhere
      exact .inr (cell_setCell_same _)
    · refine hlisted.imp (fun hmem => ?_) (fun hcell => ?_)
      · refine (List.mem_cons.mp hmem).resolve_left fun heq => hhere ?_
        injection heq with hi' heq
        injection heq with hj'
        rw [hi', hj']
      · refine (cell_setCell_other _ (fun heq => hhere ?_) hb hi hj hb hrow hcol).trans hcell
        injection heq with _ heq
        injection heq

theorem MemSame.setCell (s : State) (e b i j v : Nat) : MemSame s (s.setCell e b i j v) := ⟨rfl, rfl, rfl⟩

theorem MemSame.setCells (s : State) (e b : Nat) (l : List (Nat × Nat × CellRes)) : MemSame s (s.setCells e b l) := by
  unfold State.setCells
  exact MemSame.foldl _ (fun _ _ => MemSame.setCell ..) l s

end Cells

theorem State.mem_stepCells (s : State) (e b mode : Nat) (o : Operands) {r : Nat × Nat × CellRes} :
    r ∈ s.stepCells e b mode o ↔
      r.1 < 64 ∧ r.2.1 < 64 ∧ r.2.2 = cellStep (s.cell e b r.1 r.2.1) (stepProducts mode o r.1 r.2.1) := by
  obtain ⟨row, col, res⟩ := r
  simp only [stepCells, List.mem_flatten, List.mem_map, List.mem_range]
  constructor
  · rintro ⟨-, ⟨i, hi, rfl⟩, hmem⟩
    obtain ⟨j, hj, heq⟩ := List.mem_map.mp hmem
    cases heq
    exact ⟨hi, List.mem_range.mp hj, rfl⟩
  · rintro ⟨hrow, hcol, rfl⟩
    exact ⟨_, ⟨row, hrow, rfl⟩, List.mem_map.mpr ⟨col, List.mem_range.mpr hcol, rfl⟩⟩

theorem EngineFrame.captureExc (s : State) {e : Nat} (he : e < 512) (n coord : Nat) (x : Entry) :
    EngineFrame s (s.captureExc e n coord x) := by
  unfold State.captureExc
  dsimp only
  split
  · exact refl s
  · split
    · exact setFld ..
    · refine EngineFrame.trans ?_ (Reported.engineEvent _ rfl he).frame
      exact (((((setReg ..).trans (setFld ..)).trans (setFld ..)).trans (setFld ..)).trans (setFld ..)).trans
        ((setFld ..).trans (setFld ..))

/-! ## The step (R136, R144, R170) -/

/-- What an engine needs to step: operands at its bank's k-index, and nothing that holds it. -/
structure State.Steps (s : State) (e b : Nat) (o : Operands) (x : Entry) : Prop where
  accumulating : (s.engine e).accumulating = some b
  operands : (s.engine e).opnd = some o
  entry : s.entry (e / 4) ((s.engine e).bank b).entry = some x
  index : o.k = ((s.engine e).bank b).k
  alive : s.engineHung e = false
  clocked : s.coreHeld (e / 4) = false
  traced : s.traceHolds 3 1 (e / 4) (descLayer x.desc) (descOper x.desc) = false

/-- The bank after its step under descriptor d. -/
def Bank.stepped (x : Bank) (d : List Byte) : Bank :=
  { x with k := x.k + kPerStep (engMode d), st := if engK d ≤ x.k + kPerStep (engMode d) then .completed else .accumulating }

/-- The state with the step's results in bank b's cells, and the engine moved on. -/
def State.stepped (s : State) (e b : Nat) (o : Operands) (x : Entry) : State :=
  (s.setCells e b (s.stepCells e b (engMode x.desc) o)).setEngine e
    { (s.engine e).setBank b (((s.engine e).bank b).stepped x.desc) with opnd := none }

section Stepped

variable (s : State) (e b : Nat) (o : Operands) (x : Entry)

theorem State.stepped_cell (e' b' i j : Nat) :
    (s.stepped e b o x).cell e' b' i j = (s.setCells e b (s.stepCells e b (engMode x.desc) o)).cell e' b' i j := by
  simp only [stepped, cell, setEngine_frame]

theorem State.stepped_engine :
    (s.stepped e b o x).engine e = { (s.engine e).setBank b (((s.engine e).bank b).stepped x.desc) with opnd := none } := by
  rw [stepped, engine_setEngine_same]

theorem MemSame.setEngine (s : State) (e : Nat) (g : Engine) : MemSame s (s.setEngine e g) := ⟨rfl, rfl, rfl⟩

theorem MemSame.stepped : MemSame s (s.stepped e b o x) := by
  rw [State.stepped]
  exact (MemSame.setCells ..).trans (MemSame.setEngine ..)

end Stepped

/-- What a step counts, records and frees beside its cells touches no engine, cell or byte. -/
theorem State.engineStep_frame {s : State} {e b : Nat} {o : Operands} {x : Entry} (he : e < 512) (h : s.Steps e b o x) :
    EngineFrame (s.stepped e b o x) (s.engineStep e) := by
  obtain ⟨hacc, hopnd, hentry, hindex, hhung, hheld, htrace⟩ := h
  have hsteps : ¬ (o.k ≠ ((s.engine e).bank b).k ∨ s.engineHung e ∨ s.coreHeld (e / 4) ∨
      s.traceHolds 3 1 (e / 4) (descLayer x.desc) (descOper x.desc)) := by
    simp [hindex, hhung, hheld, htrace]
  have hrecorded (w : State) (fl n coord : Nat) :
      EngineFrame w (((w.raiseExc e fl).captureExc e n coord x).sumExc x.cmd e fl coord) :=
    ((EngineFrame.raiseExc ..).trans (EngineFrame.captureExc _ he ..)).trans (EngineFrame.sumExc ..)
  have hfreed (w : State) (p : Bool) (f g : Queue → Queue) : EngineFrame w
      (if p then (w.updQueue (e / 4) (inQueue x.desc 0) f).updQueue (e / 4) (inQueue x.desc 1) g else w) := by
    split
    · exact (EngineFrame.updQueue ..).trans (EngineFrame.updQueue ..)
    · exact EngineFrame.refl w
  unfold engineStep
  dsimp only
  rw [hacc, hopnd]
  dsimp only
  rw [hentry]
  dsimp only
  rw [if_neg hsteps]
  simp only [decide_eq_true_eq, ge_iff_le]
  exact (((hrecorded _ _ _ _).trans (hfreed _ _ _ _)).congr_setEngine e _).trans
    ((EngineFrame.countEngine ..).trans ((EngineFrame.countEngine ..).trans (EngineFrame.progress ..)))

theorem exec_engineStep (s : State) (e : Nat) : exec (.engineStep e) s = .next (s.engineStep e).mirror := rfl

/-- R136, R141, R144: on an engine that feeds bank 0 or 1, a step accumulates into every cell of that bank and into no other, takes the
operands, and moves the bank on. -/
theorem exec_engineStep_of_bank_lt {s : State} {e b : Nat} {o : Operands} {x : Entry} (he : e < 512) (hb : b < 2) (h : s.Steps e b o x) :
    ∃ t, exec (.engineStep e) s = .next t ∧
      (∀ i j, i < 64 → j < 64 → t.cell e b i j = (cellStep (s.cell e b i j) (stepProducts (engMode x.desc) o i j)).bits % 2 ^ 32) ∧
      (∀ e' b' i j, b' < 2 → i < 64 → j < 64 → (e', b') ≠ (e, b) → t.cell e' b' i j = s.cell e' b' i j) ∧
      t.engine e = { (s.engine e).setBank b (((s.engine e).bank b).stepped x.desc) with opnd := none } ∧ MemoryKept s t := by
  have hframe := (State.engineStep_frame he h).trans (EngineFrame.mirror _)
  have hresults : ResultsOf (fun i j => cellStep (s.cell e b i j) (stepProducts (engMode x.desc) o i j))
      (s.stepCells e b (engMode x.desc) o) := fun _ hr => (s.mem_stepCells ..).mp hr
  refine ⟨_, exec_engineStep s e, fun i j hi hj => ?stepped, fun e' b' i j hb' hi hj hne => ?other, ?engine, ?memory⟩
  case stepped =>
    have hlisted : (i, j, cellStep (s.cell e b i j) (stepProducts (engMode x.desc) o i j)) ∈ s.stepCells e b (engMode x.desc) o :=
      (s.mem_stepCells ..).mpr ⟨hi, hj, rfl⟩
    exact (hframe.cell e b i j).trans ((s.stepped_cell ..).trans (State.cell_setCells_same hresults hb hi hj (.inl hlisted)))
  case other =>
    exact (hframe.cell e' b' i j).trans ((s.stepped_cell ..).trans (State.cell_setCells_other hresults hne hb hb' hi hj))
  case engine => exact (hframe.engine e).trans (s.stepped_engine ..)
  case memory => exact ((MemSame.stepped ..).trans hframe.memory).kept

/-! ## A fed bank out of range -/

/-- One k-index of 1.0 times 1.0 for cell (0, 0), in Z4. -/
def strayOperands : Operands := ⟨0, [([2], 127)], [([2], 127)]⟩

/-- A Z4 descriptor of one k-index. -/
def strayEntry : Entry := ⟨List.replicate 128 0, [], ⟨0, 0⟩, 0, 0, true⟩

/-- Engine 0 is fed a bank numbered 2, which reads as bank 1 and accumulates; its cells have the keys of engine 1's bank 0. -/
def strayFeed : State :=
  (State.reset.setEntry 0 0 (some strayEntry)).setEngine 0 ⟨Bank.empty, ⟨.accumulating, 0, 0, 0⟩, some strayOperands, none, 2⟩

/-- Cell (0, 0) of engine 0's bank 2 and of engine 1's bank 0 are one. -/
theorem State.cell_bank_two (s : State) : s.cell 0 2 0 0 = s.cell 1 0 0 0 := rfl

theorem strayFeed_cellStep :
    (cellStep (strayFeed.cell 0 2 0 0) (stepProducts (engMode strayEntry.desc) strayOperands 0 0)).bits % 2 ^ 32 = 0x3F80_0000 := by
  decide +kernel

/-- Refutes O15: nothing keeps the fed bank's number below 2, and a step that takes cell (0, 0) of engine 0's bank 2 from +0 to 1.0
changes that cell of engine 1's bank 0. For banks 0 and 1 the step is as stated: `exec_engineStep_of_bank_lt`. -/
theorem not_engineStepCells : ¬ Obligations.EngineStepCells := by
  unfold Obligations.EngineStepCells
  rintro ⟨hstep, -⟩
  obtain ⟨t, -, hstepped, hother, -⟩ := hstep strayFeed 0 2 strayOperands strayEntry (by decide) rfl rfl rfl rfl (by decide) rfl
  have hone : t.cell 0 2 0 0 = 0x3F80_0000 := (hstepped 0 0 (by decide) (by decide)).trans strayFeed_cellStep
  have hzero : t.cell 1 0 0 0 = 0 := hother 1 0 0 0 (by decide) (by decide) (by decide) (by decide)
  rw [State.cell_bank_two, hzero] at hone
  cases hone

end Sys2Proof.Machine

/-! PROOF. A store into core SRAM (R163): core SRAM is one range without codes, so a store there is the bytes that it stores. -/

namespace Sys2Proof.Machine

/-! ## Bytes without a code -/

theorem State.setBytes_append (s : State) (a : Nat) (b c : List Byte) :
    s.setBytes a (b ++ c) = (s.setBytes a b).setBytes (a + b.length) c := by
  induction b generalizing s a with
  | nil => rfl
  | cons v rest ih =>
    rw [List.cons_append, setBytes, ih, setBytes, List.length_cons, show a + (rest.length + 1) = a + 1 + rest.length by omega]

theorem State.syn_setBytes (s : State) (a g : Nat) (b : List Byte) : (s.setBytes a b).syn g = s.syn g := by
  induction b generalizing s a with
  | nil => rfl
  | cons v rest ih => rw [setBytes, ih, syn_setByte]

/-- None of n bytes at a lies in a granule that has a code. -/
def Uncoded (a n : Nat) : Prop := ∀ x, a ≤ x → x < a + n → coded (x / 32 * 32) = false

theorem Uncoded.head {a n : Nat} (h : Uncoded a n) (hn : n ≠ 0) : coded (a / 32 * 32) = false := h a (Nat.le_refl a) (by omega)

theorem Uncoded.drop {a n k : Nat} (h : Uncoded a n) (hk : k ≤ n) : Uncoded (a + k) (n - k) :=
  fun x hlo hhi => h x (by omega) (by omega)

theorem State.writeGranule_of_uncoded {s : State} {a : Nat} {b : List Byte} (h : coded (a / 32 * 32) = false) :
    s.writeGranule a b = (s.setBytes a b, false) := by
  simp [writeGranule, h]

theorem State.writeGranules_of_uncoded {s : State} {a n : Nat} {b : List Byte} (h : Uncoded a b.length)
    (hn : b.length ≤ 32 * n - a % 32) : s.writeGranules a b n = (s.setBytes a b, false) := by
  induction n generalizing s a b with
  | zero =>
    obtain rfl : b = [] := List.length_eq_zero_iff.mp (by omega)
    rfl
  | succ n ih =>
    rw [writeGranules]
    split
    · next hempty =>
      obtain rfl : b = [] := List.isEmpty_iff.mp hempty
      rfl
    · next hsome =>
      have hlength : b.length ≠ 0 := fun h0 => hsome (List.isEmpty_iff.mpr (List.length_eq_zero_iff.mp h0))
      generalize hk : min (32 - a % 32) b.length = k
      have hrest : Uncoded (a + k) (b.drop k).length := by
        rw [List.length_drop]
        exact h.drop (by omega)
      have hbound : (b.drop k).length ≤ 32 * n - (a + k) % 32 := by
        rw [List.length_drop]
        omega
      have htake : (b.take k).length = k := List.length_take_of_le (by omega)
      have hjoined : (s.setBytes a (b.take k)).setBytes (a + k) (b.drop k) = s.setBytes a b := by
        have happend := s.setBytes_append a (b.take k) (b.drop k)
        rw [List.take_append_drop, htake] at happend
        exact happend.symm
      simp only [writeGranule_of_uncoded (h.head hlength), ih hrest hbound, hjoined, Bool.or_self]

theorem State.writeMem_of_uncoded {s : State} {a : Nat} {b : List Byte} (h : Uncoded a b.length) :
    s.writeMem a b = (s.setBytes a b, false) :=
  writeGranules_of_uncoded h (by omega)

/-! ## Core SRAM (R37, R40, R163) -/

/-- An address of the range of core SRAM (R37). -/
def InSram (a : Nat) : Prop := sramBase ≤ a ∧ a < 0x1_1000_0000

theorem locate_of_inSram {a : Nat} (h : InSram a) : locate a = .sram ((a - sramBase) / sramStride) ((a - sramBase) % sramStride) := by
  obtain ⟨hlo, hhi⟩ := h
  unfold sramBase at hlo
  unfold locate regBase sramBase
  rw [if_neg (by omega), if_neg (by omega), if_neg (by omega), if_neg (by omega), if_pos hhi]

/-- How one branch of `locate` gives a place. -/
theorem Loc.ite_eq_iff {c : Prop} [Decidable c] {x y z : Loc} : (if c then x else y) = z ↔ c ∧ x = z ∨ ¬ c ∧ y = z := by
  by_cases hc : c <;> simp [hc]

theorem inSram_of_locate {a k o : Nat} (h : locate a = .sram k o) : InSram a := by
  unfold locate at h
  simp only [Loc.ite_eq_iff, reduceCtorEq, and_false, false_or, or_false] at h
  obtain ⟨-, -, -, hlo, hhi, -⟩ := h
  exact ⟨Nat.le_of_not_lt hlo, hhi⟩

theorem coded_of_inSram {a : Nat} (h : InSram a) : coded a = false := by simp [coded, locate_of_inSram h]

theorem inSram_of_sameUnit {a z : Nat} (ha : InSram a) (hunit : sameUnit a z = true) : InSram z := by
  cases hz : locate z with
  | sram k o => exact inSram_of_locate hz
  | _ => simp [sameUnit, locate_of_inSram ha, hz] at hunit

/-- An access that is let through begins and ends in one unit. -/
theorem State.sameUnit_of_judge {s t : State} {rq : Requester} {op a n : Nat} (h : s.judge rq op a n = (t, none)) :
    sameUnit a (a + n - 1) = true := by
  unfold judge at h
  dsimp only at h
  split at h
  case h_5 =>
    cases hunit : sameUnit a (a + n - 1) with
    | true => rfl
    | false => simp [hunit] at h
  all_goals cases h

/-- The range begins at a granule's edge, so a granule with a byte of core SRAM lies in it. -/
theorem InSram.granule {a : Nat} (h : InSram a) : InSram (a / 32 * 32) := by
  obtain ⟨hlo, hhi⟩ := h
  unfold sramBase at hlo
  unfold InSram sramBase
  omega

theorem uncoded_of_inSram {a n : Nat} (ha : InSram a) (hz : InSram (a + n - 1)) : Uncoded a n := by
  intro x hlo hhi
  obtain ⟨hbase, -⟩ := ha
  obtain ⟨-, htop⟩ := hz
  exact coded_of_inSram (InSram.granule ⟨by omega, by omega⟩)

theorem InSram.not_cacheable {a : Nat} (h : InSram a) : cacheable a = false := by simp [cacheable, locate_of_inSram h]

/-- R163: a write that core SRAM takes stores its bytes and ends the reservations of their lines. -/
theorem State.writeLocal_of_inSram {s : State} {rq : Requester} {ref : Option CmdRef} {a : Nat} {d : List Byte} (ha : InSram a)
    (hjudge : s.judge rq 2 a d.length = (s, none)) :
    s.writeLocal rq ref a d = ((s.clearResvs a d.length).setBytes a d, stOk) := by
  have hz : InSram (a + d.length - 1) := inSram_of_sameUnit ha (sameUnit_of_judge hjudge)
  simp only [writeLocal, hjudge, ha.not_cacheable, Bool.false_eq_true, if_false, writeMem_of_uncoded (uncoded_of_inSram ha hz), clearResvs]

theorem MemSame.emit (s : State) (o : Out) : MemSame s (s.emit o) := ⟨rfl, rfl, rfl⟩

/-- Settles O52: both ends of an access that is let through lie in core SRAM, where no granule has a code, so the store is the bytes that it
stores; its answer and its count leave memory alone. -/
theorem sramStoreFrame : Obligations.SramStoreFrame := by
  unfold Obligations.SramStoreFrame
  intro s rq a k o d hplace hjudge
  have hwrite := State.writeLocal_of_inSram (ref := none) (inSram_of_locate hplace) hjudge
  have hexec : exec (.sramEndpointAccess rq a (.write d)) s =
      .next ((((s.clearResvs a d.length).setBytes a d).emit (.endpointAnswer rq.unit a stOk [])).countCore k 0x14 0 1).mirror := by
    rw [exec_sramEndpointAccess, State.sramAccess_of_sram hplace, State.endpointAccess_write hwrite]
  have hcleared : MemSame s (s.clearResvs a d.length) := (EngineFrame.clearResvs ..).memory
  have hstored (u : State) (x : Out) : MemSame u ((u.emit x).countCore k 0x14 0 1).mirror :=
    ((MemSame.emit ..).trans (EngineFrame.countCore ..).memory).trans (EngineFrame.mirror _).memory
  refine ⟨_, hexec, fun i hi => ?stored, fun x hx => ?others, fun g => ?checks⟩
  case stored => rw [(hstored ..).byte, State.byte_setBytes_at d _ a i hi]
  case others => rw [(hstored ..).byte, State.byte_setBytes_other _ _ _ _ hx, hcleared.byte]
  case checks => rw [(hstored ..).syn, State.syn_setBytes, hcleared.syn]

end Sys2Proof.Machine

/-! PROOF. The vector unit (R169, R179 to R182): what each command of a vector program does when its opcode is the next instruction, and what
an arithmetic opcode leaves in every lane. -/

namespace Sys2Proof.Machine

/-! ## Issuing (R169, R180) -/

section Issue

variable {s : State} {k i w opc : Nat} {r : VecRun} {x : Entry}

theorem State.vectorFire_of_ready (hidle : s.vecRun k = none) (hlowest : s.lowestEntry k (fun _ x => s.vectorReady k x) = some (i, x)) :
    s.vectorFire k = ((s.takePorts k x.desc).setVecRun k (some ⟨i, x.started, 0, false⟩)).fireStart k i x := by
  simp only [vectorFire, hidle, hlowest]

/-- VEND counts no lanes. -/
theorem State.vecIssue_of_end {act : State → Entry → Nat → State} (hnext : s.vecNext k 0 = some (r, x, w)) :
    s.vecIssue k 0 act = (act s x w).vecAdvance k r 0 0 := by
  simp only [vecIssue, hnext, if_true]

theorem State.vecIssue_of_next {act : State → Entry → Nat → State} (hopc : opc ≠ 0) (hnext : s.vecNext k opc = some (r, x, w)) :
    s.vecIssue k opc act = (act s x w).vecAdvance k r opc (s.lanesOn k w).length := by
  simp only [vecIssue, hnext, if_neg hopc]

theorem State.vecArith_of_type {op : LaneOp} {ty : FCode} (hty : FCode.ofCode (vType w) = some ty) :
    s.vecArith k op x w = (s.setLanes k (vVd w) ((s.laneResults k op ty w).map (fun r => (r.1, r.2.bits)))).noteVFlags k x
      (orFlags ((s.laneResults k op ty w).map (·.2))) := by
  simp only [vecArith, hty]

theorem State.vecShift_of_type {ty : FCode} (hty : FCode.ofCode (vType w) = some ty) :
    s.vecShift k w =
      s.setLanes k (vVd w) ((s.lanesOn k w).map (fun l => (l, laneShr ty (vOffset w % 32) (s.vreg k (vVs1 w) l)))) := by
  simp only [vecShift, hty]

theorem State.vecCompare_of_type {ty : FCode} {rel : FCode → Nat → Nat → Bool} (hty : FCode.ofCode (vType w) = some ty) :
    s.vecCompare k rel w = s.setVmask k (vVd w % 8) ((s.lanesOn k w).foldl (fun acc l =>
      putBits acc l 1 (if rel ty (s.vreg k (vVs1 w) l) (s.vreg k (vVs2 w) l) then 1 else 0)) (s.vmask k (vVd w % 8))) := by
  simp only [vecCompare, hty]

theorem State.vecConvert_of_types {ty tz : FCode} (hty : FCode.ofCode (vType w) = some ty) (htz : FCode.ofCode (vType2 w) = some tz) :
    s.vecConvert k x w = (s.setLanes k (vVd w) ((s.lanesOn k w).map (fun l =>
      (l, (convert ty tz (vRoundOf w) (vSatf w) (s.vreg k (vVs1 w) l)).bits)))).noteVFlags k x
        (orFlags ((s.lanesOn k w).map (fun l => convert ty tz (vRoundOf w) (vSatf w) (s.vreg k (vVs1 w) l)))) := by
  simp only [vecConvert, hty, htz, List.map_map, Function.comp_def]

section Slots

variable {q : Queue} {first : Nat} {a b : FCode}

/-- R179: lanes take the element of their own number, or, of VLDB, all of them the first. -/
theorem State.vecLoad_of_slots {one : Bool} (hslots : s.vecSlots k x w = some (q, first)) (ha : FCode.ofCode (vType w) = some a)
    (hb : FCode.ofCode (vType2 w) = some b) :
    s.vecLoad k one x w = (s.setLanes k (vVd w) ((s.lanesOn k w).map (fun l =>
      (l, (loadConvert a b w (s.vecElement k q first (4 * vOffset w) a (if one then 0 else l))).bits)))).noteVFlags k x
        (orFlags ((s.lanesOn k w).map (fun l =>
          loadConvert a b w (s.vecElement k q first (4 * vOffset w) a (if one then 0 else l))))) := by
  simp only [vecLoad, hslots, ha, hb, List.map_map, Function.comp_def]

theorem State.vecStore_of_slots (hslots : s.vecSlots k x w = some (q, first)) (ha : FCode.ofCode (vType w) = some a)
    (hb : FCode.ofCode (vType2 w) = some b) :
    s.vecStore k x w = if b.bits = 4 then s.vecStoreZ4 k q first a x w else s.vecStoreBytes k q first a b x w := by
  simp only [vecStore, hslots, ha, hb]

end Slots

end Issue

/-! ## The commands -/

section Commands

variable (s : State) (k : Nat)

theorem exec_vectorFire : exec (.vectorFire k) s = .next (s.vectorFire k).mirror := rfl

theorem exec_vend : exec (.vend k) s = .next (s.vecIssue k 0x00 (fun s _ _ => s)).mirror := rfl

theorem exec_vadd : exec (.vadd k) s = .next (s.vecIssue k 0x01 (fun s x w => s.vecArith k .add x w)).mirror := rfl

theorem exec_vsub : exec (.vsub k) s = .next (s.vecIssue k 0x02 (fun s x w => s.vecArith k .sub x w)).mirror := rfl

theorem exec_vmul : exec (.vmul k) s = .next (s.vecIssue k 0x03 (fun s x w => s.vecArith k .mul x w)).mirror := rfl

theorem exec_vfma : exec (.vfma k) s = .next (s.vecIssue k 0x04 (fun s x w => s.vecArith k .fma x w)).mirror := rfl

theorem exec_vmin : exec (.vmin k) s = .next (s.vecIssue k 0x05 (fun s x w => s.vecArith k .vmin x w)).mirror := rfl

theorem exec_vmax : exec (.vmax k) s = .next (s.vecIssue k 0x06 (fun s x w => s.vecArith k .vmax x w)).mirror := rfl

theorem exec_vaddsat : exec (.vaddsat k) s = .next (s.vecIssue k 0x07 (fun s x w => s.vecArith k .addSat x w)).mirror := rfl

theorem exec_vshr : exec (.vshr k) s = .next (s.vecIssue k 0x08 (fun s _ w => s.vecShift k w)).mirror := rfl

theorem exec_vcmplt : exec (.vcmplt k) s = .next (s.vecIssue k 0x09 (fun s _ w => s.vecCompare k laneLess w)).mirror := rfl

theorem exec_vcmpeq : exec (.vcmpeq k) s = .next (s.vecIssue k 0x0A (fun s _ w => s.vecCompare k laneEq w)).mirror := rfl

theorem exec_vsel : exec (.vsel k) s = .next (s.vecIssue k 0x0B (fun s _ w => s.vecSelect k w)).mirror := rfl

theorem exec_vcvt : exec (.vcvt k) s = .next (s.vecIssue k 0x0C (fun s x w => s.vecConvert k x w)).mirror := rfl

theorem exec_vrcp : exec (.vrcp k) s = .next (s.vecIssue k 0x0D (fun s x w => s.vecArith k .rcp x w)).mirror := rfl

theorem exec_vrsqrt : exec (.vrsqrt k) s = .next (s.vecIssue k 0x0E (fun s x w => s.vecArith k .rsqrt x w)).mirror := rfl

theorem exec_vexp2 : exec (.vexp2 k) s = .next (s.vecIssue k 0x0F (fun s x w => s.vecArith k .exp2 x w)).mirror := rfl

theorem exec_vlog2 : exec (.vlog2 k) s = .next (s.vecIssue k 0x10 (fun s x w => s.vecArith k .log2 x w)).mirror := rfl

theorem exec_vredadd : exec (.vredadd k) s = .next (s.vecIssue k 0x11 (fun s x w => s.vecReduce k false x w)).mirror := rfl

theorem exec_vredmax : exec (.vredmax k) s = .next (s.vecIssue k 0x12 (fun s x w => s.vecReduce k true x w)).mirror := rfl

theorem exec_vld : exec (.vld k) s = .next (s.vecIssue k 0x20 (fun s x w => s.vecLoad k false x w)).mirror := rfl

theorem exec_vldb : exec (.vldb k) s = .next (s.vecIssue k 0x21 (fun s x w => s.vecLoad k true x w)).mirror := rfl

theorem exec_vst : exec (.vst k) s = .next (s.vecIssue k 0x22 (fun s x w => s.vecStore k x w)).mirror := rfl

end Commands

section Next

variable {s : State} {k w opc : Nat} {r : VecRun} {x : Entry} {c : Instr}

/-- A command of an opcode other than VEND, when that opcode is the next instruction. -/
theorem exec_of_vecNext {act : State → Entry → Nat → State} (hexec : exec c s = .next (s.vecIssue k opc act).mirror) (hopc : opc ≠ 0)
    (hnext : s.vecNext k opc = some (r, x, w)) :
    exec c s = .next ((act s x w).vecAdvance k r opc (s.lanesOn k w).length).mirror := by
  rw [hexec, State.vecIssue_of_next hopc hnext]

/-- A command of an arithmetic opcode, when that opcode is the next instruction. -/
theorem exec_of_vecNext_arith {op : LaneOp} {ty : FCode}
    (hexec : exec c s = .next (s.vecIssue k opc (fun s x w => s.vecArith k op x w)).mirror) (hopc : opc ≠ 0)
    (hnext : s.vecNext k opc = some (r, x, w)) (hty : FCode.ofCode (vType w) = some ty) :
    exec c s = .next (((s.setLanes k (vVd w) ((s.laneResults k op ty w).map (fun r => (r.1, r.2.bits)))).noteVFlags k x
      (orFlags ((s.laneResults k op ty w).map (·.2)))).vecAdvance k r opc (s.lanesOn k w).length).mirror := by
  rw [exec_of_vecNext hexec hopc hnext, State.vecArith_of_type hty]

end Next

/-- Settles O12: each command issues the next instruction of its opcode, and the opcode's operation is read off where the types, and
the slots of a load or store, are those of its statement. -/
theorem vectorPrograms : Obligations.VectorPrograms := by
  unfold Obligations.VectorPrograms
  refine ⟨?fire, ?vend,
    fun s k _ _ _ _ => exec_of_vecNext_arith (exec_vadd s k) (by decide),
    fun s k _ _ _ _ => exec_of_vecNext_arith (exec_vsub s k) (by decide),
    fun s k _ _ _ _ => exec_of_vecNext_arith (exec_vmul s k) (by decide),
    fun s k _ _ _ _ => exec_of_vecNext_arith (exec_vfma s k) (by decide),
    fun s k _ _ _ _ => exec_of_vecNext_arith (exec_vmin s k) (by decide),
    fun s k _ _ _ _ => exec_of_vecNext_arith (exec_vmax s k) (by decide),
    fun s k _ _ _ _ => exec_of_vecNext_arith (exec_vaddsat s k) (by decide),
    fun s k _ _ _ _ => exec_of_vecNext_arith (exec_vrcp s k) (by decide),
    fun s k _ _ _ _ => exec_of_vecNext_arith (exec_vrsqrt s k) (by decide),
    fun s k _ _ _ _ => exec_of_vecNext_arith (exec_vexp2 s k) (by decide),
    fun s k _ _ _ _ => exec_of_vecNext_arith (exec_vlog2 s k) (by decide),
    ?vshr, ?vcmplt, ?vcmpeq, ?vsel, ?vcvt, ?vredadd, ?vredmax, ?vld, ?vldb,
    ?vstBytes, ?vstZ4, exec_vectorFire, exec_vend, exec_vadd, exec_vsub, exec_vmul, exec_vfma, exec_vmin, exec_vmax, exec_vaddsat, exec_vrcp,
    exec_vrsqrt, exec_vexp2, exec_vlog2, exec_vshr, exec_vcmplt, exec_vcmpeq, exec_vsel, exec_vcvt, exec_vredadd, exec_vredmax, exec_vld,
    exec_vldb, exec_vst⟩
  case fire =>
    intro s k i x hidle hlowest
    rw [exec_vectorFire, State.vectorFire_of_ready hidle hlowest]
  case vend =>
    intro s k w r x hnext
    rw [exec_vend, State.vecIssue_of_end hnext]
  case vshr =>
    intro s k w r x ty hnext hty
    rw [exec_of_vecNext (exec_vshr s k) (by decide) hnext, State.vecShift_of_type hty]
  case vcmplt =>
    intro s k w r x ty hnext hty
    rw [exec_of_vecNext (exec_vcmplt s k) (by decide) hnext, State.vecCompare_of_type hty]
  case vcmpeq =>
    intro s k w r x ty hnext hty
    rw [exec_of_vecNext (exec_vcmpeq s k) (by decide) hnext, State.vecCompare_of_type hty]
  case vsel =>
    intro s k w r x hnext
    rw [exec_of_vecNext (exec_vsel s k) (by decide) hnext, State.vecSelect]
  case vcvt =>
    intro s k w r x ty tz hnext hty htz
    rw [exec_of_vecNext (exec_vcvt s k) (by decide) hnext, State.vecConvert_of_types hty htz]
  case vredadd => exact fun s k _ _ _ _ hnext _ => exec_of_vecNext (exec_vredadd s k) (by decide) hnext
  case vredmax => exact fun s k _ _ _ _ hnext _ => exec_of_vecNext (exec_vredmax s k) (by decide) hnext
  case vld =>
    intro s k w first r x q a b hnext hslots ha hb
    rw [exec_of_vecNext (exec_vld s k) (by decide) hnext, State.vecLoad_of_slots hslots ha hb]
    rfl
  case vldb =>
    intro s k w first r x q a b hnext hslots ha hb
    rw [exec_of_vecNext (exec_vldb s k) (by decide) hnext, State.vecLoad_of_slots hslots ha hb]
    rfl
  case vstBytes =>
    intro s k w first r x q a b hnext hslots ha hb hbits
    rw [exec_of_vecNext (exec_vst s k) (by decide) hnext, State.vecStore_of_slots hslots ha hb, if_neg hbits]
  case vstZ4 =>
    intro s k w first r x q a b hnext hslots ha hb hbits
    rw [exec_of_vecNext (exec_vst s k) (by decide) hnext, State.vecStore_of_slots hslots ha hb, if_pos hbits]

end Sys2Proof.Machine

/-! PROOF. The lanes of an arithmetic opcode (R179 to R181): what writing lanes of a vector register leaves in each lane of each register, and
the statement about the eleven arithmetic opcodes. -/

namespace Sys2Proof.Machine

/-! ## Writing lanes (R179) -/

section Lanes

variable {s : State} {k v l k' v' l' : Nat}

theorem State.vreg_setVreg_same (n : Nat) : (s.setVreg k v l n).vreg k v l = n % 2 ^ 32 := by
  simp only [vreg, setVreg, Store.get_set_same, BitVec.toNat_ofNat]

theorem State.vreg_setVreg_otherLane (n : Nat) (hne : l' ≠ l) : (s.setVreg k v l n).vreg k v l' = s.vreg k v l' := by
  have hkey : k * 2048 + v * 64 + l' ≠ k * 2048 + v * 64 + l := by omega
  simp only [vreg, setVreg, Store.get_set_other hkey]

theorem State.vreg_setVreg_otherReg (n : Nat) (hne : (k', v') ≠ (k, v)) (hv : v < 32) (hl : l < 64) (hv' : v' < 32) (hl' : l' < 64) :
    (s.setVreg k v l n).vreg k' v' l' = s.vreg k' v' l' := by
  have hkey : k' * 2048 + v' * 64 + l' ≠ k * 2048 + v * 64 + l := by
    intro heq
    obtain ⟨rfl, rfl⟩ : k' = k ∧ v' = v := by omega
    exact hne rfl
  simp only [vreg, setVreg, Store.get_set_other hkey]

/-- A listed lane holds its result, whatever it held; any other lane of the register holds what it held. -/
theorem State.vreg_setLanes (on : List Nat) (f : Nat → Nat) :
    (s.setLanes k v (on.map (fun l => (l, f l)))).vreg k v l = if on.contains l then f l % 2 ^ 32 else s.vreg k v l := by
  induction on generalizing s with
  | nil => rfl
  | cons m rest ih =>
    have hrest : (s.setLanes k v ((m :: rest).map (fun l => (l, f l)))).vreg k v l =
        if rest.contains l then f l % 2 ^ 32 else (s.setVreg k v m (f m)).vreg k v l := ih
    rw [hrest]
    by_cases hlm : l = m
    · subst hlm
      simp [vreg_setVreg_same]
    · simp [vreg_setVreg_otherLane _ hlm, hlm]

theorem State.vreg_setLanes_otherReg {res : List (Nat × Nat)} (hres : ∀ p ∈ res, p.1 < 64) (hne : (k', v') ≠ (k, v)) (hv : v < 32)
    (hv' : v' < 32) (hl : l < 64) : (s.setLanes k v res).vreg k' v' l = s.vreg k' v' l := by
  induction res generalizing s with
  | nil => rfl
  | cons p rest ih =>
    obtain ⟨hp, hrest⟩ := List.forall_mem_cons.mp hres
    exact (ih hrest).trans (vreg_setVreg_otherReg _ hne hv hp hv' hl)

theorem State.lt_of_mem_lanesOn {w : Nat} (h : l ∈ s.lanesOn k w) : l < 64 := List.mem_range.mp (List.mem_filter.mp h).1

theorem vVd_lt (w : Nat) : vVd w < 32 := Nat.mod_lt _ (by decide)

end Lanes

/-! ## What an opcode leaves alone beside its lanes (R181, R182) -/

/-- Mask registers, memory and check bytes stand as they stood. -/
structure LanesOnly (s t : State) : Prop where
  masks : t.masks = s.masks
  memory : MemSame s t

namespace LanesOnly

variable {s t u : State}

theorem trans (hst : LanesOnly s t) (htu : LanesOnly t u) : LanesOnly s u :=
  ⟨htu.masks.trans hst.masks, hst.memory.trans htu.memory⟩

theorem setLanes (s : State) (k v : Nat) (res : List (Nat × Nat)) : LanesOnly s (s.setLanes k v res) := by
  induction res generalizing s with
  | nil => exact ⟨rfl, MemSame.refl s⟩
  | cons p rest ih => exact LanesOnly.trans (t := s.setVreg k v p.1 p.2) ⟨rfl, rfl, rfl, rfl⟩ (ih _)

theorem vmask (h : LanesOnly s t) (k m : Nat) : t.vmask k m = s.vmask k m := by simp only [State.vmask, h.masks]

end LanesOnly

/-- Vector registers, mask registers, memory and check bytes stand as they stood. -/
structure VectorKept (s t : State) : Prop extends LanesOnly s t where
  vregs : t.vregs = s.vregs

namespace VectorKept

variable {s t u : State}

theorem refl (s : State) : VectorKept s s := ⟨⟨rfl, MemSame.refl s⟩, rfl⟩

theorem trans (hst : VectorKept s t) (htu : VectorKept t u) : VectorKept s u :=
  ⟨hst.toLanesOnly.trans htu.toLanesOnly, htu.vregs.trans hst.vregs⟩

theorem foldl {α : Type} {f : State → α → State} (hf : ∀ s x, VectorKept s (f s x)) (l : List α) (s : State) :
    VectorKept s (l.foldl f s) := by
  induction l generalizing s with
  | nil => exact refl s
  | cons x rest ih => exact (hf s x).trans (ih _)

theorem vreg (h : VectorKept s t) (k v l : Nat) : t.vreg k v l = s.vreg k v l := by simp only [State.vreg, h.vregs]

/-- Registers, waiting overflows and the running programs are no part of the frame. -/
theorem apart (s : State) (regs : List (Nat × Word)) (ovfs : List (Nat × Nat × Nat)) (vec : List (Nat × Option VecRun)) :
    VectorKept s { s with regs := regs, ovfs := ovfs, vec := vec } := ⟨⟨rfl, rfl, rfl, rfl⟩, rfl⟩

theorem updCmd (s : State) (c : CmdRef) (f : Cmd → Cmd) : VectorKept s (s.updCmd c f) := ⟨⟨rfl, rfl, rfl, rfl⟩, rfl⟩

theorem noteVFlags (s : State) (k : Nat) (x : Entry) (fl : Nat) : VectorKept s (s.noteVFlags k x fl) :=
  (apart s _ s.ovfs s.vec).trans (updCmd ..)

theorem mirror (s : State) : VectorKept s s.mirror := by
  rw [State.mirror_regs]
  exact apart s _ s.ovfs s.vec

theorem setFld (s : State) (f : Field) (i n : Nat) : VectorKept s (s.setFld f i n) := apart s _ s.ovfs s.vec

theorem count1 (s : State) (kind unit i key inst : Nat) (valF ovfF : Field) (code n : Nat) :
    VectorKept s (s.count1 kind unit i key inst valF ovfF code n) := by
  unfold State.count1
  dsimp only
  generalize min (2 ^ 48 - 1) (s.fld valF inst + n) = v
  split
  · refine (setFld s valF inst v).trans ?_
    split
    · refine (setFld _ ovfF inst 1).trans ?_
      split
      · exact apart _ _ _ _
      · exact refl _
    · exact refl _
  · exact refl s

theorem countCore (s : State) (k base q n : Nat) : VectorKept s (s.countCore k base q n) := by
  unfold State.countCore
  split
  · exact foldl (fun _ _ => count1 ..) _ s
  · exact refl s

theorem vecAdvance (s : State) (k : Nat) (r : VecRun) (opc lanes : Nat) : VectorKept s (s.vecAdvance k r opc lanes) :=
  ((apart s s.regs s.ovfs _).trans (countCore ..)).trans (countCore ..)

end VectorKept

/-! ## The arithmetic opcodes (R180, R181) -/

/-- The result of an arithmetic opcode on one lane of its sources. -/
def State.laneResult (s : State) (k : Nat) (op : LaneOp) (ty : FCode) (w l : Nat) : Res :=
  laneOp op ty (vRoundOf w) (vSatf w) (s.vreg k (vVs1 w) l) (s.vreg k (vVs2 w) l) (s.vreg k (vVs3 w) l)

theorem State.laneResults_bits (s : State) (k : Nat) (op : LaneOp) (ty : FCode) (w : Nat) :
    (s.laneResults k op ty w).map (fun r => (r.1, r.2.bits)) =
      (s.lanesOn k w).map (fun l => (l, (s.laneResult k op ty w l).bits)) := by
  rw [laneResults, List.map_map]
  rfl

/-- The state with the results of an arithmetic opcode in the selected lanes of VD. -/
def State.lanesWritten (s : State) (k : Nat) (op : LaneOp) (ty : FCode) (w : Nat) : State :=
  s.setLanes k (vVd w) ((s.lanesOn k w).map (fun l => (l, (s.laneResult k op ty w l).bits)))

/-- The commands of the arithmetic opcodes on core k, with the opcode and the lane operation of each. -/
def arithCommands (k : Nat) : List (Instr × Nat × LaneOp) :=
  [(.vadd k, 0x01, .add), (.vsub k, 0x02, .sub), (.vmul k, 0x03, .mul), (.vfma k, 0x04, .fma), (.vmin k, 0x05, .vmin), (.vmax k, 0x06, .vmax),
    (.vaddsat k, 0x07, .addSat), (.vrcp k, 0x0d, .rcp), (.vrsqrt k, 0x0e, .rsqrt), (.vexp2 k, 0x0f, .exp2), (.vlog2 k, 0x10, .log2)]

theorem exec_arithCommands (s : State) (k : Nat) : ∀ p ∈ arithCommands k,
    exec p.1 s = .next (s.vecIssue k p.2.1 (fun s x w => s.vecArith k p.2.2 x w)).mirror ∧ p.2.1 ≠ 0 := by
  unfold arithCommands
  simp only [List.forall_mem_cons]
  exact ⟨⟨exec_vadd s k, by decide⟩, ⟨exec_vsub s k, by decide⟩, ⟨exec_vmul s k, by decide⟩, ⟨exec_vfma s k, by decide⟩,
    ⟨exec_vmin s k, by decide⟩, ⟨exec_vmax s k, by decide⟩, ⟨exec_vaddsat s k, by decide⟩, ⟨exec_vrcp s k, by decide⟩,
    ⟨exec_vrsqrt s k, by decide⟩, ⟨exec_vexp2 s k, by decide⟩, ⟨exec_vlog2 s k, by decide⟩, fun _ hp => (List.not_mem_nil hp).elim⟩

/-- Recording the flags, counting, and stepping the program on leave what the lanes' results have made of the vector unit. -/
theorem exec_arith_kept {s : State} {k w opc : Nat} {r : VecRun} {x : Entry} {ty : FCode} {c : Instr} {op : LaneOp}
    (hmem : (c, opc, op) ∈ arithCommands k) (hnext : s.vecNext k opc = some (r, x, w)) (hty : FCode.ofCode (vType w) = some ty) :
    ∃ t, exec c s = .next t ∧ VectorKept (s.lanesWritten k op ty w) t := by
  obtain ⟨hissue, hopc⟩ := exec_arithCommands s k _ hmem
  have hexec := exec_of_vecNext_arith hissue hopc hnext hty
  rw [State.laneResults_bits] at hexec
  exact ⟨_, hexec, ((VectorKept.noteVFlags ..).trans (VectorKept.vecAdvance ..)).trans (VectorKept.mirror _)⟩

/-- Settles O13: the vector unit is left as writing the results into the selected lanes of VD leaves it, and the lanes read are those of the
state before, so VD may be a source as well. -/
theorem vectorLanes : Obligations.VectorLanes := by
  unfold Obligations.VectorLanes
  intro s k w opc r x ty c op hmem hnext hty
  obtain ⟨t, hexec, hkept⟩ := exec_arith_kept hmem hnext hty
  have honly : LanesOnly s t := (LanesOnly.setLanes ..).trans hkept.toLanesOnly
  refine ⟨t, hexec, fun l _ => ?selected, fun k' v l hv hl hne => ?others, honly.vmask, honly.memory.kept⟩
  case selected => rw [hkept.vreg, State.lanesWritten, State.vreg_setLanes, State.laneResult]
  case others =>
    have hlanes : ∀ p ∈ (s.lanesOn k w).map (fun l => (l, (s.laneResult k op ty w l).bits)), p.1 < 64 :=
      List.forall_mem_map.mpr fun _ hl => State.lt_of_mem_lanesOn hl
    rw [hkept.vreg, State.lanesWritten, State.vreg_setLanes_otherReg hlanes hne (vVd_lt w) hv hl]

end Sys2Proof.Machine

/-! PROOF. Tile movers (R169, R263 to R267, R270): what the start of a mover's firing, a tile reader's resolution, a stager's claim and flip, a
poisoned read and the completion of a firing do in the cases of their statement; and that statement. -/

namespace Sys2Proof.Machine

/-! ## Firings of movers (R169) -/

section Movers

variable {s u v w : State} {k e f i a n : Nat} {fr : Firing} {x : Entry} {ce : CircEntry}

/-- A mover's firing as it starts: no piece of it is translated. -/
def newFiring (k e f : Nat) : Firing := ⟨k, e, f, 0, [], none, none, false, 0, none, .active, 0, false, 0, none⟩

theorem State.moverStart_of_ready (hlowest : s.lowestEntry k (fun _ x => s.moverReady k x) = some (i, x)) :
    s.moverStart k = (({ s.takePorts k x.desc with firings := (s.takePorts k x.desc).firings ++ [newFiring k i x.started] } : State).countCore
      k 0x0E 0 1).fireStart k i x := by
  simp only [moverStart, hlowest, newFiring]

/-! ## Tile readers (R263, R264, R270) -/

/-- R263: a PRESENT tile of the descriptor's footprint at the circuit's end is the firing's one piece. -/
theorem State.resolveTile_of_present (hentry : s.tileEntry (s.partOfCtx x.ctx) (tileId x.desc fr.f) = some a)
    (hread : s.ttRead (s.moverRq fr.core) a = (u, stOk, n)) (hpresent : tileState n = 1) (hformat : formatOk (tileFormat n) = true)
    (hfootprint : footprint (tileFormat n) = moverBytes x.desc) (hend : inEndpoint ce.src (tileLoc n) = true) :
    s.resolveTile fr x ce = u.updFiring fr.core fr.entry fr.f (fun y => { y with
      word0 := n, resolvedAt := some u.ft, stage := .active, pieces := some [(tileLoc n, moverBytes x.desc)], since := u.ft + 1 }) := by
  simp [resolveTile, hentry, hread, hpresent, hformat, hfootprint, hend]

theorem State.tileResolve_of_reader (hfiring : s.moverFiring k e f = some (fr, x, ce)) (htile : moverTile x.desc = true)
    (hdir : moverDir x.desc = 0) (hstage : fr.stage = .active) (hpieces : fr.pieces = none) (hacts : s.firingActs k e f x = true) :
    s.tileResolve k e f = s.resolveTile fr x ce := by
  simp [tileResolve, hfiring, htile, hdir, hstage, hpieces, hacts]

/-- R264, R267: at the first beat of the circuit's next period. -/
theorem State.tileRetry_of_waiting (hfiring : s.moverFiring k e f = some (fr, x, ce)) (hstage : fr.stage = .waiting)
    (hacts : s.firingActs k e f x = true) (hperiod : s.ft % 2 ^ ce.k = 0) (hnext : fr.resolvedAt ≠ some s.ft) (hdir : moverDir x.desc = 0) :
    s.tileRetry k e f = s.resolveTile fr x ce := by
  simp [tileRetry, hfiring, hstage, hacts, hperiod, hnext, hdir]

theorem State.tilePoisoned_of_entry (hfiring : s.moverFiring k e f = some (fr, x, ce)) (hstage : fr.stage = .poisoned)
    (htile : moverTile x.desc = true) (hbusy : s.tileBusy (s.partOfCtx x.ctx) (tileId x.desc f) = false)
    (hfailed : (s.event ⟨s.ft, 0x8007, 1, k, some x.ctx, descLayer x.desc, descOper x.desc, x.cmd.seq, tileLoc fr.word0⟩).failCmd x.cmd
      stPoisoned = u)
    (hentry : u.tileEntry (s.partOfCtx x.ctx) (tileId x.desc f) = some a) :
    s.tilePoisoned k e f = (u.ttSwap (s.moverRq k) a fr.word0 (putBits fr.word0 0 4 3)).1.tileNotice (s.partOfCtx x.ctx) (tileId x.desc f) 1
      stPoisoned x.ctx (tileLoc fr.word0) (descLayer x.desc) (descOper x.desc) := by
  subst hfailed
  simp [tilePoisoned, hfiring, hstage, htile, hbusy, hentry]

/-! ## Stagers (R265, R269) -/

theorem State.stagerFire_of_turn (hfiring : s.moverFiring k e f = some (fr, x, ce)) (htile : moverTile x.desc = true)
    (hdir : moverDir x.desc = 1) (hstage : fr.stage = .active) (hacts : s.firingActs k e f x = true) (hturn : s.stagerTurn k e f = true)
    (hbusy : s.tileBusy (s.partOfCtx x.ctx) (tileId x.desc f) = false) : s.stagerFire k e f = s.stagerAct fr x ce := by
  simp [stagerFire, hfiring, htile, hdir, hstage, hacts, hturn, hbusy]

/-- R265 steps 5 to 7, once the data has arrived: word 0 is PRESENT at NEXT with the next epoch, and word 1 points back. -/
theorem State.stagerFlip_of_delivered {claim next : Nat} (hreverts : s.doReverts (fun v => v.core == k && v.entry == e && v.f == f) = u)
    (hfiring : u.moverFiring k e f = some (fr, x, ce)) (hstage : fr.stage = .claimed claim next)
    (hfirst : (u.firingsBefore k e f).any (fun y => y.stage != .finished) = false) (hdelivered : u.undelivered ce.id x.cmd e f = false)
    (hbusy : u.tileBusy (u.partOfCtx x.ctx) (tileId x.desc f) = false) (hacts : u.firingActs k e f x = true)
    (hentry : u.tileEntry (u.partOfCtx x.ctx) (tileId x.desc f) = some a)
    (hswap : u.ttSwap (u.moverRq k) a claim (putBits (putBits (putBits claim 0 4 1) 8 44 (next / 256)) 52 12 (tileEpoch claim + 1)) =
      (v, stOk, true))
    (hwrite : v.ttWrite (u.moverRq k) x.cmd (a + 8) (word1Of 0 (tileLoc claim)) = (w, stOk)) :
    s.stagerFlip k e f = w.updFiring k e f (fun y => { y with stage := .finished }) := by
  subst hreverts
  simp only [stagerFlip, hfiring, hstage, hfirst, hdelivered, hbusy, hacts, hentry, hswap, hwrite, ne_eq, not_true_eq_false, Bool.not_true,
    Bool.false_eq_true, or_self, if_false, if_true]

/-! ## Completion (R169, R172) -/

theorem State.moverDone_of_oldest (hfiring : s.moverFiring k e f = some (fr, x, ce)) (hstage : fr.stage = .finished)
    (holdest : s.firingsBefore k e f = []) :
    s.moverDone k e f = ((((({ s with firings := s.firings.filter (fun y => !(y.core == k && y.entry == e && y.f == f)) } : State).givePorts
      k x.desc x.cmd).firingDone k e x).pendCheck (moverCirc x.desc) x.cmd).tileFenceCheck (s.partOfCtx x.ctx)) := by
  simp [moverDone, hfiring, hstage, holdest]

theorem State.vectorDone_of_ended {r : VecRun} (hrun : s.vecRun k = some r) (hentry : s.entry k e = some x) (he : r.entry = e) (hf : r.f = f)
    (hended : r.ended = true) : s.vectorDone k e f = ((s.givePorts k x.desc x.cmd).setVecRun k none).firingDone k e x := by
  simp [vectorDone, hrun, hentry, he, hf, hended]

theorem State.firingComplete_of_entry (hentry : s.entry k e = some x) :
    s.firingComplete k e f = if descUnit x.desc = 2 then s.vectorDone k e f else s.moverDone k e f := by
  simp only [firingComplete, hentry]

end Movers

/-! ## The statement -/

section Commands

variable (s : State) (k e f : Nat)

theorem exec_moverFire : exec (.moverFire k) s = .next (s.moverFire k).mirror := rfl

theorem exec_tileResolve : exec (.tileResolve k e f) s = .next (s.tileResolve k e f).mirror := rfl

theorem exec_tileResolveRetry : exec (.tileResolveRetry k e f) s = .next (s.tileRetry k e f).mirror := rfl

theorem exec_tilePoisonedRead : exec (.tilePoisonedRead k e f) s = .next (s.tilePoisoned k e f).mirror := rfl

theorem exec_stagerFire : exec (.stagerFire k e f) s = .next (s.stagerFire k e f).mirror := rfl

theorem exec_stagerFlip : exec (.stagerFlip k e f) s = .next (s.stagerFlip k e f).mirror := rfl

theorem exec_firingComplete : exec (.firingComplete k e f) s = .next (s.firingComplete k e f).mirror := rfl

end Commands

/-- Settles O16: each command's operation in the case of its statement. That a core's firings go on side by side, each from its own place, is
the model's reading (log 38). -/
theorem tileMovers : Obligations.TileMovers := by
  unfold Obligations.TileMovers
  refine ⟨?moverFire, ?resolve, ?retry, ?poisoned, ?stagerFire, ?stagerFlip, ?moverDone, ?vectorDone, exec_moverFire, exec_tileResolve,
    exec_tileResolveRetry, exec_tilePoisonedRead, exec_stagerFire, exec_stagerFlip, exec_firingComplete⟩
  case moverFire =>
    intro s u k i x hlowest hstarted
    rw [exec_moverFire, State.moverFire, State.moverStart_of_ready hlowest, newFiring, hstarted]
  case resolve =>
    intro s u k e f a w fr x ce hfiring htile hdir hstage hpieces hacts hentry hread hpresent hformat hfootprint hend
    rw [exec_tileResolve, State.tileResolve_of_reader hfiring htile hdir hstage hpieces hacts,
      State.resolveTile_of_present hentry hread hpresent hformat hfootprint hend]
  case retry =>
    intro s k e f fr x ce hfiring hstage hacts hperiod hnext hdir
    rw [exec_tileResolveRetry, State.tileRetry_of_waiting hfiring hstage hacts hperiod hnext hdir]
  case poisoned =>
    intro s u k e f a fr x ce hfiring hstage htile hbusy hfailed hentry
    rw [exec_tilePoisonedRead, State.tilePoisoned_of_entry hfiring hstage htile hbusy hfailed hentry]
  case stagerFire =>
    intro s k e f fr x ce hfiring htile hdir hstage hacts hturn hbusy
    rw [exec_stagerFire, State.stagerFire_of_turn hfiring htile hdir hstage hacts hturn hbusy]
  case stagerFlip =>
    intro s u v w k e f a claim next fr x ce hreverts hfiring hstage hfirst hdelivered hbusy hacts hentry hswap hwrite
    rw [exec_stagerFlip, State.stagerFlip_of_delivered hreverts hfiring hstage hfirst hdelivered hbusy hacts hentry hswap hwrite]
  case moverDone =>
    intro s k e f fr x ce hentry hunit hfiring hstage holdest
    rw [exec_firingComplete, State.firingComplete_of_entry hentry, if_neg hunit, State.moverDone_of_oldest hfiring hstage holdest]
  case vectorDone =>
    intro s k e f r x hentry hunit hrun he hf hended
    rw [exec_firingComplete, State.firingComplete_of_entry hentry, if_pos hunit, State.vectorDone_of_ended hrun hentry he hf hended]

end Sys2Proof.Machine

/-! PROOF. The status fields that mirror a unit's state (R195, R514): they show the state of every context and the trace buffer's
occupancy in every state that a command answers, nothing else moves with them, and so every step of the machine keeps them. -/

namespace Sys2Proof.Machine

/-! ## What a command's answer shows -/

theorem State.mirror_ctx (s : State) (c : Nat) : s.mirror.ctx c = s.ctx c := by
  simp only [State.ctx, State.mirror_frame]

/-- R195, R514: whatever state the effect of a command leaves, its answer shows that state. -/
theorem State.mirror_statusShown (s : State) : StatusShown s.mirror := by
  have htrc : s.mirror.trc = s.trc := by simp only [State.mirror_frame]
  refine ⟨fun c hc => ?_, ?_⟩
  · rw [State.mirror_ctx, s.mirror_ctx_state c hc]
  · rw [htrc, s.mirror_occupancy]

theorem exec_statusShown {c : Instr} {s t : State} (hexec : exec c s = .next t) : StatusShown t := by
  obtain ⟨u, hu⟩ := exec_answers c s
  have ht : u.mirror = t := Host.Outcome.next.inj (hu.symm.trans hexec)
  exact ht ▸ u.mirror_statusShown

/-! ## Steps -/

theorem step_of_idle {s : State} (hpending : s.pending = []) : step s = .next s := by
  simp only [step, hpending]

theorem step_of_waiting {s : State} {c : Instr} {rest : List Instr} (hpending : s.pending = c :: rest) :
    step s = exec c { s with pending := rest } := by
  simp only [step, hpending]

/-- Settles O47: with no command waiting the step idles, and the state that showed its contexts stays (log 1); any other step is one
command's answer. -/
theorem stepKeepsStatusShown : Obligations.StepKeepsStatusShown := by
  unfold Obligations.StepKeepsStatusShown
  intro s t hshown hstep
  cases hpending : s.pending with
  | nil =>
    have hsame : s = t := Host.Outcome.next.inj ((step_of_idle hpending).symm.trans hstep)
    exact hsame ▸ hshown
  | cons c rest => exact exec_statusShown ((step_of_waiting hpending).symm.trans hstep)

/-- Settles O48: registers alone change, of these only HUB_CTX_STATUS and TRC_STATUS, and of these two only STATE and OCCUPANCY. -/
theorem mirrorFrame : Obligations.MirrorFrame := by
  unfold Obligations.MirrorFrame
  intro s
  refine ⟨s.mirror_regs, fun r i hi _ hctx htrc => s.mirror_reg hctx htrc hi, s.mirror_statusShown, ?fields⟩
  case fields =>
    rintro g j hj (⟨hctx, hapart⟩ | ⟨htrc, hapart⟩)
    · exact s.mirror_fld g j hj (.inr hapart) (.inl (by simp [hctx]))
    · exact s.mirror_fld g j hj (.inl (by simp [htrc])) (.inr hapart)

end Sys2Proof.Machine

/-! PROOF. Rings and the commands that they hold (R200 to R214): when a ring is sampled, when a command starts, what each opcode does to
the command that is under way under it, and when a command ends; and the statements about starts and ends and about effects. -/

namespace Sys2Proof.Machine

section Rings

variable {s t u : State} {c : Nat} {m : Cmd} {r : CmdRef}

/-! ## Samples and starts (R202, R205, R210) -/

/-- R202: at its poll beat a context that runs samples its ring, unless a fetch of the ring is in progress (log 17). -/
theorem State.ringPoll_of_running (hc : c < 256) (hbeat : s.pollBeat c = true) (hruns : s.ctxRuns c = true)
    (hpart : s.partRuns (s.partOfCtx c) = true) (hopen : s.quiescing (s.partOfCtx c) = false) :
    s.ringPoll c = if (s.ctx c).fetch.isSome then s.bump Fld.HUB_CTX_STATUS_POLLS_SKIPPED c else s.sampleRing c := by
  have hpolls : c < 256 ∧ s.pollBeat c = true ∧ s.ctxRuns c = true ∧ s.partRuns (s.partOfCtx c) = true ∧
      (!s.quiescing (s.partOfCtx c)) = true := ⟨hc, hbeat, hruns, hpart, by simp [hopen]⟩
  simp only [ringPoll, if_pos hpolls]

/-- R210: the next command is judged once the rules permit its start; a LAUNCH whose records stand at ARG1 has read them by then (log 17). -/
theorem State.commandStart_of_ready (hnext : (s.ctx c).next = some m) (hruns : s.ctxRuns c = true)
    (hpart : s.partRuns (s.partOfCtx c) = true) (hmay : (s.ctx c).mayStart m = true) (hread : m.opcode ≠ 3 ∨ m.recordsRead = true) :
    s.commandStart c = s.judgeStart c m := by
  simp only [commandStart, hnext, hruns, hpart, hmay, Bool.not_true, Bool.false_eq_true, or_self, if_false, if_pos hread]

theorem State.judgeStart_of_passes (hreason : s.startReason m = 0) : s.judgeStart c m = s.startCmd c m := if_pos hreason

theorem State.judgeStart_of_fails (hreason : s.startReason m ≠ 0) :
    s.judgeStart c m = s.failHeader ⟨c, m.seq⟩ (s.startReason m) := if_neg hreason

/-! ## Commands without accesses (R206, R210) -/

/-- NOP and ORDER, by their opcode. -/
theorem State.runDone_of_acting {op : Nat} (hacting : s.acting r op = some m) : s.runDone r op = s.finishCmd r := by
  simp only [runDone, hacting]

theorem State.runWait_of_acting (hacting : s.acting r 8 = some m) : s.runWait r = s.updCmd r (fun m => { m with installed := true }) := by
  simp only [runWait, hacting]

theorem State.runComplete_of_acting (hacting : s.acting r 7 = some m) :
    s.runComplete r = s.updCmd r (fun m => { m with installed := true }) := by
  simp only [runComplete, hacting]

/-- R210, R293: no access that a COMPLETE covers is open, and none has failed. -/
theorem State.accessesCompleted_of_ok (hcmd : s.cmd r = some m) (hop : m.opcode = 7) (hwaits : m.installed = true)
    (hunfinished : m.finished = false) (hopens : s.ctxOpens r.ctx = false) (hruns : (s.ctx r.ctx).st = .running)
    (hok : (s.ctx r.ctx).covered = 0) :
    s.accessesCompleted r = (({ s with broken := s.broken.filter (fun b => b.1 != (0, r.ctx)) } : State).updCtx r.ctx (fun x =>
      { x with covered := 0 })).finishCmd r := by
  simp [accessesCompleted, hcmd, hop, hwaits, hunfinished, hopens, hruns, hok]

/-! ## The end of a command (R214) -/

theorem State.commandEnd_of_latched (hcmd : s.cmd r = some m) (hending : (s.ctx r.ctx).st ≠ .ending) (hfree : (s.ctx r.ctx).st ≠ .free)
    (hdone : s.effectDone r m = true) (hlatched : m.latched = true) : s.commandEnd r = s.recordSteps r 3 := by
  simp [commandEnd, hcmd, hending, hfree, hdone, hlatched]

theorem State.commandEnd_of_effect_not_done (hcmd : s.cmd r = some m) (hdone : s.effectDone r m = false) : s.commandEnd r = s := by
  simp [commandEnd, hcmd, hdone]

/-! ## Records of queues and descriptors (R207, R208) -/

section QueueCommand

variable {size : Nat} {check : State → List Byte → Nat} {apply : State → List Byte → State}

/-- R207: a QFREE that names a busy queue. -/
theorem State.queueCommand_of_busy (hbusy : s.qfreeBusy m = true) : s.queueCommand r m size check apply = s.failHeader r 6 := if_pos hbusy

/-- R207: every record passes its check in the state that those before it leave. -/
theorem State.queueCommand_of_all (hbusy : s.qfreeBusy m = false)
    (hall : applyAll check apply 0 (cutEntries size (fieldAt m.slot 0x20 8) (m.slot.drop 0x40)) s = .inr t) :
    s.queueCommand r m size check apply = t.finishCmd r := by
  simp only [queueCommand, hbusy, Bool.false_eq_true, if_false, hall]

end QueueCommand

theorem State.runQcfg_of_acting (hacting : s.acting r 1 = some m) :
    s.runQcfg r = s.queueCommand r m 16 (fun s => s.checkQcfg r.ctx) (fun s => s.applyQcfg r.ctx) := by
  simp only [runQcfg, hacting]

theorem State.runQfree_of_acting (hacting : s.acting r 2 = some m) :
    s.runQfree r = s.queueCommand r m 8 (fun s => s.checkQfree r.ctx) State.applyQfree := by
  simp only [runQfree, hacting]

/-- R208: no recovery keeps an engine of the LAUNCH for another context. -/
theorem State.launch_of_acting (hacting : s.acting r 3 = some m) (hnew : m.installed = false)
    (hrecovers : s.recoversFor (launchRecords m) = false) : s.launch r = s.launchInstall r m (launchRecords m) := by
  simp [launch, hacting, hnew, hrecovers]

/-- R178, R208: every record passes its checks, and all of them are installed, each in the entry that its checks gave it. -/
theorem State.launchInstall_of_passes {recs : List (List Byte)} {slots : List Nat} (hhist : (histAddrs recs).length ≤ 1)
    (hslots : s.checkRecords r m.coresField 0 recs [] = .inr slots) :
    s.launchInstall r m recs = ((recs.zip slots).foldl (fun s x => s.install1 r (recCore x.1) x.2 (recDesc x.1)) s).updCmd r (fun m' =>
      { m' with installed := true, histAddr := (histAddrs recs).headD 0 }) := by
  simp only [launchInstall, if_neg (Nat.not_lt.mpr hhist), hslots]

/-! ## Accesses (R206) -/

theorem State.runWrite_of_taken {b : List Byte} (hwrite : s.cmdWrite r m m.arg0 b = some (t, true)) : s.runWrite r m b = t.finishCmd r := by
  simp only [runWrite, hwrite]

theorem State.writeCommand_of_accessing (haccessing : s.accessing r 4 = some m) : s.writeCommand r = s.runWrite r m m.payload := by
  simp only [writeCommand, haccessing]

theorem State.timestampCommand_of_accessing (haccessing : s.accessing r 9 = some m) :
    s.timestampCommand r = s.runWrite r m (leBytes 8 m.startBeat) := by
  simp only [timestampCommand, haccessing]

/-- R206: a COPY that waits for no answer goes on from its position (log 18). -/
theorem State.copyCommand_of_accessing (haccessing : s.accessing r 5 = some m) (hanswered : s.readOpen r = false) :
    s.copyCommand r = s.copySteps r (fieldAt m.slot 0x40 8 + 1 - m.pos) := by
  simp [copyCommand, haccessing, hanswered]

/-- R206: at a poll beat of its ring a WAIT reads its value. -/
theorem State.waitPoll_of_read {pa n st : Nat} {b : List Byte} (haccessing : s.accessing r 8 = some m) (hwaits : m.installed = true)
    (hbeat : s.pollBeat r.ctx = true) (hanswered : s.readOpen r = false) (hxlate : s.xlateOne m.phys cmdCache r.ctx 1 m.arg0 = .ok pa n)
    (hread : s.issueRead (s.cmdRq r.ctx) (some r) pa 8 (.wait r) 4 = (u, .done st b)) : s.waitPoll r = u.waitValue r pa st b := by
  simp [waitPoll, haccessing, hwaits, hbeat, hanswered, hxlate, hread]

end Rings

section Commands

variable (s : State) (c seq : Nat)

theorem exec_ringPoll : exec (.ringPoll c) s = .next (s.ringPoll c).mirror := rfl

theorem exec_commandStart : exec (.commandStart c) s = .next (s.commandStart c).mirror := rfl

theorem exec_nop : exec (.nop c seq) s = .next (s.runDone ⟨c, seq⟩ 0).mirror := rfl

theorem exec_order : exec (.order c seq) s = .next (s.runDone ⟨c, seq⟩ 6).mirror := rfl

theorem exec_wait : exec (.wait c seq) s = .next (s.runWait ⟨c, seq⟩).mirror := rfl

theorem exec_complete : exec (.complete c seq) s = .next (s.runComplete ⟨c, seq⟩).mirror := rfl

theorem exec_accessesCompleted : exec (.accessesCompleted c seq) s = .next (s.accessesCompleted ⟨c, seq⟩).mirror := rfl

theorem exec_commandEnd : exec (.commandEnd c seq) s =
    .next ((s.doReverts (fun v => v.cmd == (⟨c, seq⟩ : CmdRef))).commandEnd ⟨c, seq⟩).mirror := rfl

theorem exec_qcfg : exec (.qcfg c seq) s = .next (s.runQcfg ⟨c, seq⟩).mirror := rfl

theorem exec_qfree : exec (.qfree c seq) s = .next (s.runQfree ⟨c, seq⟩).mirror := rfl

theorem exec_launch : exec (.launch c seq) s = .next (s.launch ⟨c, seq⟩).mirror := rfl

theorem exec_write : exec (.write c seq) s = .next (s.writeCommand ⟨c, seq⟩).mirror := rfl

theorem exec_copy : exec (.copy c seq) s = .next (s.copyCommand ⟨c, seq⟩).mirror := rfl

theorem exec_waitPoll : exec (.waitPoll c seq) s = .next (s.waitPoll ⟨c, seq⟩).mirror := rfl

theorem exec_timestamp : exec (.timestamp c seq) s = .next (s.timestampCommand ⟨c, seq⟩).mirror := rfl

end Commands

/-- Settles O8: each command's operation in the case of its statement. That a poll beat during a fetch is skipped, and that a header check
which depends on records or on queues is judged at the start, are the model's readings (log 17). -/
theorem ringAndCommandStarts : Obligations.RingAndCommandStarts := by
  unfold Obligations.RingAndCommandStarts
  refine ⟨?sample, ?skipped, ?starts, ?failsToStart, ?nop, ?order, ?wait, ?complete, ?completed, ?ends, ?goesOn, exec_ringPoll,
    exec_commandStart, exec_nop, exec_order, exec_wait, exec_complete, exec_accessesCompleted, exec_commandEnd⟩
  case sample =>
    intro s c hc hbeat hruns hpart hopen hfetch
    rw [exec_ringPoll, State.ringPoll_of_running hc hbeat hruns hpart hopen, if_neg (by simp [hfetch])]
  case skipped =>
    intro s c hc hbeat hruns hpart hopen hfetch
    rw [exec_ringPoll, State.ringPoll_of_running hc hbeat hruns hpart hopen, if_pos hfetch]
  case starts =>
    intro s c m hnext hruns hpart hmay hread hreason
    rw [exec_commandStart, State.commandStart_of_ready hnext hruns hpart hmay hread, State.judgeStart_of_passes hreason]
  case failsToStart =>
    intro s c m hnext hruns hpart hmay hread hreason
    rw [exec_commandStart, State.commandStart_of_ready hnext hruns hpart hmay hread, State.judgeStart_of_fails hreason]
  case nop =>
    intro s c q m hacting
    rw [exec_nop, State.runDone_of_acting hacting, State.finishCmd]
  case order =>
    intro s c q m hacting
    rw [exec_order, State.runDone_of_acting hacting, State.finishCmd]
  case wait =>
    intro s c q m hacting
    rw [exec_wait, State.runWait_of_acting hacting]
  case complete =>
    intro s c q m hacting
    rw [exec_complete, State.runComplete_of_acting hacting]
  case completed =>
    intro s c q m hcmd hop hwaits hunfinished hopens hruns hok
    rw [exec_accessesCompleted, State.accessesCompleted_of_ok hcmd hop hwaits hunfinished hopens hruns hok]
  case ends =>
    intro s u c q m hreverts hcmd hending hfree hdone hlatched
    rw [exec_commandEnd, hreverts, State.commandEnd_of_latched hcmd hending hfree hdone hlatched]
  case goesOn =>
    intro s u c q m hreverts hcmd hdone
    rw [exec_commandEnd, hreverts, State.commandEnd_of_effect_not_done hcmd hdone]

/-- Settles O9: each opcode's operation on the command that is under way under it. That a command's accesses are made at their place in
order, and a COPY's in parts, is the model's choice (log 18); that any one busy queue fails a QFREE, whatever its other records hold, is its
reading (log 17). -/
theorem commandEffects : Obligations.CommandEffects := by
  unfold Obligations.CommandEffects
  refine ⟨?qcfg, ?qfreeBusy, ?qfree, ?launch, ?write, ?copy, ?waitPoll, ?timestamp, exec_qcfg, exec_qfree, exec_launch, exec_write,
    exec_copy, exec_waitPoll, exec_timestamp⟩
  case qcfg =>
    intro s t c q m hacting hbusy hall
    rw [exec_qcfg, State.runQcfg_of_acting hacting, State.queueCommand_of_all hbusy hall, State.finishCmd]
  case qfreeBusy =>
    intro s c q m hacting hbusy
    rw [exec_qfree, State.runQfree_of_acting hacting, State.queueCommand_of_busy hbusy]
  case qfree =>
    intro s t c q m hacting hbusy hall
    rw [exec_qfree, State.runQfree_of_acting hacting, State.queueCommand_of_all hbusy hall, State.finishCmd]
  case launch =>
    intro s c q m l hacting hnew hrecovers hhist hslots
    rw [exec_launch, State.launch_of_acting hacting hnew hrecovers, State.launchInstall_of_passes hhist hslots]
  case write =>
    intro s t c q m haccessing hwrite
    rw [exec_write, State.writeCommand_of_accessing haccessing, Cmd.payload, State.runWrite_of_taken hwrite, State.finishCmd]
  case copy =>
    intro s c q m haccessing hanswered
    rw [exec_copy, State.copyCommand_of_accessing haccessing hanswered]
  case waitPoll =>
    intro s u c q m pa n st b haccessing hwaits hbeat hanswered hxlate hread
    rw [exec_waitPoll, State.waitPoll_of_read haccessing hwaits hbeat hanswered hxlate hread]
  case timestamp =>
    intro s t c q m haccessing hwrite
    rw [exec_timestamp, State.timestampCommand_of_accessing haccessing, State.runWrite_of_taken hwrite, State.finishCmd]

end Sys2Proof.Machine

/-! PROOF. Operations on a context and its pre-emption (R194 to R198, R215 to R219): what a write of HUB_CTX_CTL does by its bits and by
the state of the context, what a save leaves and where it goes, and how a pre-emption ends; and the statements about them. -/

namespace Sys2Proof.Machine

section ContextOperations

variable {s : State} {rq : Requester} {c bits : Nat}

/-! ## Writes of HUB_CTX_CTL (R194, R195, R219) -/

theorem State.ctxWrite_of_accepted (hwrite : s.acceptsWrite rq .HUB_CTX_CTL c = true) (hc : c < 256) :
    s.ctxWrite rq c bits = s.ctxCtl c bits := by
  rw [ctxWrite, if_neg (Nat.not_le.mpr hc), State.gated_accepted _ hwrite]

/-- R196: OP_ERR says why a CREATE has created nothing. -/
theorem State.ctxCtl_create_of_free (hbits : bits % 16 = 1) (hst : (s.ctx c).st = .free) :
    s.ctxCtl c bits = (s.createCtx c).1.setFld Fld.HUB_CTX_STATUS_OP_ERR c (s.createCtx c).2 := by
  simp only [ctxCtl, hbits, hst, if_true, setOpErr]

/-- R195: only a FREE context accepts CREATE. -/
theorem State.ctxCtl_create_of_not_free (hbits : bits % 16 = 1) (hst : (s.ctx c).st ≠ .free) :
    s.ctxCtl c bits = s.setFld Fld.HUB_CTX_STATUS_OP_ERR c opErrWrongState := by
  simp only [ctxCtl, hbits, if_neg hst, setOpErr]

/-- R215; a PREEMPT of a suspect that is being replayed would be ignored (R464). -/
theorem State.ctxCtl_preempt_of_running (hbits : bits % 16 = 2) (hst : (s.ctx c).st = .running) (hreplay : s.isReplaying c = false) :
    s.ctxCtl c bits = (s.preemptCtx c).setFld Fld.HUB_CTX_STATUS_OP_ERR c 0 := by
  simp only [ctxCtl, hbits, hst, hreplay, Bool.false_eq_true, if_false, setOpErr]

theorem State.ctxCtl_resume_of_preempted (hbits : bits % 16 = 4) (hst : (s.ctx c).st = .preempted) :
    s.ctxCtl c bits = (s.resumeCtx c).setFld Fld.HUB_CTX_STATUS_OP_ERR c 0 := by
  simp only [ctxCtl, hbits, hst, true_or, if_true, setOpErr]

theorem State.ctxCtl_end_of_running (hbits : bits % 16 = 8) (hst : (s.ctx c).st = .running) :
    s.ctxCtl c bits = (s.endCtx c).setFld Fld.HUB_CTX_STATUS_OP_ERR c 0 := by
  simp only [ctxCtl, hbits, hst, setOpErr]

/-- R219: with END and another bit set, the write asks for two operations or more. -/
theorem State.ctxCtl_of_end_and_another (hend : 8 ≤ bits % 16) (hother : bits % 16 ≠ 8) :
    s.ctxCtl c bits = s.setFld Fld.HUB_CTX_STATUS_OP_ERR c opErrMultiple := by
  unfold ctxCtl
  dsimp only
  split
  case h_6 => rfl
  all_goals omega

end ContextOperations

section Preemption

variable {s : State} {c e : Nat}

/-! ## Saves (R215, R217) -/

theorem State.engineSave_of_savable (hfind : s.ctxIds.find? (s.savable e) = some c) : s.engineSave e = s.saveEngine e c := by
  simp only [engineSave, hfind]

/-- R217: no save slot of the engine is free, and the write of the oldest save to its HBM save area succeeds. -/
theorem State.copyOut_of_full {i : Nat} {v : EngineSave} (hslots : s.fld Fld.CO_SAVE_CFG_SLOTS (e / 4) ≠ 0) (hfull : s.freeSlot e = none)
    (holdest : s.oldestSave e = some (c, v)) (hslot : v.slot = some i)
    (hok : (s.writeLocal (s.cmdRq c) none (s.saveArea c e) (s.bytes (slotAddr e i) saveBytes)).2 = stOk) :
    s.copyOut e = (s.writeLocal (s.cmdRq c) none (s.saveArea c e) (s.bytes (slotAddr e i) saveBytes)).1.updCtx c (fun x =>
      { x with saves := x.saves.map (fun y => if y = v then { y with slot := none } else y) }) := by
  simp [copyOut, hslots, hfull, holdest, hslot, hok]

/-! ## The end of a pre-emption (R215, R219, R347) -/

/-- A pre-emption can end: no firing of the context runs, and no engine holds work of it (log 22). -/
theorem State.preemptComplete_of_still (hst : (s.ctx c).st = .preempting) (hsuspect : s.isSuspect c = false)
    (hfirings : s.firingsRun c = false) (hengines : s.enginesHold c = false) :
    s.preemptComplete c =
      if (s.ctx c).saveErr ≠ 0 then
        ((s.setFld Fld.HUB_CTX_CTL_PREEMPT c 0).setFld Fld.HUB_CTX_STATUS_LAST_STATUS c (s.ctx c).saveErr).halt c 0
      else if (s.ctx c).haltAfter then
        ((s.setFld Fld.HUB_CTX_CTL_PREEMPT c 0).updCtx c (fun x => { x with haltAfter := false })).halt c 0
      else ((s.setFld Fld.HUB_CTX_CTL_PREEMPT c 0).setFld Fld.HUB_CTX_STATUS_LAST_STATUS c stPreempted).enterCtx c .preempted := by
  simp only [preemptComplete, hst, hsuspect, hfirings, hengines, ne_eq, not_true_eq_false, Bool.false_eq_true, or_self, if_false]

end Preemption

section Commands

variable (s : State) (rq : Requester) (c e bits : Nat)

theorem exec_create : exec (.create rq c bits) s = .next (s.ctxWrite rq c (bits ||| 1)).mirror := rfl

theorem exec_preempt : exec (.preempt rq c bits) s = .next (s.ctxWrite rq c (bits ||| 2)).mirror := rfl

theorem exec_resume : exec (.resume rq c bits) s = .next (s.ctxWrite rq c (bits ||| 4)).mirror := rfl

theorem exec_ctxEnd : exec (.ctxEnd rq c bits) s = .next (s.ctxWrite rq c (bits ||| 8)).mirror := rfl

theorem exec_engineSave : exec (.engineSave e) s = .next (s.engineSave e).mirror := rfl

theorem exec_saveSlotCopyOut : exec (.saveSlotCopyOut e) s = .next (s.copyOut e).mirror := rfl

theorem exec_preemptComplete : exec (.preemptComplete c) s = .next (s.preemptComplete c).mirror := rfl

end Commands

/-- Settles O10: an accepted write of HUB_CTX_CTL does what its bits ask for in the state of the context. -/
theorem contextOperations : Obligations.ContextOperations := by
  unfold Obligations.ContextOperations
  refine ⟨?create, ?notCreated, ?preempt, ?resume, ?ctxEnd, ?multiple, exec_create, exec_preempt, exec_resume, exec_ctxEnd⟩
  case create =>
    intro s rq c b hwrite hc hbits hst
    rw [exec_create, State.ctxWrite_of_accepted hwrite hc, State.ctxCtl_create_of_free hbits hst]
  case notCreated =>
    intro s rq c b hwrite hc hbits hst
    rw [exec_create, State.ctxWrite_of_accepted hwrite hc, State.ctxCtl_create_of_not_free hbits hst]
  case preempt =>
    intro s rq c b hwrite hc hbits hst hreplay
    rw [exec_preempt, State.ctxWrite_of_accepted hwrite hc, State.ctxCtl_preempt_of_running hbits hst hreplay, State.preemptCtx]
  case resume =>
    intro s rq c b hwrite hc hbits hst
    rw [exec_resume, State.ctxWrite_of_accepted hwrite hc, State.ctxCtl_resume_of_preempted hbits hst, State.resumeCtx]
  case ctxEnd =>
    intro s rq c b hwrite hc hbits hst
    rw [exec_ctxEnd, State.ctxWrite_of_accepted hwrite hc, State.ctxCtl_end_of_running hbits hst]
  case multiple =>
    intro s rq c b hwrite hc hother hend
    rw [exec_ctxEnd, State.ctxWrite_of_accepted hwrite hc, State.ctxCtl_of_end_and_another hend hother]

/-- Settles O11: each command's operation in the case of its statement. Which firings the end of a pre-emption waits for is the model's
reading (log 22). -/
theorem preemptionSaves : Obligations.PreemptionSaves := by
  unfold Obligations.PreemptionSaves
  refine ⟨?save, ?copyOut, ?preempted, ?halted, exec_engineSave, exec_saveSlotCopyOut, exec_preemptComplete⟩
  case save =>
    intro s e c hfind
    rw [exec_engineSave, State.engineSave_of_savable hfind]
  case copyOut =>
    intro s e c i v hslots hfull holdest hslot hok
    rw [exec_saveSlotCopyOut, State.copyOut_of_full hslots hfull holdest hslot hok]
  case preempted =>
    intro s c hst hsuspect hfirings hengines hsaved hrunning
    rw [exec_preemptComplete, State.preemptComplete_of_still hst hsuspect hfirings hengines, if_neg (not_not_intro hsaved),
      if_neg (by simp [hrunning]), State.enterCtx]
  case halted =>
    intro s c hst hsuspect hfirings hengines hfailed
    rw [exec_preemptComplete, State.preemptComplete_of_still hst hsuspect hfirings hengines, if_pos hfailed, State.halt, State.enterCtx]

end Sys2Proof.Machine

/-! PROOF. Hangs, replays and the bounds of fences (R443, R449 to R455, R460, R464): when a hang is declared, when a recovery's next
suspect is replayed, when a bound escalates to the next level, and when a fence's drain ends; and the statement about them. -/

namespace Sys2Proof.Machine

section Recovery

variable {s : State} {p e c b : Nat}

/-! ## Hangs (R449, R450, R464) -/

theorem State.engineHang_of_hung (he : e < 512) (hruns : 2 ^ 20 ≤ Store.get (fun _ => 0) s.hangRuns e) (hholds : s.hangHolds e = true)
    (hnew : s.engineHung e = false) (hbarred : s.hangBarred e = false) : s.engineHang e = s.declareHang e := by
  rw [engineHang, if_pos ⟨he, hruns, hholds, by simp [hnew], by simp [hbarred]⟩]

/-- R464: no recovery of the engine runs or waits, and no reset of its partition or of the chip. -/
theorem State.hangReset_of_free (hnew : s.engineHung e = false) (hbarred : s.hangBarred e = false) :
    s.hangReset e = (s.setFld Fld.EN_HANG_RESET e 1).declareHang e := by
  rw [hangReset, if_neg (by simp [hnew, hbarred])]

/-! ## Replays (R451, R452) -/

/-- R451: a recovery that awaits its replay has stage 3. -/
theorem State.replayWrite_of_awaiting (hstage : (s.recov p).stage = 3) : s.replayWrite p = s.replayNext p := if_pos hstage

theorem State.replayWrite_of_not_awaiting (hstage : (s.recov p).stage ≠ 3) : s.replayWrite p = s := if_neg hstage

/-- R452: the suspect has completed its replay set, and is innocent. -/
theorem State.replayDone_of_all (hcurrent : (s.recov p).current = some c) (hst : (s.ctx c).st = .running) (hbuf : (s.ctx c).buf = [])
    (hreplayed : (s.ctx c).replayTo = some (s.fld Fld.HUB_CTX_SEQ_NEXT c)) :
    s.replayDone p = ((s.updCtx c (fun x => { x with st := .preempting, haltAfter := false, replayTo := none })).setRecov p
      { s.recov p with
        suspects := (s.recov p).suspects.filter (· != c), innocent := (s.recov p).innocent ++ [c], current := none }).replayNext p := by
  have hnotHalted : (CtxState.running == CtxState.halted) = false := rfl
  simp [replayDone, hcurrent, hst, hbuf, hreplayed, hnotHalted]

/-! ## Partition resets and bounds (R455, R460) -/

theorem State.requestPartReset_of_present {cause : Nat} {x : PartEntry} (hp : p < 16) (hpart : partOf s.tables p = some x)
    (hlost : s.partLost p = false) : s.requestPartReset p cause = s.startPartReset p cause := by
  simp [requestPartReset, Nat.not_le.mpr hp, hpart, hlost]

/-- R460: 5 ms. -/
theorem State.ctxEndTimeout_of_late (hfence : (s.ctx c).fenceBeat = some b) (hst : (s.ctx c).st = .ending) (hlate : b + 625000 ≤ s.ft) :
    s.ctxEndTimeout c = s.escalatePart (s.partOfCtx c) 3 := by
  simp only [ctxEndTimeout, hfence, if_pos (And.intro hst hlate)]

/-- R460: 20 ms. -/
theorem State.recoveryTimeout_of_late (hstage : (s.recov p).stage = 1) (hlate : (s.recov p).since + 2500000 ≤ s.ft) :
    s.recoveryTimeout p = s.escalatePart p 4 :=
  if_pos ⟨.inl hstage, hlate⟩

/-- R460: 250 ms. -/
theorem State.partResetTimeout_of_late {f : Fence} (hfence : s.fences.find? (fun f => f.dom == .partition p) = some f)
    (hlate : f.beat + 31250000 ≤ s.ft) : s.partResetTimeout p = s.chipReset 6 := by
  simp only [partResetTimeout, hfence, if_pos hlate]

/-- R443: the drain's end closes the domain in one step (log 24). -/
theorem State.fenceDrainEnd_of_drained {d : Domain} {f : Fence} (hfence : s.fences.find? (fun f => f.dom == d) = some f)
    (hdrained : s.drainEnds f = true) :
    s.fenceDrainEnd d = ({ s with fences := s.fences.filter (fun g => g.dom != d) } : State).closeDomain d := by
  simp only [fenceDrainEnd, hfence, if_pos hdrained]

end Recovery

section Commands

variable (s : State) (rq : Requester) (p e c : Nat) (d : Domain)

theorem exec_engineHang : exec (.engineHang e) s = .next (s.engineHang e).mirror := rfl

theorem exec_hangReset : exec (.hangReset rq e) s =
    .next (if e < 512 then s.gated rq .EN_HANG e (fun s => s.hangReset e) else s).mirror := rfl

theorem exec_replay : exec (.replay rq p) s =
    .next (if p < 16 then s.gated rq .HUB_RECOV_CTL p (fun s => s.replayWrite p) else s).mirror := rfl

theorem exec_suspectReplayComplete : exec (.suspectReplayComplete p) s = .next (s.replayDone p).mirror := rfl

theorem exec_partitionReset : exec (.partitionReset rq p) s =
    .next (if p < 16 then s.gated rq .HUB_PART_RESET p (fun s => s.requestPartReset p 1) else s).mirror := rfl

theorem exec_contextEndTimeout : exec (.contextEndTimeout c) s = .next (s.ctxEndTimeout c).mirror := rfl

theorem exec_recoveryTimeout : exec (.recoveryTimeout p) s = .next (s.recoveryTimeout p).mirror := rfl

theorem exec_partitionResetTimeout : exec (.partitionResetTimeout p) s = .next (s.partResetTimeout p).mirror := rfl

theorem exec_fenceDrainEnd : exec (.fenceDrainEnd d) s = .next (s.fenceDrainEnd d).mirror := rfl

end Commands

/-- Settles O36: each command's operation in the case of its statement, the three written registers where their block takes the write.
Which cycles count toward a hang (log 23) and that a drain's end is one step (log 24) are the model's choices. -/
theorem hangsAndReplays : Obligations.HangsAndReplays := by
  unfold Obligations.HangsAndReplays
  refine ⟨?hang, ?hangReset, ?replay, ?noReplay, ?replayed, ?partReset, ?endLate, ?recoveryLate, ?resetLate, ?drainEnd, exec_engineHang,
    exec_hangReset, exec_replay, exec_suspectReplayComplete, exec_partitionReset, exec_contextEndTimeout, exec_recoveryTimeout,
    exec_partitionResetTimeout, exec_fenceDrainEnd⟩
  case hang =>
    intro s e he hruns hholds hnew hbarred
    rw [exec_engineHang, State.engineHang_of_hung he hruns hholds hnew hbarred]
  case hangReset =>
    intro s rq e hwrite he hnew hbarred
    rw [exec_hangReset, if_pos he, State.gated_accepted _ hwrite, State.hangReset_of_free hnew hbarred]
  case replay =>
    intro s rq p hwrite hp hstage
    rw [exec_replay, if_pos hp, State.gated_accepted _ hwrite, State.replayWrite_of_awaiting hstage]
  case noReplay =>
    intro s rq p hwrite hp hstage
    rw [exec_replay, if_pos hp, State.gated_accepted _ hwrite, State.replayWrite_of_not_awaiting hstage]
  case replayed =>
    intro s p c hcurrent hst hbuf hreplayed
    rw [exec_suspectReplayComplete, State.replayDone_of_all hcurrent hst hbuf hreplayed]
  case partReset =>
    intro s rq p x hwrite hp hpart hlost
    rw [exec_partitionReset, if_pos hp, State.gated_accepted _ hwrite, State.requestPartReset_of_present hp hpart hlost]
  case endLate =>
    intro s c b hfence hst hlate
    rw [exec_contextEndTimeout, State.ctxEndTimeout_of_late hfence hst hlate]
  case recoveryLate =>
    intro s p hstage hlate
    rw [exec_recoveryTimeout, State.recoveryTimeout_of_late hstage hlate]
  case resetLate =>
    intro s p f hfence hlate
    rw [exec_partitionResetTimeout, State.partResetTimeout_of_late hfence hlate]
  case drainEnd =>
    intro s d f hfence hdrained
    rw [exec_fenceDrainEnd, State.fenceDrainEnd_of_drained hfence hdrained]

end Sys2Proof.Machine

/-! PROOF. Memory with a code (R224 to R227): the write of a whole granule makes its check bytes right whatever stood there, and a granule
whose check bytes are right reads as its bytes. -/

namespace Sys2Proof.Machine

/-! ## Runs of bytes and check bytes -/

theorem State.syn_setSyn_other {s : State} {g h : Nat} {v : BitVec 32} (hne : h ≠ g) : (s.setSyn g v).syn h = s.syn h :=
  Store.get_set_other (d := s.blankSyn) hne

theorem State.length_bytes (s : State) (a n : Nat) : (s.bytes a n).length = n := by
  induction n generalizing a with
  | zero => rfl
  | succ n ih => rw [bytes, List.length_cons, ih]

/-- A run of bytes that stands at an address is what is read there. -/
theorem State.bytes_of_byte {s : State} {a : Nat} {b : List Byte} (h : ∀ (i : Nat) (hi : i < b.length), s.byte (a + i) = b[i]) :
    s.bytes a b.length = b := by
  induction b generalizing a with
  | nil => rfl
  | cons v rest ih =>
    have hfirst : s.byte a = v := h 0 (Nat.zero_lt_succ _)
    have hrest : s.bytes (a + 1) rest.length = rest := ih fun i hi => by
      rw [Nat.add_assoc, Nat.add_comm 1 i]
      exact h (i + 1) (Nat.succ_lt_succ hi)
    rw [List.length_cons, bytes, hfirst, hrest]

/-! ## Whole granules (R224, R226, R227) -/

section Granules

variable {s : State} {g : Nat} {b : List Byte}

/-- The state after a write of all bytes of granule g: whatever its check bytes were, they are right for b. -/
def State.putGranule (s : State) (g : Nat) (b : List Byte) : State := (s.setBytes g b).setSyn g 0

theorem State.bytes_putGranule (s : State) (g : Nat) (b : List Byte) : (s.putGranule g b).bytes g b.length = b :=
  bytes_of_byte (byte_setBytes_at b s g)

theorem State.byte_putGranule_other {a : Nat} (ha : a < g ∨ g + b.length ≤ a) : (s.putGranule g b).byte a = s.byte a := by
  rw [putGranule, byte_setSyn, byte_setBytes_other b s g a ha]

theorem State.syn_putGranule_same (s : State) (g : Nat) (b : List Byte) : (s.putGranule g b).syn g = 0 := syn_setSyn_same ..

theorem State.syn_putGranule_other {h : Nat} (hne : h ≠ g) : (s.putGranule g b).syn h = s.syn h := by
  rw [putGranule, syn_setSyn_other hne, syn_setBytes]

/-- R227: a write of all 32 bytes of a granule reads nothing, so no poison refuses it. -/
theorem State.writeGranule_whole (hcoded : coded g = true) (haligned : g % 32 = 0) (hlength : b.length = 32) :
    s.writeGranule g b = (s.putGranule g b, false) := by
  have hstart : g / 32 * 32 = g := Nat.div_mul_cancel (Nat.dvd_of_mod_eq_zero haligned)
  simp [writeGranule, hstart, hcoded, hlength, putGranule]

theorem State.writeMem_granule (hcoded : coded g = true) (haligned : g % 32 = 0) (hlength : b.length = 32) :
    s.writeMem g b = (s.putGranule g b, false) := by
  have hsome : b.isEmpty = false := by simp [List.isEmpty_eq_false_iff, ← List.length_pos_iff, hlength]
  have htake : b.take 32 = b := List.take_of_length_le (Nat.le_of_eq hlength)
  have hdrop : b.drop 32 = [] := List.drop_of_length_le (Nat.le_of_eq hlength)
  simp [writeMem, writeGranules, hsome, haligned, hlength, htake, hdrop, writeGranule_whole hcoded haligned hlength]

/-- R226: right check bytes are no error under either code. -/
theorem State.readGranule_of_right (hright : s.syn g = 0) (src : ErrSource) : s.readGranule g src = (s, false, s.bytes g 32) := by
  have hwords : (List.range 4).any (fun w => synByte 0 w != 0 && synByte 0 w != 0xFF) = false := by decide
  have hclean : rsDecode 0 = .clean := rfl
  unfold readGranule
  dsimp only
  split
  · rfl
  · rw [hright, hwords, hclean]
    split <;> rfl

theorem State.readMem_granule (haligned : g % 32 = 0) (hright : s.syn g = 0) (src : ErrSource) :
    s.readMem g 32 src = (s, false, s.bytes g 32) := by
  have hstart : g / 32 * 32 = g := Nat.div_mul_cancel (Nat.dvd_of_mod_eq_zero haligned)
  have hone : (g + 32 + 31) / 32 - g / 32 = 1 := by omega
  have hall : (s.bytes g 32).take 32 = s.bytes g 32 := List.take_of_length_le (Nat.le_of_eq (s.length_bytes g 32))
  simp [readMem, readGranules, hstart, hone, readGranule_of_right hright, hall]

end Granules

/-- Settles O51: the write leaves the granule's bytes with right check bytes, and such a granule reads as its bytes. -/
theorem memoryReadsBack : Obligations.MemoryReadsBack := by
  unfold Obligations.MemoryReadsBack
  intro s g b src hcoded haligned hlength
  rw [State.writeMem_granule hcoded haligned hlength]
  refine ⟨rfl, ?readBack, fun a ha => ?otherBytes, fun h hne => State.syn_putGranule_other hne⟩
  case readBack =>
    have hbytes : (s.putGranule g b).bytes g 32 = b := hlength ▸ s.bytes_putGranule g b
    rw [State.readMem_granule haligned (s.syn_putGranule_same g b), hbytes]
  case otherBytes => exact State.byte_putGranule_other (by rwa [hlength])

end Sys2Proof.Machine

/-! PROOF. Memory channels (R228 to R232, R240 to R246): the rank at which a beat of a channel's share serves each kind of work, what a scrub
read, a refresh level, a writeback, an error in a way and LLM_ZERO do in each of their cases; and the statement about them. -/

namespace Sys2Proof.Machine

section Channels

variable {s u : State} {c : Nat}

/-! ## Beats of the share (R58, R230, R232) -/

/-- R30: in a beat that its mask gives to the share of a running channel, and that refresh has not taken, the share works. -/
theorem State.shareBeat_of_open {k : Nat} (hmask : s.shareMask c = some k) (hbit : bit k (s.ft % 64) = true)
    (hruns : s.channelRuns c = true) (hfree : ((s.memCtl c).refBeat != some s.ft) = true) : s.shareBeat c = s.shareWork c := by
  have hopen : s.shareBeatOf c = true := by simp only [shareBeatOf, hmask, hbit, hruns, hfree, Bool.and_self]
  rw [shareBeat, if_pos ⟨by rw [hmask]; rfl, hopen⟩]

/-- Rank 1: refresh at its deadline. -/
theorem State.shareWork_of_late (hlate : s.refreshLate c = true) : s.shareWork c = s.takeShareBeat c := if_pos hlate

/-- Ranks 2 and 3: what the homes await, in its order. -/
theorem State.shareWork_of_awaiting {l : Nat} {t : Tx} (hlate : s.refreshLate c = false) (hnext : s.nextAwaiting c = some (l, t)) :
    s.shareWork c = s.memoryServed l (s.home l) t := by
  simp only [shareWork, hlate, hnext, Bool.false_eq_true, if_false]

/-- Rank 4: the cache's work. -/
theorem State.shareWork_of_cacheWork {e : CacheJob} (hlate : s.refreshLate c = false) (hnext : s.nextAwaiting c = none)
    (hwork : s.cacheWork c = some e) : s.shareWork c = s.cacheJob e := by
  simp only [shareWork, hlate, hnext, hwork, Bool.false_eq_true, if_false]

/-- Rank 5: a correction comes before further refresh. -/
theorem State.shareWork_of_correction {g : Nat} (hlate : s.refreshLate c = false) (hnext : s.nextAwaiting c = none)
    (hwork : s.cacheWork c = none) (hfix : s.correctionOf c = some g) : s.shareWork c = s.correct g := by
  simp only [shareWork, hlate, hnext, hwork, hfix, Bool.false_eq_true, if_false]

/-- Ranks 5 and 6: refresh before its deadline, or else the scrub. -/
theorem State.shareWork_of_idle (hlate : s.refreshLate c = false) (hnext : s.nextAwaiting c = none) (hwork : s.cacheWork c = none)
    (hfix : s.correctionOf c = none) : s.shareWork c = if s.refreshEarly c then s.takeShareBeat c else s.scrubNext c := by
  simp only [shareWork, hlate, hnext, hwork, hfix, Bool.false_eq_true, if_false]

/-! ## The scrub (R228) -/

theorem State.scrubRead_of_idle (hbeat : s.shareBeatOf c = true) (hwaits : s.workWaits c = false) : s.scrubRead c = s.scrubNext c := by
  rw [scrubRead, if_pos ⟨hbeat, by rw [hwaits]; rfl⟩]

theorem State.scrubNext_of_early (hearly : s.ft < s.scrubDue c) : s.scrubNext c = s := if_pos (.inr hearly)

/-- A granule that is due is read, and ends the pass where it is the channel's last. -/
theorem State.scrubNext_of_due (hperiod : s.fld Fld.MEM_SCRUB_PERIOD c ≠ 0) (hdue : s.scrubDue c ≤ s.ft)
    (hread : (s.readGranule (channelBase c + (s.memCtl c).scrub) .scrub).1 = u) :
    s.scrubNext c =
      if channelUsable c ≤ (s.memCtl c).scrub + 32 then
        (u.setMemCtl c { u.memCtl c with
          scrub := 0, passStart := max u.ft ((s.memCtl c).passStart + u.fld Fld.MEM_SCRUB_PERIOD c * 125000000) }).bump
            Fld.MEM_SCRUB_PASSES c
      else u.setMemCtl c { u.memCtl c with scrub := (s.memCtl c).scrub + 32 } := by
  subst hread
  have hreads : ¬ (s.fld Fld.MEM_SCRUB_PERIOD c = 0 ∨ s.ft < s.scrubDue c) := not_or.mpr ⟨hperiod, Nat.not_lt.mpr hdue⟩
  exact if_neg hreads

/-! ## Refresh levels (R229, R231) -/

theorem State.memCtl_setFld (s : State) (f : Field) (i v c : Nat) : (s.setFld f i v).memCtl c = s.memCtl c := by
  simp only [memCtl, setFld_frame]

/-- R229: a reading is shown, and gives the level that temperature requires from the level held. -/
theorem State.memTemp_eq (s : State) (c t : Nat) :
    s.memTemp c t = (s.setFld Fld.MEM_REFRESH_TEMP c (min t 255)).setRefresh c
      { s.memCtl c with tempLevel := refreshLevel (s.memCtl c).tempLevel t } := by
  simp only [memTemp, memCtl_setFld]

/-- R231: a level that waits comes into force at a multiple of 64 beats. -/
theorem State.refreshApply_of_pending {l : Nat} (hpending : (s.memCtl c).pending = some l) (hbeat : s.ft % 64 = 0) :
    s.refreshApply c =
      ((s.setFld Fld.MEM_REFRESH_LEVEL c l).setMemCtl c { s.memCtl c with pending := none }).refreshClamp := by
  simp only [refreshApply, hpending, hbeat, ne_eq, not_true_eq_false, if_false]

theorem State.writeFloor_of_level {v : Nat} (hlevel : v % 4 ≠ 3) :
    s.writeFloor c v = ((s.setFld Fld.MEM_REFRESH_FLOOR c v).setRefresh c (s.memCtl c)).refreshClamp := by
  simp only [writeFloor, if_neg hlevel, memCtl_setFld]

theorem State.writeFloor_of_three {v : Nat} (hthree : v % 4 = 3) : s.writeFloor c v = s := if_pos hthree

end Channels

section Ways

variable {s u : State} {i w : Nat} {l : List Nat}

/-! ## Writebacks (R240) -/

theorem State.llmWriteback_of_sector {k : Nat} {e : CacheJob} (hwork : s.cacheWork k = some e) (hsector : e.fill = none)
    (hbeat : s.shareBeatOf k = true) (hdemand : s.demandWaits k = false) : s.llmWriteback k = s.cacheJob e := by
  have hserves : e.fill.isNone = true ∧ s.shareBeatOf k = true ∧ (!s.demandWaits k) = true := by simp [hsector, hbeat, hdemand]
  simp only [llmWriteback, hwork, if_pos hserves]

theorem State.cacheJob_of_sector {e : CacheJob} (hsector : e.fill = none) :
    s.cacheJob e = ((((({ s with wbuf := s.wbuf.erase e } : State).countHub 8 (e.stack / 2) 1).countHub 8 4 1).countChannel e.addr 256
      true).settleWays (e.stack / 2)) := by
  simp only [cacheJob, hsector, Option.isSome_none, Bool.false_eq_true, if_false]

/-! ## Ways that fail (R243, R246) -/

/-- A way of a cache-mode slice that is neither disabled nor being disabled: one whose errors count (R243). -/
structure State.WayServes (s : State) (i w : Nat) : Prop where
  slice : i < 64
  way : w < 16
  caches : s.flag Fld.LLM_SLICE_MODE i = true
  enabled : s.wayOff i w = false
  kept : (s.wayHealth i w).disabling = false

theorem State.WayServes.not_ignored (h : s.WayServes i w) :
    ¬ (i ≥ 64 ∨ w ≥ 16 ∨ (!s.flag Fld.LLM_SLICE_MODE i) = true ∨ s.wayOff i w = true ∨ (s.wayHealth i w).disabling = true) := by
  obtain ⟨hslice, hway, hcaches, hon, hkept⟩ := h
  simp [hslice, hway, hcaches, hon, hkept]

theorem State.wayError_of_uncorrectable (h : s.WayServes i w) : s.wayError i w true l = s.disableWay i w 2 l := by
  rw [wayError, if_neg h.not_ignored, if_pos rfl]

/-- R243: the fourth corrected error of a way within a second disables it. -/
theorem State.wayError_of_corrected (h : s.WayServes i w)
    (hcount : (s.bump Fld.LLM_SLICE_CORRECTED i).setWayHealth i w
      { s.wayHealth i w with beats := (s.ft :: (s.wayHealth i w).beats).take 3 } = u) :
    s.wayError i w false l =
      if (s.wayHealth i w).beats.length = 3 ∧ u.ft < (s.wayHealth i w).beats.getD 2 0 + 125000000 then u.disableWay i w 1 l else u := by
  subst hcount
  rw [wayError, if_neg h.not_ignored, if_neg Bool.false_ne_true]

/-! ## LLM_ZERO (R241, R252) -/

theorem State.zeroBusy_setFld (s : State) (f : Field) (j v d : Nat) : (s.setFld f j v).zeroBusy d = s.zeroBusy d := by
  simp only [zeroBusy, setFld_frame]

/-- A write of GO while no line of the sequence waits at its home begins the sequence. -/
theorem State.writeLlmZero_of_go {d v : Nat} (hgo : bit v 0 = true) (hfree : s.zeroBusy d = false)
    (hzero : ((s.setFld Fld.LLM_ZERO_LINES d (getBits v 52 12)).setFld Fld.LLM_ZERO_ADDR d (getBits v 10 42)).zeroLines d
      (getBits v 10 42 * 1024) (getBits v 52 12 + 1) = u) :
    s.writeLlmZero d v = u.setFld Fld.LLM_ZERO_GO d (if u.zeroBusy d then 1 else 0) := by
  have hbegins : bit v 0 = true ∧ (!((s.setFld Fld.LLM_ZERO_LINES d (getBits v 52 12)).setFld Fld.LLM_ZERO_ADDR d
      (getBits v 10 42)).zeroBusy d) = true := by
    simp only [hgo, zeroBusy_setFld, hfree, Bool.not_false, and_self]
  rw [writeLlmZero, if_pos hbegins, hzero]

end Ways

section Commands

variable (s : State) (rq : Requester) (c v i w k : Nat)

theorem exec_coherentShareBeat : exec (.coherentShareBeat c) s = .next (s.shareBeat c).mirror := rfl

theorem exec_scrubRead : exec (.scrubRead c) s = .next (s.scrubRead c).mirror := rfl

theorem exec_memTempSample : exec (.memTempSample c v) s = .next (s.memTemp c v).mirror := rfl

theorem exec_refreshLevelApply : exec (.refreshLevelApply c) s = .next (s.refreshApply c).mirror := rfl

theorem exec_refreshFloorWrite : exec (.refreshFloorWrite rq c v) s =
    .next (if c < 40 then s.gated rq .MEM_REFRESH c (fun s => s.writeFloor c v) else s).mirror := rfl

theorem exec_llmWriteback : exec (.llmWriteback k) s = .next (s.llmWriteback k).mirror := rfl

theorem exec_wayDisable (bad : Bool) (l : List Nat) : exec (.wayDisable i w bad l) s = .next (s.wayError i w bad l).mirror := rfl

theorem exec_wayReenable (i v : Nat) : exec (.wayReenable rq i v) s =
    .next (if i < 64 then s.gated rq .LLM_SLICE i (fun s => s.wayReenable i v) else s).mirror := rfl

theorem exec_llmZero (d v : Nat) : exec (.llmZero rq d v) s =
    .next (if d < 4 then s.gated rq .LLM_ZERO d (fun s => s.writeLlmZero d v) else s).mirror := rfl

end Commands

/-- Settles O24: each command's operation in the case of its statement, the three written registers where their block takes the write. The
even pace of a scrub and the deadlines of refresh are the model's choices (log 67). -/
theorem memoryChannels : Obligations.MemoryChannels := by
  unfold Obligations.MemoryChannels
  refine ⟨?late, ?awaiting, ?cacheWork, ?correction, ?idle, ?scrub, ?scrubEnd, ?scrubEarly, ?temperature, ?levelApply, ?floor,
    ?floorThree, ?writeback, ?uncorrectable, ?corrected, ?reenable, ?zero, exec_coherentShareBeat, exec_scrubRead, exec_refreshLevelApply,
    exec_refreshFloorWrite, exec_llmWriteback, exec_wayDisable, exec_wayReenable, exec_llmZero⟩
  case late =>
    intro s c k hmask hbit hruns hfree hlate
    rw [exec_coherentShareBeat, State.shareBeat_of_open hmask hbit hruns hfree, State.shareWork_of_late hlate]
  case awaiting =>
    intro s c k l t hmask hbit hruns hfree hlate hnext
    rw [exec_coherentShareBeat, State.shareBeat_of_open hmask hbit hruns hfree, State.shareWork_of_awaiting hlate hnext]
  case cacheWork =>
    intro s c k e hmask hbit hruns hfree hlate hnext hwork
    rw [exec_coherentShareBeat, State.shareBeat_of_open hmask hbit hruns hfree, State.shareWork_of_cacheWork hlate hnext hwork]
  case correction =>
    intro s c k g hmask hbit hruns hfree hlate hnext hwork hfix
    rw [exec_coherentShareBeat, State.shareBeat_of_open hmask hbit hruns hfree, State.shareWork_of_correction hlate hnext hwork hfix]
  case idle =>
    intro s c k hmask hbit hruns hfree hlate hnext hwork hfix
    rw [exec_coherentShareBeat, State.shareBeat_of_open hmask hbit hruns hfree, State.shareWork_of_idle hlate hnext hwork hfix]
  case scrub =>
    intro s u c hbeat hwaits hperiod hdue hread hinside
    rw [exec_scrubRead, State.scrubRead_of_idle hbeat hwaits, State.scrubNext_of_due hperiod hdue hread, if_neg (Nat.not_le.mpr hinside)]
  case scrubEnd =>
    intro s u c hbeat hwaits hperiod hdue hread hend
    rw [exec_scrubRead, State.scrubRead_of_idle hbeat hwaits, State.scrubNext_of_due hperiod hdue hread, if_pos hend]
  case scrubEarly =>
    intro s c hbeat hwaits hearly
    rw [exec_scrubRead, State.scrubRead_of_idle hbeat hwaits, State.scrubNext_of_early hearly]
  case temperature =>
    intro s c t
    rw [exec_memTempSample, State.memTemp_eq]
  case levelApply =>
    intro s c l hpending hbeat
    rw [exec_refreshLevelApply, State.refreshApply_of_pending hpending hbeat]
  case floor =>
    intro s rq c v hwrite hc hlevel
    rw [exec_refreshFloorWrite, if_pos hc, State.gated_accepted _ hwrite, State.writeFloor_of_level hlevel]
  case floorThree =>
    intro s rq c v hwrite hc hthree
    rw [exec_refreshFloorWrite, if_pos hc, State.gated_accepted _ hwrite, State.writeFloor_of_three hthree]
  case writeback =>
    intro s k e hwork hsector hbeat hdemand
    rw [exec_llmWriteback, State.llmWriteback_of_sector hwork hsector hbeat hdemand, State.cacheJob_of_sector hsector]
  case uncorrectable =>
    intro s i w l hi hw hcaches hon hkept
    rw [exec_wayDisable, State.wayError_of_uncorrectable ⟨hi, hw, hcaches, hon, hkept⟩]
  case corrected =>
    intro s u i w l hi hw hcaches hon hkept hcount
    rw [exec_wayDisable, State.wayError_of_corrected ⟨hi, hw, hcaches, hon, hkept⟩ hcount]
  case reenable =>
    intro s rq i m hwrite hi
    rw [exec_wayReenable, if_pos hi, State.gated_accepted _ hwrite, State.wayReenable]
  case zero =>
    intro s u rq d w hwrite hd hgo hfree hzero
    rw [exec_llmZero, if_pos hd, State.gated_accepted _ hwrite, State.writeLlmZero_of_go hgo hfree hzero]

end Sys2Proof.Machine

/-! PROOF. Tile fences, walks and invalidations (R273, R334 to R336, R338): when a miss begins a walk and from which table, what a walk that
reads a leaf entry leaves, what a set of GO drops and when GO clears; and the statement about them. -/

namespace Sys2Proof.Machine

section Translation

variable {s u : State} {w : Walk}

/-! ## Tile fences (R273) -/

/-- Which firings a fence marks is judged on the state before it: setting FENCE changes no entry and no context's partition. -/
theorem State.tileFence_eq (s : State) (p : Nat) : s.tileFence p =
    ({ s.raise Fld.HUB_TT_CTL_FENCE p with firings := s.firings.map (fun (f : Firing) =>
      if f.resolvedAt.isSome && ((s.entry f.core f.entry).map (fun x => s.partOfCtx x.ctx)) == some p then { f with fenced := true } else f) }
    : State).tileFenceCheck p := rfl

/-! ## Misses (R336) -/

/-- A requester at site x misses what w asks for, it may go on, there is room for a walk of its partition, and it has none in flight. -/
structure State.MayWalk (s : State) (w : Walk) (x : FaultSite) : Prop where
  need : s.walkNeed w = some ((w.va, w.access), x)
  room : s.walks.length < 32
  share : (s.walks.filter (fun x => s.partOfCtx x.ctx == s.partOfCtx w.ctx)).length < 8
  goesOn : s.stopped x.ctx x.cmd x.core x.entry x.f = false
  only : s.walks.any (fun x => x.cache == w.cache && x.ctx == w.ctx && x.seq == w.seq && x.entry == w.entry && x.f == w.f) = false

/-- A walk joins those in flight, from the deepest table known. -/
def State.beginWalk (s : State) (w : Walk) : State := { s with walks := s.walks ++ [s.walkStart w] }

theorem State.translationMiss_of_mayWalk {x : FaultSite} (h : s.MayWalk w x) :
    s.translationMiss w = (if w.cache < 128 then s.countCore w.cache 0x12 0 1 else s).beginWalk w := by
  have hroom : ¬(s.walks.length ≥ 32 ∨ (s.walks.filter (fun x => s.partOfCtx x.ctx == s.partOfCtx w.ctx)).length ≥ 8) :=
    not_or.mpr ⟨Nat.not_le.mpr h.room, Nat.not_le.mpr h.share⟩
  simp only [translationMiss, h.need, h.goesOn, hroom, h.only, ne_eq, not_true_eq_false, Bool.false_eq_true, or_self, if_false, beginWalk]

/-- R496: a core's cache counts the miss. -/
theorem State.translationMiss_of_core {x : FaultSite} (h : s.MayWalk w x) (hcore : w.cache < 128) :
    s.translationMiss w = (s.countCore w.cache 0x12 0 1).beginWalk w := by
  rw [translationMiss_of_mayWalk h, if_pos hcore]

theorem State.translationMiss_of_hub {x : FaultSite} (h : s.MayWalk w x) (hhub : 128 ≤ w.cache) :
    s.translationMiss w = s.beginWalk w := by
  rw [translationMiss_of_mayWalk h, if_neg (Nat.not_lt.mpr hhub)]

/-! ## Walks (R334, R335) -/

/-- Where a walk's next entry stands in its table. -/
def Walk.entryAddr (w : Walk) : Nat := w.table + 8 * (w.va % 2 ^ 57 / 2 ^ (12 + 9 * w.level) % 512)

/-- The leaf that a walk ends with: the page of the entry, global where the entry or a table above it is. -/
def Walk.leaf (w : Walk) (part asid pte : Nat) : Tlb :=
  ⟨w.cache, part, asid, w.va % 2 ^ 57 / 2 ^ leafSize pte w.level * 2 ^ leafSize pte w.level, leafSize pte w.level,
    (if leafSize pte w.level = 16 then ptePpn pte / 16 * 16 else ptePpn pte) * 4096,
    if (w.g || bit pte 5) = true then pte % 256 ||| 32 else pte % 256⟩

/-- Walk i is w, in its partition's turn, still wanted, and the share serves its entry in local memory now. -/
structure State.WalkTurn (s : State) (i : Nat) (w : Walk) : Prop where
  walk : s.walks[i]? = some w
  turn : s.walkPart = some (s.partOfCtx w.ctx)
  wanted : s.walkWanted w = true
  served : s.accessNow (unitRq (s.partOfCtx w.ctx)) w.entryAddr 8 = true
  cached : cacheable w.entryAddr = true

/-- A leaf entry, read without an error and without a fault, ends the walk in the requester's cache. -/
theorem State.pageWalk_of_leaf {i : Nat} {b : List Byte} (h : s.WalkTurn i w)
    (hread : ({ s with walkTurn := s.partOfCtx w.ctx } : State).readLocal (s.walkRq w) w.entryAddr 8 = (u, stOk, b))
    (hgood : pteBad (leNat b) = false) (hleaf : pteLeaf (leNat b) = true) (hcause : leafCause (leNat b) w.level w.access = 0) :
    s.pageWalk i = (u.dropWalk i).addTlb (w.leaf (s.partOfCtx w.ctx) (u.asidOf w.ctx) (leNat b)) := by
  obtain ⟨hwalk, hturn, hwanted, hserved, hcached⟩ := h
  have hrq : ({ s with walkTurn := s.partOfCtx w.ctx } : State).walkRq w = s.walkRq w := rfl
  have hok : stOk ≠ stPoisoned := by decide
  rw [Walk.entryAddr] at hserved hcached hread
  simp only [pageWalk, hwalk, hturn, hwanted, hserved, hcached, hrq, hread, hok, hgood, hleaf, hcause, ne_eq, not_true_eq_false,
    Bool.not_true, Bool.false_eq_true, and_false, if_false, if_true, Walk.leaf]

/-! ## Invalidations (R338) -/

/-- The word of a TLBI has GO set, whatever the other bits written. -/
theorem bit_tlbiWord (v : Nat) : bit ((v ||| 2 ^ 63) &&& (2 ^ 64 - 1)) 63 = true := by
  rw [bit, Nat.testBit_and, Nat.testBit_or, Nat.testBit_two_pow_self, Nat.testBit_two_pow_sub_one, Bool.or_true]
  rfl

theorem State.writeTlbi_of_idle {p v mask : Nat} (hset : bit (v &&& mask) 63 = true) (hidle : s.flag Fld.HUB_TLBI_GO p = false) :
    s.writeTlbi p v mask = ((s.storeFields .HUB_TLBI p v mask).raise Fld.HUB_TLBI_GO p).tlbiDrop p := by
  simp only [writeTlbi, hset, hidle, Bool.not_false, and_self, if_true]

theorem State.tlbiDone_of_ended {p : Nat} (hgo : s.flag Fld.HUB_TLBI_GO p = true) (hended : s.tlbiOutstanding p = false) :
    s.tlbiDone p = { s.setFld Fld.HUB_TLBI_GO p 0 with tlbWait := Store.del s.tlbWait p } := by
  simp only [tlbiDone, hgo, hended, Bool.not_false, and_self, if_true]

end Translation

/-! ## The statement -/

section Commands

variable (s : State) (rq : Requester) (p i : Nat)

theorem exec_tileFence : exec (.tileFence rq p) s =
    .next (if p < 16 then s.gated rq .HUB_TT_CTL p (fun s => s.tileFence p) else s).mirror := rfl

theorem exec_translationMiss (w : Walk) : exec (.translationMiss w) s = .next (s.translationMiss w).mirror := rfl

theorem exec_pageWalk : exec (.pageWalk i) s = .next (s.pageWalk i).mirror := rfl

theorem exec_tlbi (v : Nat) : exec (.tlbi rq p v) s =
    .next (if p < 16 then s.gated rq .HUB_TLBI p (fun s => s.writeTlbi p (v ||| 2 ^ 63) (2 ^ 64 - 1)) else s).mirror := rfl

theorem exec_tlbiDone : exec (.tlbiDone p) s = .next (s.tlbiDone p).mirror := rfl

end Commands

/-- Settles O25: each command's operation in the case of its statement, the two written registers where their block takes the write. Which
accesses hold GO, and that a walk begins only for what its requester misses, is the model's reading (log 37); the victim of a full cache is a
free value (log 35). -/
theorem translations : Obligations.Translations := by
  unfold Obligations.Translations
  refine ⟨?fence, ?hubMiss, ?coreMiss, ?leaf, ?invalidate, ?invalidated, exec_tileFence, exec_translationMiss, exec_pageWalk, exec_tlbi,
    exec_tlbiDone⟩
  case fence =>
    intro s rq p hwrite hp
    rw [exec_tileFence, if_pos hp, State.gated_accepted _ hwrite, State.tileFence_eq]
  case hubMiss =>
    intro s w x hneed hroom hshare hgoesOn honly hhub
    rw [exec_translationMiss, State.translationMiss_of_hub ⟨hneed, hroom, hshare, hgoesOn, honly⟩ hhub, State.beginWalk]
  case coreMiss =>
    intro s w x hneed hroom hshare hgoesOn honly hcore
    rw [exec_translationMiss, State.translationMiss_of_core ⟨hneed, hroom, hshare, hgoesOn, honly⟩ hcore, State.beginWalk]
  case leaf =>
    intro s u i pte w b hwalk hturn hwanted hserved hcached hread hpte hgood hleaf hcause
    subst hpte
    rw [exec_pageWalk, State.pageWalk_of_leaf ⟨hwalk, hturn, hwanted, hserved, hcached⟩ hread hgood hleaf hcause, Walk.leaf]
  case invalidate =>
    intro s rq p v hwrite hp hidle
    rw [exec_tlbi, if_pos hp, State.gated_accepted _ hwrite, State.writeTlbi_of_idle (bit_tlbiWord v) hidle]
  case invalidated =>
    intro s p hgo hended
    rw [exec_tlbiDone, State.tlbiDone_of_ended hgo hended]

end Sys2Proof.Machine

/-! PROOF. Operations of the CPU cores (R285, R298, R315, R323, R324): when an issued operation acts, waits or traps, what an operation
does on lines that the core's caches hold and on one that they lack; and the statement about their commands. -/

namespace Sys2Proof.Machine

/-! ## Cacheable addresses (R37, R39, R40) -/

/-- An address of the usable part of an HBM stack (R37, R40). -/
def InHbm (a : Nat) : Prop := hbmBase ≤ a ∧ a < 0x1100_0000_0000 ∧ (a - hbmBase) % hbmStride < hbmUsable

/-- An address of the usable part of an LPDDR channel (R37, R40). -/
def InLpddr (a : Nat) : Prop := lpddrBase ≤ a ∧ a < 0x2200_0000_0000 ∧ (a - lpddrBase) % lpddrStride < lpddrUsable

theorem inHbm_of_locate {a k o : Nat} (h : locate a = .hbm k o) : InHbm a := by
  unfold locate at h
  simp only [Loc.ite_eq_iff, reduceCtorEq, and_false, false_or, or_false] at h
  obtain ⟨-, -, -, -, -, -, -, hlo, hhi, husable, -⟩ := h
  exact ⟨Nat.le_of_not_lt hlo, hhi, husable⟩

theorem inLpddr_of_locate {a k o : Nat} (h : locate a = .lpddr k o) : InLpddr a := by
  unfold locate at h
  simp only [Loc.ite_eq_iff, reduceCtorEq, and_false, false_or, or_false] at h
  obtain ⟨-, -, -, -, -, -, -, -, -, hlo, hhi, husable, -⟩ := h
  exact ⟨Nat.le_of_not_lt hlo, hhi, husable⟩

theorem locate_of_inHbm {a : Nat} (h : InHbm a) : locate a = .hbm ((a - hbmBase) / hbmStride) ((a - hbmBase) % hbmStride) := by
  obtain ⟨hlo, hhi, husable⟩ := h
  have hbase : 0x1000_0000_0000 ≤ a := hlo
  unfold locate regBase sramBase llmBase
  rw [if_neg (by omega), if_neg (by omega), if_neg (by omega), if_neg (by omega), if_neg (by omega), if_neg (by omega), if_neg (by omega),
    if_neg (Nat.not_lt.mpr hlo), if_pos hhi, if_pos husable]

theorem locate_of_inLpddr {a : Nat} (h : InLpddr a) :
    locate a = .lpddr ((a - lpddrBase) / lpddrStride) ((a - lpddrBase) % lpddrStride) := by
  obtain ⟨hlo, hhi, husable⟩ := h
  have hbase : 0x2000_0000_0000 ≤ a := hlo
  unfold locate regBase sramBase llmBase hbmBase
  rw [if_neg (by omega), if_neg (by omega), if_neg (by omega), if_neg (by omega), if_neg (by omega), if_neg (by omega), if_neg (by omega),
    if_neg (by omega), if_neg (by omega), if_neg (Nat.not_lt.mpr hlo), if_pos hhi, if_pos husable]

theorem cacheable_iff (a : Nat) : cacheable a = true ↔ InHbm a ∨ InLpddr a := by
  constructor
  · intro h
    unfold cacheable at h
    split at h
    next hplace => exact .inl (inHbm_of_locate hplace)
    next hplace => exact .inr (inLpddr_of_locate hplace)
    next => cases h
  · rintro (h | h)
    · simp [cacheable, locate_of_inHbm h]
    · simp [cacheable, locate_of_inLpddr h]

/-- The usable parts of memory begin and end at lines' edges, so a line is cacheable where one of its bytes is. -/
theorem cacheable_line {a : Nat} (h : cacheable a = true) : cacheable (a / 64 * 64) = true := by
  rw [cacheable_iff] at h ⊢
  unfold InHbm InLpddr hbmBase hbmStride hbmUsable lpddrBase lpddrStride lpddrUsable at h ⊢
  omega

section Issue

variable {s u v : State} {c : Nat} {nc : Bool} {op : CpuOp}

/-! ## Marks (R280, R288) -/

/-- Every acquire mark comes with aq, and every release mark with rl: an operation with neither bit adds no hold. -/
theorem State.markHolds_of_no_bits {id : Nat} (haq : op.aqBit = false) (hrl : op.rlBit = false) : s.markHolds c id op = s := by
  have hacquires : op.acquires = false := by
    cases op with
    | amo => exact haq
    | lr => exact haq
    | _ => rfl
  have hreleases : op.releases = false := by
    cases op with
    | amo => exact hrl
    | sc => exact hrl
    | _ => rfl
  simp [markHolds, haq, hrl, hacquires, hreleases]

/-! ## Issue (R285) -/

/-- The core runs and issues the operation, which acts in the state u: no barrier and no earlier operation of the core holds it. -/
structure State.Acts (s u : State) (c : Nat) (nc : Bool) (op : CpuOp) : Prop where
  runs : s.cpuRuns c = true
  size : op.sizeOk = true
  aligned : op.alignTrap = none
  marked : ({ s with nextId := s.nextId + 1 } : State).markHolds c s.nextId op = u
  unbarred : u.barred c s.nextId nc op = false
  first : u.behind c s.nextId op = false

theorem State.Acts.of_no_bits (haq : op.aqBit = false) (hrl : op.rlBit = false) (halign : op.alignTrap = none)
    (hruns : s.cpuRuns c = true) (hsize : op.sizeOk = true) (hnumbered : ({ s with nextId := s.nextId + 1 } : State) = u)
    (hbarred : u.barred c s.nextId nc op = false) (hbehind : u.behind c s.nextId op = false) : s.Acts u c nc op :=
  ⟨hruns, hsize, halign, (markHolds_of_no_bits haq hrl).trans hnumbered, hbarred, hbehind⟩

theorem State.cpuIssue_of_acts (h : s.Acts u c nc op) : s.cpuIssue c nc op = u.attempt ⟨s.nextId, c, nc, op⟩ := by
  simp only [cpuIssue, h.runs, h.size, h.aligned, h.marked, Bool.not_true, Bool.false_eq_true, or_self, if_false]

theorem State.cpuIssue_of_done (h : s.Acts u c nc op) (hdone : u.cpuDo c nc op (u.opMark c s.nextId nc op) = (v, true)) :
    s.cpuIssue c nc op = v.follow c s.nextId u.nextId := by
  simp only [cpuIssue_of_acts h, attempt, h.unbarred, h.first, hdone, Bool.false_eq_true, or_self, if_false]

theorem State.cpuIssue_of_waits (h : s.Acts u c nc op) (hwaits : u.cpuDo c nc op (u.opMark c s.nextId nc op) = (v, false)) :
    s.cpuIssue c nc op = { v with stalls := v.stalls ++ [(⟨s.nextId, c, nc, op⟩ : Stall)] } := by
  simp only [cpuIssue_of_acts h, attempt, h.unbarred, h.first, hwaits, Bool.false_eq_true, or_self, if_false]

/-- That a misaligned AMO, LR or SC traps is the model's choice (log 31). -/
theorem State.cpuIssue_of_trap {t : Nat} (hruns : s.cpuRuns c = true) (hsize : op.sizeOk = true) (htrap : op.alignTrap = some t) :
    s.cpuIssue c nc op = s.trapCpu c t := by
  simp only [cpuIssue, hruns, hsize, htrap, Bool.not_true, Bool.false_eq_true, or_self, if_false]

/-! ## Cacheable memory (R298, R321) -/

theorem State.cpuDo_of_granted {mark : Nat} (hcache : cacheable op.addr = true) (hflush : op.isFlush = false)
    (hjudge : u.judge (u.coreRq c) op.access op.addr op.size = (v, none)) : u.cpuDo c false op mark = v.cachedOp c op := by
  simp only [cpuDo, hcache, hflush, hjudge, Bool.not_false, Bool.and_self, if_true, Bool.false_eq_true, if_false]

/-- An operation on memory that the core may access, and that it does on lines in its caches. -/
theorem State.cpuIssue_of_cached {w : State} (h : s.Acts u c false op) (hcache : cacheable op.addr = true) (hflush : op.isFlush = false)
    (hjudge : u.judge (u.coreRq c) op.access op.addr op.size = (v, none)) (hdone : v.cachedOp c op = (w, true)) :
    s.cpuIssue c false op = w.follow c s.nextId u.nextId :=
  cpuIssue_of_done h ((cpuDo_of_granted hcache hflush hjudge).trans hdone)

/-- A flush asks no right of its own. -/
theorem State.cpuDo_flush {a mark : Nat} (hcache : cacheable (a / 64 * 64) = true) :
    u.cpuDo c false (.flush a) mark = u.cachedOp c (.flush a) := by
  have haddr : (CpuOp.flush a).addr = a / 64 * 64 := rfl
  simp [cpuDo, haddr, hcache, CpuOp.isFlush]

theorem State.cpuDo_flush_elsewhere {a mark : Nat} (hcache : cacheable (a / 64 * 64) = false) :
    u.cpuDo c false (.flush a) mark = (u, true) := by
  have haddr : (CpuOp.flush a).addr = a / 64 * 64 := rfl
  simp [cpuDo, haddr, hcache, ncOp]

end Issue

section Lines

variable {s u : State} {c a n d w : Nat}

/-! ## Lines held and missed (R315, R316, R323, R324, R327) -/

theorem linesOf_one (a : Nat) : linesOf a 1 = [a / 64] := by
  have hone : (a + 1 + 63) / 64 - a / 64 = 1 := by omega
  simp [linesOf, hone]

theorem State.cachedOp_load_hit {x f : Bool} (hheld : s.allLines c a n LineSt.readable = true) :
    s.cachedOp c (.load a n d x f) = (if f then s.cpuFetched c (if s.touchesPoison c a n then stPoisoned else stOk) else
      s.cpuLoaded c d n x false (if s.touchesPoison c a n then stPoisoned else stOk) (s.cachedBytes c a n), true) :=
  if_pos hheld

theorem State.cachedOp_load_miss {x f : Bool} (hheld : s.allLines c a n LineSt.readable = false) :
    s.cachedOp c (.load a n d x f) = (s.askLines c a n false, false) :=
  if_neg (Bool.eq_false_iff.mp hheld)

theorem State.storeCached_of_clean {b : List Byte} (hclean : s.poisonedLine c a b.length = false) :
    s.storeCached c a b = s.writeCached c a b :=
  if_neg (Bool.eq_false_iff.mp hclean)

theorem State.cachedOp_store_hit (hheld : s.allLines c a n LineSt.writable = true)
    (hclean : s.poisonedLine c a (leBytes n w).length = false) :
    s.cachedOp c (.store a n w) = (s.writeCached c a (leBytes n w), true) := by
  rw [← storeCached_of_clean hclean]
  exact if_pos hheld

theorem State.cachedOp_zero_hit (hheld : s.allLines c (a / 64 * 64) 64 LineSt.writable = true)
    (hclean : s.poisonedLine c (a / 64 * 64) 64 = false) :
    s.cachedOp c (.zero a) = (s.writeCached c (a / 64 * 64) (List.replicate 64 0), true) := by
  rw [← storeCached_of_clean hclean]
  exact if_pos hheld

/-- R323: the AMO is done on the line that the agent owns. -/
theorem State.cachedOp_amo_hit {p x : Nat} {q r : Bool} (hheld : s.allLines c a n LineSt.writable = true)
    (hclean : s.touchesPoison c a n = false) :
    s.cachedOp c (.amo p a n w x d q r) = ((s.writeCached c a (leBytes n (atomicResult p (8 * n) (leNat (s.cachedBytes c a n)) w
      x))).setXreg c d (loadValue n true (s.cachedBytes c a n)), true) :=
  (if_pos hheld).trans (if_neg (Bool.eq_false_iff.mp hclean))

/-- R324: LR moves the core's reservation to its line. -/
theorem State.cachedOp_lr_hit {q r : Bool} (hheld : s.allLines c a n LineSt.readable = true) (hclean : s.touchesPoison c a n = false) :
    s.cachedOp c (.lr a n d q r) = (((s.dropReserved c).setLine c (a / 64)
      { (s.dropReserved c).line c (a / 64) with reserved := true }).setXreg c d (loadValue n true ((s.dropReserved c).cachedBytes c a n)),
      true) :=
  (if_pos hheld).trans (if_neg (Bool.eq_false_iff.mp hclean))

theorem length_leBytes (n v : Nat) : (leBytes n v).length = n := by
  induction n generalizing v with
  | zero => rfl
  | succ n ih => rw [leBytes, List.length_cons, ih]

/-- R324: an SC whose reservation still stands stores. -/
theorem State.cachedOp_sc_reserved {q r : Bool} (hheld : s.allLines c a n LineSt.writable = true)
    (hclean : s.poisonedLine c a n = false) (hreserved : (s.line c (a / 64)).reserved = true) :
    s.cachedOp c (.sc a n w d q r) = (((s.writeCached c a (leBytes n w)).dropReserved c).setXreg c d 0, true) := by
  have hstored : s.storeCached c a (leBytes n w) = s.writeCached c a (leBytes n w) :=
    storeCached_of_clean ((length_leBytes n w).symm ▸ hclean)
  simp [cachedOp, CpuOp.addr, CpuOp.size, hheld, hclean, hreserved, hstored]

theorem State.cachedOp_sc_lost {q r : Bool} (hheld : s.allLines c a n LineSt.writable = true)
    (hreserved : (s.line c (a / 64)).reserved = false) :
    s.cachedOp c (.sc a n w d q r) = ((s.dropReserved c).setXreg c d 1, true) := by
  simp [cachedOp, CpuOp.addr, CpuOp.size, hheld, hreserved]

/-- R315: a line in a stable state other than I is given up. -/
theorem State.cachedOp_flush_of_held (hheld : s.allLines c (a / 64 * 64) 1 (fun x => x == .shared || x == .excl || x == .modified || x ==
    .owned) = true) : s.cachedOp c (.flush a) = (s.replace c (a / 64), true) := by
  have hline : a / 64 * 64 / 64 = a / 64 := Nat.mul_div_cancel _ (by decide)
  simp only [allLines, linesOf_one, hline, List.all_cons, List.all_nil, Bool.and_true, Bool.or_eq_true, beq_iff_eq] at hheld
  simp only [cachedOp, CpuOp.addr, hline]
  obtain ((hst | hst) | hst) | hst := hheld <;> rw [hst]

theorem State.cachedOp_flush_of_inv (hinv : (s.line c (a / 64)).st = .inv) : s.cachedOp c (.flush a) = (s, true) := by
  have hline : a / 64 * 64 / 64 = a / 64 := Nat.mul_div_cancel _ (by decide)
  simp only [cachedOp, CpuOp.addr, hline, hinv]

/-- R315: a flush of a line that the core does not hold ends there, of whatever kind its memory is. -/
theorem State.cpuDo_flush_of_inv {mark : Nat} (hinv : (s.line c (a / 64)).st = .inv) : s.cpuDo c false (.flush a) mark = (s, true) := by
  cases hcache : cacheable (a / 64 * 64) with
  | true => rw [cpuDo_flush hcache, cachedOp_flush_of_inv hinv]
  | false => exact cpuDo_flush_elsewhere hcache

/-! ## Flushes and prefetches -/

theorem State.cpuIssue_flush_of_held (h : s.Acts u c false (.flush a)) (hcache : cacheable (a / 64 * 64) = true)
    (hheld : u.allLines c (a / 64 * 64) 1 (fun x => x == .shared || x == .excl || x == .modified || x == .owned) = true) :
    s.cpuIssue c false (.flush a) = (u.replace c (a / 64)).follow c s.nextId u.nextId :=
  cpuIssue_of_done h ((cpuDo_flush hcache).trans (cachedOp_flush_of_held hheld))

theorem State.cpuIssue_flush_of_inv (h : s.Acts u c false (.flush a)) (hinv : (u.line c (a / 64)).st = .inv) :
    s.cpuIssue c false (.flush a) = u.follow c s.nextId u.nextId :=
  cpuIssue_of_done h (cpuDo_flush_of_inv hinv)

theorem State.prefetch_of_miss {own : Bool} (hruns : s.cpuRuns c = true) (hcache : cacheable a = true)
    (hjudge : s.judge (s.coreRq c) (if own then 2 else 1) (a / 64 * 64) 64 = (s, none)) (hinv : (s.line c (a / 64)).st = .inv) :
    s.prefetch c a own = s.agentAsk c (a / 64) own := by
  simp only [prefetch, hruns, hcache, hjudge, hinv, Bool.not_true, Bool.false_eq_true, or_self, if_false, if_true]

end Lines

/-! ## The statement -/

section Commands

variable (s : State) (c a n d v : Nat) (nc : Bool)

theorem exec_cpuLoad (x f : Bool) : exec (.cpuLoad c a n d x f nc) s = .next (s.cpuIssue c nc (.load a n d x f)).mirror := rfl

theorem exec_cpuStore : exec (.cpuStore c a n v nc) s = .next (s.cpuIssue c nc (.store a n v)).mirror := rfl

theorem exec_cpuAmo (p x : Nat) (q r : Bool) :
    exec (.cpuAmo c p a n v x d nc q r) s = .next (s.cpuIssue c nc (.amo p a n v x d q r)).mirror := rfl

theorem exec_cpuLr (m : Bool × Bool) : exec (.cpuLr c a n d nc m) s = .next (s.cpuIssue c nc (.lr a n d m.1 m.2)).mirror := rfl

theorem exec_cpuSc (m : Bool × Bool) : exec (.cpuSc c a n v d nc m) s = .next (s.cpuIssue c nc (.sc a n v d m.1 m.2)).mirror := rfl

theorem exec_cboFlush : exec (.cboFlush c a) s = .next (s.cpuIssue c false (.flush a)).mirror := rfl

theorem exec_cboClean : exec (.cboClean c a) s = .next (s.cpuIssue c false (.flush a)).mirror := rfl

theorem exec_cboInval : exec (.cboInval c a) s = .next (s.cpuIssue c false (.flush a)).mirror := rfl

theorem exec_cboZero : exec (.cboZero c a) s = .next (s.cpuIssue c false (.zero a)).mirror := rfl

theorem exec_prefetch (own : Bool) : exec (.prefetch c a own) s = .next (s.prefetch c a own).mirror := rfl

end Commands

/-- Settles O18: an operation that acts ends as `State.cpuDo` ends it, and on cacheable memory that the core may access `State.cachedOp`
says what that is. That a misaligned AMO, LR or SC traps is the model's choice (log 31). -/
theorem cpuAccesses : Obligations.CpuAccesses := by
  unfold Obligations.CpuAccesses
  refine ⟨?load, ?store, ?amo, ?lr, ?sc, ?flush, ?clean, ?inval, ?zero, ?amoTrap, ?lrTrap, ?scTrap, ?loadHit, ?loadMiss, ?storeHit,
    ?amoHit, ?lrHit, ?scReserved, ?scLost, ?zeroHit, ?flushHeld, ?flushInv, ?cleanHeld, ?cleanInv, ?invalHeld, ?invalInv, ?prefetchMiss,
    fun s c a n d x f nc => exec_cpuLoad s c a n d nc x f, exec_cpuStore, fun s c p a n v x d nc q r => exec_cpuAmo s c a n d v nc p x q r,
    exec_cpuLr, fun s c a n v d nc m => exec_cpuSc s c a n d v nc m, exec_cboFlush, exec_cboClean, exec_cboInval, exec_cboZero,
    exec_prefetch⟩
  case load =>
    intro s u v c a n d x f nc hruns hsize hnext hbarred hbehind hdone
    rw [exec_cpuLoad, State.cpuIssue_of_done (.of_no_bits rfl rfl rfl hruns hsize hnext hbarred hbehind) hdone]
  case store =>
    intro s u v c a n w nc hruns hsize hnext hbarred hbehind hdone
    rw [exec_cpuStore, State.cpuIssue_of_done (.of_no_bits rfl rfl rfl hruns hsize hnext hbarred hbehind) hdone]
  case amo =>
    intro s u v c p a n w x d nc q r hruns hsize halign hmarked hbarred hbehind hdone
    rw [exec_cpuAmo, State.cpuIssue_of_done ⟨hruns, hsize, halign, hmarked, hbarred, hbehind⟩ hdone]
  case lr =>
    intro s u v c a n d nc q r hruns hsize halign hmarked hbarred hbehind hdone
    rw [exec_cpuLr, State.cpuIssue_of_done ⟨hruns, hsize, halign, hmarked, hbarred, hbehind⟩ hdone]
  case sc =>
    intro s u v c a n w d nc q r hruns hsize halign hmarked hbarred hbehind hdone
    rw [exec_cpuSc, State.cpuIssue_of_done ⟨hruns, hsize, halign, hmarked, hbarred, hbehind⟩ hdone]
  case flush =>
    intro s u v c a hruns hsize hnext hbarred hbehind hdone
    rw [exec_cboFlush, State.cpuIssue_of_done (.of_no_bits rfl rfl rfl hruns hsize hnext hbarred hbehind) hdone]
  case clean =>
    intro s u v c a hruns hsize hnext hbarred hbehind hdone
    rw [exec_cboClean, State.cpuIssue_of_done (.of_no_bits rfl rfl rfl hruns hsize hnext hbarred hbehind) hdone]
  case inval =>
    intro s u v c a hruns hsize hnext hbarred hbehind hdone
    rw [exec_cboInval, State.cpuIssue_of_done (.of_no_bits rfl rfl rfl hruns hsize hnext hbarred hbehind) hdone]
  case zero =>
    intro s u v c a hruns hsize hnext hbarred hbehind hdone
    rw [exec_cboZero, State.cpuIssue_of_done (.of_no_bits rfl rfl rfl hruns hsize hnext hbarred hbehind) hdone]
  case amoTrap =>
    intro s c p a n v x d nc q r hruns hn hp hmisaligned
    have hsize : (CpuOp.amo p a n v x d q r).sizeOk = true := by simp [CpuOp.sizeOk, hn, hp]
    rw [exec_cpuAmo, State.cpuIssue_of_trap hruns hsize (if_neg hmisaligned), State.trapCpu]
  case lrTrap =>
    intro s c a n d nc q r hruns hn hmisaligned
    have hsize : (CpuOp.lr a n d q r).sizeOk = true := by simp [CpuOp.sizeOk, hn]
    rw [exec_cpuLr, State.cpuIssue_of_trap hruns hsize (if_neg hmisaligned), State.trapCpu]
  case scTrap =>
    intro s c a n v d nc q r hruns hn hmisaligned
    have hsize : (CpuOp.sc a n v d q r).sizeOk = true := by simp [CpuOp.sizeOk, hn]
    rw [exec_cpuSc, State.cpuIssue_of_trap hruns hsize (if_neg hmisaligned), State.trapCpu]
  case loadHit =>
    intro s u v c a n d x f hruns hsize hnext hbarred hbehind hcache hjudge hheld
    rw [exec_cpuLoad, State.cpuIssue_of_cached (.of_no_bits rfl rfl rfl hruns hsize hnext hbarred hbehind) hcache rfl hjudge
      (State.cachedOp_load_hit hheld)]
  case loadMiss =>
    intro s u v c a n d x f hruns hsize hnext hbarred hbehind hcache hjudge hmissed
    rw [exec_cpuLoad, State.cpuIssue_of_waits (.of_no_bits rfl rfl rfl hruns hsize hnext hbarred hbehind)
      ((State.cpuDo_of_granted (op := .load a n d x f) hcache rfl hjudge).trans (State.cachedOp_load_miss hmissed))]
  case storeHit =>
    intro s u v c a n w hruns hsize hnext hbarred hbehind hcache hjudge hheld hclean
    rw [exec_cpuStore, State.cpuIssue_of_cached (.of_no_bits rfl rfl rfl hruns hsize hnext hbarred hbehind) hcache rfl hjudge
      (State.cachedOp_store_hit hheld hclean)]
  case amoHit =>
    intro s u v c p a n w x d q r hruns hsize halign hmarked hbarred hbehind hcache hjudge hheld hclean
    rw [exec_cpuAmo, State.cpuIssue_of_cached ⟨hruns, hsize, halign, hmarked, hbarred, hbehind⟩ hcache rfl hjudge
      (State.cachedOp_amo_hit hheld hclean)]
  case lrHit =>
    intro s u v c a n d q r hruns hsize halign hmarked hbarred hbehind hcache hjudge hheld hclean
    rw [exec_cpuLr, State.cpuIssue_of_cached ⟨hruns, hsize, halign, hmarked, hbarred, hbehind⟩ hcache rfl hjudge
      (State.cachedOp_lr_hit hheld hclean)]
  case scReserved =>
    intro s u v c a n w d q r hruns hsize halign hmarked hbarred hbehind hcache hjudge hheld hclean hreserved
    rw [exec_cpuSc, State.cpuIssue_of_cached ⟨hruns, hsize, halign, hmarked, hbarred, hbehind⟩ hcache rfl hjudge
      (State.cachedOp_sc_reserved hheld hclean hreserved)]
  case scLost =>
    intro s u v c a n w d q r hruns hsize halign hmarked hbarred hbehind hcache hjudge hheld hreserved
    rw [exec_cpuSc, State.cpuIssue_of_cached ⟨hruns, hsize, halign, hmarked, hbarred, hbehind⟩ hcache rfl hjudge
      (State.cachedOp_sc_lost hheld hreserved)]
  case zeroHit =>
    intro s u v c a hruns hsize hnext hbarred hbehind hcache hjudge hheld hclean
    rw [exec_cboZero, State.cpuIssue_of_cached (.of_no_bits rfl rfl rfl hruns hsize hnext hbarred hbehind) (cacheable_line hcache) rfl
      hjudge (State.cachedOp_zero_hit hheld hclean)]
  case flushHeld =>
    intro s u c a hruns hnext hbarred hbehind hcache hheld
    rw [exec_cboFlush, State.cpuIssue_flush_of_held (.of_no_bits rfl rfl rfl hruns rfl hnext hbarred hbehind) hcache hheld]
  case flushInv =>
    intro s u c a hruns hnext hbarred hbehind hinv
    rw [exec_cboFlush, State.cpuIssue_flush_of_inv (.of_no_bits rfl rfl rfl hruns rfl hnext hbarred hbehind) hinv]
  case cleanHeld =>
    intro s u c a hruns hnext hbarred hbehind hcache hheld
    rw [exec_cboClean, State.cpuIssue_flush_of_held (.of_no_bits rfl rfl rfl hruns rfl hnext hbarred hbehind) hcache hheld]
  case cleanInv =>
    intro s u c a hruns hnext hbarred hbehind hinv
    rw [exec_cboClean, State.cpuIssue_flush_of_inv (.of_no_bits rfl rfl rfl hruns rfl hnext hbarred hbehind) hinv]
  case invalHeld =>
    intro s u c a hruns hnext hbarred hbehind hcache hheld
    rw [exec_cboInval, State.cpuIssue_flush_of_held (.of_no_bits rfl rfl rfl hruns rfl hnext hbarred hbehind) hcache hheld]
  case invalInv =>
    intro s u c a hruns hnext hbarred hbehind hinv
    rw [exec_cboInval, State.cpuIssue_flush_of_inv (.of_no_bits rfl rfl rfl hruns rfl hnext hbarred hbehind) hinv]
  case prefetchMiss =>
    intro s c a w hruns hcache hjudge hinv
    rw [exec_prefetch, State.prefetch_of_miss hruns hcache hjudge hinv]

end Sys2Proof.Machine

/-! PROOF. Fences of the CPU cores (R281, R289, R292, R297, R339): what each does on a core that runs; and the statement about their
commands. -/

namespace Sys2Proof.Machine

section Fences

variable {s : State} {c : Nat}

theorem State.fence_of_runs {p q : Nat} {tso : Bool} (hruns : s.cpuRuns c = true) :
    s.fence c p q tso = if tso then s.barrierTso c else s.barrier c (p % 16) (q % 16) := by
  simp only [fence, hruns, Bool.not_true, Bool.false_eq_true, if_false]

/-- R292: FENCE.COMPLETE is an ORDER over every access of the core, and waits for what it covers. -/
theorem State.fenceComplete_of_runs {rd : Nat} (hruns : s.cpuRuns c = true) :
    s.fenceComplete c rd = ((s.barrier c 15 15).updCpu c (fun x => { x with fenceRd := some rd })).tryFence c := by
  simp only [fenceComplete, hruns, Bool.not_true, Bool.false_eq_true, if_false]

end Fences

section Commands

variable (s : State) (c : Nat)

theorem exec_fence (p q : Nat) (tso : Bool) : exec (.fence c p q tso) s = .next (s.fence c p q tso).mirror := rfl

theorem exec_fenceOrder : exec (.fenceOrder c) s = .next (if s.cpuRuns c then s.barrier c 15 15 else s).mirror := rfl

theorem exec_fenceComplete (rd : Nat) : exec (.fenceComplete c rd) s = .next (s.fenceComplete c rd).mirror := rfl

theorem exec_xtzfenceIllegal (w : Nat) : exec (.xtzfenceIllegal c w) s =
    .next (if s.cpuRuns c ∧ xtzfenceBad w then s.trapCpu c trapIllegal else s).mirror := rfl

/-- R339: SFENCE.VMA acts on the hart's own translations, which are no state of the device. -/
theorem exec_sfenceVma : exec (.sfenceVma c) s = .next s.mirror := rfl

end Commands

/-- Settles O19: each fence on a core that runs. For which accesses a barrier and FENCE.TSO wait, and that SFENCE.VMA changes no state of
the device, are the model's readings (log 32). -/
theorem cpuFences : Obligations.CpuFences := by
  unfold Obligations.CpuFences
  refine ⟨?fence, ?order, ?complete, ?illegal, exec_sfenceVma, exec_fence, exec_fenceOrder, exec_fenceComplete, exec_xtzfenceIllegal⟩
  case fence =>
    intro s c p q tso hruns
    rw [exec_fence, State.fence_of_runs hruns]
  case order =>
    intro s c hruns
    rw [exec_fenceOrder, if_pos hruns]
  case complete =>
    intro s c rd hruns
    rw [exec_fenceComplete, State.fenceComplete_of_runs hruns]
  case illegal =>
    intro s c w hruns hbad
    rw [exec_xtzfenceIllegal, if_pos ⟨hruns, hbad⟩, State.trapCpu]

end Sys2Proof.Machine

/-! PROOF. The host link (R282, R300, R398 to R401, R404, R405): what an access through BAR2 and one through BAR0 does when its window is
shut, when the host's earlier writes hold it, and when it is performed, what a write of HOST_BAR2 takes, and what loses the host; and the
statement about their commands. -/

namespace Sys2Proof.Machine

section HostAccesses

variable {s u : State} {o n st v : Nat}

/-! ## Accesses in error (R399, R400) -/

/-- A posted write has no answer; a read is answered as an unsupported request. That both are counted is the model's choice (log 45). -/
theorem State.barError_eq (s : State) (write : Bool) : s.barError write =
    if write then s.bump Fld.HOST_STATUS_BAR_ERRORS 0 else (s.bump Fld.HOST_STATUS_BAR_ERRORS 0).emit (.hostAnswer 1 []) := rfl

/-! ## BAR2 (R282, R398, R400) -/

theorem State.bar2Read_of_shut (hshut : s.bar2Open o = false) : s.bar2Read o n = s.barError false := by
  simp only [bar2Read, hshut, Bool.not_false, if_true]

theorem State.bar2Read_of_behind (hopen : s.bar2Open o = true) (hwrites : s.hostWritesOpen = true) :
    s.bar2Read o n = s.openAccess s.bar2Rq none (s.bar2Addr o) n 1 .hostRead := by
  simp only [bar2Read, hopen, hwrites, Bool.not_true, Bool.false_eq_true, if_false, if_true]

theorem State.bar2Read_of_done {b : List Byte} (hopen : s.bar2Open o = true) (hwrites : s.hostWritesOpen = false)
    (hread : s.issueRead s.bar2Rq none (s.bar2Addr o) n .hostRead = (u, .done st b)) : s.bar2Read o n = u.hostAnswered st b := by
  simp only [bar2Read, hopen, hwrites, hread, Bool.not_true, Bool.false_eq_true, if_false]

section Writes

variable {d : List Byte} {poison : Bool}

theorem State.bar2Write_of_shut (hshut : s.bar2Open o = false) : s.bar2Write o d poison = s.barError true := by
  simp only [bar2Write, hshut, Bool.not_false, if_true]

theorem State.bar2Write_of_behind (hopen : s.bar2Open o = true) (hwrites : s.hostWritesOpen = true) :
    s.bar2Write o d poison = s.parkHostWrite s.bar2Rq (s.bar2Addr o) d (.hostWrite poison) := by
  simp only [bar2Write, hopen, hwrites, Bool.not_true, Bool.false_eq_true, if_false, if_true]

theorem State.issueHostWrite_of_done {rq : Requester} {a : Nat} {b : List Byte}
    (hwrite : s.issueWrite rq none a d (.hostWrite poison) = (u, .done st b)) :
    s.issueHostWrite rq a d poison = u.hostStored a d.length poison st := by
  simp only [issueHostWrite, hwrite]

theorem State.bar2Write_of_done {b : List Byte} (hopen : s.bar2Open o = true) (hwrites : s.hostWritesOpen = false)
    (hwrite : s.issueWrite s.bar2Rq none (s.bar2Addr o) d (.hostWrite poison) = (u, .done st b)) :
    s.bar2Write o d poison = u.hostStored (s.bar2Addr o) d.length poison st := by
  rw [← issueHostWrite_of_done hwrite]
  simp only [bar2Write, hopen, hwrites, Bool.not_true, Bool.false_eq_true, if_false]

end Writes

/-! ## BAR0 (R300, R398, R399) -/

theorem State.bar0_of_badSize {write : Bool} (hsize : regSizeOk o n = false) : s.bar0 write o n v = s.barError write := by
  simp only [bar0, hsize, Bool.not_false, if_true]

/-- A BAR0 access that waits for the host's earlier writes: a write keeps its data beside its offset. -/
def State.parkBar0 (s : State) (write : Bool) (o n v : Nat) : State :=
  { s with
    opens := s.opens ++ [(⟨s.nextId, hostRq, none, regBase + o, n, if write then 2 else 1,
      if write then .hostWrite false else .hostRead, none, none, 0, [(o, if write then leBytes n v else [])], 0⟩ : OpenAccess)]
    nextId := s.nextId + 1 }

theorem State.bar0_of_behind {write : Bool} (hsize : regSizeOk o n = true) (hwrites : s.hostWritesOpen = true) :
    s.bar0 write o n v = s.parkBar0 write o n v := by
  simp only [bar0, hsize, hwrites, Bool.not_true, Bool.false_eq_true, if_false, if_true, parkBar0]

theorem State.bar0_read {x : Nat} (hsize : regSizeOk o n = true) (hwrites : s.hostWritesOpen = false)
    (hread : s.regRead hostRq o n = (u, st, x)) : s.bar0 false o n v = u.hostAnswered st (leBytes n x) := by
  simp only [bar0, hsize, hwrites, Bool.not_true, Bool.false_eq_true, if_false, regPerform, hread, if_true]

theorem State.bar0_write_of_taken (hsize : regSizeOk o n = true) (hwrites : s.hostWritesOpen = false)
    (hwrite : s.regWrite hostRq o n v = (u, stOk)) : s.bar0 true o n v = u := by
  simp only [bar0, hsize, hwrites, Bool.not_true, Bool.false_eq_true, if_false, hwrite, if_true]

end HostAccesses

section HostState

variable {s : State}

/-! ## HOST_BAR2 (R401) -/

/-- What a write of HOST_BAR2 does, by the place of the BASE that it would leave. -/
def State.takeBar2 (s : State) (w mask : Nat) : Loc → State
  | .host _ => s.raise Fld.HOST_STATUS_BAD_BASE
  | _ => s.storePlain .HOST_BAR2 0 w mask

/-- The definition is opened as a function, not at its arguments: there the kernel would compute where a BASE that is not known lies. -/
theorem State.writeBar2_eq (s : State) (w mask : Nat) :
    s.writeBar2 w mask = s.takeBar2 w mask (locate (getBits (s.stored .HOST_BAR2 0 w mask) 28 24 * 2 ^ 28)) := by
  have hdef : @State.writeBar2 = @State.writeBar2 := rfl
  conv at hdef => rhs; delta State.writeBar2
  rw [hdef]
  dsimp only [-Nat.reducePow]
  generalize locate (getBits (s.stored .HOST_BAR2 0 w mask) 28 24 * 2 ^ 28) = place
  cases place <;> rfl

theorem State.writeBar2_of_host {w mask b : Nat} (hplace : locate (getBits (s.stored .HOST_BAR2 0 w mask) 28 24 * 2 ^ 28) = .host b) :
    s.writeBar2 w mask = s.raise Fld.HOST_STATUS_BAD_BASE := by
  rw [writeBar2_eq, hplace, takeBar2]

theorem State.writeBar2_of_hbm {w mask k b : Nat}
    (hplace : locate (getBits (s.stored .HOST_BAR2 0 w mask) 28 24 * 2 ^ 28) = .hbm k b) :
    s.writeBar2 w mask = s.storePlain .HOST_BAR2 0 w mask := by
  rw [writeBar2_eq, hplace]
  rfl

/-! ## Losses (R404) -/

theorem State.hostLinkDown_of_active (hactive : s.flag Fld.HOST_STATUS_DL_ACTIVE = true) : s.hostLinkDown =
    { (((s.setFld Fld.HOST_STATUS_DL_ACTIVE 0 0).setFld Fld.HOST_STATUS_SPEED 0 0).setFld Fld.HOST_STATUS_WIDTH 0 0).hostLoss hcLinkDown
      with bme := false } := if_pos hactive

theorem State.bmeClear_of_set (hset : s.bme = true) : s.bmeClear = { s.hostLoss hcBme with bme := false } := if_pos hset

end HostState

/-! ## The statement -/

section Commands

variable (s : State)

theorem exec_bar2Read (o n : Nat) : exec (.bar2Read o n) s = .next (s.bar2Read o n).mirror := rfl

theorem exec_bar2Write (o : Nat) (d : List Byte) (poison : Bool) :
    exec (.bar2Write o d poison) s = .next (s.bar2Write o d poison).mirror := rfl

theorem exec_bar0AccessError (a : BarAccess) : exec (.bar0AccessError a) s = .next (s.bar0 a.write a.off a.size a.value).mirror := rfl

theorem exec_hostBar2Write (rq : Requester) (w : Nat) : exec (.hostBar2Write rq w) s =
    .next (s.gated rq .HOST_BAR2 0 (fun s => s.writeBar2 w (2 ^ 64 - 1))).mirror := rfl

theorem exec_hostLinkDown : exec .hostLinkDown s = .next s.hostLinkDown.mirror := rfl

theorem exec_perst : exec .perst s = .next s.perst.mirror := rfl

/-- An FLR clears Bus Master Enable with the function's configuration, as the loss of the host leaves it. -/
theorem exec_flr : exec .flr s = .next ({ s.hostLoss hcFlr with bme := false } : State).mirror := rfl

theorem exec_bmeClear : exec .bmeClear s = .next s.bmeClear.mirror := rfl

end Commands

/-- Settles O31: each access in the case of its window and of the host's earlier writes, an accepted write of HOST_BAR2 in the case of its
BASE, and each event that loses the host. What BAR_ERRORS counts (log 45), and how a BAR0 access in error is answered and that one waits for
writes (log 71), are the model's readings. -/
theorem hostLink : Obligations.HostLink := by
  unfold Obligations.HostLink
  refine ⟨?read, ?readBehind, ?readShut, ?write, ?writeBehind, ?writeShut, ?bar0Size, ?bar0Read, ?bar0Write, ?bar0Behind, ?badBase,
    ?base, ?linkDown, ?perst, exec_flr, ?busMaster, exec_bar2Read, exec_bar2Write, exec_bar0AccessError, exec_hostBar2Write,
    exec_hostLinkDown, exec_bmeClear⟩
  case read =>
    intro s u o n st b hopen hwrites hread
    rw [exec_bar2Read, State.bar2Read_of_done hopen hwrites hread]
  case readBehind =>
    intro s o n hopen hwrites
    rw [exec_bar2Read, State.bar2Read_of_behind hopen hwrites]
  case readShut =>
    intro s o n hshut
    rw [exec_bar2Read, State.bar2Read_of_shut hshut, State.barError_eq, if_neg Bool.false_ne_true]
  case write =>
    intro s u o st d b e hopen hwrites hwrite
    rw [exec_bar2Write, State.bar2Write_of_done hopen hwrites hwrite]
  case writeBehind =>
    intro s o d e hopen hwrites
    rw [exec_bar2Write, State.bar2Write_of_behind hopen hwrites]
  case writeShut =>
    intro s o d e hshut
    rw [exec_bar2Write, State.bar2Write_of_shut hshut, State.barError_eq, if_pos rfl]
  case bar0Size =>
    intro s w o n v hsize
    rw [exec_bar0AccessError, State.bar0_of_badSize hsize, State.barError_eq]
  case bar0Read =>
    intro s u o n v st x hsize hwrites hread
    rw [exec_bar0AccessError, State.bar0_read hsize hwrites hread]
  case bar0Write =>
    intro s u o n v hsize hwrites hwrite
    rw [exec_bar0AccessError, State.bar0_write_of_taken hsize hwrites hwrite]
  case bar0Behind =>
    intro s w o n v hsize hwrites
    rw [exec_bar0AccessError, State.bar0_of_behind hsize hwrites, State.parkBar0]
  case badBase =>
    intro s rq w b hwrite hplace
    rw [exec_hostBar2Write, State.gated_accepted _ hwrite, State.writeBar2_of_host hplace]
  case base =>
    intro s rq w b k hwrite hplace
    rw [exec_hostBar2Write, State.gated_accepted _ hwrite, State.writeBar2_of_hbm hplace]
  case linkDown =>
    intro s hactive
    rw [exec_hostLinkDown, State.hostLinkDown_of_active hactive]
  case perst =>
    intro s
    rw [exec_perst, State.perst]
  case busMaster =>
    intro s hset
    rw [exec_bmeClear, State.bmeClear_of_set hset]

end Sys2Proof.Machine

/-! PROOF. Requests at their homes, and what a home does with memory data, responses and acknowledgements (R312, R317 to R319, R321, R330):
when a request of an agent and one of a non-caching requester reaches the home of its line, how the agent's line moves where the agent has
not sent the request yet, and which transaction memory data and an acknowledgement end; and the statements about their commands. -/

namespace Sys2Proof.Machine

/-! ## Requests that reach a home (R312, R330) -/

section Requests

variable {s u : State} {m p : Msg} {code : Nat}

theorem State.request_of_open (hhome : (homeOf m.line).isSome = true) (hopen : s.homeFenced m.line = false) :
    s.request m = (s.deliver m).homeRequest m := by
  have hopen' : (s.deliver m).homeFenced m.line = false := hopen
  rw [request, if_neg (by simp [Option.isSome_iff_ne_none.mp hhome]), if_neg (by simp [hopen'])]

theorem State.request_of_fenced (hhome : (homeOf m.line).isSome = true) (hfenced : s.homeFenced m.line = true) :
    s.request m = (s.deliver m).fencedAnswer m := by
  have hfenced' : (s.deliver m).homeFenced m.line = true := hfenced
  rw [request, if_neg (by simp [Option.isSome_iff_ne_none.mp hhome]), if_pos hfenced']

/-! ## Requests of caching agents (R315, R316) -/

/-- The operand of a request names an agent and a line with a home. -/
def Msg.Addressed (m : Msg) : Prop := m.agent < 96 ∧ (homeOf m.line).isSome = true

theorem Msg.Addressed.passes (haddr : m.Addressed) : ¬ ((rowMsg code m).agent ≥ 96 ∨ (homeOf (rowMsg code m).line).isNone = true) := by
  obtain ⟨hagent, hhome⟩ := haddr
  rintro (hge | hnone)
  · exact absurd hagent (Nat.not_lt.mpr hge)
  · exact absurd (Option.isNone_iff_eq_none.mp hnone) (Option.isSome_iff_ne_none.mp hhome)

theorem State.agentRequest_of_sent (haddr : m.Addressed) (hsent : s.net.contains (rowMsg code m) = true) :
    s.agentRequest code m = s.request (rowMsg code m) := by
  simp only [agentRequest, if_neg haddr.passes, if_pos hsent]

/-- A request that no agent has sent yet, and that gives no line up, is the agent's own event first. -/
theorem State.agentRequest_of_unsent (haddr : m.Addressed) (hunsent : s.net.contains (rowMsg code m) = false)
    (hnoput : ¬ ((code = mPutM ∧ (s.line m.agent m.line).st = .modified) ∨ (code = mPutO ∧ (s.line m.agent m.line).st = .owned))) :
    s.agentRequest code m = (s.agentEvent (rowMsg code m)).request (rowMsg code m) := by
  have hnoput' : ¬ ((code = mPutM ∧ (s.line (rowMsg code m).agent (rowMsg code m).line).st = .modified) ∨
      (code = mPutO ∧ (s.line (rowMsg code m).agent (rowMsg code m).line).st = .owned)) := hnoput
  simp only [agentRequest, if_neg haddr.passes, if_neg (Bool.eq_false_iff.mp hunsent), if_neg hnoput']

/-- The Put of a line that an agent gives up, with the line's data. -/
def State.putOf (s : State) (code : Nat) (m : Msg) : Msg :=
  { msg code m.line m.agent with data := (s.line m.agent m.line).data, poison := (s.line m.agent m.line).poison }

theorem State.agentRequest_of_put (haddr : m.Addressed) (hunsent : s.net.contains (rowMsg code m) = false)
    (hput : (code = mPutM ∧ (s.line m.agent m.line).st = .modified) ∨ (code = mPutO ∧ (s.line m.agent m.line).st = .owned)) :
    s.agentRequest code m = (s.replace m.agent m.line).request (s.putOf code m) := by
  have hput' : (code = mPutM ∧ (s.line (rowMsg code m).agent (rowMsg code m).line).st = .modified) ∨
      (code = mPutO ∧ (s.line (rowMsg code m).agent (rowMsg code m).line).st = .owned) := hput
  simp only [agentRequest, if_neg haddr.passes, if_neg (Bool.eq_false_iff.mp hunsent), if_pos hput']
  rfl

section Events

theorem State.agentEvent_rdS (hinv : (s.line m.agent m.line).st = .inv) :
    s.agentEvent (rowMsg mRdS m) = s.setLine m.agent m.line { Line.empty with st := .isD } :=
  if_pos ⟨rfl, hinv⟩

theorem State.agentEvent_rdX (hinv : (s.line m.agent m.line).st = .inv) :
    s.agentEvent (rowMsg mRdX m) = s.setLine m.agent m.line { Line.empty with st := .imD } := by
  have hrdx : (rowMsg mRdX m).code = mRdX ∧ (s.line (rowMsg mRdX m).agent (rowMsg mRdX m).line).st = .inv := ⟨rfl, hinv⟩
  have hrds : ¬ mRdX = mRdS := by decide
  rw [agentEvent, if_neg (fun h => hrds h.1), if_pos hrdx]
  rfl

theorem upg_ne_read : ¬ mUpg = mRdS ∧ ¬ mUpg = mRdX := by decide

theorem State.agentEvent_upg_shared (hshared : (s.line m.agent m.line).st = .shared) :
    s.agentEvent (rowMsg mUpg m) = s.setLine m.agent m.line { s.line m.agent m.line with st := .smA } := by
  have hupg : (rowMsg mUpg m).code = mUpg ∧ (s.line (rowMsg mUpg m).agent (rowMsg mUpg m).line).st = .shared := ⟨rfl, hshared⟩
  rw [agentEvent, if_neg (fun h => upg_ne_read.1 h.1), if_neg (fun h => upg_ne_read.2 h.1), if_pos hupg, toState, if_neg (by decide)]
  rfl

theorem State.agentEvent_upg_owned (howned : (s.line m.agent m.line).st = .owned) :
    s.agentEvent (rowMsg mUpg m) = s.setLine m.agent m.line { s.line m.agent m.line with st := .omA } := by
  have hupg : (rowMsg mUpg m).code = mUpg ∧ (s.line (rowMsg mUpg m).agent (rowMsg mUpg m).line).st = .owned := ⟨rfl, howned⟩
  have hshared : ¬ ((rowMsg mUpg m).code = mUpg ∧ (s.line (rowMsg mUpg m).agent (rowMsg mUpg m).line).st = .shared) :=
    fun h => absurd (howned.symm.trans h.2) (by decide)
  rw [agentEvent, if_neg (fun h => upg_ne_read.1 h.1), if_neg (fun h => upg_ne_read.2 h.1), if_neg hshared, if_pos hupg, toState,
    if_neg (by decide)]
  rfl

theorem State.replace_modified (hmodified : (s.line m.agent m.line).st = .modified) : s.replace m.agent m.line =
    (s.send (s.putOf mPutM m)).setLine m.agent m.line { s.line m.agent m.line with st := .miA, reserved := false } := by
  simp only [replace, hmodified]
  rfl

theorem State.replace_owned (howned : (s.line m.agent m.line).st = .owned) : s.replace m.agent m.line =
    (s.send (s.putOf mPutO m)).setLine m.agent m.line { s.line m.agent m.line with st := .oiA, reserved := false } := by
  simp only [replace, howned]
  rfl

end Events

/-- An agent's request whose message is on its way, at a home that answers. -/
theorem State.agentRequest_sent_open (haddr : m.Addressed) (hsent : s.net.contains (rowMsg code m) = true)
    (hopen : s.homeFenced m.line = false) :
    s.agentRequest code m = (s.deliver (rowMsg code m)).homeRequest (rowMsg code m) := by
  rw [agentRequest_of_sent haddr hsent]
  exact request_of_open haddr.2 hopen

/-- An agent's request that it sends now, after the event u of its line. -/
theorem State.agentRequest_unsent_open (haddr : m.Addressed) (hunsent : s.net.contains (rowMsg code m) = false)
    (hnoput : code ≠ mPutM ∧ code ≠ mPutO) (hevent : s.agentEvent (rowMsg code m) = u) (hopen : u.homeFenced m.line = false) :
    s.agentRequest code m = (u.deliver (rowMsg code m)).homeRequest (rowMsg code m) := by
  rw [agentRequest_of_unsent haddr hunsent (by simp [hnoput]), hevent]
  exact request_of_open haddr.2 hopen

/-- A Put that the agent sends now, after the replacement u of its line. -/
theorem State.agentRequest_put_open (haddr : m.Addressed) (hunsent : s.net.contains (rowMsg code m) = false)
    (hput : (code = mPutM ∧ (s.line m.agent m.line).st = .modified) ∨ (code = mPutO ∧ (s.line m.agent m.line).st = .owned))
    (hreplaced : s.replace m.agent m.line = u) (hopen : u.homeFenced m.line = false) :
    s.agentRequest code m = (u.deliver (s.putOf code m)).homeRequest (s.putOf code m) := by
  rw [agentRequest_of_put haddr hunsent hput, hreplaced]
  exact request_of_open (m := s.putOf code m) haddr.2 hopen

/-! ## Requests of non-caching requesters (R321) -/

/-- A partial request lies within its line. -/
theorem State.ncRequest_open (hhome : (homeOf m.line).isSome = true) (hopen : s.homeFenced m.line = false)
    (hfits : m.off + max m.len m.data.length ≤ 64 ∨ code = mNCAtom) :
    s.ncRequest code m =
      (s.deliver { rowMsg code m with agent := ncAgent }).homeRequest { rowMsg code m with agent := ncAgent } := by
  rw [ncRequest, if_pos hfits]
  exact request_of_open (m := { rowMsg code m with agent := ncAgent }) hhome hopen

end Requests

section RequestCommands

variable (s : State) (m : Msg)

theorem exec_rdS : exec (.rdS m) s = .next (s.agentRequest mRdS m).mirror := rfl
theorem exec_rdX : exec (.rdX m) s = .next (s.agentRequest mRdX m).mirror := rfl
theorem exec_upg : exec (.upg m) s = .next (s.agentRequest mUpg m).mirror := rfl
theorem exec_putM : exec (.putM m) s = .next (s.agentRequest mPutM m).mirror := rfl
theorem exec_putO : exec (.putO m) s = .next (s.agentRequest mPutO m).mirror := rfl
theorem exec_ncRd : exec (.ncRd m) s = .next (s.ncRequest mNCRd m).mirror := rfl
theorem exec_ncWr : exec (.ncWr m) s = .next (s.ncRequest mNCWr { m with off := 0 }).mirror := rfl
theorem exec_ncWrP : exec (.ncWrP m) s = .next (s.ncRequest mNCWrP m).mirror := rfl
theorem exec_ncAtom : exec (.ncAtom m) s = .next (s.ncRequest mNCAtom m).mirror := rfl
theorem exec_zeroL : exec (.zeroL m) s = .next (s.ncRequest mZeroL m).mirror := rfl

end RequestCommands

/-- Settles O20: a request on its way reaches its home, and one that its agent sends now does so after the agent's line has moved. That a
command may also be the sending of its message is the model's choice (log 33). -/
theorem coherenceRequests : Obligations.CoherenceRequests := by
  unfold Obligations.CoherenceRequests
  refine ⟨?rdS, ?rdX, ?upg, ?putM, ?putO, ?rdSNew, ?rdXNew, ?upgShared, ?upgOwned, ?putMNew, ?putONew, ?fenced, ?ncRd, ?ncWr, ?ncWrP,
    ?ncAtom, ?zeroL, exec_rdS, exec_rdX, exec_upg, exec_putM, exec_putO, exec_ncRd, exec_ncWr, exec_ncWrP, exec_ncAtom, exec_zeroL⟩
  case rdS =>
    intro s m hagent hhome hsent hopen
    rw [exec_rdS, State.agentRequest_sent_open ⟨hagent, hhome⟩ hsent hopen]
  case rdX =>
    intro s m hagent hhome hsent hopen
    rw [exec_rdX, State.agentRequest_sent_open ⟨hagent, hhome⟩ hsent hopen]
  case upg =>
    intro s m hagent hhome hsent hopen
    rw [exec_upg, State.agentRequest_sent_open ⟨hagent, hhome⟩ hsent hopen]
  case putM =>
    intro s m hagent hhome hsent hopen
    rw [exec_putM, State.agentRequest_sent_open ⟨hagent, hhome⟩ hsent hopen]
  case putO =>
    intro s m hagent hhome hsent hopen
    rw [exec_putO, State.agentRequest_sent_open ⟨hagent, hhome⟩ hsent hopen]
  case rdSNew =>
    intro s u m hagent hhome hunsent hopen hinv hu
    have hopen' : u.homeFenced m.line = false := hu ▸ hopen
    rw [exec_rdS, State.agentRequest_unsent_open ⟨hagent, hhome⟩ hunsent (by decide) ((State.agentEvent_rdS hinv).trans hu) hopen']
  case rdXNew =>
    intro s u m hagent hhome hunsent hopen hinv hu
    have hopen' : u.homeFenced m.line = false := hu ▸ hopen
    rw [exec_rdX, State.agentRequest_unsent_open ⟨hagent, hhome⟩ hunsent (by decide) ((State.agentEvent_rdX hinv).trans hu) hopen']
  case upgShared =>
    intro s u m hagent hhome hunsent hopen hshared hu
    have hopen' : u.homeFenced m.line = false := hu ▸ hopen
    rw [exec_upg,
      State.agentRequest_unsent_open ⟨hagent, hhome⟩ hunsent (by decide) ((State.agentEvent_upg_shared hshared).trans hu) hopen']
  case upgOwned =>
    intro s u m hagent hhome hunsent hopen howned hu
    have hopen' : u.homeFenced m.line = false := hu ▸ hopen
    rw [exec_upg,
      State.agentRequest_unsent_open ⟨hagent, hhome⟩ hunsent (by decide) ((State.agentEvent_upg_owned howned).trans hu) hopen']
  case putMNew =>
    intro s u m p hagent hhome hunsent hopen hmodified hp hu
    have hput : s.putOf mPutM m = p := hp
    have hopen' : u.homeFenced m.line = false := hu ▸ hopen
    rw [exec_putM, State.agentRequest_put_open ⟨hagent, hhome⟩ hunsent (.inl ⟨rfl, hmodified⟩)
      ((State.replace_modified hmodified).trans (hput ▸ hu)) hopen', hput]
  case putONew =>
    intro s u m p hagent hhome hunsent hopen howned hp hu
    have hput : s.putOf mPutO m = p := hp
    have hopen' : u.homeFenced m.line = false := hu ▸ hopen
    rw [exec_putO, State.agentRequest_put_open ⟨hagent, hhome⟩ hunsent (.inr ⟨rfl, howned⟩)
      ((State.replace_owned howned).trans (hput ▸ hu)) hopen', hput]
  case fenced =>
    intro s m hagent hhome hsent hfenced
    rw [exec_rdS, State.agentRequest_of_sent ⟨hagent, hhome⟩ hsent, State.request_of_fenced (m := rowMsg mRdS m) hhome hfenced]
  case ncRd =>
    intro s m hhome hopen hfits
    rw [exec_ncRd, State.ncRequest_open hhome hopen (.inl hfits)]
  case ncWr =>
    intro s m hhome hopen hfits
    rw [exec_ncWr, State.ncRequest_open (m := { m with off := 0 }) hhome hopen (.inl ((Nat.zero_add _).trans_le hfits))]
  case ncWrP =>
    intro s m hhome hopen hfits
    rw [exec_ncWrP, State.ncRequest_open hhome hopen (.inl hfits)]
  case ncAtom =>
    intro s m hhome hopen
    rw [exec_ncAtom, State.ncRequest_open hhome hopen (.inr rfl)]
  case zeroL =>
    intro s m hhome hopen hfits
    rw [exec_zeroL, State.ncRequest_open hhome hopen (.inl hfits)]

/-! ## Memory data, responses and acknowledgements (R317 to R319) -/

section Home

variable {s u : State} {m : Msg} {l : Nat} {t : Tx} {code : Nat}

theorem State.memoryData_of_served (htx : (s.home l).tx = some t) (hmem : t.st = .mem) (hserve : s.mayServe l = true) :
    s.memoryData l = s.memoryServed l (s.home l) t := by
  simp only [memoryData, htx, hmem, hserve, ne_eq, not_true_eq_false, Bool.not_true, Bool.false_eq_true, or_self, if_false]

theorem State.memoryData_of_waits (htx : (s.home l).tx = some t) (hmem : t.st = .mem) (hwait : s.mayServe l = false) :
    s.memoryData l = s := by
  simp only [memoryData, htx, hmem, hwait, ne_eq, not_true_eq_false, Bool.not_false, or_true, if_true]

/-- R317: a read of a line without copies grants it exclusively. -/
theorem State.memoryServed_rdS_of_di {p : Nat} {b : List Byte} (hcode : t.req.code = mRdS) (hdi : (s.home l).st = .di)
    (hread : s.memLine (s.msgRq t.req) l = (u, b, p)) : s.memoryServed l (s.home l) t =
      u.grant t.req { s.home l with st := .dx, owner := t.req.agent, sharers := 0 } mDataE b p := by
  have hds : ¬ (s.home l).st = .ds := by rw [hdi]; decide
  have hdx : ¬ (t.ownerRsp = mRspS ∧ (s.home l).st = .dx) := by rw [hdi]; exact fun h => absurd h.2 (by decide)
  have hput : ¬ (mRdS = mPutM ∨ mRdS = mPutO) := by decide
  have hnc : ¬ (mNCWr ≤ mRdS ∧ mRdS ≤ mZeroL) := by decide
  simp only [memoryServed, hcode, if_neg hput, if_neg hnc, if_true, hread, if_neg hds, if_neg hdx]

theorem State.memoryServed_rdX {p : Nat} {b : List Byte} (hcode : t.req.code = mRdX)
    (hread : s.memLine (s.msgRq t.req) l = (u, b, p)) : s.memoryServed l (s.home l) t =
      u.grant t.req { s.home l with st := .dx, owner := t.req.agent, sharers := 0 } mDataM b p := by
  have hput : ¬ (mRdX = mPutM ∨ mRdX = mPutO) := by decide
  have hnc : ¬ (mNCWr ≤ mRdX ∧ mRdX ≤ mZeroL) := by decide
  have hrds : ¬ mRdX = mRdS := by decide
  simp only [memoryServed, hcode, if_neg hput, if_neg hnc, if_neg hrds, true_or, if_true, hread]

/-- A message of an agent to a home that answers. -/
theorem Msg.Addressed.reaches (haddr : m.Addressed) (hopen : s.homeFenced m.line = false) :
    ¬ ((rowMsg code m).agent ≥ 96 ∨ (homeOf (rowMsg code m).line).isNone = true ∨
      (s.deliver (rowMsg code m)).homeFenced (rowMsg code m).line = true) := by
  have hpasses := haddr.passes (code := code)
  have hopen' : (s.deliver (rowMsg code m)).homeFenced (rowMsg code m).line = false := hopen
  rw [hopen']
  simpa using hpasses

theorem State.response_of_open (haddr : m.Addressed) (hopen : s.homeFenced m.line = false) :
    s.response code m = (s.deliver (rowMsg code m)).homeResponse (rowMsg code m) :=
  if_neg (haddr.reaches hopen)

theorem State.cmpAck_of_awaited (htx : (s.home m.line).tx = some t) (hack : t.st = .ack) (hagent : t.req.agent = m.agent) :
    s.cmpAck m = s.homeEnd m.line (s.home m.line) := by
  simp only [cmpAck, htx, if_pos (And.intro hack hagent)]

theorem State.ackRow_of_open (haddr : m.Addressed) (hopen : s.homeFenced m.line = false) :
    s.ackRow m = (s.deliver (rowMsg mCmpAck m)).cmpAck (rowMsg mCmpAck m) :=
  if_neg (haddr.reaches hopen)

end Home

section HomeCommands

variable (s : State) (m : Msg)

theorem exec_homeMemoryData (l : Nat) : exec (.homeMemoryData l) s = .next (if s.homeFenced l then s else s.memoryData l).mirror := rfl
theorem exec_rspI : exec (.rspI m) s = .next (s.response mRspI m).mirror := rfl
theorem exec_rspS : exec (.rspS m) s = .next (s.response mRspS m).mirror := rfl
theorem exec_rspV : exec (.rspV m) s = .next (s.response mRspV m).mirror := rfl
theorem exec_rspOd : exec (.rspOd m) s = .next (s.response mRspOD m).mirror := rfl
theorem exec_rspSd : exec (.rspSd m) s = .next (s.response mRspSD m).mirror := rfl
theorem exec_rspId : exec (.rspId m) s = .next (s.response mRspID m).mirror := rfl
theorem exec_cmpAck : exec (.cmpAck m) s = .next (s.ackRow m).mirror := rfl

theorem exec_homeMemoryData_of_open {s : State} {l : Nat} (hopen : s.homeFenced l = false) :
    exec (.homeMemoryData l) s = .next (s.memoryData l).mirror := by
  rw [exec_homeMemoryData, if_neg (Bool.eq_false_iff.mp hopen)]

end HomeCommands

/-- Settles O21: memory data in the case of its transaction, and a message of an agent at a home that answers. That a response acts whether or
not the network holds it is the model's choice (log 33). -/
theorem homeTransactions : Obligations.HomeTransactions := by
  unfold Obligations.HomeTransactions
  refine ⟨?rdS, ?rdX, ?served, ?waits, ?rspI, ?rspS, ?rspV, ?rspOd, ?rspSd, ?rspId, ?ack, exec_homeMemoryData, exec_rspI, exec_rspS,
    exec_rspV, exec_rspOd, exec_rspSd, exec_rspId, exec_cmpAck⟩
  case rdS =>
    intro s u l p t b hopen htx hmem hserve hcode hdi hread
    rw [exec_homeMemoryData_of_open hopen, State.memoryData_of_served htx hmem hserve, State.memoryServed_rdS_of_di hcode hdi hread]
  case rdX =>
    intro s u l p t b hopen htx hmem hserve hcode hread
    rw [exec_homeMemoryData_of_open hopen, State.memoryData_of_served htx hmem hserve, State.memoryServed_rdX hcode hread]
  case served =>
    intro s l t hopen htx hmem hserve
    rw [exec_homeMemoryData_of_open hopen, State.memoryData_of_served htx hmem hserve]
  case waits =>
    intro s l t hopen htx hmem hwait
    rw [exec_homeMemoryData_of_open hopen, State.memoryData_of_waits htx hmem hwait]
  case rspI =>
    intro s m hagent hhome hopen
    rw [exec_rspI, State.response_of_open ⟨hagent, hhome⟩ hopen]
  case rspS =>
    intro s m hagent hhome hopen
    rw [exec_rspS, State.response_of_open ⟨hagent, hhome⟩ hopen]
  case rspV =>
    intro s m hagent hhome hopen
    rw [exec_rspV, State.response_of_open ⟨hagent, hhome⟩ hopen]
  case rspOd =>
    intro s m hagent hhome hopen
    rw [exec_rspOd, State.response_of_open ⟨hagent, hhome⟩ hopen]
  case rspSd =>
    intro s m hagent hhome hopen
    rw [exec_rspSd, State.response_of_open ⟨hagent, hhome⟩ hopen]
  case rspId =>
    intro s m hagent hhome hopen
    rw [exec_rspId, State.response_of_open ⟨hagent, hhome⟩ hopen]
  case ack =>
    intro s m t hagent hhome hopen htx hack hreq
    rw [exec_cmpAck, State.ackRow_of_open ⟨hagent, hhome⟩ hopen,
      State.cmpAck_of_awaited (s := s.deliver (rowMsg mCmpAck m)) (m := rowMsg mCmpAck m) htx hack hreq]
    rfl

end Sys2Proof.Machine

/-! PROOF. Caching agents (R316, R325): what a grant, the end of an eviction and an answer to a non-caching access do, what an agent answers to
each snoop in each state of the line, and that a snoop leaves every other line alone; and the statements about their commands. -/

namespace Sys2Proof.Machine

section Grants

variable {s u : State} {m : Msg} {code : Nat} {o : OpenAccess}

/-! ## Grants and acknowledged evictions (R313, R316) -/

theorem State.toAgent_of_addressed (act : State → Msg → State) (haddr : m.Addressed) :
    s.toAgent code m act = act (s.deliver (rowMsg code m)) (rowMsg code m) := if_pos haddr

theorem State.agentData_of_awaited {granted : LineSt} (hst : (s.line m.agent m.line).st = .isD) :
    s.agentData m granted = s.install m granted := if_pos hst

theorem State.agentDataM_of_awaited (hst : (s.line m.agent m.line).st = .imD) : s.agentDataM m = s.install m .modified := if_pos hst

theorem State.agentGntM_of_smA (hst : (s.line m.agent m.line).st = .smA) : s.agentGntM m =
    (s.setLine m.agent m.line { s.line m.agent m.line with st := .modified, poison := (s.line m.agent m.line).poison ||| m.poison }).respond
      mCmpAck m.line m.agent := if_pos (.inl hst)

theorem State.agentCmpPut_of_miA (hst : (s.line m.agent m.line).st = .miA) :
    s.agentCmpPut m = s.setLine m.agent m.line Line.empty := by
  rw [agentCmpPut, if_pos (.inl hst), toState, if_pos rfl]

/-! ## Answers to a non-caching access (R293) -/

/-- The parts of an access that have been answered, with that of the message in its place. -/
def OpenAccess.gotWith (o : OpenAccess) (m : Msg) : List (Nat × List Byte) := insertPart (m.line, m.data) o.got

theorem State.ncAnswer_of_last (hu : s.deliver { m with code := code } = u) (hopen : u.opens.find? (fun o => o.id == m.tag) = some o)
    (hlast : o.left ≤ 1) :
    s.ncAnswer code m = u.finishAccess o.id (worse o.worst m.off) ((o.gotWith m).map (·.2)).flatten := by
  simp only [ncAnswer, hu, hopen, if_pos hlast, OpenAccess.gotWith]

theorem State.ncAnswer_of_more (hu : s.deliver { m with code := code } = u) (hopen : u.opens.find? (fun o => o.id == m.tag) = some o)
    (hmore : 1 < o.left) : s.ncAnswer code m =
      { u with opens := u.opens.map (fun (x : OpenAccess) => if x.id = o.id then
        { x with left := x.left - 1, got := o.gotWith m, worst := worse o.worst m.off } else x) } := by
  simp only [ncAnswer, hu, hopen, if_neg (Nat.not_le.mpr hmore), OpenAccess.gotWith]

theorem State.ncAnswer_of_none (hu : s.deliver { m with code := code } = u) (hnone : u.opens.find? (fun o => o.id == m.tag) = none) :
    s.ncAnswer code m = u := by
  simp only [ncAnswer, hu, hnone]

end Grants

section AgentCommands

variable (s : State) (m : Msg)

theorem exec_dataS : exec (.dataS m) s = .next ((s.toAgent mDataS m (fun s m => s.agentData m .shared)).wakeCpu m.agent).mirror := rfl
theorem exec_dataE : exec (.dataE m) s = .next ((s.toAgent mDataE m (fun s m => s.agentData m .excl)).wakeCpu m.agent).mirror := rfl
theorem exec_dataM : exec (.dataM m) s = .next ((s.toAgent mDataM m State.agentDataM).wakeCpu m.agent).mirror := rfl
theorem exec_gntM : exec (.gntM m) s = .next ((s.toAgent mGntM m State.agentGntM).wakeCpu m.agent).mirror := rfl
theorem exec_cmpPut : exec (.cmpPut m) s = .next ((s.toAgent mCmpPut m State.agentCmpPut).wakeCpu m.agent).mirror := rfl
theorem exec_ncCmp : exec (.ncCmp m) s = .next (s.ncAnswer mNCCmp m).mirror := rfl
theorem exec_ncData : exec (.ncData m) s = .next (s.ncAnswer mNCData m).mirror := rfl
theorem exec_snpS : exec (.snpS m) s = .next ((s.toAgent mSnpS m State.agentSnpS).wakeCpu m.agent).mirror := rfl
theorem exec_snpInv : exec (.snpInv m) s = .next ((s.toAgent mSnpInv m State.agentSnpInv).wakeCpu m.agent).mirror := rfl
theorem exec_snpRcl : exec (.snpRcl m) s = .next ((s.toAgent mSnpRcl m State.agentSnpRcl).wakeCpu m.agent).mirror := rfl

end AgentCommands

/-- Settles O22: a message for an agent in the state of its line, and an answer to a non-caching access by the parts still awaited. That a
message acts whether or not the network holds it (log 33), and which line an agent gives up (log 68), are the model's choices. -/
theorem agentGrants : Obligations.AgentGrants := by
  unfold Obligations.AgentGrants
  refine ⟨?dataS, ?dataE, ?dataM, ?gntM, ?cmpPut, ?ncCmpLast, ?ncCmpMore, ?ncDataLast, ?ncDataNone, exec_dataS, exec_dataE, exec_dataM,
    exec_gntM, exec_cmpPut, exec_ncCmp, exec_ncData⟩
  case dataS =>
    intro s m hagent hhome hst
    rw [exec_dataS, State.toAgent_of_addressed _ ⟨hagent, hhome⟩,
      State.agentData_of_awaited (s := s.deliver (rowMsg mDataS m)) (m := rowMsg mDataS m) hst]
    rfl
  case dataE =>
    intro s m hagent hhome hst
    rw [exec_dataE, State.toAgent_of_addressed _ ⟨hagent, hhome⟩,
      State.agentData_of_awaited (s := s.deliver (rowMsg mDataE m)) (m := rowMsg mDataE m) hst]
    rfl
  case dataM =>
    intro s m hagent hhome hst
    rw [exec_dataM, State.toAgent_of_addressed _ ⟨hagent, hhome⟩,
      State.agentDataM_of_awaited (s := s.deliver (rowMsg mDataM m)) (m := rowMsg mDataM m) hst]
    rfl
  case gntM =>
    intro s m hagent hhome hst
    rw [exec_gntM, State.toAgent_of_addressed _ ⟨hagent, hhome⟩,
      State.agentGntM_of_smA (s := s.deliver (rowMsg mGntM m)) (m := rowMsg mGntM m) hst]
    rfl
  case cmpPut =>
    intro s m hagent hhome hst
    rw [exec_cmpPut, State.toAgent_of_addressed _ ⟨hagent, hhome⟩,
      State.agentCmpPut_of_miA (s := s.deliver (rowMsg mCmpPut m)) (m := rowMsg mCmpPut m) hst]
    rfl
  case ncCmpLast =>
    intro s u m o hu hopen hlast
    rw [exec_ncCmp, State.ncAnswer_of_last hu hopen hlast, OpenAccess.gotWith]
  case ncCmpMore =>
    intro s u m o hu hopen hmore
    rw [exec_ncCmp, State.ncAnswer_of_more hu hopen hmore, OpenAccess.gotWith]
  case ncDataLast =>
    intro s u m o hu hopen hlast
    rw [exec_ncData, State.ncAnswer_of_last hu hopen hlast, OpenAccess.gotWith]
  case ncDataNone =>
    intro s u m hu hnone
    rw [exec_ncData, State.ncAnswer_of_none hu hnone]

/-! ## What a snoop leaves (R316, R325) -/

/-- From s to t an agent has sent one response with a code for a line, and its line alone has moved, to a state. -/
structure SnoopAnswered (s t : State) (a l : Nat) (st : LineSt) (code : Nat) : Prop where
  state : (t.line a l).st = st
  response : ∃ r : Msg, t.net = s.net ++ [r] ∧ r.code = code ∧ r.line = l
  others : ∀ b k, k < 2 ^ 46 → (b, k) ≠ (a, l) → t.line b k = s.line b k
  stalls : t.stalls = s.stalls

theorem State.line_setLine_same (s : State) (a l : Nat) (v : Line) : (s.setLine a l v).line a l = v := Store.get_set_same

theorem State.line_setLine_other (s : State) {a l b k : Nat} (v : Line) (hl : l < 2 ^ 46) (hk : k < 2 ^ 46) (hne : (b, k) ≠ (a, l)) :
    (s.setLine a l v).line b k = s.line b k := by
  refine Store.get_set_other (fun hkey => hne ?_)
  have hagent : b = a := by omega
  have hline : k = l := by omega
  rw [hagent, hline]

namespace SnoopAnswered

variable {s t : State} {a l : Nat} {st : LineSt} {code : Nat}

/-- A response alone leaves the line in its state. -/
theorem send {r : Msg} (hst : (s.line a l).st = st) (hline : r.line = l) : SnoopAnswered s (s.send r) a l st r.code :=
  ⟨hst, ⟨r, rfl, rfl, hline⟩, fun _ _ _ _ => rfl, rfl⟩

theorem respond (hst : (s.line a l).st = st) : SnoopAnswered s (s.respond code l a) a l st code := send hst rfl

theorem respondData (hst : (s.line a l).st = st) : SnoopAnswered s (s.respondData code l a) a l st code := send hst rfl

theorem setLine (v : Line) (hl : l < 2 ^ 46) (h : SnoopAnswered s t a l st code) : SnoopAnswered s (t.setLine a l v) a l v.st code :=
  ⟨by rw [State.line_setLine_same], h.response, fun b k hk hne => (t.line_setLine_other v hl hk hne).trans (h.others b k hk hne), h.stalls⟩

theorem toState (st' : LineSt) (hl : l < 2 ^ 46) (h : SnoopAnswered s t a l st code) :
    SnoopAnswered s (t.toState a l st') a l st' code := by
  unfold State.toState
  by_cases hinv : st' = .inv
  · rw [if_pos hinv, hinv]
    exact h.setLine Line.empty hl
  · rw [if_neg hinv]
    exact h.setLine { t.line a l with st := st' } hl

/-- What was recorded in registers before the answer does not matter. -/
theorem of_registersOnly {u : State} (hregs : RegistersOnly s u) (h : SnoopAnswered u t a l st code) : SnoopAnswered s t a l st code := by
  rw [hregs] at h
  exact ⟨h.state, h.response, h.others, h.stalls⟩

end SnoopAnswered

theorem RegistersOnly.refl (s : State) : RegistersOnly s s := rfl

theorem RegistersOnly.setFld {s t : State} (f : Field) (i v : Nat) (h : RegistersOnly s t) : RegistersOnly s (t.setFld f i v) :=
  h.trans rfl

/-- R325 records an unexpected event in registers alone. -/
theorem State.noteAgentErr_registersOnly (s : State) (m : Msg) : RegistersOnly s (s.noteAgentErr m) := by
  have hcounted : RegistersOnly s ((s.raise Fld.HUB_STICKY_COH_PROTOCOL).bump Fld.CPU_COH_ERR_CNT_ERRORS m.agent) :=
    ((RegistersOnly.refl s).setFld _ _ _).setFld _ _ _
  unfold State.noteAgentErr
  dsimp only
  generalize (s.raise Fld.HUB_STICKY_COH_PROTOCOL).bump Fld.CPU_COH_ERR_CNT_ERRORS m.agent = u at hcounted
  have hfull : RegistersOnly s
      (if u.fld Fld.CPU_COH_ERR_CNT_ERRORS m.agent = 2 ^ 24 - 1 then u.raise Fld.CPU_COH_ERR_CNT_OVF m.agent else u) := by
    split
    · exact hcounted.setFld _ _ _
    · exact hcounted
  generalize (if u.fld Fld.CPU_COH_ERR_CNT_ERRORS m.agent = 2 ^ 24 - 1 then u.raise Fld.CPU_COH_ERR_CNT_OVF m.agent else u) = v at hfull
  split
  · exact hfull
  · exact ((((hfull.setFld _ _ _).setFld _ _ _).setFld _ _ _).setFld _ _ _).setFld _ _ _

/-- The response to a snoop in error: RspID with every POISON bit set. -/
def snoopErrorMsg (m : Msg) : Msg := { msg mRspID m.line m.agent with data := List.replicate 64 0, poison := 3 }

/-- R325 after the record: the response, and the line's next state, II_A where CmpPut is awaited and I elsewhere. -/
def State.answerError (s : State) (m : Msg) (st : LineSt) : State :=
  if st = .miA ∨ st = .oiA ∨ st = .iiA then (s.send (snoopErrorMsg m)).toState m.agent m.line .iiA
  else (s.send (snoopErrorMsg m)).toState m.agent m.line .inv

theorem State.snoopError_eq (s : State) (m : Msg) :
    s.snoopError m = (s.noteAgentErr m).answerError m ((s.noteAgentErr m).line m.agent m.line).st := rfl

theorem State.answerError_answered {s : State} {m : Msg} {st : LineSt} (hl : m.line < 2 ^ 46)
    (hst : (s.line m.agent m.line).st = st) :
    SnoopAnswered s (s.answerError m st) m.agent m.line (if st = .miA ∨ st = .oiA ∨ st = .iiA then .iiA else .inv) mRspID := by
  have hsent : SnoopAnswered s (s.send (snoopErrorMsg m)) m.agent m.line st mRspID := .send hst rfl
  unfold State.answerError
  by_cases hput : st = .miA ∨ st = .oiA ∨ st = .iiA
  · rw [if_pos hput, if_pos hput]
    exact hsent.toState .iiA hl
  · rw [if_neg hput, if_neg hput]
    exact hsent.toState .inv hl

/-- The record that comes before the response changes registers alone. -/
theorem State.answerError_of_registersOnly {s u : State} {m : Msg} {st : LineSt} (hregs : RegistersOnly s u) (hl : m.line < 2 ^ 46)
    (hst : (s.line m.agent m.line).st = st) : SnoopAnswered s (u.answerError m (u.line m.agent m.line).st) m.agent m.line
      (if st = .miA ∨ st = .oiA ∨ st = .iiA then .iiA else .inv) mRspID := by
  have hst' : (u.line m.agent m.line).st = st := by rw [hregs]; exact hst
  rw [hst']
  exact (State.answerError_answered hl hst').of_registersOnly hregs

theorem State.snoopError_answered {s : State} {m : Msg} {st : LineSt} (hl : m.line < 2 ^ 46) (hst : (s.line m.agent m.line).st = st) :
    SnoopAnswered s (s.snoopError m) m.agent m.line (if st = .miA ∨ st = .oiA ∨ st = .iiA then .iiA else .inv) mRspID := by
  rw [State.snoopError_eq]
  exact State.answerError_of_registersOnly (s.noteAgentErr_registersOnly m) hl hst

section Table

variable {s : State} {m : Msg}

/-- The state that SnpS leaves, and the response, by the state of the line (R316). -/
def snpSRow : LineSt → LineSt × Nat
  | .inv => (.inv, mRspI)
  | .shared => (.inv, mRspID)
  | .excl => (.shared, mRspS)
  | .modified => (.owned, mRspOD)
  | .owned => (.owned, mRspOD)
  | .isD => (.isD, mRspI)
  | .imD => (.imD, mRspI)
  | .smA => (.inv, mRspID)
  | .omA => (.omA, mRspOD)
  | .miA => (.oiA, mRspOD)
  | .oiA => (.oiA, mRspOD)
  | .iiA => (.iiA, mRspID)

/-- The same of SnpInv. -/
def snpInvRow : LineSt → LineSt × Nat
  | .inv => (.inv, mRspI)
  | .shared => (.inv, mRspI)
  | .excl => (.inv, mRspI)
  | .modified => (.inv, mRspID)
  | .owned => (.inv, mRspID)
  | .isD => (.isD, mRspI)
  | .imD => (.imD, mRspI)
  | .smA => (.imD, mRspI)
  | .omA => (.imD, mRspID)
  | .miA => (.iiA, mRspID)
  | .oiA => (.iiA, mRspID)
  | .iiA => (.iiA, mRspI)

/-- The same of SnpRcl. -/
def snpRclRow : LineSt → LineSt × Nat
  | .inv => (.inv, mRspI)
  | .shared => (.inv, mRspID)
  | .excl => (.excl, mRspV)
  | .modified => (.shared, mRspSD)
  | .owned => (.shared, mRspSD)
  | .isD => (.isD, mRspI)
  | .imD => (.imD, mRspI)
  | .smA => (.inv, mRspID)
  | .omA => (.smA, mRspSD)
  | .miA => (.iiA, mRspSD)
  | .oiA => (.iiA, mRspSD)
  | .iiA => (.iiA, mRspID)

theorem State.agentSnpS_answered {st : LineSt} (hl : m.line < 2 ^ 46) (hst : (s.line m.agent m.line).st = st) :
    SnoopAnswered s (s.agentSnpS m) m.agent m.line (snpSRow st).1 (snpSRow st).2 := by
  unfold State.agentSnpS
  dsimp only
  rw [hst]
  cases st with
  | inv | isD | imD => exact .respond hst
  | owned | omA | oiA => exact .respondData hst
  | excl => exact (SnoopAnswered.respond hst).toState _ hl
  | modified | miA => exact (SnoopAnswered.respondData hst).toState _ hl
  | shared | smA | iiA => exact State.snoopError_answered hl hst

theorem State.agentSnpInv_answered {st : LineSt} (hl : m.line < 2 ^ 46) (hst : (s.line m.agent m.line).st = st) :
    SnoopAnswered s (s.agentSnpInv m) m.agent m.line (snpInvRow st).1 (snpInvRow st).2 := by
  unfold State.agentSnpInv
  dsimp only
  rw [hst]
  cases st with
  | inv | isD | imD | iiA => exact .respond hst
  | shared | excl => exact (SnoopAnswered.respond hst).toState _ hl
  | modified | owned | miA | oiA => exact (SnoopAnswered.respondData hst).toState _ hl
  | smA => exact (SnoopAnswered.respond hst).setLine { Line.empty with st := .imD } hl
  | omA => exact (SnoopAnswered.respondData hst).setLine { Line.empty with st := .imD } hl

theorem State.agentSnpRcl_answered {st : LineSt} (hl : m.line < 2 ^ 46) (hst : (s.line m.agent m.line).st = st) :
    SnoopAnswered s (s.agentSnpRcl m) m.agent m.line (snpRclRow st).1 (snpRclRow st).2 := by
  unfold State.agentSnpRcl
  dsimp only
  rw [hst]
  cases st with
  | inv | isD | imD | excl => exact .respond hst
  | modified | owned | omA | miA | oiA => exact (SnoopAnswered.respondData hst).toState _ hl
  | shared | smA | iiA => exact State.snoopError_answered hl hst

/-! ## The commands -/

theorem State.wakeCpu_of_no_stalls {c : Nat} (hstalls : s.stalls.filter (fun x => x.cpu == c) = []) : s.wakeCpu c = s := by
  rw [wakeCpu, hstalls]
  rfl

/-- What a command that delivers a snoop answers, for an agent of which nothing waits. -/
def SnoopStep (s : State) (code : Nat) (m : Msg) (c : Instr) (row : LineSt × Nat) : Prop :=
  ∃ t r, exec c s = .next t ∧ (t.line m.agent m.line).st = row.1 ∧ t.net = s.net.erase (rowMsg code m) ++ [r] ∧ r.code = row.2 ∧
    r.line = m.line ∧ ∀ a l, l < 2 ^ 46 → (a, l) ≠ (m.agent, m.line) → t.line a l = s.line a l

theorem SnoopStep.of_answered {c : Instr} {code : Nat} {row : LineSt × Nat} {act : State → Msg → State}
    (hexec : exec c s = .next ((s.toAgent code m act).wakeCpu m.agent).mirror) (haddr : m.Addressed)
    (hstalls : s.stalls.filter (fun x => x.cpu == m.agent) = [])
    (h : SnoopAnswered (s.deliver (rowMsg code m)) (act (s.deliver (rowMsg code m)) (rowMsg code m)) m.agent m.line row.1 row.2) :
    SnoopStep s code m c row := by
  obtain ⟨hstate, ⟨r, hnet, hcode, hline⟩, hothers, hkept⟩ := h
  have hnetMirror (u : State) : u.mirror.net = u.net := by simp
  have hmirror (u : State) (a l : Nat) : u.mirror.line a l = u.line a l := by simp [State.line]
  rw [State.toAgent_of_addressed act haddr, State.wakeCpu_of_no_stalls (hkept.symm ▸ hstalls)] at hexec
  refine ⟨_, r, hexec, ?_, ?_, hcode, hline, fun a l hl hne => ?_⟩
  · rw [hmirror, hstate]
  · exact (hnetMirror _).trans hnet
  · rw [hmirror, hothers a l hl hne]
    rfl

end Table

/-- Settles O23: a snoop sends one response and moves its line alone, and the statement's rows are those of the three tables. -/
theorem agentSnoops : Obligations.AgentSnoops := by
  unfold Obligations.AgentSnoops
  refine ⟨fun s m => ⟨exec_snpS s m, exec_snpInv s m, exec_snpRcl s m⟩, fun s m hl hagent hhome hstalls q hq hst => ?_⟩
  have hrow : q.2 = ((snpSRow q.1).1, (snpSRow q.1).2, (snpInvRow q.1).1, (snpInvRow q.1).2, (snpRclRow q.1).1, (snpRclRow q.1).2) := by
    clear hst
    revert q
    decide
  have hsnpS : SnoopStep s mSnpS m (.snpS m) (snpSRow q.1) :=
    .of_answered (exec_snpS s m) ⟨hagent, hhome⟩ hstalls (State.agentSnpS_answered (m := rowMsg mSnpS m) hl hst)
  have hsnpInv : SnoopStep s mSnpInv m (.snpInv m) (snpInvRow q.1) :=
    .of_answered (exec_snpInv s m) ⟨hagent, hhome⟩ hstalls (State.agentSnpInv_answered (m := rowMsg mSnpInv m) hl hst)
  have hsnpRcl : SnoopStep s mSnpRcl m (.snpRcl m) (snpRclRow q.1) :=
    .of_answered (exec_snpRcl s m) ⟨hagent, hhome⟩ hstalls (State.agentSnpRcl_answered (m := rowMsg mSnpRcl m) hl hst)
  rw [hrow]
  exact ⟨hsnpS, hsnpInv, hsnpRcl⟩

end Sys2Proof.Machine

/-! PROOF. Fabric ports (R350 to R353, R357, R358, R362, R363): what a frame, a link message and a timeout do at a port that is UP, what a
message of a fabric circuit does at the segment that sends and at one that relays, and how training, a disabled port and the declarations of
a loss move a port; and the statements about their commands. -/

namespace Sys2Proof.Machine

section Links

variable {s u : State} {p : Nat}

/-! ## Frames (R349, R350) -/

section Frames

variable {k : Nat} {raw : List Byte} {n : FrameNote}

theorem State.fabricFrame_of_good {f : Frame} {c : Bool} (hup : s.portUp p = true) (hdecode : decodeFrame raw n = some (f, c)) :
    s.fabricFrame p raw k n = s.goodFrame p f c k n := by
  simp only [fabricFrame, hup, hdecode, Bool.not_true, Bool.false_eq_true, if_false]

theorem State.fabricFrame_of_bad (hup : s.portUp p = true) (hdecode : decodeFrame raw n = none) :
    s.fabricFrame p raw k n = s.badFrame p := by
  simp only [fabricFrame, hup, hdecode, Bool.not_true, Bool.false_eq_true, if_false]

end Frames

/-! ## The retry buffer and the credits of a port (R362, R363) -/

theorem State.pktTimeout_of_due (hretry : (s.port p).retry ≠ []) (hdue : (s.port p).ackBeat + 250 ≤ s.ft) :
    s.pktTimeout p = s.setPort p { s.port p with ackBeat := s.ft, again := (s.port p).retry.map (·.seq) } := by
  have hlate : ¬ s.ft < (s.port p).ackBeat + 250 := Nat.not_lt.mpr hdue
  simp only [pktTimeout, List.isEmpty_iff, hretry, hlate, or_self, if_false]

theorem State.vcCredit_of_vc {v n : Nat} (hv : v ≤ 2) : s.vcCredit p v n =
    s.setPort p ((s.port p).setCredit v (min (if v = 2 then 256 else 2048) ((s.port p).credit v + n))) :=
  if_neg (Nat.not_lt.mpr hv)

/-! ## Messages of a fabric circuit (R358) -/

section Segments

variable {c i n : Nat} {x : Nat × Nat} {ce : CircEntry}

/-- The egress port of a segment, and the segment whose producer the module is. -/
theorem State.segmentMsg_of_producer {m : LinkMsg} (act : State → CircEntry → State) (hce : s.circEntry m.arg16 = some ce)
    (hdst : ce.dst = 0x5000 + p) (hsrc : ce.src / 4096 ≠ 5) : s.segmentMsg p m act = act s ce := by
  simp only [segmentMsg, hce, hdst, ne_eq, not_true_eq_false, if_false, if_neg hsrc]

theorem State.segmentMsg_of_transit {m : LinkMsg} (act : State → CircEntry → State) (hce : s.circEntry m.arg16 = some ce)
    (hdst : ce.dst = 0x5000 + p) (hsrc : ce.src / 4096 = 5) : s.segmentMsg p m act = s.pushMsg (ce.src % 4096) m := by
  simp only [segmentMsg, hce, hdst, ne_eq, not_true_eq_false, if_false, if_pos hsrc]

/-- Credits that return on a fabric circuit, up to those that the image gives it. -/
def State.creditSegment (s : State) (ce : CircEntry) (n : Nat) : State :=
  (s.setCirc ce.id ((s.circ ce.id).addCredits s.ft (min n (ce.credits - (s.circ ce.id).credits)))).setSeg ce.id
    { s.seg ce.id with owed := (s.seg ce.id).owed.drop n }

theorem State.circuitCredit_of_producer (hce : s.circEntry c = some ce) (hdst : ce.dst = 0x5000 + p) (hsrc : ce.src / 4096 ≠ 5) :
    s.circuitCredit p c n x = ((s.seg ce.id).owed.take n).foldl (fun s r => s.contribNote r x) (s.creditSegment ce n) :=
  segmentMsg_of_producer (m := ⟨4, n, c, x⟩) _ hce hdst hsrc

theorem State.circuitCredit_of_transit (hce : s.circEntry c = some ce) (hdst : ce.dst = 0x5000 + p) (hsrc : ce.src / 4096 = 5) :
    s.circuitCredit p c n x = s.pushMsg (ce.src % 4096) ⟨4, n, c, x⟩ :=
  segmentMsg_of_transit (m := ⟨4, n, c, x⟩) _ hce hdst hsrc

theorem State.instAck_of_producer (hce : s.circEntry c = some ce) (hdst : ce.dst = 0x5000 + p) (hsrc : ce.src / 4096 ≠ 5) :
    s.instAck p c i = (((s.seg ce.id).sent.filter (fun t => instUpTo t.inst i)).map (·.tok.cmd)).eraseDups.foldl
      (fun s r => s.pendCheck ce.id r)
      (s.setSeg ce.id { s.seg ce.id with sent := (s.seg ce.id).sent.filter (fun t => !instUpTo t.inst i) }) :=
  segmentMsg_of_producer (m := ⟨5, i, c, (0, 0)⟩) _ hce hdst hsrc

theorem State.instNak_of_producer (hce : s.circEntry c = some ce) (hdst : ce.dst = 0x5000 + p) (hsrc : ce.src / 4096 ≠ 5) :
    s.instNak p c i = s.setSeg ce.id
      { s.seg ce.id with
        sent := (s.seg ce.id).sent.filter (fun t => !instUpTo i t.inst)
        resend := (s.seg ce.id).sent.filter (fun t => instUpTo i t.inst) ++ (s.seg ce.id).resend } :=
  segmentMsg_of_producer (m := ⟨6, i, c, (0, 0)⟩) _ hce hdst hsrc

theorem State.expireInsts_of_late
    (hlate : (s.seg ce.id).sent.findIdx? (fun t => decide (s.ft ≥ t.beat + 4 * 2 ^ ce.k)) = some i) :
    s.expireInsts ce = s.setSeg ce.id
      { s.seg ce.id with sent := (s.seg ce.id).sent.take i, resend := (s.seg ce.id).sent.drop i ++ (s.seg ce.id).resend } := by
  simp only [expireInsts, hlate]

theorem State.instTimeout_of_producer (hce : s.circEntry c = some ce) (hdst : ce.dst / 4096 = 5) (hsrc : ce.src / 4096 ≠ 5) :
    s.instTimeout c = s.expireInsts ce := by
  simp only [instTimeout, hce, if_pos (And.intro hdst hsrc)]

end Segments

end Links

section LinkCommands

variable (s : State) (p c i n : Nat)

theorem exec_fabricFrame (f : FrameIn) : exec (.fabricFrame p f) s = .next (s.fabricFrame p f.raw f.ps f.note).mirror := rfl

theorem exec_pktAck : exec (.pktAck p n) s = .next (if s.portUp p then s.pktAck p n else s).mirror := rfl

theorem exec_pktRetry : exec (.pktRetry p n) s = .next (if s.portUp p then s.pktRetry p n else s).mirror := rfl

theorem exec_pktRetryTimeout : exec (.pktRetryTimeout p) s = .next (if s.portUp p then s.pktTimeout p else s).mirror := rfl

theorem exec_vcCredit (v : Nat) : exec (.vcCredit p v n) s = .next (if s.portUp p then s.vcCredit p v n else s).mirror := rfl

theorem exec_circuitCredit (x : Nat × (Nat × Nat)) :
    exec (.circuitCredit p c x) s = .next (if s.portUp p then s.circuitCredit p c x.1 x.2 else s).mirror := rfl

theorem exec_instAck : exec (.instAck p c i) s = .next (if s.portUp p then s.instAck p c i else s).mirror := rfl

theorem exec_instNak : exec (.instNak p c i) s = .next (if s.portUp p then s.instNak p c i else s).mirror := rfl

theorem exec_instanceAckTimeout : exec (.instanceAckTimeout c) s = .next (s.instTimeout c).mirror := rfl

end LinkCommands

/-- Settles O26: each message at a port that is UP, and those of a circuit at the segment of its producer or at a transit. In what order a
segment's instances are accepted (log 41), and that the credits of contributions carry what they met (log 80), are the model's choices. -/
theorem fabricLinks : Obligations.FabricLinks := by
  unfold Obligations.FabricLinks
  refine ⟨?good, ?bad, ?ack, ?retry, ?timeout, ?vc, ?credit, ?creditTransit, ?instAck, ?instNak, ?instTimeout, exec_fabricFrame,
    exec_pktAck, exec_pktRetry, exec_pktRetryTimeout, fun s p v n => exec_vcCredit s p n v, exec_circuitCredit, exec_instAck, exec_instNak,
    exec_instanceAckTimeout⟩
  case good =>
    intro s p k raw n f c hup hdecode
    rw [exec_fabricFrame, State.fabricFrame_of_good hup hdecode]
  case bad =>
    intro s p k raw n hup hdecode
    rw [exec_fabricFrame, State.fabricFrame_of_bad hup hdecode]
  case ack =>
    intro s p q hup
    rw [exec_pktAck, if_pos hup, State.pktAck]
  case retry =>
    intro s p q hup
    rw [exec_pktRetry, if_pos hup, State.pktRetry]
  case timeout =>
    intro s p hup hretry hdue
    rw [exec_pktRetryTimeout, if_pos hup, State.pktTimeout_of_due hretry hdue]
  case vc =>
    intro s p v n hup hv
    rw [exec_vcCredit, if_pos hup, State.vcCredit_of_vc hv]
  case credit =>
    intro s u p c n x ce hup hce hdst hsrc hu
    rw [exec_circuitCredit, if_pos hup, State.circuitCredit_of_producer hce hdst hsrc, State.creditSegment, hu]
  case creditTransit =>
    intro s p c n x ce hup hce hdst hsrc
    rw [exec_circuitCredit, if_pos hup, State.circuitCredit_of_transit hce hdst hsrc]
  case instAck =>
    intro s p c i ce hup hce hdst hsrc
    rw [exec_instAck, if_pos hup, State.instAck_of_producer hce hdst hsrc]
  case instNak =>
    intro s p c i ce hup hce hdst hsrc
    rw [exec_instNak, if_pos hup, State.instNak_of_producer hce hdst hsrc]
  case instTimeout =>
    intro s c i ce hce hdst hsrc hlate
    rw [exec_instanceAckTimeout, State.instTimeout_of_producer hce hdst hsrc, State.expireInsts_of_late hlate]

section Ports

variable {s u : State} {p : Nat}

/-! ## Training (R352, R354) -/

/-- Training begins: the port says so to its neighbour, with the identity of the module's image. -/
def State.beginTraining (s : State) (p : Nat) (boot : Bool) : State :=
  (fun (t : State) => t.emit (.training p ((t.groupHdr.map (·.moduleId)).getD 0) t.groupId ((t.groupHdr.map (·.generation)).getD 0)))
    (((s.setPortState p psTraining).raise Fld.FAB_PORT_CTL_RETRAIN p).setPort p { s.port p with trainBeat := s.ft, boot := boot })

theorem State.retrain_of_down {boot : Bool} (hst : s.portState p = psDown ∨ s.portState p = psMismatch) :
    s.retrain p boot = s.beginTraining p boot := if_pos hst

theorem State.trainingTimeout_of_due (hst : s.portState p = psTraining) (hdue : (s.port p).trainBeat + 6250000 ≤ s.ft) :
    s.trainingTimeout p = s.endTraining p psDown := if_pos ⟨hst, hdue⟩

/-- A port that comes UP begins with empty buffers and the credits of its neighbour's. -/
def State.bringUp (s : State) (p : Nat) : State :=
  (s.endTraining p psUp).setPort p { Port.init with arrived := (s.port p).arrived, lastGood := s.ft, ackBeat := s.ft }

section Completion

variable {m n g : Nat} (hst : s.portState p = psTraining)
  (hu : (s.setFld Fld.FAB_PORT_STATUS_NBR_MODULE p m).setFld Fld.FAB_PORT_STATUS_NBR_PORT p n = u)
include hst hu

theorem State.trainingComplete_of_same (hgroup : g = u.groupId) : s.trainingComplete p m n g =
    if (u.port p).boot then (u.bringUp p).raise Fld.FAB_PORT_STATUS_SLOT_LIVE p else u.bringUp p := by
  rw [trainingComplete, if_neg (not_not_intro hst)]
  simp only [hu, if_pos hgroup]
  rfl

theorem State.trainingComplete_of_other (hgroup : g ≠ u.groupId) : s.trainingComplete p m n g = u.endTraining p psMismatch := by
  rw [trainingComplete, if_neg (not_not_intro hst)]
  simp only [hu, if_neg hgroup]

end Completion

/-! ## DISABLE, and losses (R352, R353) -/

theorem State.writeDisable_on : s.writeDisable p true =
    ((s.setFld Fld.FAB_PORT_CTL_DISABLE p 1).loseIfUp p 4).endTraining p psDisabled := by
  simp only [writeDisable, if_true]

theorem State.writeDisable_off (hst : (s.setFld Fld.FAB_PORT_CTL_DISABLE p 0).portState p = psDisabled) :
    s.writeDisable p false = (s.setFld Fld.FAB_PORT_CTL_DISABLE p 0).setPortState p psDown := by
  simp only [writeDisable, Bool.false_eq_true, if_false, if_pos hst]

theorem State.loseIfUp_of_up {cause : Nat} (hup : s.portUp p = true) : s.loseIfUp p cause = s.portLoss p cause := if_pos hup

theorem State.portSilence_of_due (hup : s.portUp p = true) (hdue : (s.port p).lastGood + 125 ≤ s.ft) : s.portSilence p = s.portLoss p 1 := by
  rw [portSilence, if_pos hdue, loseIfUp_of_up hup]

theorem State.portBadLimit_of_due (hup : s.portUp p = true)
    (hbad : 64 ≤ ((s.port p).bad.filter (fun b => decide (s.ft < b + 125000))).length) : s.portBadLimit p = s.portLoss p 2 := by
  rw [portBadLimit, if_pos hbad, loseIfUp_of_up hup]

end Ports

section PortCommands

variable (s : State) (rq : Requester) (p : Nat)

theorem exec_retrain : exec (.retrain rq p) s =
    .next (if p < 16 then s.gated rq .FAB_PORT_CTL p (fun s => s.retrain p) else s).mirror := rfl

theorem exec_portDisable (on : Bool) : exec (.portDisable rq p on) s =
    .next (if p < 16 then s.gated rq .FAB_PORT_CTL p (fun s => s.writeDisable p on) else s).mirror := rfl

theorem exec_trainingComplete (m n g : Nat) : exec (.trainingComplete p m n g) s = .next (s.trainingComplete p m n g).mirror := rfl

theorem exec_trainingTimeout : exec (.trainingTimeout p) s = .next (s.trainingTimeout p).mirror := rfl

theorem exec_portSilenceTimeout : exec (.portSilenceTimeout p) s = .next (s.portSilence p).mirror := rfl

theorem exec_portBadFrameLimit : exec (.portBadFrameLimit p) s = .next (s.portBadLimit p).mirror := rfl

theorem exec_trainingSequenceReceived : exec (.trainingSequenceReceived p) s = .next (s.loseIfUp p 3).mirror := rfl

theorem exec_portDisable_accepted {s : State} {rq : Requester} {p : Nat} (on : Bool) (hwrite : s.acceptsWrite rq .FAB_PORT_CTL p = true)
    (hp : p < 16) : exec (.portDisable rq p on) s = .next (s.writeDisable p on).mirror := by
  rw [exec_portDisable, if_pos hp, State.gated_accepted _ hwrite]

end PortCommands

/-- Settles O29: each command in the state of its port, RETRAIN and DISABLE where the port's block takes the write. -/
theorem fabricPorts : Obligations.FabricPorts := by
  unfold Obligations.FabricPorts
  refine ⟨?retrain, ?disable, ?enable, ?complete, ?mismatch, ?timeout, ?silence, ?badFrames, ?sequence, exec_retrain, exec_portDisable,
    exec_trainingComplete, exec_trainingTimeout, exec_portSilenceTimeout, exec_portBadFrameLimit, exec_trainingSequenceReceived⟩
  case retrain =>
    intro s rq p hwrite hp hst
    rw [exec_retrain, if_pos hp, State.gated_accepted _ hwrite, State.retrain_of_down hst, State.beginTraining]
  case disable =>
    intro s rq p hwrite hp
    rw [exec_portDisable_accepted true hwrite hp, State.writeDisable_on]
  case enable =>
    intro s rq p hwrite hp hst
    rw [exec_portDisable_accepted false hwrite hp, State.writeDisable_off hst]
  case complete =>
    intro s u v p m n g hst hu hgroup hv
    have hup : u.bringUp p = v := hv
    rw [exec_trainingComplete, State.trainingComplete_of_same hst hu hgroup, hup]
  case mismatch =>
    intro s u p m n g hst hu hgroup
    rw [exec_trainingComplete, State.trainingComplete_of_other hst hu hgroup]
  case timeout =>
    intro s p hst hdue
    rw [exec_trainingTimeout, State.trainingTimeout_of_due hst hdue]
  case silence =>
    intro s p hup hdue
    rw [exec_portSilenceTimeout, State.portSilence_of_due hup hdue]
  case badFrames =>
    intro s p hup hbad
    rw [exec_portBadFrameLimit, State.portBadLimit_of_due hup hbad]
  case sequence =>
    intro s p hup
    rw [exec_trainingSequenceReceived, State.loseIfUp_of_up hup]

end Sys2Proof.Machine

/-! PROOF. Packets that arrive at their module (R43, R282, R361, R365 to R368): when a packet is taken from its receive buffer, goes on or
stays, which access a request of another module becomes, and which access a response ends; and the statement about their commands. -/

namespace Sys2Proof.Machine

section Packets

variable {s u v w : State} {port typ st : Nat} {p : Packet} {act : State → State}

/-! ## Packets taken, forwarded and held (R361, R365, R375) -/

/-- A packet that the module's marks and the share do not hold back, taken from its receive buffer. -/
structure State.Takes (s u : State) (port typ : Nat) (p : Packet) : Prop where
  typ : p.typ = typ
  free : s.packetHeld port p = false
  served : s.packetBusy p = false
  taken : s.takePacket port p = u

theorem State.packetRow_of_taken (h : s.Takes u port typ p) : s.packetRow port typ p act =
    if p.dest ≠ u.selfModule then u.forward p
    else if (u.admitRequest p).2 = true then act (u.admitRequest p).1 else (u.admitRequest p).1 := by
  obtain ⟨htyp, hfree, hserved, htaken⟩ := h
  simp only [packetRow, htyp, hfree, hserved, htaken, ne_eq, not_true_eq_false, Bool.false_eq_true, or_self, if_false]
  obtain ⟨v, admitted⟩ := u.admitRequest p
  cases admitted with
  | false => rfl
  | true => rfl

theorem State.packetRow_of_admitted (h : s.Takes u port typ p) (hdest : p.dest = u.selfModule) (hadmit : u.admitRequest p = (v, true)) :
    s.packetRow port typ p act = act v := by
  rw [packetRow_of_taken h, if_neg (not_not_intro hdest), hadmit, if_pos rfl]

theorem State.packetRow_of_other (h : s.Takes u port typ p) (hdest : p.dest ≠ u.selfModule) : s.packetRow port typ p act = u.forward p := by
  rw [packetRow_of_taken h, if_pos hdest]

theorem State.packetRow_of_held (hheld : s.packetHeld port p = true) : s.packetRow port typ p act = s := if_pos (.inr (.inl hheld))

/-! ## Requests (R43, R361, R368) -/

theorem State.packetRead_of_done {b : List Byte} (hreach : p.inReach p.len = true) (hlen : p.len ≤ 256) (hreg : regOffset p.addr = none)
    (hread : v.issueRead p.rq none p.addr p.len p.waiter = (w, .done st b)) : v.packetRead p = w.answerPacket p.src p.tag 1 st b := by
  have hfits : ¬ ((!p.inReach p.len) = true ∨ p.len > 256) := by simp [hreach, hlen]
  simp only [packetRead, if_neg hfits, hreg, hread]

theorem State.packetWrite_of_done {b : List Byte} (hreach : p.inReach p.data.length = true) (hlen : p.data.length ≤ 256)
    (hreg : regOffset p.addr = none) (hwrite : v.issueWrite p.rq none p.addr p.data p.waiter = (w, .done st b)) :
    v.packetWrite p = w.answerPacket p.src p.tag 2 st [] := by
  have hfits : ¬ ((!p.inReach p.data.length) = true ∨ p.data.length > 256) := by simp [hreach, hlen]
  simp only [packetWrite, if_neg hfits, hreg, hwrite]

section Atomics

variable (hreach : p.inReach p.atomSize = true) (hsize : p.atomSize = 4 ∨ p.atomSize = 8)
include hreach hsize

theorem Packet.atomFits : ¬ ((!p.inReach p.atomSize) = true ∨ (!(p.atomSize == 4 || p.atomSize == 8)) = true) := by
  rintro (hfar | hodd)
  · simp [hreach] at hfar
  · rcases hsize with h | h <;> simp [h] at hodd

/-- An atomic operation of R313 with one operand. -/
theorem State.packetAtomic_of_done {b : List Byte} (hop : 0x10 ≤ p.op ∧ p.op ≤ 0x18) (halign : p.addr % p.atomSize = 0)
    (hreg : regOffset p.addr = none) (hatomic : v.issueAtomic p.rq none p.addr p.atomSize (opOfPacket p.op)
      (leNat (p.data.take p.atomSize)) 0 p.waiter = (w, .done st b)) : v.packetAtomic p = w.answerPacket p.src p.tag 3 st b := by
  obtain ⟨hlow, hhigh⟩ := hop
  have hadd : ¬ (1 ≤ p.op ∧ p.op ≤ 4) := by omega
  have hsound : ¬ (p.op < 0x10 ∨ p.op > 0x19 ∨ p.addr % p.atomSize ≠ 0 ∨ (regOffset p.addr).isSome = true) := by
    rw [hreg]
    simp only [Option.isSome_none, Bool.false_eq_true, or_false]
    omega
  have hswap : ¬ p.op = 0x19 := by omega
  simp only [packetAtomic, if_neg (p.atomFits hreach hsize), if_neg hadd, if_neg hsound, if_neg hswap, hatomic]

/-- An ADD_OP of R247. -/
theorem State.packetAtomic_of_add {o : Nat} (hop : 1 ≤ p.op ∧ p.op ≤ 4) (hadd : v.packetAdd p = (w, st, o)) :
    v.packetAtomic p = w.answerPacket p.src p.tag 3 st (leBytes p.atomSize o) := by
  simp only [packetAtomic, if_neg (p.atomFits hreach hsize), if_pos hop, hadd]

end Atomics

/-! ## Responses (R367) -/

theorem State.packetResponse_of_awaited {o : OpenAccess}
    (hawaited : v.opens.find? (fun o => o.id == p.tag && o.module == some p.src) = some o) :
    v.packetResponse p st = v.finishAccess o.id st p.data := by
  simp only [packetResponse, hawaited]

end Packets

section PacketCommands

variable (s : State) (port : Nat) (p : Packet)

theorem exec_packetRead : exec (.packetRead port p) s = .next (s.packetRow port pkRead p (fun s => s.packetRead p)).mirror := rfl

theorem exec_packetWrite : exec (.packetWrite port p) s = .next (s.packetRow port pkWrite p (fun s => s.packetWrite p)).mirror := rfl

theorem exec_packetAtomic : exec (.packetAtomic port p) s = .next (s.packetRow port pkAtomic p (fun s => s.packetAtomic p)).mirror := rfl

theorem exec_packetData : exec (.packetData port p) s =
    .next (s.packetRow port pkData p (fun s => s.packetResponse p p.status)).mirror := rfl

theorem exec_packetAck : exec (.packetAck port p) s = .next (s.packetRow port pkAck p (fun s => s.packetResponse p stOk)).mirror := rfl

theorem exec_packetError : exec (.packetError port p) s =
    .next (s.packetRow port pkError p (fun s => s.packetResponse p (if p.status = stOk then stAccessError else p.status))).mirror := rfl

end PacketCommands

/-- Settles O27: what becomes of a packet, and then the request or the response that an admitted one carries. For which requests of its module
a request waits is the model's choice (log 77). -/
theorem fabricPackets : Obligations.FabricPackets := by
  unfold Obligations.FabricPackets
  refine ⟨?read, ?write, ?atomic, ?add, ?forward, ?held, ?data, ?ack, ?error, exec_packetRead, exec_packetWrite, exec_packetAtomic,
    exec_packetData, exec_packetAck, exec_packetError⟩
  case read =>
    intro s u v w port st p b htyp hfree hserved htaken hdest hadmit hreach hlen hreg hread
    rw [exec_packetRead, State.packetRow_of_admitted ⟨htyp, hfree, hserved, htaken⟩ hdest hadmit,
      State.packetRead_of_done hreach hlen hreg hread]
  case write =>
    intro s u v w port st p b htyp hfree hserved htaken hdest hadmit hreach hlen hreg hwrite
    rw [exec_packetWrite, State.packetRow_of_admitted ⟨htyp, hfree, hserved, htaken⟩ hdest hadmit,
      State.packetWrite_of_done hreach hlen hreg hwrite]
  case atomic =>
    intro s u v w port st p b htyp hfree hserved htaken hdest hadmit hreach hsize hop halign hreg hatomic
    rw [exec_packetAtomic, State.packetRow_of_admitted ⟨htyp, hfree, hserved, htaken⟩ hdest hadmit,
      State.packetAtomic_of_done hreach hsize hop halign hreg hatomic]
  case add =>
    intro s u v w port st o p htyp hfree hserved htaken hdest hadmit hreach hsize hop hadd
    rw [exec_packetAtomic, State.packetRow_of_admitted ⟨htyp, hfree, hserved, htaken⟩ hdest hadmit,
      State.packetAtomic_of_add hreach hsize hop hadd]
  case forward =>
    intro s port p htyp hfree hserved hdest
    rw [exec_packetRead, State.packetRow_of_other ⟨htyp, hfree, hserved, rfl⟩ hdest]
  case held =>
    intro s port p htyp hheld
    rw [exec_packetWrite, State.packetRow_of_held hheld]
  case data =>
    intro s u v port p o htyp hfree hserved htaken hdest hadmit hawaited
    rw [exec_packetData, State.packetRow_of_admitted ⟨htyp, hfree, hserved, htaken⟩ hdest hadmit,
      State.packetResponse_of_awaited hawaited]
  case ack =>
    intro s u v port p o htyp hfree hserved htaken hdest hadmit hawaited
    rw [exec_packetAck, State.packetRow_of_admitted ⟨htyp, hfree, hserved, htaken⟩ hdest hadmit,
      State.packetResponse_of_awaited hawaited]
  case error =>
    intro s u v port p o htyp hfree hserved htaken hdest hadmit hawaited hstatus
    rw [exec_packetError, State.packetRow_of_admitted ⟨htyp, hfree, hserved, htaken⟩ hdest hadmit, if_neg hstatus,
      State.packetResponse_of_awaited hawaited]

end Sys2Proof.Machine

/-! PROOF. The die links and the package's clocks (chapter 14): each operation in its cases. -/

namespace Sys2Proof.Machine

section DieLinks

variable {s u : State} {l d c i n w : Nat}

/-! ## Coherent flits (R385, R386) -/

section Flits

variable {raw : List Byte} {e : List (Nat × Byte)} {f g : Flit} (hl : l < 17) (hup : s.linkState l = lsUp)
include hl hup

theorem State.linkOpen : ¬ (l ≥ 17 ∨ s.linkState l ≠ lsUp) := by
  rintro (hfar | hdown)
  · omega
  · exact hdown hup

section Sent

variable (hcoh : coherentLink l = true) (hsent : decodeFlit raw = some f)
  (hu : s.setDieLink (2 * l + d % 2) ((s.dieLink (2 * l + d % 2)).transmit f s.ft) = u)
include hcoh hsent hu

theorem State.coherentFlit_of_good (hgood : decodeFlit (strike raw e) = some g) : s.coherentFlit l d raw e =
    u.setDieLink (otherEnd (2 * l + d % 2))
      { ((u.dieLink (otherEnd (2 * l + d % 2))).acknowledge g u.ft).accept g with lastGood := u.ft } := by
  rw [coherentFlit, if_neg (linkOpen hl hup)]
  simp only [hsent, if_pos hcoh, hu, hgood]

theorem State.coherentFlit_of_bad (hbad : decodeFlit (strike raw e) = none) : s.coherentFlit l d raw e =
    (u.setDieLink (otherEnd (2 * l + d % 2)) { u.dieLink (otherEnd (2 * l + d % 2)) with discarding := true }).linkCount
      Fld.HUB_LINK_ERR_CRC_ERRORS l 1 := by
  rw [coherentFlit, if_neg (linkOpen hl hup)]
  simp only [hsent, if_pos hcoh, hu, hbad]
  rw [hcoh, Bool.or_true]

end Sent

/-- Of a flit of a tensor link only the arrival counts. -/
theorem State.coherentFlit_of_tensor (hcoh : coherentLink l = false) (hgood : decodeFlit (strike raw e) = some g) :
    s.coherentFlit l d raw e =
      s.setDieLink (otherEnd (2 * l + d % 2)) { s.dieLink (otherEnd (2 * l + d % 2)) with lastGood := s.ft } := by
  have hkept : (match decodeFlit raw with
      | some f => if coherentLink l then s.setDieLink (2 * l + d % 2) ((s.dieLink (2 * l + d % 2)).transmit f s.ft) else s
      | none => s) = s := by
    cases decodeFlit raw with
    | some f => exact if_neg (by simp [hcoh])
    | none => rfl
  rw [coherentFlit, if_neg (linkOpen hl hup)]
  simp only [hgood]
  rw [if_neg (by simp [hcoh])]
  exact congrArg (fun t : State => t.setDieLink (otherEnd (2 * l + d % 2))
    { t.dieLink (otherEnd (2 * l + d % 2)) with lastGood := t.ft }) hkept

theorem State.flitResend_of_due (hsent : (s.dieLink (2 * l + d % 2)).sent ≠ [])
    (hdue : (s.dieLink (2 * l + d % 2)).ackBeat + resendBeats l ≤ s.ft) : s.flitResend l d = ((s.setDieLink (2 * l + d % 2)
      { s.dieLink (2 * l + d % 2) with retries := (s.dieLink (2 * l + d % 2)).retries + 1, ackBeat := s.ft }).emit (.flits l (d % 2)
      (s.dieLink (2 * l + d % 2)).sent)).linkCount Fld.HUB_LINK_ERR_REPLAYS l (s.dieLink (2 * l + d % 2)).sent.length := by
  refine if_neg ?_
  rintro (hfar | hdown | hnone | hearly)
  · omega
  · exact hdown hup
  · exact hsent (List.isEmpty_iff.mp hnone)
  · omega

end Flits

/-! ## Tensor instances (R387) -/

/-- The instances that a direction keeps: the last two, the new one among them. -/
def DieLink.keepInst (v : DieLink) (one : Nat × Nat) : List (Nat × Nat) :=
  let kept := if v.insts.contains one then v.insts else v.insts ++ [one]
  kept.drop (kept.length - 2)

theorem State.instanceReceive_of_good {v : DieLink} (hl : 1 ≤ l ∧ l ≤ 4) (hup : s.linkState l = lsUp) (hv : s.dieLink (2 * l + d % 2) = v)
    (hu : s.setDieLink (2 * l + d % 2) { v with insts := v.keepInst (c, i % 2 ^ 16) } = u) : s.instanceReceive l d c i true =
      (u.setDieLink (otherEnd (2 * l + d % 2)) { u.dieLink (otherEnd (2 * l + d % 2)) with lastGood := u.ft }).emit
        (.instVerdict l (d % 2) true c (i % 2 ^ 16)) := by
  have hopen : ¬ (l = 0 ∨ l ≥ 17 ∨ (5 ≤ l ∧ l ≤ 8) ∨ s.linkState l ≠ lsUp) := by
    rintro (hnone | hfar | hcoh | hdown)
    · omega
    · omega
    · omega
    · exact hdown hup
  rw [instanceReceive, if_neg hopen]
  subst hv hu
  simp only [true_or, if_true]
  rfl

theorem State.linkInstAck_of_kept (hkept : (s.dieLink (2 * l + d % 2)).insts.any (fun x => x.1 == c && x.2 == i % 2 ^ 16) = true) :
    s.linkInstAck l d c i = s.setDieLink (2 * l + d % 2) { s.dieLink (2 * l + d % 2) with
      insts := (s.dieLink (2 * l + d % 2)).insts.filter (fun x => !(x.1 == c && x.2 == i % 2 ^ 16)), instRetries := 0 } := if_pos hkept

theorem State.linkInstNak_of_kept (hkept : (s.dieLink (2 * l + d % 2)).insts.contains (c, i % 2 ^ 16) = true)
    (hnew : (s.dieLink (2 * l + d % 2)).again.contains (c, i % 2 ^ 16) = false) :
    s.linkInstNak l d c i = s.setDieLink (2 * l + d % 2) { s.dieLink (2 * l + d % 2) with
      again := (s.dieLink (2 * l + d % 2)).again ++ [(c, i % 2 ^ 16)], instRetries := (s.dieLink (2 * l + d % 2)).instRetries + 1 } := by
  rw [linkInstNak]
  simp only [if_pos hkept, hnew, Bool.false_eq_true, if_false]

/-! ## Losses (R388, R390) -/

section Losses

variable (hl : l < 17) (hup : s.linkState l = lsUp)
include hl hup

theorem State.linkLoss_of_up (cause : Nat) : s.linkLoss l cause =
    (((s.raise Fld.HUB_LINK_STATUS_LOSS l).setFld Fld.HUB_LINK_STATUS_LOSS_CAUSE l cause).setFld Fld.HUB_LINK_STATUS_STATE l
      lsFenced).linkFence l (if cause = 4 then dfDieReset else if cause = 2 then dfClock else dfLinkLoss) :=
  if_neg (linkOpen hl hup)

theorem State.linkSilence_of_due (hdue : (s.dieLink (otherEnd (2 * l + d % 2))).lastGood + 8 ≤ s.ft) : s.linkSilence l d =
    (((s.raise Fld.HUB_LINK_STATUS_LOSS l).setFld Fld.HUB_LINK_STATUS_LOSS_CAUSE l 1).setFld Fld.HUB_LINK_STATUS_STATE l
      lsFenced).linkFence l dfLinkLoss := by
  rw [linkSilence, if_pos hdue, linkLoss_of_up hl hup]
  rfl

theorem State.linkRetryLimit_of_due (hdue : 32 ≤ (s.dieLink (2 * l + d % 2)).retries) : s.linkRetryLimit l d =
    (((s.raise Fld.HUB_LINK_STATUS_LOSS l).setFld Fld.HUB_LINK_STATUS_LOSS_CAUSE l 3).setFld Fld.HUB_LINK_STATUS_STATE l
      lsFenced).linkFence l dfLinkLoss := by
  have hlost : s.linkRetryLimit l d = s.linkLoss l 3 := if_pos (.inl hdue)
  rw [hlost, linkLoss_of_up hl hup]
  rfl

end Losses

/-! ## Clocks, and a pair that is fenced (R381, R390) -/

theorem State.clockFailure_of_base (hw : 4 ≤ w ∧ w < 8) : s.clockFailure w = s.fenceDiePair (w - 4) dfClock := by
  rw [clockFailure, if_neg (by omega), if_pos hw.2]

theorem State.clockFailure_of_reference : s.clockFailure 11 = (s.setFld Fld.HUB_CLK_STATUS_REF_PRESENT 0 0).chipReset 4 := rfl

theorem State.selfRefreshConfirm_of_fenced (hn : n < 4) (hfenced : s.dieFenced n = true) : s.selfRefreshConfirm n =
    s.setFld Fld.HUB_DIE_FENCE_HBM_HELD 0 (s.fld Fld.HUB_DIE_FENCE_HBM_HELD ||| 2 ^ n) := if_pos ⟨hn, hfenced⟩

end DieLinks

section DieLinkCommands

variable (s : State) (l d c i : Nat)

theorem exec_coherentFlit (f : FlitIn) : exec (.coherentFlit l d f) s = .next (s.coherentFlit l d f.raw f.errs).mirror := rfl

theorem exec_flitResendTimeout : exec (.flitResendTimeout l d) s = .next (s.flitResend l d).mirror := rfl

theorem exec_tensorInstanceReceive (ok : Bool) :
    exec (.tensorInstanceReceive l d c i ok) s = .next (s.instanceReceive l d c i ok).mirror := rfl

theorem exec_linkInstAck : exec (.linkInstAck l d c i) s = .next (s.linkInstAck l d c i).mirror := rfl

theorem exec_linkInstNak : exec (.linkInstNak l d c i) s = .next (s.linkInstNak l d c i).mirror := rfl

theorem exec_linkSilenceTimeout : exec (.linkSilenceTimeout l d) s = .next (s.linkSilence l d).mirror := rfl

theorem exec_linkRetryLimit : exec (.linkRetryLimit l d) s = .next (s.linkRetryLimit l d).mirror := rfl

theorem exec_linkResetIndication : exec (.linkResetIndication l) s = .next (s.linkLoss l 4).mirror := rfl

theorem exec_clockFailure (w : Nat) : exec (.clockFailure w) s = .next (s.clockFailure w).mirror := rfl

theorem exec_hbmSelfRefreshConfirm (n : Nat) : exec (.hbmSelfRefreshConfirm n) s = .next (s.selfRefreshConfirm n).mirror := rfl

end DieLinkCommands

/-- Settles O30: each command in the state of its link. That a neighbour's reset loses the link with LOSS_CAUSE 4 and fences the pair with
DIE_RESET is the model's reading of R388 and R390 (log 44). -/
theorem dieLinks : Obligations.DieLinks := by
  unfold Obligations.DieLinks
  refine ⟨?good, ?bad, ?tensor, ?resend, ?receive, ?ack, ?nak, ?silence, ?retries, ?reset, ?base, ?reference, ?held, exec_coherentFlit,
    exec_flitResendTimeout, exec_tensorInstanceReceive, exec_linkInstAck, exec_linkInstNak, exec_linkSilenceTimeout, exec_linkRetryLimit,
    exec_linkResetIndication, exec_clockFailure, exec_hbmSelfRefreshConfirm⟩
  case good =>
    intro s u l d raw e f g hl hcoh hup hsent hgood hu
    rw [exec_coherentFlit, State.coherentFlit_of_good hl hup hcoh hsent hu hgood]
  case bad =>
    intro s u l d raw e f hl hcoh hup hsent hbad hu
    rw [exec_coherentFlit, State.coherentFlit_of_bad hl hup hcoh hsent hu hbad]
  case tensor =>
    intro s l d raw e g hl hcoh hup hgood
    rw [exec_coherentFlit, State.coherentFlit_of_tensor hl hup hcoh hgood]
  case resend =>
    intro s l d hl hup hsent hdue
    rw [exec_flitResendTimeout, State.flitResend_of_due hl hup hsent hdue]
  case receive =>
    intro s u l d c i v hl hup hv hu
    rw [exec_tensorInstanceReceive, State.instanceReceive_of_good hl hup hv hu]
  case ack =>
    intro s l d c i hkept
    rw [exec_linkInstAck, State.linkInstAck_of_kept hkept]
  case nak =>
    intro s l d c i hkept hnew
    rw [exec_linkInstNak, State.linkInstNak_of_kept hkept hnew]
  case silence =>
    intro s l d hl hup hdue
    rw [exec_linkSilenceTimeout, State.linkSilence_of_due hl hup hdue]
  case retries =>
    intro s l d hl hup hdue
    rw [exec_linkRetryLimit, State.linkRetryLimit_of_due hl hup hdue]
  case reset =>
    intro s l hl hup
    rw [exec_linkResetIndication, State.linkLoss_of_up hl hup]
    rfl
  case base =>
    intro s w hw
    rw [exec_clockFailure, State.clockFailure_of_base hw]
  case reference =>
    rintro s w rfl
    rw [exec_clockFailure, State.clockFailure_of_reference]
  case held =>
    intro s n hn hfenced
    rw [exec_hbmSelfRefreshConfirm, State.selfRefreshConfirm_of_fenced hn hfenced]

end Sys2Proof.Machine

/-! PROOF. The host's attachment (R402 to R406): each operation in its cases. -/

namespace Sys2Proof.Machine

section Attachment

variable {s : State} {i k : Nat} {d : List Byte}

theorem State.detach_of_up (hup : s.hostUp = true) : s.detach = s.hostLoss hcDetach := if_pos hup

theorem State.attach_of_up (hup : s.hostUp = true) : s.attach = s.setFld Fld.HOST_ATTACH_RESULT 0 3 := if_pos hup

theorem State.attach_of_ready (hup : s.hostUp = false) (hgen : s.fld Fld.HOST_ATTACH_GEN_ACK_GEN = s.fld Fld.HOST_ATTACH_GENERATION)
    (hlink : s.flag Fld.HOST_STATUS_DL_ACTIVE = true) (hbme : s.bme = true) :
    s.attach = (s.setFld Fld.HOST_ATTACH_RESULT 0 0).setFld Fld.HOST_ATTACH_STATE 0 1 := by
  simp only [attach, hup, hgen, hlink, hbme, ne_eq, not_true_eq_false, Bool.not_true, Bool.false_eq_true, or_self, if_false]

/-! ## Completions (R403, R284) -/

theorem State.hostCompletion_of_read (hopen : s.hostReadOpen i = true) (hread : s.opens.any (fun o => o.id == i && o.op == 2) = false) :
    s.hostCompletion i k d = s.finishAccess i (if k = 0 then stOk else if k = 1 then stPoisoned else stAccessError) d := by
  simp only [hostCompletion, hopen, hread, Bool.not_true, Bool.false_eq_true, false_and, if_false, completionStatus]

theorem State.hostCompletion_of_write (hopen : s.hostReadOpen i = true) (hwrite : s.opens.any (fun o => o.id == i && o.op == 2) = true) :
    s.hostCompletion i k d = s.finishAccess i (if k ≤ 1 then stOk else stAccessError) [] := by
  simp only [hostCompletion, hopen, hwrite, Bool.not_true, Bool.false_eq_true, true_and, if_false, if_true]
  by_cases hk : k ≤ 1
  · rw [if_pos hk, if_pos hk]
  · rw [if_neg hk, if_neg hk, completionStatus, if_neg (by omega), if_neg (by omega)]

end Attachment

section AttachmentCommands

variable (s : State) (rq : Requester) (i : Nat)

theorem exec_d3Entry : exec .d3Entry s = .next (s.hostLoss hcD3).mirror := rfl

theorem exec_detach : exec (.detach rq) s = .next (s.gated rq .HOST_ATTACH 0 State.detach).mirror := rfl

theorem exec_attach : exec (.attach rq) s = .next (s.gated rq .HOST_ATTACH 0 State.attach).mirror := rfl

theorem exec_hostCompletion (k : Nat) (d : List Byte) : exec (.hostCompletion i k d) s = .next (s.hostCompletion i k d).mirror := rfl

theorem exec_hostCompletionTimeout : exec (.hostCompletionTimeout i) s =
    .next (if s.hostReadOpen i then s.finishAccess i stAccessError [] else s).mirror := rfl

theorem exec_hostLinkUp (v w : Nat) : exec (.hostLinkUp v w) s = .next (s.hostLinkUp v w).mirror := rfl

end AttachmentCommands

/-- Settles O32: ATTACH and DETACH where the block takes the write, a completion by what the access was. That HOST_LINK_UP sets the
bus-master bit is the model's choice (log 45). -/
theorem hostAttachment : Obligations.HostAttachment := by
  unfold Obligations.HostAttachment
  refine ⟨exec_d3Entry, ?detach, ?attach, ?attached, ?read, ?write, ?timeout, exec_hostLinkUp, exec_detach, exec_attach,
    exec_hostCompletion, exec_hostCompletionTimeout⟩
  case detach =>
    intro s rq hwrite hup
    rw [exec_detach, State.gated_accepted _ hwrite, State.detach_of_up hup]
  case attach =>
    intro s rq hwrite hup hgen hlink hbme
    rw [exec_attach, State.gated_accepted _ hwrite, State.attach_of_ready hup hgen hlink hbme]
  case attached =>
    intro s rq hwrite hup
    rw [exec_attach, State.gated_accepted _ hwrite, State.attach_of_up hup]
  case read =>
    intro s i k d hopen hread
    rw [exec_hostCompletion, State.hostCompletion_of_read hopen hread]
  case write =>
    intro s i k d hopen hwrite
    rw [exec_hostCompletion, State.hostCompletion_of_write hopen hwrite]
  case timeout =>
    intro s i hopen
    rw [exec_hostCompletionTimeout, if_pos hopen]

end Sys2Proof.Machine

/-! PROOF. The Ethernet ports (R409 to R415): each operation in its cases. -/

namespace Sys2Proof.Machine

section Eth

variable {s u v : State} {p q g r va n w a st c : Nat} {d : List Byte} {rq : Requester}

/-! ## Frames (R413) -/

theorem State.ethRx_of_plain {f : EthFrame} (hup : s.flag Fld.ETH_STATUS_LINK_UP p = true) (hfcs : f.fcsOk = true) (hptp : f.ptp = none)
    (hroce : f.roce = false) : s.ethRx p f = s.steerFrame p f := by
  simp only [ethRx, hup, hfcs, hptp, hroce, Bool.not_true, Bool.false_eq_true, if_false]

theorem State.ethRx_of_bad {f : EthFrame} (hup : s.flag Fld.ETH_STATUS_LINK_UP p = true) (hfcs : f.fcsOk = false) :
    s.ethRx p f = s.bump Fld.ETH_STATUS_FCS_DROPS p := by
  simp only [ethRx, hup, hfcs, Bool.not_true, Bool.not_false, Bool.false_eq_true, if_false, if_true]

/-! ## RDMA (R409, R410) -/

theorem State.rdmaWrite_of_done {b : Bool} (hwin : s.rdmaWindow p r va d.length Fld.ETH_RWIN_CTL_WRITE = some (w, a, rq))
    (hparts : s.rdmaWriteParts rq (.rdma p q g w) d (parts256 a d.length) = (u, stOk, b))
    (hclaim : u.claimOpens s.nextId (.rdma p q g w) = v) (hnone : v.opens.any (fun o => o.waiter == .rdma p q g w) = false) :
    s.rdmaWrite p q g r va d = v.rdmaAnswer p q g 2 a stOk [] := by
  simp only [rdmaWrite, hwin, hparts, hclaim, hnone, ne_eq, not_true_eq_false, Bool.false_eq_true, if_false]

theorem State.rdmaRead_of_window (hwin : s.rdmaWindow p r va n Fld.ETH_RWIN_CTL_READ = some (w, a, rq)) (hn : n ≠ 0) :
    s.rdmaRead p q g r va n = s.rdmaReadParts rq p q g w (parts256 a n) := by
  simp only [rdmaRead, hwin, if_neg hn]

theorem State.rdmaRead_of_refused (hwin : s.rdmaWindow p r va n Fld.ETH_RWIN_CTL_READ = none) :
    s.rdmaRead p q g r va n = s.rdmaAnswer p q g 1 va stAccessError [] := by
  simp only [rdmaRead, hwin]

theorem State.rdmaAtomic_of_done {cas : Bool} {x y : Nat} {b : List Byte}
    (hwin : s.rdmaWindow p r va 8 Fld.ETH_RWIN_CTL_ATOMIC = some (w, a, rq)) (halign : va % 8 = 0)
    (hdone : s.issueAtomic rq none a 8 (if cas then 9 else 1) x y (.rdma p q g w) = (u, .done st b)) :
    s.rdmaAtomic p q g r va cas x y = u.rdmaAnswer p q g 3 a st b := by
  simp only [rdmaAtomic, hwin, halign, ne_eq, not_true_eq_false, if_false, hdone]

theorem State.writeRwinCtl_of_idle (hidle : (s.storePlain .ETH_RWIN_CTL w n (2 ^ 64 - 1)).rwinOpen w = false) :
    s.writeRwinCtl w n (2 ^ 64 - 1) = s.storePlain .ETH_RWIN_CTL w n (2 ^ 64 - 1) := by
  simp only [writeRwinCtl, hidle, Bool.false_eq_true, if_false]

/-! ## Congestion (R409) -/

/-- The free value that a queue pair's rate falls to. -/
def State.lowerRate (s : State) (p q : Nat) : Nat := s.free % max 1 (Store.get (fun _ => 2 ^ 32) s.qpRates (p * 2 ^ 16 + q))

theorem State.lowerRate_lower : s.lowerRate p q < Store.get (fun _ => 2 ^ 32) s.qpRates (p * 2 ^ 16 + q) ∨ s.lowerRate p q = 0 := by
  have hlt : s.lowerRate p q < max 1 (Store.get (fun _ => 2 ^ 32) s.qpRates (p * 2 ^ 16 + q)) := Nat.mod_lt _ (by omega)
  omega

theorem State.congestion_qpRates :
    (s.congestion p q).qpRates = Store.set (fun _ => 2 ^ 32) s.qpRates (p * 2 ^ 16 + q) (s.lowerRate p q) := rfl

theorem State.congestion_memory : MemSame s (s.congestion p q) := ⟨rfl, rfl, rfl⟩

/-! ## Circuits over queue pairs (R411) -/

theorem State.rdmaAcked_of_held (heth : s.isEthCirc c = true) (hheld : (s.circ c).held ≠ 0) :
    s.rdmaAcked c = s.setCirc c { s.circ c with held := (s.circ c).held - 1, returning := (s.circ c).returning + 1 } :=
  if_pos ⟨heth, hheld⟩

theorem State.qpExhausted_of_eth (heth : s.isEthCirc c = true) (hkill : s.killCircuit c = u) :
    s.qpExhausted c = u.setCirc c { u.circ c with held := 0, credits := (u.circ c).credits + (u.circ c).held } := by
  simp only [qpExhausted, if_pos heth, hkill]

/-! ## NVMe over Fabrics (R412) -/

theorem State.nvmeCompletion_of_failed : s.nvmeCompletion a d false = s.emit (.nvme false) := rfl

theorem State.nvmeCompletion_of_granules (haddr : a % 32 = 0) (hlen : d.length % 32 = 0) (hdata : d.isEmpty = false)
    (hcache : cacheable a = true) (hwrite : s.writeLocal nvmeRq none a d = (u, st)) :
    s.nvmeCompletion a d true = u.emit (.nvme (st == stOk)) := by
  simp only [nvmeCompletion, haddr, hlen, hdata, hcache, hwrite, Bool.not_true, Bool.false_eq_true, ne_eq, not_true_eq_false, or_self,
    if_false]

/-! ## The link (R408) -/

theorem State.ethLink_up (hp : p < 2) :
    s.ethLink p true = (List.range 256).foldl (fun s q => s.drainTx p q) (s.setFld Fld.ETH_STATUS_LINK_UP p 1) := by
  simp only [ethLink, if_pos hp, if_true]

theorem State.ethLink_down (hp : p < 2) : s.ethLink p false = s.setFld Fld.ETH_STATUS_LINK_UP p 0 := by
  simp only [ethLink, if_pos hp, Bool.false_eq_true, if_false]

end Eth

section EthCommands

variable (s : State) (rq : Requester) (p q : Nat) (tag : Nat × Bool) (r va c w : Nat)

theorem exec_ethRxFrame (f : EthFrame) : exec (.ethRxFrame p f) s = .next (if p < 2 then s.ethRx p f else s).mirror := rfl

theorem exec_rdmaWrite (d : List Byte) : exec (.rdmaWrite p q tag r va d) s =
    .next (if p < 2 then (s.ecnMarked p q tag.2).rdmaWrite p q tag.1 r va d else s).mirror := rfl

theorem exec_rdmaRead (n : Nat) : exec (.rdmaRead p q tag r va n) s =
    .next (if p < 2 then (s.ecnMarked p q tag.2).rdmaRead p q tag.1 r va n else s).mirror := rfl

theorem exec_rdmaAtomic (cas : Bool) (x y : Nat) : exec (.rdmaAtomic p q tag r va cas x y) s =
    .next (if p < 2 then (s.ecnMarked p q tag.2).rdmaAtomic p q tag.1 r va cas x y else s).mirror := rfl

theorem exec_congestionNotification : exec (.congestionNotification p q) s =
    .next (if p < 2 ∧ q < 8192 then s.congestion p q else s).mirror := rfl

theorem exec_rdmaAck : exec (.rdmaAck c) s = .next (s.rdmaAcked c).mirror := rfl

theorem exec_qpRetryExhausted : exec (.qpRetryExhausted c) s = .next (s.qpExhausted c).mirror := rfl

theorem exec_nvmeofCompletion (d : List Byte) (ok : Bool) :
    exec (.nvmeofCompletion va d ok) s = .next (s.nvmeCompletion va d ok).mirror := rfl

theorem exec_rwinCtlWrite (v : Nat) : exec (.rwinCtlWrite rq w v) s =
    .next (if w < 256 then s.gated rq .ETH_RWIN_CTL w (fun s => s.writeRwinCtl w v (2 ^ 64 - 1)) else s).mirror := rfl

theorem exec_txqTailWrite (v : Nat) : exec (.txqTailWrite rq p q v) s =
    .next (if p < 2 ∧ q < 256 then s.gated rq .ETH_TXQ_PTR (p * 256 + q) (fun s => s.writeTxTail p q v) else s).mirror := rfl

theorem exec_ethLinkUp : exec (.ethLinkUp p) s = .next (s.ethLink p true).mirror := rfl

theorem exec_ethLinkDown : exec (.ethLinkDown p) s = .next (s.ethLink p false).mirror := rfl

end EthCommands

/-- Settles O33: each command at a port that exists. That a request is made in parts of at most 256 bytes, and that a notification lowers
the rate to a free value below the old one, are the model's choices (log 47). -/
theorem ethernet : Obligations.Ethernet := by
  unfold Obligations.Ethernet
  refine ⟨?plain, ?badFcs, ?write, ?read, ?readRefused, ?atomic, ?congestion, ?ack, ?exhausted, ?nvmeFailed, ?nvme, ?window, ?tail,
    ?linkUp, ?linkDown, exec_ethRxFrame, exec_rdmaWrite, exec_rdmaRead, exec_rdmaAtomic, exec_congestionNotification, exec_rdmaAck,
    exec_qpRetryExhausted, exec_nvmeofCompletion, exec_rwinCtlWrite, exec_txqTailWrite, exec_ethLinkUp, exec_ethLinkDown⟩
  case plain =>
    intro s p f hp hup hfcs hptp hroce
    rw [exec_ethRxFrame, if_pos hp, State.ethRx_of_plain hup hfcs hptp hroce]
  case badFcs =>
    intro s p f hp hup hfcs
    rw [exec_ethRxFrame, if_pos hp, State.ethRx_of_bad hup hfcs]
  case write =>
    rintro s m u v p q g r va w a d e b rq hp rfl hwin hparts hclaim hnone
    rw [exec_rdmaWrite, if_pos hp, State.rdmaWrite_of_done hwin hparts hclaim hnone]
  case read =>
    rintro s m p q g r va n w a e rq hp rfl hwin hn
    rw [exec_rdmaRead, if_pos hp, State.rdmaRead_of_window hwin hn]
  case readRefused =>
    rintro s m p q g r va n e hp rfl hwin
    rw [exec_rdmaRead, if_pos hp, State.rdmaRead_of_refused hwin]
  case atomic =>
    rintro s m u p q g r va x y w a st c e rq b hp rfl hwin halign hdone
    rw [exec_rdmaAtomic, if_pos hp, State.rdmaAtomic_of_done hwin halign hdone]
  case congestion =>
    intro s p q hp hq
    refine ⟨(s.congestion p q).mirror, ?_, s.lowerRate p q, ?_, State.lowerRate_lower, State.congestion_memory.mirror_kept⟩
    · rw [exec_congestionNotification, if_pos ⟨hp, hq⟩]
    · simp only [State.mirror_frame, State.congestion_qpRates]
  case ack =>
    intro s c heth hheld
    rw [exec_rdmaAck, State.rdmaAcked_of_held heth hheld]
  case exhausted =>
    intro s u c heth hkill
    rw [exec_qpRetryExhausted, State.qpExhausted_of_eth heth hkill]
  case nvmeFailed =>
    rintro s a d ok rfl
    rw [exec_nvmeofCompletion, State.nvmeCompletion_of_failed]
  case nvme =>
    rintro s u a st d ok rfl haddr hlen hdata hcache hwrite
    rw [exec_nvmeofCompletion, State.nvmeCompletion_of_granules haddr hlen hdata hcache hwrite]
  case window =>
    intro s rq w v hwrite hw hidle
    rw [exec_rwinCtlWrite, if_pos hw, State.gated_accepted _ hwrite, State.writeRwinCtl_of_idle hidle]
  case tail =>
    intro s rq p q v hwrite hp hq
    rw [exec_txqTailWrite, if_pos ⟨hp, hq⟩, State.gated_accepted _ hwrite, State.writeTxTail]
  case linkUp =>
    intro s p hp
    rw [exec_ethLinkUp, State.ethLink_up hp]
  case linkDown =>
    intro s p hp
    rw [exec_ethLinkDown, State.ethLink_down hp]

end Sys2Proof.Machine

/-! PROOF. What accesses, their answers, events and counters leave alone: the reason of the start, the module's electrical state, the fences
and the state of the power loops. It is what a chip reset's request records (R456), so the losses that follow it do not touch it. -/

namespace Sys2Proof.Machine

/-- The reason of the start, the module's electrical state, the fences, and the power loops' state. -/
def State.standing (s : State) : Nat × Elec × List Fence × Pwr := (s.boot.reason, s.elec, s.fences, s.pwr)

section Standing

variable {s t : State}

theorem State.reason_of_standing (h : t.standing = s.standing) : t.boot.reason = s.boot.reason := congrArg Prod.fst h

theorem State.elec_of_standing (h : t.standing = s.standing) : t.elec = s.elec := congrArg (fun x => x.2.1) h

theorem State.fences_of_standing (h : t.standing = s.standing) : t.fences = s.fences := congrArg (fun x => x.2.2.1) h

theorem State.pwr_of_standing (h : t.standing = s.standing) : t.pwr = s.pwr := congrArg (fun x => x.2.2.2) h

variable (s)

/-- Steps that leave the standing alone leave it alone in a row. -/
theorem State.standing_foldl {α : Type} {f : State → α → State} (hf : ∀ s x, (f s x).standing = s.standing) (l : List α) :
    (l.foldl f s).standing = s.standing := by
  induction l generalizing s with
  | nil => rfl
  | cons x rest ih => rw [List.foldl_cons, ih, hf]

/-! ## The state's own writes

Each proof is `(rfl)`, not `rfl`: simp then rewrites with the equation and does not ask the kernel to compare two whole states. -/

@[simp] theorem State.standing_setReg (r : Reg) (i : Nat) (w : Word) : (s.setReg r i w).standing = s.standing := (rfl)
@[simp] theorem State.standing_setFld (f : Field) (i v : Nat) : (s.setFld f i v).standing = s.standing := (rfl)
@[simp] theorem State.standing_raise (f : Field) (i : Nat) : (s.raise f i).standing = s.standing := (rfl)
@[simp] theorem State.standing_bump (f : Field) (i n : Nat) : (s.bump f i n).standing = s.standing := (rfl)
@[simp] theorem State.standing_spend : s.spend.standing = s.standing := (rfl)
@[simp] theorem State.standing_emit (o : Out) : (s.emit o).standing = s.standing := (rfl)
@[simp] theorem State.standing_traceUpdate : s.traceUpdate.standing = s.standing := (rfl)

/-! ## Counters, packets and events (R496, R208, R513) -/

@[simp] theorem State.standing_count1 (kind unit i key inst : Nat) (vf ovf : Field) (code n : Nat) :
    (s.count1 kind unit i key inst vf ovf code n).standing = s.standing := by
  unfold count1
  dsimp only
  split
  · split
    · split <;> rfl
    · rfl
  · rfl

@[simp] theorem State.standing_countHub (base q n : Nat) : (s.countHub base q n).standing = s.standing :=
  standing_foldl s (fun _ _ => standing_count1 ..) _

@[simp] theorem State.standing_countCluster (c base q n : Nat) : (s.countCluster c base q n).standing = s.standing := by
  unfold countCluster
  split
  · exact standing_foldl s (fun _ _ => standing_count1 ..) _
  · rfl

@[simp] theorem State.standing_packet (k : Nat) (p : TracePkt) : (s.packet k p).standing = s.standing := by
  unfold packet
  split
  · split
    · rw [standing_countHub, standing_bump]
    · exact standing_countHub s 0x0B 0 1
  · rfl

@[simp] theorem State.standing_hostMsi (ident : Nat) : (s.hostMsi ident).standing = s.standing := by
  unfold hostMsi
  split
  · exact standing_bump ..
  · dsimp only
    split
    · exact standing_setFld ..
    · exact standing_emit ..

@[simp] theorem State.standing_msi (file en ident : Field) (i : Nat) : (s.msi file en ident i).standing = s.standing := by
  unfold msi
  split
  · rfl
  · split
    · exact standing_hostMsi ..
    · rfl

@[simp] theorem State.standing_ringRecord (freeze lost writes word : Field) (unit n : Nat) (r : EvRec) :
    (s.ringRecord freeze lost writes word unit n r).standing = s.standing := by
  unfold ringRecord
  split
  · rfl
  · exact (standing_setFld ..).trans (standing_foldl s (fun _ _ => standing_setFld ..) _)

@[simp] theorem State.standing_collectorMsi (c : Nat) : (s.collectorMsi c).standing = s.standing := by
  unfold collectorMsi
  dsimp only
  split
  · exact standing_msi ..
  · rfl

@[simp] theorem State.standing_clusterRecord (c : Nat) (r : EvRec) : (s.clusterRecord c r).standing = s.standing := by
  unfold clusterRecord
  dsimp only
  split <;> simp

@[simp] theorem State.standing_copyToCluster (c : Nat) (r : EvRec) : (s.copyToCluster c r).standing = s.standing := by
  unfold copyToCluster copyDropped
  split
  · rfl
  · split <;> simp

@[simp] theorem State.standing_event (r : EvRec) : (s.event r).standing = s.standing := by
  unfold event
  split
  · simp
  · split <;> simp

@[simp] theorem State.standing_unitEvent (code kind unit data : Nat) : (s.unitEvent code kind unit data).standing = s.standing :=
  standing_event ..

end Standing

end Sys2Proof.Machine

/-! PROOF. The power and thermal loops (chapter 16): the sample in which the fallback begins, and each request in its cases. -/

namespace Sys2Proof.Machine

section Power

variable {s : State} {m mv v w : Nat}

/-! ## Override episodes (R433) -/

theorem State.reg_setFld_other {f : Field} {r : Reg} {i j : Nat} (v : Nat) (hf : f.reg ≠ r) (hi : i < 2 ^ 20) (hj : j < 2 ^ 20) :
    (s.setFld f i v).reg r j = s.reg r j := reg_setReg_other s _ (.inl hf) hi hj

/-- Memory and every register but PWR_POLICY_CLAMP are as before. -/
structure ClampOnly (s t : State) : Prop where
  memory : MemSame s t
  registers : ∀ r j, r ≠ .PWR_POLICY_CLAMP → j < 2 ^ 20 → t.reg r j = s.reg r j

theorem ClampOnly.refl (s : State) : ClampOnly s s := ⟨MemSame.refl s, fun _ _ _ _ => rfl⟩

theorem ClampOnly.setFld {t : State} {f : Field} {i : Nat} (v : Nat) (h : ClampOnly s t) (hf : f.reg = .PWR_POLICY_CLAMP)
    (hi : i < 2 ^ 20) : ClampOnly s (t.setFld f i v) :=
  ⟨h.memory.trans (MemSame.setFld ..), fun r j hr hj =>
    (State.reg_setFld_other v (fun hreg => hr (hreg.symm.trans hf)) hi hj).trans (h.registers r j hr hj)⟩

theorem ClampOnly.policyClamp {f : Field} (hf : f.reg = .PWR_POLICY_CLAMP) : ClampOnly s (s.policyClamp f) :=
  ((ClampOnly.refl s).setFld _ hf (by decide)).setFld _ rfl (by decide)

/-- Of the power loops' state an episode changes its own bits alone. -/
theorem State.clampEpisode_eq {f : Field} (b : Nat) (on : Bool) (hf : f.reg = .PWR_POLICY_CLAMP) :
    ∃ u n, ClampOnly s u ∧ s.clampEpisode f b on = { u with pwr := { s.pwr with episodes := n } } := by
  unfold clampEpisode
  split
  · split
    · exact ⟨s, s.pwr.episodes, ClampOnly.refl s, rfl⟩
    · exact ⟨_, _, ClampOnly.policyClamp hf, rfl⟩
  · split
    · exact ⟨s, _, ClampOnly.refl s, rfl⟩
    · exact ⟨s, s.pwr.episodes, ClampOnly.refl s, rfl⟩

section Episode

variable {f : Field} (b : Nat) (on : Bool) (hf : f.reg = .PWR_POLICY_CLAMP)
include hf

theorem State.clampEpisode_pwr : ∃ n, (s.clampEpisode f b on).pwr = { s.pwr with episodes := n } := by
  obtain ⟨u, n, -, heq⟩ := clampEpisode_eq (s := s) b on hf
  exact ⟨n, by rw [heq]⟩

theorem State.clampEpisode_only : ClampOnly s (s.clampEpisode f b on) := by
  obtain ⟨u, n, hu, heq⟩ := clampEpisode_eq (s := s) b on hf
  rw [heq]
  exact ⟨hu.memory, hu.registers⟩

end Episode

/-! ## The cap loop's sample (R424, R431, R432) -/

/-- A sample is shown before it is judged. -/
def State.measured (s : State) (m : Nat) : State :=
  (s.setFld Fld.PWR_STATUS_MEAS_W 0 (min (m / 1000) 4095)).setFld Fld.PWR_STATUS_EST_W 0
    (min (s.pwr.estSum / max 1 s.pwr.estCount / 1000) 4095)

/-- The sample is compared with the mean estimate, which may begin the fallback and so lower APPLIED_W. -/
def State.compared (s : State) (m : Nat) : State := (s.measured m).compareModel m (s.pwr.estSum / max 1 s.pwr.estCount)

theorem State.clampEpisode_above {f : Field} (b : Nat) (on : Bool) (hf : f.reg = .PWR_POLICY_CLAMP) :
    (s.clampEpisode f b on).pwr.above = s.pwr.above := by
  obtain ⟨n, hpwr⟩ := clampEpisode_pwr (s := s) b on hf
  rw [hpwr]

theorem State.powerShow_above : s.powerShow.pwr.above = s.pwr.above := by
  have hboost (t : State) (n : Nat) : (if t.boostOn && !t.boostBarred n then t
      else t.updDpwr (tensorDie n) (fun v => { v with boost := 3600, boostOk := 3600 })).standing = t.standing := by split <;> rfl
  have hduty (t : State) (n : Nat) : (t.setDuty n (t.dutyOf n)).standing = t.standing := rfl
  rw [powerShow, clampEpisode_above _ _ rfl, clampEpisode_above _ _ rfl]
  refine congrArg Pwr.above (pwr_of_standing ?_)
  simp only [standing_setFld]
  exact (standing_foldl _ hduty _).trans (standing_foldl s hboost _)

theorem State.sampleEnd_above (u : State) (a : Nat) :
    ((u.updPwr (fun p => { p with above := a, estSum := 0, estCount := 0, lastM := m })).powerShow.powerPacket).pwr.above = a := by
  rw [powerPacket, pwr_of_standing (standing_packet ..), powerShow_above]
  rfl

theorem State.capStep_above : (s.capStep m mv).pwr.above =
    if m > (s.compared m).fld Fld.PWR_CAP_APPLIED_W * 1000 then (s.compared m).pwr.above + 1 else 0 := by
  rw [capStep]
  exact sampleEnd_above _ _

end Power

/-! ## The sample in which the fallback begins -/

/-- Nine samples in a row have lain more than 40 % from the estimate, whose mean is 0. -/
def State.mistrusted : State := { State.reset with pwr := { Pwr.init with run40 := 9 } }

/-- The tenth begins the fallback, in which APPLIED_W is 90 % of 2,400 W (R432). -/
theorem State.mistrusted_compared :
    ((mistrusted.updPwr (fun p => { p with sampled := 1 })).compared 2300000).fld Fld.PWR_CAP_APPLIED_W = 2160 ∧
    ((mistrusted.updPwr (fun p => { p with sampled := 1 })).compared 2300000).pwr.above = 0 := by
  decide +kernel

/-- So a sample of 2,300 W, below the 2,400 W applied before it, lies above what is applied. -/
theorem State.mistrusted_above : (mistrusted.capSample 2300000 48000).pwr.above = 1 := by
  have hfirst : mistrusted.capSample 2300000 48000 = (mistrusted.updPwr (fun p => { p with sampled := 1 })).capStep 2300000 48000 :=
    if_neg (by decide)
  obtain ⟨happlied, habove⟩ := mistrusted_compared
  rw [hfirst, capStep_above, happlied, habove]
  rfl

theorem State.mistrusted_applied : mistrusted.fld Fld.PWR_CAP_APPLIED_W = 2400 := by decide +kernel

theorem exec_capLoopSample (s : State) (m mv : Nat) : exec (.capLoopSample m mv) s = .next (s.capSample m mv).mirror := rfl

/-- Refutes O34: its first clause judges a sample against the APPLIED_W that stood before it, but the sample in which the model's
fallback begins (R432) is judged against what the fallback applies. With nine bad samples counted, one of 2,300 W is the tenth:
it lies below 2,400 W and above 2,160 W. -/
theorem not_powerSamples : ¬ Obligations.PowerSamples := by
  unfold Obligations.PowerSamples
  intro hall
  obtain ⟨t, hexec, -, -, -, -, -, habove⟩ := hall.1 State.mistrusted 2300000 48000 (by decide)
  rw [exec_capLoopSample] at hexec
  obtain rfl := Host.Outcome.next.inj hexec
  simp only [State.mirror_frame, State.mistrusted_above, State.mistrusted_applied] at habove
  exact absurd habove (by decide)

end Sys2Proof.Machine

/-! PROOF. Caps, power modes and ramps (R422, R423, R434, R437, R439): each request in its cases. -/

namespace Sys2Proof.Machine

section PowerRequests

variable {s : State} {m v w : Nat}

/-! ## Caps (R422, R423) -/

theorem State.capWrite_of_ok (hv : capOk v = true) :
    s.capWrite v = (s.updPwr (fun p => { p with swNext := some v, capBeat := s.ft })).capShow := if_pos hv

theorem State.capWrite_of_bad (hv : capOk v = false) : s.capWrite v = s := if_neg (by simp [hv])

theorem State.trayCap_of_ok (hv : capOk v = true) :
    s.trayCap v = (s.updPwr (fun p => { p with trayNext := some v, capBeat := s.ft })).capShow := if_pos hv

theorem State.trayCap_of_bad (hv : capOk v = false) : s.trayCap v = s := if_neg (by simp [hv])

/-- A boundary after the request of a cap or a mode. -/
theorem State.boundaryOpen {b : Nat} (hbound : s.atBoundary = true) (hlate : b < s.ft) : ¬ ((!s.atBoundary) = true ∨ s.ft ≤ b) := by
  rintro (hno | hearly)
  · simp [hbound] at hno
  · omega

theorem State.capApply_of_sw (hbound : s.atBoundary = true) (hlate : s.pwr.capBeat < s.ft) (hsw : s.pwr.swNext = some v)
    (htray : s.pwr.trayNext = none) :
    s.capApply = ((s.setFld Fld.PWR_CAP_SW_W 0 v).updPwr (fun p => { p with swNext := none, trayNext := none })).capShow := by
  simp only [capApply, if_neg (boundaryOpen hbound hlate), hsw, htray]

theorem State.capApply_of_tray (hbound : s.atBoundary = true) (hlate : s.pwr.capBeat < s.ft) (hsw : s.pwr.swNext = none)
    (htray : s.pwr.trayNext = some v) :
    s.capApply = ((s.setFld Fld.PWR_CAP_TRAY_W 0 v).updPwr (fun p => { p with swNext := none, trayNext := none })).capShow := by
  simp only [capApply, if_neg (boundaryOpen hbound hlate), hsw, htray]

/-! ## Modes (R434, R437, R439) -/

theorem State.fld_updPwr (f : Pwr → Pwr) (g : Field) (j : Nat) : (s.updPwr f).fld g j = s.fld g j := rfl

theorem State.ft_setFld (f : Field) (i n : Nat) : (s.setFld f i n).ft = s.ft := rfl

theorem MemSame.updPwr (f : Pwr → Pwr) : MemSame s (s.updPwr f) := ⟨rfl, rfl, rfl⟩

theorem MemSame.spend : MemSame s s.spend := ⟨rfl, rfl, rfl⟩

/-- A mode that is written waits for its boundary, and the filler for the next microsecond. -/
def State.modeWaits (s : State) (v old : Nat) : State :=
  s.updPwr (fun p =>
    { p with modeNext := if getBits v 8 12 * 2 ^ 8 + v % 8 / 2 * 2 = old then none else some (getBits v 8 12 * 2 ^ 8 + v % 8 / 2 * 2)
             modeBeat := s.ft, fillNext := some (bit v 0) })

/-- The mode in force, as it is compared with one that is written. -/
def State.modeInForce (s : State) : Nat :=
  s.fld Fld.PWR_MODE_EQX_MHZ * 2 ^ 8 + s.fld Fld.PWR_MODE_BOOST_EN * 4 + s.fld Fld.PWR_MODE_EQUINOX * 2

/-- VOFFSET shows at once. -/
def State.modeWritten (s : State) (v : Nat) : State :=
  (s.setFld Fld.PWR_MODE_VOFFSET 0 (getBits v 23 5)).modeWaits v s.modeInForce

theorem State.modeWrite_of_valid {mask : Nat} (hstored : s.stored .PWR_MODE 0 w mask = v) (hlow : 2400 ≤ getBits v 8 12)
    (hhigh : getBits v 8 12 ≤ 3600) (hstep : getBits v 8 12 % 50 = 0) : s.modeWrite w mask =
      ((s.modeWritten v).clampEpisode Fld.PWR_POLICY_CLAMP_VOLTAGE 1
        (decide (getBits v 23 5 ≥ 16) && (s.modeWritten v).freeBit)).spend := by
  subst hstored
  refine if_neg ?_
  rintro (h | h | h) <;> omega

theorem State.modeWrite_of_low {mask : Nat} (hlow : getBits (s.stored .PWR_MODE 0 w mask) 8 12 < 2400) : s.modeWrite w mask = s :=
  if_pos (.inl hlow)

section Written

variable (on : Bool)

theorem State.modeWritten_clamped_pwr : ((s.modeWritten v).clampEpisode Fld.PWR_POLICY_CLAMP_VOLTAGE 1 on).pwr.fillNext = some (bit v 0) ∧
    ((s.modeWritten v).clampEpisode Fld.PWR_POLICY_CLAMP_VOLTAGE 1 on).pwr.modeBeat = s.ft := by
  obtain ⟨n, hpwr⟩ := clampEpisode_pwr (s := s.modeWritten v) (f := Fld.PWR_POLICY_CLAMP_VOLTAGE) 1 on rfl
  rw [hpwr]
  exact ⟨rfl, ft_setFld ..⟩

theorem State.modeWritten_clamped_voffset :
    ((s.modeWritten v).clampEpisode Fld.PWR_POLICY_CLAMP_VOLTAGE 1 on).fld Fld.PWR_MODE_VOFFSET 0 = getBits v 23 5 := by
  have honly : ClampOnly (s.modeWritten v) ((s.modeWritten v).clampEpisode Fld.PWR_POLICY_CLAMP_VOLTAGE 1 on) :=
    clampEpisode_only 1 on rfl
  rw [fld, honly.registers _ _ (by decide) (by decide), ← fld, modeWritten, modeWaits, fld_updPwr, fld_setFld_same _ _ _ _ (by decide)]
  exact Nat.mod_mod _ _

theorem MemSame.modeWritten_clamped : MemSame s ((s.modeWritten v).clampEpisode Fld.PWR_POLICY_CLAMP_VOLTAGE 1 on) :=
  ((MemSame.setFld ..).trans (MemSame.updPwr _)).trans (State.clampEpisode_only 1 on rfl).memory

end Written

theorem State.modeApply_of_due (hnext : s.pwr.modeNext = some m) (hbound : s.atBoundary = true) (hlate : s.pwr.modeBeat < s.ft) :
    s.modeApply = ((s.setMode m).updPwr (fun p =>
      { p with modeNext := none, capMhz := if bit m 1 then 3600 else p.capMhz })).powerShow := by
  simp only [modeApply, hnext, if_neg (boundaryOpen hbound hlate)]

/-! ## Ramps, and the end of the fallback (R432, R434) -/

theorem State.rampWrite_of_ok {mask : Nat} (hstored : s.stored .PWR_RAMP 0 w mask = v) (hautumn : rateOk (getBits v 0 10) = true)
    (hspring : rateOk (getBits v 16 10) = true) :
    s.rampWrite w mask = s.updPwr (fun p => { p with rampNext := some (getBits v 16 10 * 2 ^ 16 + getBits v 0 10) }) := by
  simp only [rampWrite, hstored, if_pos hautumn, if_pos hspring]

theorem State.clearModel_of_fallback (hfall : s.fallback = true) : s.clearModel =
    ((((s.setFld Fld.PWR_FAULT_POWER_MODEL 0 0).setFld Fld.PWR_EST_GAIN 0 0x1000).updPwr (fun p =>
      { p with run15 := 0, sum15 := 0, run40 := 0 })).capShow).powerShow := if_pos hfall

end PowerRequests

section PowerCommands

variable (s : State) (rq : Requester) (v w : Nat)

theorem exec_capWrite : exec (.capWrite rq v) s = .next (s.gated rq .PWR_CAP 0 (fun s => s.capWrite (v % 2 ^ 12))).mirror := rfl

theorem exec_pldmTrayCap : exec (.pldmTrayCap v) s = .next (s.trayCap v).mirror := rfl

theorem exec_capApply : exec .capApply s = .next s.capApply.mirror := rfl

theorem exec_powerModeWrite : exec (.powerModeWrite rq w) s =
    .next (s.gated rq .PWR_MODE 0 (fun s => s.modeWrite w (2 ^ 64 - 1))).mirror := rfl

theorem exec_powerModeApply : exec .powerModeApply s = .next s.modeApply.mirror := rfl

theorem exec_rampWrite (filler : Bool) : exec (.rampWrite rq filler w) s = .next (if filler then
    s.gated rq .PWR_MODE 0 (fun s => s.fillerWrite w) else s.gated rq .PWR_RAMP 0 (fun s => s.rampWrite w (2 ^ 64 - 1))).mirror := rfl

theorem exec_powerModelClear : exec (.powerModelClear rq) s = .next (s.gated rq .PWR_FAULT 0 State.clearModel).mirror := rfl

end PowerCommands

/-- Settles O35: each request where its block takes the write, and each that waits at its boundary. That SW_W shows a cap only once it is
in force is the model's choice (log 48). -/
theorem powerRequests : Obligations.PowerRequests := by
  unfold Obligations.PowerRequests
  refine ⟨?cap, ?capBad, ?tray, ?trayBad, ?applySw, ?applyTray, ?mode, ?modeBad, ?modeApply, ?filler, ?ramp, ?clear, exec_capWrite,
    exec_pldmTrayCap, exec_capApply, exec_powerModeWrite, exec_powerModeApply, fun s rq filler w => exec_rampWrite s rq w filler,
    exec_powerModelClear⟩
  case cap =>
    intro s rq v hwrite hv hok
    rw [exec_capWrite, State.gated_accepted _ hwrite, show v % 2 ^ 12 = v from Nat.mod_eq_of_lt hv, State.capWrite_of_ok hok]
  case capBad =>
    intro s rq v hwrite hbad
    rw [exec_capWrite, State.gated_accepted _ hwrite, State.capWrite_of_bad hbad]
  case tray =>
    intro s v hok
    rw [exec_pldmTrayCap, State.trayCap_of_ok hok]
  case trayBad =>
    intro s v hbad
    rw [exec_pldmTrayCap, State.trayCap_of_bad hbad]
  case applySw =>
    intro s v hbound hlate hsw htray
    rw [exec_capApply, State.capApply_of_sw hbound hlate hsw htray]
  case applyTray =>
    intro s v hbound hlate hsw htray
    rw [exec_capApply, State.capApply_of_tray hbound hlate hsw htray]
  case mode =>
    intro s rq w v hwrite hstored hlow hhigh hstep
    rw [exec_powerModeWrite, State.gated_accepted _ hwrite, State.modeWrite_of_valid hstored hlow hhigh hstep]
    generalize (decide (getBits v 23 5 ≥ 16) && (s.modeWritten v).freeBit) = on
    obtain ⟨hfill, hbeat⟩ := State.modeWritten_clamped_pwr (s := s) (v := v) on
    refine ⟨_, rfl, ?_, ?_, ?_, MemSame.mirror_kept ((MemSame.modeWritten_clamped on).trans MemSame.spend)⟩
    · simpa only [State.mirror_frame, State.spend_frame] using hfill
    · simpa only [State.mirror_frame, State.spend_frame] using hbeat
    · rw [State.mirror_fld _ _ _ (by decide) (.inl (by decide)) (.inl (by decide))]
      exact State.modeWritten_clamped_voffset on
  case modeBad =>
    intro s rq w hwrite hlow
    rw [exec_powerModeWrite, State.gated_accepted _ hwrite, State.modeWrite_of_low hlow]
  case modeApply =>
    intro s m hnext hbound hlate
    rw [exec_powerModeApply, State.modeApply_of_due hnext hbound hlate, State.setMode]
  case filler =>
    rintro s rq f w hwrite rfl
    rw [exec_rampWrite, if_pos rfl, State.gated_accepted _ hwrite, State.fillerWrite]
  case ramp =>
    rintro s rq f w v hwrite rfl hstored hautumn hspring
    rw [exec_rampWrite, if_neg Bool.false_ne_true, State.gated_accepted _ hwrite, State.rampWrite_of_ok hstored hautumn hspring]
  case clear =>
    intro s rq hwrite hfall
    rw [exec_powerModelClear, State.gated_accepted _ hwrite, State.clearModel_of_fallback hfall]

end Sys2Proof.Machine

/-! PROOF. Warm chip resets by register and pin (R456, R460, R539), and the module's power (R541 to R544): each operation in its cases. -/

namespace Sys2Proof.Machine

section Resets

variable {s : State} {b : Nat}

/-! ## ARM and GO (R456) -/

theorem State.armReset_on :
    s.armReset 1 = { s.raise Fld.HUB_CHIP_RESET_ARM with boot := { s.boot with armBeat := some s.ft } } := if_pos (by decide)

theorem State.armExpiry_of_due (harm : s.boot.armBeat = some b) (hdue : b + 125000 ≤ s.ft) :
    s.armExpiry = { s.setFld Fld.HUB_CHIP_RESET_ARM 0 0 with boot := { s.boot with armBeat := none } } := by
  simp only [armExpiry, harm, if_pos hdue]

theorem State.resetGo_of_armed (harm : s.boot.armBeat = some b) (hin : s.ft ≤ b + 125000) : s.resetGo = s.chipReset 2 := by
  simp only [resetGo, harm, if_pos hin]

theorem State.resetGo_of_late (harm : s.boot.armBeat = some b) (hlate : b + 125000 < s.ft) : s.resetGo = s := by
  simp only [resetGo, harm, if_neg (Nat.not_le.mpr hlate)]

theorem State.resetGo_of_unarmed (harm : s.boot.armBeat = none) : s.resetGo = s := by
  simp only [resetGo, harm]

theorem State.chipResetTimeout_of_due (hreset : s.chipResetting = true) (hcycle : s.elec.cycleReq = false)
    (hdue : 500000000 ≤ s.boot.startBeats) : s.chipResetTimeout = s.powerCycleRequest :=
  if_pos ⟨hreset, by simp [hcycle], hdue⟩

/-! ## Power (R541 to R544) -/

theorem State.powerGood_of_ready (hoff : s.elec.powered = false) (hinput : s.elec.input = true) (hhouse : s.elec.housekeeping = true)
    (htrip : s.elec.trip = false) (hover : s.elec.overvoltage = false) (hreg : s.elec.regFail = false) :
    s.powerGood = { s.powerOff with elec := { s.elec with powered := true, cycleReq := false } } := by
  simp only [powerGood, hoff, hinput, hhouse, htrip, hover, hreg, Bool.not_true, Bool.false_eq_true, or_self, if_false]

theorem State.powerGood_of_trip (htrip : s.elec.trip = true) : s.powerGood = s := if_pos (.inr (.inr (.inr (.inl htrip))))

theorem State.inputRise_of_clear (hover : s.elec.overvoltage = false) :
    s.inputRise = { s with elec := { s.elec with input := true, housekeeping := true } } := if_neg (by simp [hover])

section Running

variable (hon : s.elec.powered = true)
include hon

theorem State.losePower_of_powered : s.losePower = s.powerOff := if_pos hon

theorem State.inputLow_of_powered :
    s.inputLow = { s.powerOff with elec := { s.elec with powered := false, cycleReq := false, input := false } } := by
  rw [inputLow, losePower_of_powered hon]
  rfl

theorem State.inputHigh_of_powered : s.inputHigh = { s.powerOff with elec :=
    { s.elec with powered := false, cycleReq := false, overvoltage := true, housekeeping := false, input := false } } := by
  rw [inputHigh, losePower_of_powered hon]
  rfl

theorem State.regulatorFail_of_powered :
    s.regulatorFail = { s.powerOff with elec := { s.elec with powered := false, cycleReq := false, regFail := true } } := if_pos hon

theorem State.inputGone_of_powered : s.inputGone = { s.powerOff with elec := { s.elec with
    powered := false, cycleReq := false, input := false, housekeeping := false, trip := false, overvoltage := false, regFail := false } } := by
  rw [inputGone, losePower_of_powered hon]
  rfl

end Running

theorem State.inputLow_of_unpowered (hoff : s.elec.powered = false) :
    s.inputLow = { s with elec := { s.elec with input := false } } := by
  have hkept : s.losePower = s := if_neg (by simp [hoff])
  rw [inputLow, hkept]

end Resets

section ResetCommands

variable (s : State) (rq : Requester)

theorem exec_chipResetArm : exec (.chipResetArm rq) s = .next (s.gated rq .HUB_CHIP_RESET 0 (fun s => s.armReset 1)).mirror := rfl

theorem exec_chipResetArmExpiry : exec .chipResetArmExpiry s = .next s.armExpiry.mirror := rfl

theorem exec_chipResetGo : exec (.chipResetGo rq) s = .next (s.gated rq .HUB_CHIP_RESET 0 State.resetGo).mirror := rfl

theorem exec_chipResetTimeout : exec .chipResetTimeout s = .next s.chipResetTimeout.mirror := rfl

theorem exec_resetNRelease : exec .resetNRelease s = .next ({ s with elec := { s.elec with resetLow := false } } : State).mirror := rfl

theorem exec_powerGood : exec .powerGood s = .next s.powerGood.mirror := rfl

theorem exec_inputRise : exec .inputRise s = .next s.inputRise.mirror := rfl

theorem exec_inputUndervoltage : exec .inputUndervoltage s = .next s.inputLow.mirror := rfl

theorem exec_inputOvervoltage : exec .inputOvervoltage s = .next s.inputHigh.mirror := rfl

theorem exec_regulatorFail : exec .regulatorFail s = .next s.regulatorFail.mirror := rfl

theorem exec_inputBelow10v : exec .inputBelow10v s = .next s.inputGone.mirror := rfl

end ResetCommands

/-- Settles O37: ARM and GO where the block takes the write, by the beats since ARM. -/
theorem chipResets : Obligations.ChipResets := by
  unfold Obligations.ChipResets
  refine ⟨?arm, ?expiry, ?go, ?late, ?unarmed, ?timeout, exec_resetNRelease, exec_chipResetArm, exec_chipResetArmExpiry,
    exec_chipResetGo, exec_chipResetTimeout⟩
  case arm =>
    intro s rq hwrite
    rw [exec_chipResetArm, State.gated_accepted _ hwrite, State.armReset_on]
  case expiry =>
    intro s b harm hdue
    rw [exec_chipResetArmExpiry, State.armExpiry_of_due harm hdue]
  case go =>
    intro s rq b hwrite harm hin
    rw [exec_chipResetGo, State.gated_accepted _ hwrite, State.resetGo_of_armed harm hin]
  case late =>
    intro s rq b hwrite harm hlate
    rw [exec_chipResetGo, State.gated_accepted _ hwrite, State.resetGo_of_late harm hlate]
  case unarmed =>
    intro s rq hwrite harm
    rw [exec_chipResetGo, State.gated_accepted _ hwrite, State.resetGo_of_unarmed harm]
  case timeout =>
    intro s hreset hcycle hdue
    rw [exec_chipResetTimeout, State.chipResetTimeout_of_due hreset hcycle hdue]

/-- Settles O38: each change of the input or of a regulator, on a module that runs or does not. What a loss of power leaves is the model's
reading (log 53). -/
theorem modulePower : Obligations.ModulePower := by
  unfold Obligations.ModulePower
  refine ⟨?good, ?tripped, ?rise, ?low, ?lowOff, ?high, ?regulator, ?gone, exec_powerGood, exec_inputRise, exec_inputUndervoltage,
    exec_inputOvervoltage, exec_regulatorFail, exec_inputBelow10v⟩
  case good =>
    intro s hoff hinput hhouse htrip hover hreg
    rw [exec_powerGood, State.powerGood_of_ready hoff hinput hhouse htrip hover hreg, State.powerOff]
  case tripped =>
    intro s htrip
    rw [exec_powerGood, State.powerGood_of_trip htrip]
  case rise =>
    intro s hover
    rw [exec_inputRise, State.inputRise_of_clear hover]
  case low =>
    intro s hon
    rw [exec_inputUndervoltage, State.inputLow_of_powered hon, State.powerOff]
  case lowOff =>
    intro s hoff
    rw [exec_inputUndervoltage, State.inputLow_of_unpowered hoff]
  case high =>
    intro s hon
    rw [exec_inputOvervoltage, State.inputHigh_of_powered hon, State.powerOff]
  case regulator =>
    intro s hon
    rw [exec_regulatorFail, State.regulatorFail_of_powered hon, State.powerOff]
  case gone =>
    intro s hon
    rw [exec_inputBelow10v, State.inputGone_of_powered hon, State.powerOff]

end Sys2Proof.Machine

/-! PROOF. The stages of a start (R466 to R478): each stage in its cases. -/

namespace Sys2Proof.Machine

theorem leNat_lt (b : List Byte) : leNat b < 256 ^ b.length := by
  induction b with
  | nil => decide
  | cons x rest ih =>
    have hx : x.toNat < 256 := x.isLt
    rw [leNat, List.length_cons, Nat.pow_succ]
    omega

theorem fieldAt_lt (b : List Byte) (off n : Nat) : fieldAt b off n < 256 ^ n :=
  (leNat_lt _).trans_le (Nat.pow_le_pow_right (by decide) (List.length_take_le ..))

section Stages

variable {s u v : State} {g n c e : Nat}

/-! ## ROM (R466, R485) -/

/-- What stage ROM shows of generation g, the last of the valid ones. -/
def State.romShown (s : State) (g : Nat) : State :=
  let b := s.boot.otpGen g
  let s := (s.setFld Fld.SEC_OTP_IN_FORCE 0 g).setFld Fld.SEC_OTP_GEN_VALID 0 (s.boot.validGens.foldl (fun m i => m + 2 ^ i) 0)
  let s := (s.setFld Fld.SEC_OTP_ANTI_ROLLBACK 0 (fieldAt b 4 4)).setFld Fld.SEC_OTP_KEY_VALID 0 (fieldAt b 0x18 1)
  let s := s.setFld Fld.HUB_SERIAL_SERIAL 0 (fieldAt b 8 8)
  (List.range 4).foldl (fun s i => s.setFld Fld.SEC_DEVKEY_KEY i (getBits Config.deviceKey.toNat (64 * i) 64)) s

theorem State.stageRom_of_valid (hstage : s.atStage 1 = true) (hreset : s.elec.resetLow = false)
    (hgen : s.boot.validGens.getLast? = some g) :
    s.stageRom true = ((s.romShown g).setFld Fld.HUB_CLK_STATUS_REF_PRESENT 0 1).enterStage 2 := by
  simp only [stageRom, hstage, hreset, hgen, Bool.not_true, Bool.false_eq_true, or_self, if_false, if_true]
  rfl

theorem State.stageRom_of_none {ref : Bool} (hstage : s.atStage 1 = true) (hreset : s.elec.resetLow = false)
    (hgen : s.boot.validGens.getLast? = none) : s.stageRom ref = s.startFail 0x20 0 := by
  simp only [stageRom, hstage, hreset, hgen, Bool.not_true, Bool.false_eq_true, or_self, if_false]

/-- The device key's registers are apart from a field of any other register. -/
theorem State.devkey_fld {f : Field} (hf : Fld.SEC_DEVKEY_KEY.Apart f) (k : Nat → Nat) :
    ((List.range 4).foldl (fun s i => s.setFld Fld.SEC_DEVKEY_KEY i (k i)) s).fld f = s.fld f :=
  fld_foldl_setFld_apart k hf (by decide) (by decide) _ (by decide) s

theorem State.romShown_fld : (s.romShown g).fld Fld.SEC_OTP_IN_FORCE = g % 2 ^ Fld.SEC_OTP_IN_FORCE.width ∧
    (s.romShown g).fld Fld.SEC_OTP_ANTI_ROLLBACK = fieldAt (s.boot.otpGen g) 4 4 ∧
    (s.romShown g).fld Fld.HUB_SERIAL_SERIAL = fieldAt (s.boot.otpGen g) 8 8 := by
  have hroll : fieldAt (s.boot.otpGen g) 4 4 % 2 ^ Fld.SEC_OTP_ANTI_ROLLBACK.width = fieldAt (s.boot.otpGen g) 4 4 :=
    Nat.mod_eq_of_lt (fieldAt_lt ..)
  have hserial : fieldAt (s.boot.otpGen g) 8 8 % 2 ^ Fld.HUB_SERIAL_SERIAL.width = fieldAt (s.boot.otpGen g) 8 8 :=
    Nat.mod_eq_of_lt (fieldAt_lt ..)
  rw [romShown]
  refine ⟨?force, ?roll, ?serial⟩
  case force =>
    rw [devkey_fld (by decide)]
    simp (disch := decide) only [fld_setFld_once_apart, fld_setFld_same]
  case roll =>
    rw [devkey_fld (by decide)]
    simp (disch := decide) only [fld_setFld_once_apart, fld_setFld_same, hroll]
  case serial =>
    rw [devkey_fld (by decide), fld_setFld_same _ _ _ _ (by decide), hserial]

theorem MemSame.romShown : MemSame s (s.romShown g) :=
  ((((((MemSame.setFld ..).trans (MemSame.setFld ..)).trans (MemSame.setFld ..)).trans (MemSame.setFld ..)).trans
    (MemSame.setFld ..)).trans (MemSame.foldl _ (fun _ _ => MemSame.setFld ..) _ _))

theorem MemSame.boot (b : Boot) : MemSame s { s with boot := b } := ⟨rfl, rfl, rfl⟩

theorem State.fld_boot (b : Boot) (f : Field) (j : Nat) : ({ s with boot := b } : State).fld f j = s.fld f j := rfl

theorem MemSame.enterStage : MemSame s (s.enterStage n) := (MemSame.setFld ..).trans (MemSame.boot _)

theorem State.enterStage_stage (hn : n < 16) : (s.enterStage n).stage = n := by
  rw [stage, enterStage, fld_boot, fld_setFld_same _ _ _ _ (by decide)]
  exact Nat.mod_eq_of_lt hn

theorem State.enterStage_fld {f : Field} (hf : Fld.HUB_BOOT_STAGE.Apart f) : (s.enterStage n).fld f = s.fld f := by
  rw [enterStage, fld_boot, fld_setFld_once_apart n ⟨hf, by decide⟩]

/-! ## HOLD and FIRMWARE (R466, R471, R472) -/

theorem State.stageHold_of_cold (hstage : s.atStage 2 = true) (hcold : s.boot.cold = true) (hwinter : s.winterStart = false) :
    s.stageHold true = (s.zeroRange lpddrBase (lpddrBase + lpddrUsable)).enterStage 3 := by
  simp only [stageHold, hstage, hcold, hwinter, Bool.not_true, Bool.not_false, Bool.false_eq_true, Bool.and_self, if_false, if_true]

theorem State.stageHold_of_warm (hstage : s.atStage 2 = true) (hcold : s.boot.cold = false) : s.stageHold true = s.enterStage 3 := by
  simp only [stageHold, hstage, hcold, Bool.not_true, Bool.false_and, Bool.false_eq_true, if_false]

theorem State.stageHold_of_failed (hstage : s.atStage 2 = true) : s.stageHold false = s.startFail 0x26 0 := by
  simp only [stageHold, hstage, Bool.not_true, Bool.not_false, Bool.false_eq_true, if_false, if_true]

theorem State.stageFirmware_of_delivered (hstage : s.atStage 3 = true) (hwinter : s.winterStart = false)
    (hdelivered : s.boot.delivered = true) (hcode : s.firmwareCode = c) :
    s.stageFirmware = if c = 0 then s.runFirmware.enterStage 4 else s.startFail 0x23 c := by
  simp only [stageFirmware, hstage, hwinter, hdelivered, hcode, Bool.not_true, Bool.false_eq_true, and_false, if_false]

theorem State.stageFirmware_of_winter (hstage : s.atStage 3 = true) (hwinter : s.winterStart = true) (hcold : s.boot.cold = false) :
    s.stageFirmware = s.enterWinter s.firmwareCode := by
  simp only [stageFirmware, hstage, hwinter, hcold, Bool.not_true, Bool.false_eq_true, false_and, if_false, if_true]

/-! ## IMAGE, LINKS and VALIDATE (R473, R394, R396) -/

theorem State.stageImage_of_held (hstage : s.atStage 4 = true) (hdelivered : s.boot.delivered = true) (hnext : s.img.holdNext = none)
    (htry : s.boot.tryNext = false) (hcode : s.judgeHeld validateOuter = c) :
    s.stageImage = if c = 0 then s.enterStage 5 else s.imageFail c := by
  simp only [stageImage, hstage, hdelivered, hnext, htry, hcode, Bool.not_true, Bool.false_eq_true, and_false, or_self, if_false]

theorem State.stageLinks_of_tested {fails : List Lane} {dies : List DieRev} (hstage : s.atStage 5 = true) (htest : s.testLinks fails = u)
    (hrev : u.fenceFailedLinks.revisions dies = v) : s.stageLinks fails dies =
      if u.linkState 0 = lsFenced then u.startFail 0x27 0 else if !v.dieAccepted 1 then v.startFail 0x28 0 else v.enterStage 6 := by
  simp only [stageLinks, hstage, htest, hrev, Bool.not_true, Bool.false_eq_true, if_false]

theorem State.stageValidate_of_held (hstage : s.atStage 6 = true) (htry : s.boot.tryNext = false) (hcode : s.judgeHeld innerCode = c) :
    s.stageValidate = if c = 0 then s.enterStage 7 else s.imageFail c := by
  simp only [stageValidate, hstage, htry, hcode, Bool.not_true, Bool.false_eq_true, if_false]

/-! ## MEMORY, PORTS and UP (R466, R474, R478) -/

theorem State.stageMemory_of_warm (hstage : s.atStage 7 = true) (hcold : s.boot.cold = false) : s.stageMemory true = s.enterStage 8 := by
  simp only [stageMemory, hstage, hcold, Bool.not_true, Bool.false_eq_true, if_false]

theorem State.stageMemory_of_cold (hstage : s.atStage 7 = true) (hcold : s.boot.cold = true) : s.stageMemory true =
    ((((List.range 8).filter (fun k => !s.dieFenced (k / 2))).map (fun k => (hbmBase + k * hbmStride, stackEnd k)) ++
      (List.range 31).map (fun k => (lpddrBase + (k + 1) * lpddrStride, lpddrBase + (k + 1) * lpddrStride + lpddrUsable))).foldl
      (fun s r => s.zeroRange r.1 r.2) s).enterStage 8 := by
  simp only [stageMemory, hstage, hcold, Bool.not_true, Bool.false_eq_true, if_false, if_true]

theorem State.stageMemory_of_failed (hstage : s.atStage 7 = true) : s.stageMemory false = s.startFail 0x29 0 := by
  simp only [stageMemory, hstage, Bool.not_true, Bool.not_false, Bool.false_eq_true, if_false, if_true]

theorem State.stagePorts_of_stage (hstage : s.atStage 8 = true) : s.stagePorts e = ((bitsOf 2 e).foldl (fun s p => s.ethLink p true)
    ((List.range 16).foldl (fun s p => s.retrain p true) s)).enterStage 9 := if_neg (by simp [hstage])

theorem State.stageUp_of_first (hstage : s.atStage 9 = true) (hnone : s.img.full = none)
    (hu : { s.setFromSource with
      img := { s.setFromSource.img with full := heldImage s.img.holdFull, update := heldImage s.img.holdUpdate } } = u) :
    s.stageUp = (((u.applyTables [] (inForceSections (heldImage s.img.holdFull) (heldImage s.img.holdUpdate))
      ((u.lastHdr.map (·.moduleId)).getD 0) 0xFFFF false).identify).setFld Fld.HUB_BOOT_START_COUNT 0 0).logStart 0 0 := by
  subst hu
  exact if_neg (by simp [hstage, hnone])

theorem State.stageTimeout_of_cold (hup : s.isUp = false) (hstage : s.stage ≤ 9) (hon : s.elec.powered = true)
    (hcycle : s.elec.cycleReq = false) (hfence : s.fencing .chip = false) (hcold : s.boot.cold = true)
    (hlate : s.stageBound ≤ s.boot.stageBeats) : s.stageTimeout = s.startFail 0x2A 0 :=
  if_pos ⟨by simp [hup], hstage, hon, by simp [hcycle], by simp [hfence], by rwa [if_pos hcold]⟩

end Stages

section StageCommands

variable (s : State) (ok : Bool)

theorem exec_stageRom (ref : Bool) : exec (.stageRom ref) s = .next (s.stageRom ref).mirror := rfl

theorem exec_stageHold : exec (.stageHold ok) s = .next (s.stageHold ok).mirror := rfl

theorem exec_stageFirmware : exec .stageFirmware s = .next s.stageFirmware.mirror := rfl

theorem exec_stageImage : exec .stageImage s = .next s.stageImage.mirror := rfl

theorem exec_stageLinks (fails : List Lane) (dies : List DieRev) :
    exec (.stageLinks fails dies) s = .next (s.stageLinks fails dies).mirror := rfl

theorem exec_stageValidate : exec .stageValidate s = .next s.stageValidate.mirror := rfl

theorem exec_stageMemory : exec (.stageMemory ok) s = .next (s.stageMemory ok).mirror := rfl

theorem exec_stagePorts (eth : Nat) : exec (.stagePorts eth) s = .next (s.stagePorts eth).mirror := rfl

theorem exec_stageUp : exec .stageUp s = .next s.stageUp.mirror := rfl

theorem exec_stageTimeout : exec .stageTimeout s = .next s.stageTimeout.mirror := rfl

end StageCommands

/-- A start has entered stage 2, and shows the generation that stage ROM found. -/
theorem State.romEntered_fld (s : State) (g : Nat) {f : Field} (hstage : Fld.HUB_BOOT_STAGE.Apart f)
    (href : Fld.HUB_CLK_STATUS_REF_PRESENT.Apart f) (hctx : f.reg ≠ .HUB_CTX_STATUS) (htrc : f.reg ≠ .TRC_STATUS) :
    (((s.romShown g).setFld Fld.HUB_CLK_STATUS_REF_PRESENT 0 1).enterStage 2).mirror.fld f = (s.romShown g).fld f := by
  rw [mirror_fld _ _ _ (by decide) (.inl hctx) (.inl htrc), enterStage_fld hstage, fld_setFld_once_apart _ ⟨href, by decide⟩]

theorem State.romEntered_ref (u : State) :
    ((u.setFld Fld.HUB_CLK_STATUS_REF_PRESENT 0 1).enterStage 2).mirror.flag Fld.HUB_CLK_STATUS_REF_PRESENT = true := by
  rw [flag, mirror_fld _ _ _ (by decide) (.inl (by decide)) (.inl (by decide)), enterStage_fld (by decide),
    fld_setFld_same _ _ _ _ (by decide)]
  decide

theorem State.enterStage_mirror_stage (u : State) {n : Nat} (hn : n < 16) : (u.enterStage n).mirror.stage = n := by
  rw [stage, mirror_fld _ _ _ (by decide) (.inl (by decide)) (.inl (by decide))]
  exact enterStage_stage hn

/-- Settles O39: each stage when the start is at it. What a failed or a Winter start keeps, and that HUB_BOOT.STAGE reads 0xA in Winter, are
the model's readings (logs 27 and 28). -/
theorem bootStages : Obligations.BootStages := by
  unfold Obligations.BootStages
  refine ⟨?rom, ?noGen, ?holdCold, ?holdWarm, ?holdFailed, ?firmware, ?winter, ?image, ?links, ?validate, ?memoryWarm, ?memoryCold,
    ?memoryFailed, ?ports, ?up, ?timeout, exec_stageRom, exec_stageHold, exec_stageFirmware, exec_stageImage, exec_stageLinks,
    exec_stageValidate, exec_stageMemory, exec_stagePorts, exec_stageUp, exec_stageTimeout⟩
  case rom =>
    rintro s r g hstage hreset hgen rfl
    obtain ⟨hforce, hroll, hserial⟩ := State.romShown_fld (s := s) (g := g)
    rw [exec_stageRom, State.stageRom_of_valid hstage hreset hgen]
    refine ⟨_, rfl, State.enterStage_mirror_stage _ (by decide), ?_, ?_, ?_, ?_, ?_, ?_, State.romEntered_ref _,
      ((MemSame.romShown.trans (MemSame.setFld ..)).trans MemSame.enterStage).mirror_kept⟩
    · simp only [State.mirror_frame, State.enterStage]
    · simp only [State.mirror_frame, State.enterStage]
    · simp only [State.mirror_frame, State.enterStage]
    · exact (s.romEntered_fld g (by decide) (by decide) (by decide) (by decide)).trans hforce
    · exact (s.romEntered_fld g (by decide) (by decide) (by decide) (by decide)).trans hroll
    · exact (s.romEntered_fld g (by decide) (by decide) (by decide) (by decide)).trans hserial
  case noGen =>
    intro s r hstage hreset hgen
    rw [exec_stageRom, State.stageRom_of_none hstage hreset hgen]
  case holdCold =>
    rintro s ok hstage rfl hcold hwinter
    rw [exec_stageHold, State.stageHold_of_cold hstage hcold hwinter]
  case holdWarm =>
    rintro s ok hstage rfl hcold
    rw [exec_stageHold, State.stageHold_of_warm hstage hcold]
  case holdFailed =>
    rintro s ok hstage rfl
    rw [exec_stageHold, State.stageHold_of_failed hstage]
  case firmware =>
    intro s c hstage hwinter hdelivered hcode
    rw [exec_stageFirmware, State.stageFirmware_of_delivered hstage hwinter hdelivered hcode]
  case winter =>
    intro s hstage hwinter hcold
    rw [exec_stageFirmware, State.stageFirmware_of_winter hstage hwinter hcold]
  case image =>
    intro s c hstage hdelivered hnext htry hcode
    rw [exec_stageImage, State.stageImage_of_held hstage hdelivered hnext htry hcode]
  case links =>
    intro s u v fails dies hstage htest hrev
    rw [exec_stageLinks, State.stageLinks_of_tested hstage htest hrev]
  case validate =>
    intro s c hstage htry hcode
    rw [exec_stageValidate, State.stageValidate_of_held hstage htry hcode]
  case memoryWarm =>
    rintro s ok hstage rfl hcold
    rw [exec_stageMemory, State.stageMemory_of_warm hstage hcold]
  case memoryCold =>
    rintro s ok hstage rfl hcold
    rw [exec_stageMemory, State.stageMemory_of_cold hstage hcold]
  case memoryFailed =>
    rintro s ok hstage rfl
    rw [exec_stageMemory, State.stageMemory_of_failed hstage]
  case ports =>
    intro s e hstage
    rw [exec_stagePorts, State.stagePorts_of_stage hstage]
  case up =>
    intro s u hstage hnone hu
    rw [exec_stageUp, State.stageUp_of_first hstage hnone hu]
  case timeout =>
    intro s hup hstage hon hcycle hfence hcold hlate
    rw [exec_stageTimeout, State.stageTimeout_of_cold hup hstage hon hcycle hfence hcold hlate]

end Sys2Proof.Machine

/-! PROOF. Fetches, packages, one-time programming (R468 to R470, R482, R488, R489) and attestation (R491 to R494, R538): each operation in its
cases. -/

namespace Sys2Proof.Machine

section Delivery

variable {s u : State} {n g : Nat} {d : List Byte} {f : Fetch}

/-! ## Sources (R468) -/

theorem State.sourceTimeout_of_winter (hstage : s.atStage 3 = true) (hcold : s.boot.cold = true) (hwaits : s.boot.delivered = false)
    (hsource : s.sourceNow = some n) (hlate : s.fetchBeats * (s.boot.source + 1) ≤ s.boot.stageBeats) (hwinter : s.winterStart = true) :
    s.sourceTimeout = { s with boot := { s.boot with source := s.boot.source + 1 } } := by
  have hdue : (s.atStage 3 = true ∨ (s.atStage 4 = true ∧ (!s.winterStart) = true)) ∧ s.boot.cold = true ∧
      (!s.boot.delivered) = true ∧ s.sourceNow.isSome = true ∧ s.boot.stageBeats ≥ s.fetchBeats * (s.boot.source + 1) :=
    ⟨.inl hstage, hcold, by simp [hwaits], by simp [hsource], hlate⟩
  rw [sourceTimeout, if_pos hdue]
  exact if_pos (.inr hwinter)

theorem State.pldmComponent_of_firmware (hon : s.elec.powered = true) : s.pldmComponent 1 d = s.firmwareArrives 0 d d.length := by
  have haccepted : s.fetchAccepted 1 = true := rfl
  simp [pldmComponent, hon, haccepted]

theorem State.pldmComponent_of_image (hon : s.elec.powered = true) (haccepted : s.fetchAccepted 2 = true) :
    s.pldmComponent 2 d = s.imageArrives 0 d d.length := by
  simp [pldmComponent, hon, haccepted]

theorem State.pldmComponent_of_refused (hon : s.elec.powered = true) (hrefused : s.fetchAccepted 2 = false) :
    s.pldmComponent 2 d = s.setFld Fld.HUB_BOOT_CTL_RESULT 0 0x15 := by
  simp [pldmComponent, hon, hrefused]

/-! ## Fetches (R469, R470) -/

/-- The fetch of an object with the LENGTH and the source that the registers hold. -/
def State.newFetch (s : State) (object : Nat) : Fetch :=
  ⟨object, if s.flag Fld.HUB_BOOT_SRC_KIND then s.fld Fld.HUB_BOOT_SRC_ADDR * 64 else hostBase + s.fld Fld.HUB_BOOT_SRC_ADDR * 64,
    s.fld Fld.HUB_BOOT_CTL_LENGTH, [], false⟩

/-- A fetch begins with the reads of its source. -/
def State.beginFetch (s : State) (object : Nat) : State :=
  ((s.raise Fld.HUB_BOOT_CTL_FETCH).setLoad false (some (s.newFetch object))).loadReads false (2 ^ 24 + 1)

section Started

variable {object : Nat} (hu : (s.setFld Fld.HUB_BOOT_CTL_LENGTH 0 n).setFld Fld.HUB_BOOT_CTL_OBJECT 0 object = u)
  (hidle : u.boot.fetch = none)
include hu hidle

theorem State.fetchRow_of_accepted (haccepted : u.fetchAccepted object = true) (hobject : object ≠ 3) :
    s.fetchRow object n = u.beginFetch object := by
  have hnext : ¬ (object = 3 ∧ u.fld Fld.HUB_BOOT_CTL_LENGTH = 0) := fun h => hobject h.1
  rw [fetchRow, hu, startFetch, if_neg (by simp [hidle]), if_neg (by simp [haccepted]), if_neg hnext]
  rfl

theorem State.fetchRow_of_refused (hrefused : u.fetchAccepted object = false) : s.fetchRow object n = u.bootResult 0x15 := by
  rw [fetchRow, hu, startFetch, if_neg (by simp [hidle]), if_pos (by simp [hrefused])]

theorem State.fetchRow_of_empty (hobject : object = 3) (haccepted : u.fetchAccepted object = true)
    (hlen : u.fld Fld.HUB_BOOT_CTL_LENGTH = 0) : s.fetchRow object n =
      (({ u with img := { u.img with holdNext := none } } : State).setFld Fld.HUB_SIMG_STATUS_NEXT_PENDING 0 0).bootResult 0 := by
  rw [fetchRow, hu, startFetch, if_neg (by simp [hidle]), if_neg (by simp [haccepted]), if_pos ⟨hobject, hlen⟩]

end Started

theorem State.fetchComplete_of_torn (hfetch : s.boot.fetch = some f) (htorn : f.torn = true) :
    s.fetchComplete = (s.setLoad false none).bootResult 0x1B := by
  simp only [fetchComplete, hfetch, Fetch.ended, htorn, Bool.true_or, Bool.not_true, Bool.false_eq_true, if_false, if_true]

theorem State.fetchComplete_of_firmware (hfetch : s.boot.fetch = some f) (htorn : f.torn = false) (hwhole : f.len ≤ f.data.length)
    (hobject : f.object = 1) : s.fetchComplete = (s.setLoad false none).firmwareArrives 1 f.data f.len := by
  simp only [fetchComplete, hfetch, Fetch.ended, htorn, hobject, decide_eq_true hwhole, Bool.or_true, Bool.not_true,
    Bool.false_eq_true, if_false]

theorem State.leaveWinter_of_winter (hwinter : s.flag Fld.HUB_BOOT_WINTER = true) :
    s.leaveWinter = (s.setFld Fld.HUB_BOOT_START_COUNT 0 0).chipReset 8 := if_pos hwinter

/-! ## Programming (R488, R489) -/

theorem State.writeOtpProg_of_go {w mask : Nat} (hu : s.setReg .SEC_OTP_PROG 0 (BitVec.ofNat 64
      (Field.store Fld.SEC_OTP_PROG_ADDR (s.reg .SEC_OTP_PROG 0).toNat w mask)) = u) (hgo : bit (w &&& mask) 63 = true) :
    s.writeOtpProg w mask = u.otpGo := by
  subst hu
  exact if_pos hgo

theorem State.otpComplete_of_running {ok : Bool} (hprog : s.boot.prog = some (g, d)) : s.otpComplete ok =
    ((({ s with boot := if ok then { s.boot.writeGen g d with prog := none } else s.boot.consume } : State).setFld
      Fld.SEC_OTP_PROG_RESULT 0 (if ok then 0 else 8)).setFld Fld.SEC_OTP_PROGRAMMING 0 0).setFld Fld.SEC_OTP_PROG_GO 0 0 := by
  simp only [otpComplete, hprog]

end Delivery

section DeliveryCommands

variable (s : State) (rq : Requester) (n : Nat)

theorem exec_fetchSourceTimeout : exec .fetchSourceTimeout s = .next s.sourceTimeout.mirror := rfl

theorem exec_pldmComponent (d : List Byte) : exec (.pldmComponent n d) s = .next (s.pldmComponent n d).mirror := rfl

theorem exec_fetchFirmware : exec (.fetchFirmware rq n) s =
    .next (s.gated rq .HUB_BOOT_CTL 0 (fun s => s.fetchRow 1 n)).mirror := rfl

theorem exec_fetchImage : exec (.fetchImage rq n) s = .next (s.gated rq .HUB_BOOT_CTL 0 (fun s => s.fetchRow 2 n)).mirror := rfl

theorem exec_fetchNextImage : exec (.fetchNextImage rq n) s =
    .next (s.gated rq .HUB_BOOT_CTL 0 (fun s => s.fetchRow 3 n)).mirror := rfl

theorem exec_fetchComplete : exec .fetchComplete s = .next s.fetchComplete.mirror := rfl

theorem exec_leaveWinter : exec (.leaveWinter rq) s = .next (s.gated rq .HUB_BOOT_CTL 0 State.leaveWinter).mirror := rfl

theorem exec_otpProgram (w : Nat) : exec (.otpProgram rq w) s =
    .next (s.gated rq .SEC_OTP_PROG 0 (fun s => s.writeOtpProg (w ||| 2 ^ 63) (2 ^ 64 - 1))).mirror := rfl

theorem exec_otpProgrammingComplete (ok : Bool) : exec (.otpProgrammingComplete ok) s = .next (s.otpComplete ok).mirror := rfl

end DeliveryCommands

/-- Settles O40: each command where its object is accepted, or refused, and where its source ends whole or torn. -/
theorem bootDelivery : Obligations.BootDelivery := by
  unfold Obligations.BootDelivery
  refine ⟨?source, ?firmware, ?image, ?imageRefused, ?fetchFirmware, ?fetchImage, ?fetchRefused, ?fetchEmpty, ?torn, ?whole, ?leave,
    ?program, ?programmed, exec_fetchSourceTimeout, exec_pldmComponent, exec_fetchFirmware, exec_fetchImage, exec_fetchNextImage,
    exec_fetchComplete, exec_leaveWinter, exec_otpProgram, exec_otpProgrammingComplete⟩
  case source =>
    intro s n hstage hcold hwaits hsource hlate hwinter
    rw [exec_fetchSourceTimeout, State.sourceTimeout_of_winter hstage hcold hwaits hsource hlate hwinter]
  case firmware =>
    rintro s i d hon rfl
    rw [exec_pldmComponent, State.pldmComponent_of_firmware hon]
  case image =>
    rintro s i d hon rfl haccepted
    rw [exec_pldmComponent, State.pldmComponent_of_image hon haccepted]
  case imageRefused =>
    rintro s i d hon rfl hrefused
    rw [exec_pldmComponent, State.pldmComponent_of_refused hon hrefused]
  case fetchFirmware =>
    intro s u rq n hwrite hu hidle haccepted
    rw [exec_fetchFirmware, State.gated_accepted _ hwrite, State.fetchRow_of_accepted hu hidle haccepted (by decide), State.beginFetch,
      State.newFetch]
  case fetchImage =>
    intro s u rq n hwrite hu hidle haccepted
    rw [exec_fetchImage, State.gated_accepted _ hwrite, State.fetchRow_of_accepted hu hidle haccepted (by decide), State.beginFetch,
      State.newFetch]
  case fetchRefused =>
    intro s u rq n hwrite hu hidle hrefused
    rw [exec_fetchImage, State.gated_accepted _ hwrite, State.fetchRow_of_refused hu hidle hrefused]
  case fetchEmpty =>
    intro s u rq n hwrite hu hidle haccepted hlen
    rw [exec_fetchNextImage, State.gated_accepted _ hwrite, State.fetchRow_of_empty hu hidle rfl haccepted hlen]
  case torn =>
    intro s f hfetch htorn
    rw [exec_fetchComplete, State.fetchComplete_of_torn hfetch htorn]
  case whole =>
    intro s f hfetch htorn hwhole hobject
    rw [exec_fetchComplete, State.fetchComplete_of_firmware hfetch htorn hwhole hobject]
  case leave =>
    intro s rq hwrite hwinter
    rw [exec_leaveWinter, State.gated_accepted _ hwrite, State.leaveWinter_of_winter hwinter]
  case program =>
    intro s u rq w hwrite hu hgo
    rw [exec_otpProgram, State.gated_accepted _ hwrite, State.writeOtpProg_of_go hu hgo]
  case programmed =>
    intro s ok g d hprog
    rw [exec_otpProgrammingComplete, State.otpComplete_of_running hprog]

section Attestation

variable {s : State} {w : Nat}

/-! ## SPDM (R491 to R494) -/

section Responds

variable (hup : s.responds = true)
include hup

theorem State.spdmNegotiate_version (v : Nat) : s.spdmNegotiate 0 v = s.emit (.spdm 0 [0x13] []) := by
  simp [spdmNegotiate, hup]

theorem State.spdmChallenge_of_up (nonce : List Byte) : s.spdmChallenge nonce = s.emit (.spdm 0 (measureIndices.map s.measureBlock).flatten
    (Config.deviceSignature (nonce ++ (measureIndices.map s.measureBlock).flatten))) := if_neg (by simp [hup])

theorem State.spdmMeasure_count (nonce : List Byte) (signed : Bool) :
    s.spdmMeasure 0 nonce signed = s.emit (.spdm 0 [BitVec.ofNat 8 measureIndices.length]
      (if signed then Config.deviceSignature (nonce ++ [BitVec.ofNat 8 measureIndices.length]) else [])) := by
  have hasked : (!s.responds) = false := by simp [hup]
  simp only [spdmMeasure, hasked, Bool.false_eq_true, if_false, if_true, List.any_nil]

end Responds

/-! ## PLDM (R538) -/

section Housekeeping

variable (hhouse : s.elec.housekeeping = true)
include hhouse

theorem State.pldmRequest_trip : s.pldmRequest 1 = s.emit (.pldm 0 (if s.elec.trip then 1 else 0)) := by
  simp only [pldmRequest, hhouse, Bool.not_true, Bool.false_eq_true, if_false, if_true]

theorem State.pldmRequest_of_tripped (htrip : s.elec.trip = true) (hw : w ≠ 1) : s.pldmRequest w = s.emit (.pldm 1 0) := by
  simp only [pldmRequest, hhouse, htrip, Bool.not_true, Bool.false_eq_true, if_false, if_neg hw, true_or, if_true]

theorem State.pldmRequest_stage (htrip : s.elec.trip = false) (hon : s.elec.powered = true) :
    s.pldmRequest 0 = s.emit (.pldm 0 s.stage) := by
  have hasked : ¬ (s.elec.trip = true ∨ ((!s.elec.powered) = true ∧ 0 ≠ 2 ∧ 0 ≠ 4)) := by simp [htrip, hon]
  rw [pldmRequest, if_neg (by simp [hhouse]), if_neg (by decide), if_neg hasked]

end Housekeeping

end Attestation

section AttestationCommands

variable (s : State)

theorem exec_spdmNegotiate (what version : Nat) :
    exec (.spdmNegotiate what version) s = .next (s.spdmNegotiate what version).mirror := rfl

theorem exec_spdmChallenge (nonce : List Byte) : exec (.spdmChallenge nonce) s = .next (s.spdmChallenge nonce).mirror := rfl

theorem exec_spdmGetMeasurements (i : Nat) (nonce : List Byte) (signed : Bool) :
    exec (.spdmGetMeasurements i nonce signed) s = .next (s.spdmMeasure i nonce signed).mirror := rfl

theorem exec_pldmRequest (what : Nat) : exec (.pldmRequest what) s = .next (s.pldmRequest what).mirror := rfl

end AttestationCommands

/-- Settles O41: each request where the responder runs, or the housekeeping supply is up. The codes of the answers are the model's own
(log 29). -/
theorem attestation : Obligations.Attestation := by
  unfold Obligations.Attestation
  refine ⟨?version, ?challenge, ?count, ?trip, ?tripped, ?stage, exec_spdmNegotiate, exec_spdmChallenge, exec_spdmGetMeasurements,
    exec_pldmRequest⟩
  case version =>
    rintro s w v hup rfl
    rw [exec_spdmNegotiate, State.spdmNegotiate_version hup]
  case challenge =>
    intro s n hup
    rw [exec_spdmChallenge, State.spdmChallenge_of_up hup]
  case count =>
    rintro s i n b hup rfl
    rw [exec_spdmGetMeasurements, State.spdmMeasure_count hup]
  case trip =>
    rintro s w hhouse rfl
    rw [exec_pldmRequest, State.pldmRequest_trip hhouse]
  case tripped =>
    intro s w hhouse htrip hw
    rw [exec_pldmRequest, State.pldmRequest_of_tripped hhouse htrip hw]
  case stage =>
    rintro s w hhouse htrip hon rfl
    rw [exec_pldmRequest, State.pldmRequest_stage hhouse htrip hon]

end Sys2Proof.Machine

/-! PROOF. Observability (R498, R502, R509 to R515): each operation in its cases. -/

namespace Sys2Proof.Machine

section Observation

variable {s u z : State} {o : Nat} {d e : Dump}

/-! ## Selectors and samples (R498, R502) -/

theorem State.writeSel_eq (kind unit i w mask : Nat) : s.writeSel kind unit i w mask =
    { s.storePlain (selReg kind) (unit * (counterRegs kind).per + i) w mask with
      selPend := selKey kind unit i :: s.selPend.filter (· != selKey kind unit i) } := by
  have hpend (r : Reg) (j : Nat) : (s.storePlain r j w mask).selPend = s.selPend := rfl
  rw [writeSel, hpend]

theorem State.hubSelApply_of_due (hdue : s.ft % 64 = 0) : s.hubSelApply = s.applyUnit 3 0 := if_pos hdue

/-- The beat of a sample is noted. -/
def State.noteSample (s : State) : State := { s with trc := { s.trc with sampled := s.ft + 1 } }

/-- Records that the ring of samples holds. -/
def State.samplesHeld (s : State) : Nat := (s.fld Fld.HUB_SMP_PTR_HEAD + 2 ^ 32 - s.fld Fld.HUB_SMP_PTR_TAIL) % 2 ^ 32

/-- A sample is written where the ring has room for it. -/
def State.takeSample (s : State) : State :=
  if s.samplesHeld + s.sampleUnits.length > 2 ^ s.fld Fld.HUB_SMP_RING_LOG2_RECORDS then s.bump Fld.HUB_SMP_CFG_DROPS 0
  else match s.writeSamples (s.fld Fld.HUB_SMP_PTR_HEAD) (s.sampleUnits.map (fun u => s.sampleRecord u.1 u.2)) with
    | (t, true) => (t.setFld Fld.HUB_SMP_PTR_HEAD 0 (s.fld Fld.HUB_SMP_PTR_HEAD + s.sampleUnits.length)).msi
        Fld.HUB_SMP_MSI_FILE Fld.HUB_SMP_MSI_EN Fld.HUB_SMP_MSI_IDENTITY 0
    | (t, false) => t.bump Fld.HUB_SMP_CFG_DROPS 0

theorem State.sampleTick_of_due (hen : s.flag Fld.HUB_SMP_CFG_EN = true) (hperiod : s.ft % 2 ^ s.fld Fld.HUB_SMP_CFG_PERIOD_LOG2 = 0)
    (hunits : s.sampleUnits.isEmpty = false) (hfirst : s.trc.sampled ≠ s.ft + 1) : s.sampleTick = s.noteSample.takeSample :=
  if_neg (by simp [hen, hperiod, hunits, hfirst])

theorem State.takeSample_of_full (hfull : 2 ^ s.fld Fld.HUB_SMP_RING_LOG2_RECORDS < s.samplesHeld + s.sampleUnits.length) :
    s.takeSample = s.bump Fld.HUB_SMP_CFG_DROPS 0 := if_pos hfull

theorem State.takeSample_of_room (hroom : s.samplesHeld + s.sampleUnits.length ≤ 2 ^ s.fld Fld.HUB_SMP_RING_LOG2_RECORDS)
    (hwrite : s.writeSamples (s.fld Fld.HUB_SMP_PTR_HEAD) (s.sampleUnits.map (fun x => s.sampleRecord x.1 x.2)) = (u, true)) :
    s.takeSample = (u.setFld Fld.HUB_SMP_PTR_HEAD 0 (s.fld Fld.HUB_SMP_PTR_HEAD + s.sampleUnits.length)).msi
      Fld.HUB_SMP_MSI_FILE Fld.HUB_SMP_MSI_EN Fld.HUB_SMP_MSI_IDENTITY 0 := by
  rw [takeSample, if_neg (Nat.not_lt.mpr hroom)]
  simp only [hwrite]

/-! ## Crash dumps (R509 to R511) -/

/-- The fields of DBG_DUMP_CTL that a write of v leaves. -/
def State.dumpCtl (s : State) (v : Nat) : State :=
  ((s.setFld Fld.DBG_DUMP_CTL_ON_HANG 0 (getBits v 62 1)).setFld Fld.DBG_DUMP_CTL_LIMIT 0 (getBits v 24 24)).setFld
    Fld.DBG_DUMP_CTL_BLOCKS 0 (getBits v 0 16)

theorem State.dumpCtl_dump (v : Nat) : (s.dumpCtl v).dump = s.dump := by
  simp only [dumpCtl, setFld_frame]

theorem State.writeDumpCtl_of_go {w mask v : Nat} (hstored : s.stored .DBG_DUMP_CTL 0 w mask = v) (hgo : bit (w &&& mask) 63 = true)
    (hidle : s.dump = none) : s.writeDumpCtl w mask = ((s.dumpCtl v).raise Fld.DBG_DUMP_CTL_GO).beginDump
      ⟨(s.dumpCtl v).ft, dumpRanges ((s.dumpCtl v).fld Fld.DBG_DUMP_CTL_BLOCKS), 0, 0, 0, 0, false⟩ := by
  subst hstored
  exact if_pos ⟨hgo, by rw [← dumpCtl, dumpCtl_dump, hidle]; rfl⟩

theorem State.readTimeout_of_before (hdump : s.dump = some d) (hbefore : (d.before (2 ^ 26)).contains o = true) : s.readTimeout o =
    { ((s.dumpTo d o).1.dumpOne (s.dumpTo d o).2 o true).1 with
      dump := some { ((s.dumpTo d o).1.dumpOne (s.dumpTo d o).2 o true).2 with
        ranges := ((s.dumpTo d o).1.dumpOne (s.dumpTo d o).2 o true).2.ranges.map (fun g => (max g.1 (o + 8), g.2)) } } := by
  simp only [readTimeout, hdump, if_pos hbefore]

theorem State.dumpComplete_of_elsewhere (hdump : s.dump = some d) (hrest : s.dumpTo d (2 ^ 26) = (u, e))
    (hdest : cacheable (u.fld Fld.DBG_DUMP_DEST_ADDR * 2 ^ 16) = false) : s.dumpComplete =
      { (u.setFld Fld.DBG_DUMP_STATUS_STATE 0 (if e.full then 3 else 2)).setFld Fld.DBG_DUMP_CTL_GO 0 0 with dump := none } := by
  have hkeep : ¬ cacheable (u.fld Fld.DBG_DUMP_DEST_ADDR * 2 ^ 16) = true := Bool.not_eq_true _ ▸ hdest
  simp only [dumpComplete, hdump, hrest, if_neg hkeep]

/-! ## The trace port (R512, R515) -/

theorem State.traceFlush_of_due (hdue : s.trc.first + 125 ≤ s.ft) : s.traceFlush = s.traceFrame := if_pos hdue

theorem State.traceLink_down : s.traceLink false = (s.setFld Fld.TRC_STATUS_LINK_UP 0 0).traceUpdate := by
  simp only [traceLink, Bool.false_eq_true, if_false]

theorem State.traceLink_up : s.traceLink true = (s.setFld Fld.TRC_STATUS_LINK_UP 0 1).traceUpdate := by
  simp only [traceLink, if_true]

end Observation

section ObservationCommands

variable (s : State) (rq : Requester)

theorem exec_cntSelWrite (kind unit i w : Nat) : exec (.cntSelWrite rq kind unit i w) s = .next (if selExists kind unit i then
    s.gated rq (selReg kind) (unit * (counterRegs kind).per + i) (fun s => s.writeSel kind unit i w (2 ^ 64 - 1)) else s).mirror := rfl

theorem exec_hubCntSelApply : exec .hubCntSelApply s = .next s.hubSelApply.mirror := rfl

theorem exec_sampleTick : exec .sampleTick s = .next s.sampleTick.mirror := rfl

theorem exec_dump (w : Nat) : exec (.dump rq w) s =
    .next (s.gated rq .DBG_DUMP_CTL 0 (fun s => s.writeDumpCtl (w ||| 2 ^ 63) (2 ^ 64 - 1))).mirror := rfl

theorem exec_registerReadTimeout (o : Nat) : exec (.registerReadTimeout o) s = .next (s.readTimeout o).mirror := rfl

theorem exec_dumpComplete : exec .dumpComplete s = .next s.dumpComplete.mirror := rfl

theorem exec_traceFrameFlush : exec .traceFrameFlush s = .next s.traceFlush.mirror := rfl

theorem exec_traceLinkDown : exec .traceLinkDown s = .next (s.traceLink false).mirror := rfl

theorem exec_traceLinkUp : exec .traceLinkUp s = .next (s.traceLink true).mirror := rfl

end ObservationCommands

/-- Settles O42: selectors and GO where the block takes the write, a sample by the room in its ring, a dump's end by its destination. A
destination outside HBM4 and LPDDR6 takes no header, by the model's choice (log 50). -/
theorem observation : Obligations.Observation := by
  unfold Obligations.Observation
  refine ⟨?sel, ?apply, ?full, ?room, ?dump, ?timeout, ?complete, ?flush, ?down, ?up, exec_cntSelWrite, exec_hubCntSelApply,
    exec_sampleTick, exec_dump, exec_registerReadTimeout, exec_dumpComplete, exec_traceFrameFlush⟩
  case sel =>
    intro s rq k u i w hexists hwrite
    rw [exec_cntSelWrite, if_pos hexists, State.gated_accepted _ hwrite, State.writeSel_eq]
  case apply =>
    intro s hdue
    rw [exec_hubCntSelApply, State.hubSelApply_of_due hdue]
  case full =>
    intro s hen hperiod hunits hfirst hfull
    rw [exec_sampleTick, State.sampleTick_of_due hen hperiod hunits hfirst, State.takeSample_of_full (s := s.noteSample) hfull,
      State.noteSample]
  case room =>
    rintro s u z hen hperiod hunits hfirst hroom rfl hwrite
    rw [exec_sampleTick, State.sampleTick_of_due hen hperiod hunits hfirst, State.takeSample_of_room (s := s.noteSample) hroom hwrite]
    rfl
  case dump =>
    rintro s u rq w v hwrite hstored hgo hidle rfl
    rw [exec_dump, State.gated_accepted _ hwrite, State.writeDumpCtl_of_go hstored hgo hidle, State.dumpCtl]
  case timeout =>
    intro s o d hdump hbefore
    rw [exec_registerReadTimeout, State.readTimeout_of_before hdump hbefore]
  case complete =>
    intro s u d e hdump hrest hdest
    rw [exec_dumpComplete, State.dumpComplete_of_elsewhere hdump hrest hdest]
  case flush =>
    intro s hdue
    rw [exec_traceFrameFlush, State.traceFlush_of_due hdue]
  case down =>
    intro s
    rw [exec_traceLinkDown, State.traceLink_down]
  case up =>
    intro s
    rw [exec_traceLinkUp, State.traceLink_up]

end Sys2Proof.Machine

/-! PROOF. The front of the queue, and the state at power-good (R466). -/

namespace Sys2Proof.Machine

/-! ## The queue -/

theorem step_of_front (s : State) (c : Instr) (rest : List Instr) :
    step { s with pending := c :: rest } = exec c { s with pending := rest } := rfl

theorem step_of_empty (s : State) (h : s.pending = []) : step s = .next s := by
  simp only [step, h]

/-- Settles O44: step takes the queue apart, and idles on an empty one (log 1). -/
theorem stepTakesTheFront : Obligations.StepTakesTheFront := by
  unfold Obligations.StepTakesTheFront
  exact ⟨step_of_front, step_of_empty⟩

/-! ## The state at power-good -/

/-- No context is in use, and HUB_CTX_STATUS shows it. -/
theorem State.reset_ctx_state : ∀ c < 256, State.reset.fld Fld.HUB_CTX_STATUS_STATE c = (State.reset.ctx c).st.code := by
  decide +kernel

theorem State.reset_occupancy :
    State.reset.fld Fld.TRC_STATUS_OCCUPANCY 0 = State.reset.trc.units % 2 ^ Fld.TRC_STATUS_OCCUPANCY.width := by
  decide +kernel

theorem State.reset_statusShown : StatusShown State.reset := ⟨reset_ctx_state, reset_occupancy⟩

theorem State.reset_boot : State.reset.stage = 1 ∧ State.reset.fld Fld.HUB_BOOT_REASON = 1 := by
  decide +kernel

/-- Settles O46: each unit of State.reset stands at its initial value, and the registers at theirs (log 5). -/
theorem resetShowsItsState : Obligations.ResetShowsItsState := by
  unfold Obligations.ResetShowsItsState
  obtain ⟨hstage, hreason⟩ := State.reset_boot
  exact ⟨rfl, rfl, hstage, hreason, rfl, rfl, rfl, rfl, rfl, by decide, State.reset_statusShown⟩

end Sys2Proof.Machine

/-! PROOF. A MEMBERSHIP notice that removes a module (R375): what waits in a port for the module goes with it. -/

namespace Sys2Proof.Machine

theorem exec_noticeMembership (s : State) (port : Nat) (n : Notice) : exec (.noticeMembership port n) s = .next
    ((s.takeNotice port n).managed nkMembership n (fun s => s.membership (noticeModule n) (noticeArg n))).mirror := rfl

/-- MEMBERSHIP, ACTION 1: module 0, the manager of group 0, removes module 5. -/
def removal : Notice := [0x11, 1, 0, 0, 0, 0, 5, 0] ++ List.replicate 120 0

/-- A module whose manager is module 0, and whose port 0 holds a packet for module 5. -/
def State.managedModule : State :=
  (State.reset.setFld Fld.FAB_FM_VALID 0 1).setPort 0 { Port.init with egress := [{ basePacket pkAck 0 0 0 [] with dest := 5 }] }

/-- The state that the second clause of O28 gives: module 5 is marked removed and the accesses to it end. -/
def State.marked (s : State) (n : Notice) : State :=
  ((s.setFld Fld.FAB_REMOVED_REMOVED (noticeModule n / 64)
    (s.fld Fld.FAB_REMOVED_REMOVED (noticeModule n / 64) ||| 2 ^ (noticeModule n % 64))).endAccessesTo (noticeModule n)).toNoticeRing n

theorem State.managedModule_fromManager : (managedModule.takeNotice 0 removal).fromManager removal = true := by decide +kernel

/-- The model discards the packet, and the clause's state still holds it. -/
theorem State.managedModule_egress :
    (((managedModule.takeNotice 0 removal).managed nkMembership removal
      (fun s => s.membership (noticeModule removal) (noticeArg removal))).port 0).egress = [] ∧
    (((managedModule.takeNotice 0 removal).marked removal).port 0).egress ≠ [] := by
  decide +kernel

/-- What a port holds is the same in states whose mirrored states agree. -/
theorem State.port_of_mirror {t u : State} (h : t.mirror = u.mirror) (p : Nat) : t.port p = u.port p := by
  have hports : t.mirror.ports = u.mirror.ports := congrArg State.ports h
  simp only [mirror_frame] at hports
  rw [port, port, hports]

/-- Refutes O28: its second clause leaves out the packets to or from the removed module that wait in the ports, which R375 and the model
discard. With one such packet in port 0, the port is empty in the model's next state and is not in the clause's. -/
theorem not_fabricNotices : ¬ Obligations.FabricNotices := by
  unfold Obligations.FabricNotices
  intro hall
  have hclause := hall.2.1 State.managedModule _ 0 removal (by decide) rfl State.managedModule_fromManager (by decide) (by decide)
  rw [exec_noticeMembership] at hclause
  have hport := State.port_of_mirror (Host.Outcome.next.inj hclause) 0
  obtain ⟨hempty, hheld⟩ := State.managedModule_egress
  exact hheld ((congrArg Port.egress hport).symm.trans hempty)

end Sys2Proof.Machine

/-! PROOF. Memory, the cache and the homes leave the standing alone. -/

namespace Sys2Proof.Machine

section Access

variable {s t : State}

/-- A state taken out of a pair. -/
theorem State.standing_of_pair {α : Type} {p : State × α} {a : α} (h : p = (t, a)) (hp : p.1.standing = s.standing) :
    t.standing = s.standing := by
  subst h
  exact hp

variable (s)

/-! ## The state's own writes -/

section Updates

@[simp] theorem State.standing_setCirc (c : Nat) (v : Circ) : (s.setCirc c v).standing = s.standing := (rfl)
@[simp] theorem State.standing_setQueue (k q : Nat) (v : Queue) : (s.setQueue k q v).standing = s.standing := (rfl)
@[simp] theorem State.standing_setEntry (k e : Nat) (v : Option Entry) : (s.setEntry k e v).standing = s.standing := (rfl)
@[simp] theorem State.standing_setVecRun (k : Nat) (v : Option VecRun) : (s.setVecRun k v).standing = s.standing := (rfl)
@[simp] theorem State.standing_setEngine (e : Nat) (v : Engine) : (s.setEngine e v).standing = s.standing := (rfl)
@[simp] theorem State.standing_setCtx (c : Nat) (v : Ctx) : (s.setCtx c v).standing = s.standing := (rfl)
@[simp] theorem State.standing_setWay (a b w : Nat) (v : Way) : (s.setWay a b w v).standing = s.standing := (rfl)
@[simp] theorem State.standing_setLine (a l : Nat) (v : Line) : (s.setLine a l v).standing = s.standing := (rfl)
@[simp] theorem State.standing_setHome (l : Nat) (v : HomeLine) : (s.setHome l v).standing = s.standing := (rfl)
@[simp] theorem State.standing_setCpu (c : Nat) (v : Cpu) : (s.setCpu c v).standing = s.standing := (rfl)
@[simp] theorem State.standing_setPort (p : Nat) (v : Port) : (s.setPort p v).standing = s.standing := (rfl)
@[simp] theorem State.standing_setByte (a : Nat) (b : Byte) : (s.setByte a b).standing = s.standing := (rfl)
@[simp] theorem State.standing_setSyn (g : Nat) (v : BitVec 32) : (s.setSyn g v).standing = s.standing := (rfl)
@[simp] theorem State.standing_opens (l : List OpenAccess) (n : Nat) :
    ({ s with opens := l, nextId := n } : State).standing = s.standing := (rfl)
@[simp] theorem State.standing_wbuf (l : List CacheJob) : ({ s with wbuf := l } : State).standing = s.standing := (rfl)
@[simp] theorem State.standing_send (m : Msg) : (s.send m).standing = s.standing := (rfl)
@[simp] theorem State.standing_sendAll (l : List Msg) : (s.sendAll l).standing = s.standing := (rfl)
@[simp] theorem State.standing_touchWay (a b w : Nat) : (s.touchWay a b w).standing = s.standing := (rfl)
@[simp] theorem State.standing_clearResv (l : Nat) : (s.clearResv l).standing = s.standing := (rfl)

@[simp] theorem State.standing_setXreg (c r : Nat) (w : Word) : (s.setXreg c r w).standing = s.standing := by
  unfold setXreg
  split <;> rfl

@[simp] theorem State.standing_setBytes (a : Nat) (b : List Byte) : (s.setBytes a b).standing = s.standing := by
  induction b generalizing s a with
  | nil => rfl
  | cons x rest ih => rw [setBytes, ih, standing_setByte]

end Updates

/-! ## Errors, and memory with its checks (R219 to R226) -/

@[simp] theorem State.standing_isolation (rq : Requester) (op a : Nat) : (s.isolation rq op a).standing = s.standing := by
  unfold isolation
  dsimp only
  split <;> simp

@[simp] theorem State.standing_errCount (f : Field) (c : Nat) : (s.errCount f c).standing = s.standing := by
  unfold errCount
  dsimp only
  split <;> simp

@[simp] theorem State.standing_noteCorrected (g : Nat) : (s.noteCorrected g).standing = s.standing := by
  unfold noteCorrected
  split
  · simp
  · split <;> simp

@[simp] theorem State.standing_noteBad (g : Nat) (src : ErrSource) : (s.noteBad g src).standing = s.standing := by
  unfold noteBad
  split
  · dsimp only
    split
    · exact standing_bump ..
    · simp only [standing_setFld, standing_raise, standing_bump]
  · split
    · dsimp only
      split
      · simp only [standing_errCount, standing_packet]
      · simp only [standing_setFld, standing_raise, standing_errCount, standing_packet]
    · rfl

@[simp] theorem State.standing_notePoisonRead (g : Nat) : (s.notePoisonRead g).standing = s.standing := by
  unfold notePoisonRead
  split
  · simp
  · split <;> simp

@[simp] theorem State.standing_correctGranule (g : Nat) : (s.correctGranule g).standing = s.standing := by
  unfold correctGranule
  split
  · dsimp only
    split <;> simp
  · rfl

@[simp] theorem State.standing_queueCorrection (g : Nat) : (s.queueCorrection g).standing = s.standing := by
  unfold queueCorrection
  split
  · simp
  · split <;> rfl

@[simp] theorem State.standing_readGranule (g : Nat) (src : ErrSource) : (s.readGranule g src).1.standing = s.standing := by
  unfold readGranule
  split
  · rfl
  · dsimp only
    split
    · split
      · simp
      · split <;> simp
    · split <;> simp

@[simp] theorem State.standing_readGranules (g : Nat) (src : ErrSource) (n : Nat) : (s.readGranules g src n).1.standing = s.standing := by
  induction n generalizing s g with
  | zero => rfl
  | succ n ih => exact (ih _ _).trans (standing_readGranule ..)

@[simp] theorem State.standing_readMem (a n : Nat) (src : ErrSource) : (s.readMem a n src).1.standing = s.standing :=
  standing_readGranules ..

@[simp] theorem State.standing_poisonGranule (g : Nat) : (s.poisonGranule g).standing = s.standing := by
  unfold poisonGranule
  split <;> simp

@[simp] theorem State.standing_writeWordA (a : Nat) (b : List Byte) : (s.writeWordA a b).1.standing = s.standing := by
  unfold writeWordA
  dsimp only
  split
  · simp
  · split
    · simp
    · split <;> simp

@[simp] theorem State.standing_writeA (a : Nat) (b : List Byte) (n : Nat) : (s.writeA a b n).1.standing = s.standing := by
  induction n generalizing s a b with
  | zero => rfl
  | succ n ih =>
    unfold writeA
    split
    · rfl
    · exact (ih _ _ _).trans (standing_writeWordA ..)

@[simp] theorem State.standing_writeGranule (a : Nat) (b : List Byte) : (s.writeGranule a b).1.standing = s.standing := by
  unfold writeGranule
  dsimp only
  split
  · simp
  · split
    · simp
    · split
      · simp
      · split <;> simp

@[simp] theorem State.standing_writeGranules (a : Nat) (b : List Byte) (n : Nat) : (s.writeGranules a b n).1.standing = s.standing := by
  induction n generalizing s a b with
  | zero => rfl
  | succ n ih =>
    unfold writeGranules
    split
    · rfl
    · exact (ih _ _ _).trans (standing_writeGranule ..)

@[simp] theorem State.standing_writeMem (a : Nat) (b : List Byte) : (s.writeMem a b).1.standing = s.standing := standing_writeGranules ..

/-! ## The cache (R243 to R250) -/

@[simp] theorem State.standing_evictWay (a b w : Nat) : (s.evictWay a b w).standing = s.standing := by
  unfold evictWay
  simp

@[simp] theorem State.standing_markSectors (p : CachePlace) (w mask : Nat) (dirty : Bool) :
    (s.markSectors p w mask dirty).standing = s.standing := by
  unfold markSectors
  simp

@[simp] theorem State.standing_markSector (p : CachePlace) (w : Nat) (dirty : Bool) : (s.markSector p w dirty).standing = s.standing :=
  standing_markSectors ..

@[simp] theorem State.standing_allocate (p : CachePlace) (cls : Option Nat) : (s.allocate p cls).1.standing = s.standing := by
  unfold allocate
  dsimp only
  split
  · simp
  · split
    · rfl
    · split <;> simp

@[simp] theorem State.standing_countChannel (a n : Nat) (write : Bool) : (s.countChannel a n write).standing = s.standing := by
  unfold countChannel
  split <;> simp

@[simp] theorem State.standing_allocSector (p : CachePlace) (cls : Option Nat) (dirty : Bool) :
    (s.allocSector p cls dirty).1.standing = s.standing := by
  unfold allocSector
  split
  · split <;> simp
  · split
    · next heq => simpa using standing_of_pair heq (standing_allocate ..)
    · next heq => exact standing_of_pair heq (standing_allocate ..)

@[simp] theorem State.standing_fillSector (e : CacheJob) : (s.fillSector e).standing = s.standing := by
  unfold fillSector
  dsimp only
  split
  · split
    · next heq => simpa using standing_of_pair heq (standing_allocSector ..)
    · next heq => simpa using standing_of_pair heq (standing_allocSector ..)
  · simp

/-- A write of a sector that waits to be filled fills it first. -/
def State.filledFor (s : State) (a : Nat) (write : Bool) : State :=
  match s.fillOf a with
  | some e => if write then s.fillSector e else s
  | none => s

/-- An access of a sector that misses. -/
def State.missedAccess (s : State) (rq : Requester) (p : CachePlace) (a n : Nat) (write : Bool) : State :=
  if write then
    if n = 256 then (match s.allocSector p rq.cls true with
      | (s, true) => s
      | (s, false) => s.countChannel a n true)
    else s.countChannel a n true
  else if rq.kind = .tensor then
    match s.allocSector p rq.cls false with
    | (s, true) => s.countChannel a 256 false
    | (s, false) => s.countChannel a n false
  else
    let s := s.countChannel a n false
    match rq.cls, (s.fillOf a).isNone && !(s.allocWays p.slice rq.cls).isEmpty with
    | some c, true => { s with wbuf := s.wbuf ++ [⟨stackOf a, a / 256 * 256, some c⟩] }
    | _, _ => s

/-- An access of a sector that has a place in the cache. -/
def State.placedAccess (s : State) (rq : Requester) (p : CachePlace) (a n : Nat) (write : Bool) : State :=
  match s.cacheHit a with
  | some (_, w) =>
    ((if write then s.markSector p w true else s.touchWay p.slice p.set w).countHub 6 (p.slice / 16) 1).countHub 6 4 1
  | none => ((s.countHub 7 (p.slice / 16) 1).countHub 7 4 1).missedAccess rq p a n write

theorem State.cacheAccess_of_place {rq : Requester} {a n : Nat} {write : Bool} {p : CachePlace} (hplace : s.cachePlace a = some p) :
    s.cacheAccess rq a n write = (s.filledFor a write).placedAccess rq p a n write := by
  rw [cacheAccess, hplace]
  rfl

@[simp] theorem State.standing_filledFor (a : Nat) (write : Bool) : (s.filledFor a write).standing = s.standing := by
  unfold filledFor
  split
  · split <;> simp
  · rfl

@[simp] theorem State.standing_missedAccess (rq : Requester) (p : CachePlace) (a n : Nat) (write : Bool) :
    (s.missedAccess rq p a n write).standing = s.standing := by
  unfold missedAccess
  split
  · split
    · split
      · next heq => exact standing_of_pair heq (standing_allocSector ..)
      · next heq => simpa using standing_of_pair heq (standing_allocSector ..)
    · simp
  · split
    · split
      · next heq => simpa using standing_of_pair heq (standing_allocSector ..)
      · next heq => simpa using standing_of_pair heq (standing_allocSector ..)
    · dsimp only
      split <;> simp

@[simp] theorem State.standing_placedAccess (rq : Requester) (p : CachePlace) (a n : Nat) (write : Bool) :
    (s.placedAccess rq p a n write).standing = s.standing := by
  unfold placedAccess
  split
  · split <;> simp
  · simp

@[simp] theorem State.standing_cacheAccess (rq : Requester) (a n : Nat) (write : Bool) :
    (s.cacheAccess rq a n write).standing = s.standing := by
  cases hplace : s.cachePlace a with
  | none =>
    rw [cacheAccess, hplace]
    exact standing_countChannel ..
  | some p => rw [cacheAccess_of_place s hplace, standing_placedAccess, standing_filledFor]

@[simp] theorem State.standing_throughCache (rq : Requester) (a n : Nat) (write : Bool) :
    (s.throughCache rq a n write).standing = s.standing :=
  standing_foldl s (fun _ _ => standing_cacheAccess ..) _

end Access

end Sys2Proof.Machine

/-! PROOF. The homes and the accesses that pass them leave the standing alone (R312 to R319, R322). -/

namespace Sys2Proof.Machine

section Homes

variable (s : State)

@[simp] theorem State.standing_writeLine (rq : Requester) (line : Nat) (data : List Byte) (poison : Nat) :
    (s.writeLine rq line data poison).standing = s.standing := by
  unfold writeLine
  dsimp only
  split <;> split <;> simp

@[simp] theorem State.standing_performNc (rq : Requester) (m : Msg) : (s.performNc rq m).1.standing = s.standing := by
  unfold performNc
  dsimp only
  split
  · simp only [standing_writeMem]
  · split
    · split
      · simp only [standing_readMem]
      · simp only [standing_writeMem, standing_throughCache, standing_readMem]
    · simp only [standing_writeMem, standing_throughCache]

@[simp] theorem State.standing_answerNc (m : Msg) (code status : Nat) (data : List Byte) (poison : Nat) :
    (s.answerNc m code status data poison).standing = s.standing := standing_send ..

@[simp] theorem State.standing_snoop (code line mask : Nat) : (s.snoop code line mask).standing = s.standing := by
  unfold snoop
  dsimp only
  split <;> simp

/-- The first error of a home's registers is recorded, field by field. -/
theorem State.standing_firstError (v a g st l : Field) (i x y z w : Nat) : (if s.flag v i then s
    else ((((s.setFld a i x).setFld g i y).setFld st i z).setFld l i w).raise v i).standing = s.standing := by
  split <;> simp

@[simp] theorem State.standing_noteHomeErr (m : Msg) : (s.noteHomeErr m).standing = s.standing := by
  unfold noteHomeErr
  dsimp only
  split
  · exact standing_raise ..
  · split <;> exact (standing_firstError ..).trans (standing_raise ..)

@[simp] theorem State.standing_setTx (line : Nat) (t : Option Tx) : (s.setTx line t).standing = s.standing := standing_setHome ..

@[simp] theorem State.standing_homeError (m : Msg) : (s.homeError m).standing = s.standing := by
  unfold homeError
  simp only [standing_setHome]
  split
  · simp
  · repeat' split
    all_goals simp

@[simp] theorem State.standing_awaitCtl (line : Nat) (h : HomeLine) (t : Tx) : (s.awaitCtl line h t).standing = s.standing := (rfl)

@[simp] theorem State.standing_awaitMemory (m : Msg) : (s.awaitMemory m).standing = s.standing := standing_awaitCtl ..

@[simp] theorem State.standing_awaitSnoops (m : Msg) (code mask : Nat) (listed : Bool) :
    (s.awaitSnoops m code mask listed).standing = s.standing := by
  unfold awaitSnoops
  simp

@[simp] theorem State.standing_grantOwner (m : Msg) : (s.grantOwner m).standing = s.standing := by
  unfold grantOwner grant
  simp

@[simp] theorem State.standing_putWrite (m : Msg) : (s.putWrite m).standing = s.standing := by
  unfold putWrite
  simp

@[simp] theorem State.standing_ncWriteDs (m : Msg) : (s.ncWriteDs m).standing = s.standing := by
  unfold ncWriteDs
  simp

@[simp] theorem State.standing_ncWriteDi (m : Msg) : (s.ncWriteDi m).standing = s.standing := by
  unfold ncWriteDi
  simp

@[simp] theorem State.standing_homeStart (m : Msg) : (s.homeStart m).standing = s.standing := by
  unfold homeStart
  dsimp only
  repeat' split
  all_goals simp

@[simp] theorem State.standing_startVictim (m : Msg) : (s.startVictim m).standing = s.standing := by
  unfold startVictim
  dsimp only
  split <;> simp

@[simp] theorem State.standing_homeAdmit (m : Msg) : (s.homeAdmit m).standing = s.standing := by
  unfold homeAdmit
  split
  · simp
  · dsimp only
    split
    · split
      · simp
      · split <;> simp
    · simp

@[simp] theorem State.standing_homeNext (line n : Nat) : (s.homeNext line n).standing = s.standing := by
  induction n generalizing s with
  | zero => rfl
  | succ n ih =>
    unfold homeNext
    dsimp only
    split
    · rw [ih, standing_homeAdmit, standing_setHome]
    · rfl

@[simp] theorem State.standing_wakeLine (line : Nat) : (s.wakeLine line).standing = s.standing := standing_homeNext ..

@[simp] theorem State.standing_wakeSet (line : Nat) : (s.wakeSet line).standing = s.standing :=
  standing_foldl s (fun _ _ => standing_wakeLine ..) _

@[simp] theorem State.standing_homeRequest (m : Msg) : (s.homeRequest m).standing = s.standing := by
  unfold homeRequest
  dsimp only
  split
  · simp
  · split <;> simp

end Homes

end Sys2Proof.Machine

/-! PROOF. Accesses that are issued, here or to another module, leave the standing alone (R34, R43, R282, R322). -/

namespace Sys2Proof.Machine

section Issue

variable (s : State)

/-! ## Shared memory (R316, R322) -/

@[simp] theorem State.standing_recall (line : Nat) : (s.recall line).standing = s.standing := by
  unfold State.recall
  dsimp only
  split
  · rfl
  · split
    · rfl
    · rfl
    · split
      · simp
      · split <;> simp

@[simp] theorem State.standing_invalidateCopies (line : Nat) : (s.invalidateCopies line).standing = s.standing := by
  have hlines (u : State) (l : List Nat) : (l.foldl (fun s a =>
      let st := invalidatedState (s.line a line).st
      s.setLine a line (if st = .iiA then { s.line a line with st := st } else { Line.empty with st := st })) u).standing = u.standing :=
    standing_foldl u (fun _ _ => standing_setLine ..) l
  unfold invalidateCopies
  dsimp only at hlines ⊢
  split
  · rfl
  · split <;> split <;> simp [hlines]

@[simp] theorem State.standing_readCoherent (a n : Nat) : (s.readCoherent a n).1.standing = s.standing := by
  unfold readCoherent
  split
  · split <;> simp
  · simp

@[simp] theorem State.standing_readParts (l : List (Nat × Nat)) : (s.readParts l).1.standing = s.standing := by
  induction l generalizing s with
  | nil => rfl
  | cons p rest ih => exact (ih _).trans (standing_readCoherent ..)

@[simp] theorem State.standing_accessCache (rq : Requester) (a n : Nat) (write : Bool) :
    (s.accessCache rq a n write).standing = s.standing := by
  unfold accessCache
  split
  · exact standing_foldl s (fun _ _ => standing_throughCache ..) _
  · simp

@[simp] theorem State.standing_readShared (rq : Requester) (a n : Nat) : (s.readShared rq a n).1.standing = s.standing := by
  rw [readShared, standing_readParts, standing_accessCache]
  exact standing_foldl s (fun _ _ => standing_recall ..) _

@[simp] theorem State.standing_openAccess (who : Requester) (ctx : Option CmdRef) (addr len op : Nat) (w : Waiter) :
    (s.openAccess who ctx addr len op w).standing = s.standing := (rfl)

@[simp] theorem State.standing_writeCoherent (rq : Requester) (ref : Option CmdRef) (a : Nat) (b : List Byte) :
    (s.writeCoherent rq ref a b).1.standing = s.standing := by
  unfold writeCoherent
  split <;> simp

@[simp] theorem State.standing_writeParts (rq : Requester) (ref : Option CmdRef) (b : List Byte) (l : List (Nat × Nat)) :
    (s.writeParts rq ref b l).1.standing = s.standing := by
  induction l generalizing s b with
  | nil => rfl
  | cons p rest ih => exact (ih _ _).trans (standing_writeCoherent ..)

/-- Before a write the copies of a line that no transaction holds are invalidated, and its reservations end. -/
theorem State.standing_claimLine (l : Nat) : (if s.lineBusy l then s else (s.invalidateCopies l).clearResv l).standing = s.standing := by
  split <;> simp

@[simp] theorem State.standing_writeShared (rq : Requester) (ref : Option CmdRef) (a : Nat) (b : List Byte) :
    (s.writeShared rq ref a b).1.standing = s.standing := by
  unfold writeShared
  rw [standing_writeParts, standing_accessCache]
  exact standing_foldl s (fun _ _ => standing_claimLine ..) _

/-! ## This module's memory (R34, R43) -/

@[simp] theorem State.standing_judge (rq : Requester) (op a n : Nat) : (s.judge rq op a n).1.standing = s.standing := by
  unfold judge
  dsimp only
  split
  · simp
  · rfl
  · simp
  · rfl
  · repeat' split
    all_goals rfl

@[simp] theorem State.standing_readLocal (rq : Requester) (a n : Nat) : (s.readLocal rq a n).1.standing = s.standing := by
  unfold readLocal
  split
  · next heq => exact standing_of_pair heq (standing_judge ..)
  · next heq =>
    have hjudged := standing_of_pair heq (standing_judge ..)
    dsimp only
    split <;> simp [hjudged]

@[simp] theorem State.standing_writeLocal (rq : Requester) (ref : Option CmdRef) (a : Nat) (b : List Byte) :
    (s.writeLocal rq ref a b).1.standing = s.standing := by
  unfold writeLocal
  split
  · next heq => exact standing_of_pair heq (standing_judge ..)
  · next u heq =>
    have hjudged := standing_of_pair heq (standing_judge ..)
    have hlines : ((linesOf a b.length).foldl State.clearResv u).standing = u.standing := standing_foldl u (fun _ _ => standing_clearResv ..) _
    dsimp only
    split <;> simp [hjudged, hlines]

@[simp] theorem State.standing_ncIssue (rq : Requester) (ref : Option CmdRef) (a n op : Nat) (w : Waiter) (ms : List Msg) :
    (s.ncIssue rq ref a n op w ms).standing = s.standing := by
  unfold ncIssue
  exact (standing_foldl _ (fun _ _ => standing_homeRequest ..) _).trans (standing_opens ..)

@[simp] theorem State.standing_issueReg (rq : Requester) (ref : Option CmdRef) (a off n op : Nat) (b : List Byte) (w : Waiter) :
    (s.issueReg rq ref a off n op b w).1.standing = s.standing := by
  unfold issueReg
  split <;> simp

@[simp] theorem State.standing_localRead (rq : Requester) (ref : Option CmdRef) (a t n : Nat) (w : Waiter) :
    (s.localRead rq ref a t n w).1.standing = s.standing := by
  unfold localRead
  split
  · simp
  · split
    · simp
    · split
      · next heq => exact standing_of_pair heq (standing_judge ..)
      · next heq => simpa using standing_of_pair heq (standing_judge ..)

@[simp] theorem State.standing_localWrite (rq : Requester) (ref : Option CmdRef) (a t : Nat) (b : List Byte) (w : Waiter) :
    (s.localWrite rq ref a t b w).1.standing = s.standing := by
  unfold localWrite
  split
  · simp
  · split
    · simp
    · split
      · next heq => exact standing_of_pair heq (standing_judge ..)
      · next heq => simpa using standing_of_pair heq (standing_judge ..)

/-! ## Other modules (R361, R366) -/

@[simp] theorem State.standing_sendPacket (x : Packet) : (s.sendPacket x).1.standing = s.standing := by
  unfold sendPacket queuePacket
  split <;> simp

@[simp] theorem State.standing_openRemote (rq : Requester) (ref : Option CmdRef) (addr len op : Nat) (w : Waiter) (m p : Nat) :
    (s.openRemote rq ref addr len op w m p).standing = s.standing := (rfl)

@[simp] theorem State.standing_windowTarget (rq : Requester) (op a w off : Nat) : (s.windowTarget rq op a w off).1.standing = s.standing := by
  unfold windowTarget
  split
  · simp
  · split
    · simp
    · dsimp only
      split <;> rfl

@[simp] theorem State.standing_remoteRequest (rq : Requester) (ref : Option CmdRef) (a n op : Nat) (w : Waiter) (e : WinEntry)
    (x : Packet) : (s.remoteRequest rq ref a n op w e x).1.standing = s.standing := by
  unfold remoteRequest
  split
  · rfl
  · split
    · rfl
    · split
      · next heq => simpa using standing_of_pair heq (standing_sendPacket ..)
      · next heq => exact standing_of_pair heq (standing_sendPacket ..)

/-! ## Accesses as they are issued -/

@[simp] theorem State.standing_issueRead (rq : Requester) (ref : Option CmdRef) (a n : Nat) (w : Waiter) (mark : Nat) :
    (s.issueRead rq ref a n w mark).1.standing = s.standing := by
  unfold issueRead
  split
  · split <;> simp
  · split
    · next heq => exact standing_of_pair heq (standing_windowTarget ..)
    · next heq =>
      have htarget := standing_of_pair heq (standing_windowTarget ..)
      split <;> simp [htarget]
  · simp

@[simp] theorem State.standing_issueWrite (rq : Requester) (ref : Option CmdRef) (a : Nat) (b : List Byte) (w : Waiter) (mark : Nat) :
    (s.issueWrite rq ref a b w mark).1.standing = s.standing := by
  unfold issueWrite
  split
  · split <;> simp
  · split
    · next heq => exact standing_of_pair heq (standing_windowTarget ..)
    · next heq =>
      have htarget := standing_of_pair heq (standing_windowTarget ..)
      split <;> simp [htarget]
  · simp

/-! ## Rings (R344, R376) -/

@[simp] theorem State.standing_ringDone (kind i : Nat) (ok : Bool) : (s.ringDone kind i ok).standing = s.standing := by
  unfold ringDone
  dsimp only
  split <;> simp

@[simp] theorem State.standing_ringWrite (kind i : Nat) (b : List Byte) : (s.ringWrite kind i b).standing = s.standing := by
  unfold ringWrite
  dsimp only
  split
  · next heq => simpa using standing_of_pair heq (standing_issueWrite ..)
  · next heq => exact standing_of_pair heq (standing_issueWrite ..)

@[simp] theorem State.standing_ringQ (q : List RingRec) : ({ s with ringQ := q } : State).standing = s.standing := (rfl)

@[simp] theorem State.standing_ringAppend (kind i : Nat) (b : List Byte) : (s.ringAppend kind i b).standing = s.standing := by
  unfold ringAppend
  dsimp only
  repeat' split
  all_goals simp only [standing_bump, standing_ringWrite, standing_ringQ]

@[simp] theorem State.standing_ringDrain (kind i n : Nat) : (s.ringDrain kind i n).standing = s.standing := by
  induction n generalizing s with
  | zero => rfl
  | succ n ih =>
    unfold ringDrain
    split
    · rfl
    · split
      · rw [ih, standing_ringWrite, standing_ringQ]
      · rfl

end Issue

end Sys2Proof.Machine

/-! PROOF. What the answer of an access does leaves the standing alone (R293, R341, R361), and so does the loss of the host (R405). -/

namespace Sys2Proof.Machine

section Answers

variable (s : State)

/-! ## Commands that end (R197, R341) -/

@[simp] theorem State.standing_updCtx (c : Nat) (f : Ctx → Ctx) : (s.updCtx c f).standing = s.standing := standing_setCtx ..

@[simp] theorem State.standing_updCmd (r : CmdRef) (f : Cmd → Cmd) : (s.updCmd r f).standing = s.standing := standing_setCtx ..

@[simp] theorem State.standing_enterCtx (c : Nat) (st : CtxState) : (s.enterCtx c st).standing = s.standing := standing_updCtx ..

@[simp] theorem State.standing_halt (c reason : Nat) : (s.halt c reason).standing = s.standing := by
  rw [halt, standing_enterCtx, standing_setFld]

@[simp] theorem State.standing_finishCmd (r : CmdRef) : (s.finishCmd r).standing = s.standing := standing_updCmd ..

@[simp] theorem State.standing_coverCtx (c status : Nat) : (s.coverCtx c status).standing = s.standing := by
  unfold coverCtx
  split <;> simp

@[simp] theorem State.standing_releaseQueues (k e : Nat) : (s.releaseQueues k e).standing = s.standing := (rfl)

@[simp] theorem State.standing_reverts (l : List Revert) (f : List Firing) :
    ({ s with reverts := l, firings := f } : State).standing = s.standing := (rfl)

@[simp] theorem State.standing_tileFenceCheck (p : Nat) : (s.tileFenceCheck p).standing = s.standing := by
  unfold tileFenceCheck
  split <;> simp

@[simp] theorem State.standing_dropEntry (k e : Nat) : (s.dropEntry k e).standing = s.standing := by
  unfold dropEntry
  split
  · rfl
  · dsimp only
    rw [standing_tileFenceCheck, standing_setEntry]
    repeat' split
    all_goals simp only [standing_setEngine, standing_setVecRun, standing_reverts, standing_releaseQueues]

@[simp] theorem State.standing_dropEntries (l : List (Nat × Nat × Entry)) : (s.dropEntries l).standing = s.standing :=
  standing_foldl s (fun _ _ => standing_dropEntry ..) l

@[simp] theorem State.standing_countRetired (c n : Nat) : (s.countRetired c n).standing = s.standing := (rfl)

@[simp] theorem State.standing_contribs (l : List Contribution) : ({ s with contribs := l } : State).standing = s.standing := (rfl)

@[simp] theorem State.standing_discardOn (r : CmdRef) (c : Nat) (mine : Nat → Bool) : (s.discardOn r c mine).standing = s.standing := by
  unfold discardOn
  simp only [standing_setCirc, standing_contribs]
  split <;> simp

@[simp] theorem State.standing_discardTokens (r : CmdRef) (mine : Nat → Bool) : (s.discardTokens r mine).standing = s.standing :=
  standing_foldl s (fun _ _ => standing_discardOn ..) _

/-- A token of a queue moves to its new place. -/
theorem State.standing_moveToken (a b n : Nat) (p : Prop) [Decidable p] :
    (if p then s else s.setBytes a (s.bytes b n)).standing = s.standing := by
  split <;> simp

@[simp] theorem State.standing_dropOwn (r : CmdRef) (key : Nat) : (s.dropOwn r key).standing = s.standing := by
  unfold dropOwn
  dsimp only
  split
  · rfl
  · rw [standing_setQueue]
    exact standing_foldl s (fun _ _ => standing_moveToken ..) _

@[simp] theorem State.standing_dropOwnTokens (r : CmdRef) : (s.dropOwnTokens r).standing = s.standing :=
  standing_foldl s (fun _ _ => standing_dropOwn ..) _

@[simp] theorem State.standing_walks (l : List Walk) : ({ s with walks := l } : State).standing = s.standing := (rfl)

@[simp] theorem State.standing_endCmd (r : CmdRef) (status detail : Nat) (mine : Nat → Bool) :
    (s.endCmd r status detail mine).standing = s.standing := by
  unfold endCmd
  split
  · simp
  · split
    · split <;> simp
    · dsimp only
      rw [standing_walks]
      split <;> simp only [standing_dropOwnTokens, standing_discardTokens, standing_dropEntries, standing_updCmd]

@[simp] theorem State.standing_failCmd (r : CmdRef) (status detail : Nat) : (s.failCmd r status detail).standing = s.standing :=
  standing_endCmd ..

/-! ## Faults (R340, R344) -/

@[simp] theorem State.standing_raiseFault (w : FaultSite) (code level pte pteAddr addr : Nat) :
    (s.raiseFault w code level pte pteAddr addr).standing = s.standing := by
  unfold raiseFault
  dsimp only
  split
  · rfl
  · rw [standing_ringAppend]
    repeat' split
    all_goals simp only [standing_failCmd, standing_enterCtx, standing_setFld, standing_updCtx, standing_packet, standing_event,
      standing_bump]

@[simp] theorem State.standing_accessFault (w : FaultSite) (addr status : Nat) : (s.accessFault w addr status).standing = s.standing := by
  unfold accessFault
  split
  · rfl
  · dsimp only
    split
    · simp only [standing_raiseFault, standing_coverCtx]
    · split <;> simp only [standing_failCmd, standing_event, standing_coverCtx]

/-! ## Fetched commands (R195) -/

@[simp] theorem State.standing_haltCtx (c status reason : Nat) : (s.haltCtx c status reason).standing = s.standing := by
  rw [haltCtx, standing_halt, standing_setFld]

@[simp] theorem State.standing_takeSlot (c seq : Nat) (slot : List Byte) : (s.takeSlot c seq slot).standing = s.standing :=
  standing_updCtx ..

@[simp] theorem State.standing_endFetch (c : Nat) : (s.endFetch c).standing = s.standing := by
  unfold endFetch
  split
  · rfl
  · dsimp only
    split <;> simp only [standing_setFld, standing_writeLocal, standing_updCtx]

@[simp] theorem State.standing_slotRead (c status : Nat) (b : List Byte) : (s.slotRead c status b).standing = s.standing := by
  unfold slotRead
  split
  · rfl
  · split
    · simp
    · split <;> simp

@[simp] theorem State.standing_fetchSlots (c n : Nat) : (s.fetchSlots c n).standing = s.standing := by
  induction n generalizing s with
  | zero => exact standing_endFetch ..
  | succ n ih =>
    unfold fetchSlots
    split
    · rfl
    · split
      · simp
      · split
        · simp [ih]
        · split
          · next heq => exact standing_of_pair heq (standing_issueRead ..)
          · next heq => simpa [ih] using standing_of_pair heq (standing_issueRead ..)

/-! ## Data of commands (R200 to R204) -/

@[simp] theorem State.standing_writeParts256 (rq : Requester) (ref : CmdRef) (mark : Nat) (l : List (Nat × Nat)) (b : List Byte) :
    (s.writeParts256 rq ref mark l b).1.standing = s.standing := by
  induction l generalizing s b with
  | nil => rfl
  | cons p rest ih =>
    unfold writeParts256
    split
    · next heq =>
      have hissued := standing_of_pair heq (standing_issueWrite ..)
      split <;> simp [ih, hissued]
    · next heq => simpa [ih] using standing_of_pair heq (standing_issueWrite ..)

@[simp] theorem State.standing_copyStore (r : CmdRef) (dst : Nat) (b : List Byte) : (s.copyStore r dst b).1.standing = s.standing := by
  unfold copyStore writePieces
  split
  · next heq => simpa using standing_of_pair heq (standing_writeParts256 ..)
  · next heq => exact standing_of_pair heq (standing_writeParts256 ..)

@[simp] theorem State.standing_copyData (r : CmdRef) (src dst status : Nat) (b : List Byte) :
    (s.copyData r src dst status b).standing = s.standing := by
  unfold copyData
  repeat' split
  all_goals simp

@[simp] theorem State.standing_launchData (r : CmdRef) (src status : Nat) (b : List Byte) :
    (s.launchData r src status b).standing = s.standing := by
  unfold launchData
  repeat' split
  all_goals simp

@[simp] theorem State.standing_waitValue (r : CmdRef) (src status : Nat) (b : List Byte) :
    (s.waitValue r src status b).standing = s.standing := by
  unfold waitValue
  repeat' split
  all_goals simp

@[simp] theorem State.standing_recordPart (r : CmdRef) (status : Nat) : (s.recordPart r status).standing = s.standing := standing_updCmd ..

@[simp] theorem State.standing_updFiring (k e f : Nat) (g : Firing → Firing) : (s.updFiring k e f g).standing = s.standing := (rfl)

@[simp] theorem State.standing_returnCredit (c : Nat) (note : Nat × Nat) : (s.returnCredit c note).standing = s.standing := standing_setCirc ..

/-! ## CPU cores (R293, R298) -/

@[simp] theorem State.standing_updCpu (c : Nat) (f : Cpu → Cpu) : (s.updCpu c f).standing = s.standing := standing_setCpu ..

@[simp] theorem State.standing_trapCpu (c code : Nat) : (s.trapCpu c code).standing = s.standing := standing_updCpu ..

@[simp] theorem State.standing_coverCpu (c status : Nat) : (s.coverCpu c status).standing = s.standing := by
  unfold coverCpu
  split <;> simp

@[simp] theorem State.standing_broken (l : List ((Nat × Nat) × Nat)) : ({ s with broken := l } : State).standing = s.standing := (rfl)

@[simp] theorem State.standing_tryFence (c : Nat) : (s.tryFence c).standing = s.standing := by
  unfold tryFence
  split
  · split
    · rfl
    · simp
  · rfl

@[simp] theorem State.standing_cpuLoaded (c rd size : Nat) (signed atomic : Bool) (status : Nat) (b : List Byte) :
    (s.cpuLoaded c rd size signed atomic status b).standing = s.standing := by
  unfold cpuLoaded
  split
  · simp
  · dsimp only
    rw [standing_trapCpu]
    split <;> simp

@[simp] theorem State.standing_cpuFetched (c status : Nat) : (s.cpuFetched c status).standing = s.standing := by
  unfold cpuFetched
  split
  · rfl
  · rw [standing_trapCpu]
    split <;> simp

/-! ## Other modules, the host and the ports (R361, R400, R410) -/

@[simp] theorem State.standing_respondTo (module tag typ status : Nat) (data : List Byte) :
    (s.respondTo module tag typ status data).standing = s.standing := standing_sendPacket ..

@[simp] theorem State.standing_answerPacket (module tag op status : Nat) (data : List Byte) :
    (s.answerPacket module tag op status data).standing = s.standing := by
  unfold answerPacket
  repeat' split
  all_goals simp

@[simp] theorem State.standing_feedData (k e f addr status : Nat) (b : List Byte) : (s.feedData k e f addr status b).standing = s.standing := by
  unfold feedData
  repeat' split
  all_goals simp

@[simp] theorem State.standing_plainDone (o : OpenAccess) (status : Nat) : (s.plainDone o status).standing = s.standing := by
  unfold plainDone
  repeat' split
  all_goals simp

@[simp] theorem State.standing_hostAnswered (status : Nat) (data : List Byte) : (s.hostAnswered status data).standing = s.standing := by
  unfold hostAnswered
  repeat' split
  all_goals simp

@[simp] theorem State.standing_rdmaAnswer (port qp tag op addr status : Nat) (data : List Byte) :
    (s.rdmaAnswer port qp tag op addr status data).standing = s.standing := by
  unfold rdmaAnswer
  repeat' split
  all_goals simp

@[simp] theorem State.standing_hostStored (a n : Nat) (poison : Bool) (status : Nat) :
    (s.hostStored a n poison status).standing = s.standing := by
  unfold hostStored
  split
  · simp
  · split
    · exact standing_foldl s (fun _ _ => standing_poisonGranule ..) _
    · rfl

@[simp] theorem State.standing_issueHostWrite (rq : Requester) (a : Nat) (b : List Byte) (ep : Bool) :
    (s.issueHostWrite rq a b ep).standing = s.standing := by
  unfold issueHostWrite
  split
  · next heq => simpa using standing_of_pair heq (standing_issueWrite ..)
  · next heq => exact standing_of_pair heq (standing_issueWrite ..)

@[simp] theorem State.standing_openList (l : List OpenAccess) : ({ s with opens := l } : State).standing = s.standing := (rfl)

@[simp] theorem State.standing_unpark (o : OpenAccess) : (s.unpark o).standing = s.standing := by
  unfold unpark
  dsimp only
  split
  · split
    · next heq =>
      have hissued := standing_of_pair heq (standing_issueRead ..)
      rw [standing_rdmaAnswer]
      split <;> simpa using hissued
    · next heq => simpa using standing_of_pair heq (standing_issueRead ..)
  · split
    · next heq => simpa using standing_of_pair heq (standing_issueRead ..)
    · next heq => simpa using standing_of_pair heq (standing_issueRead ..)
  · simp
  · simp

/-- Of the host's waiting accesses those go on that nothing holds. -/
theorem State.standing_unparkOne (o : OpenAccess) : (if o.isReg || s.hostBehind o then s else s.unpark o).standing = s.standing := by
  split <;> simp

@[simp] theorem State.standing_hostWritten (o : OpenAccess) (poison : Bool) (status : Nat) :
    (s.hostWritten o poison status).standing = s.standing :=
  (standing_foldl _ (fun _ _ => standing_unparkOne ..) _).trans (standing_hostStored ..)

@[simp] theorem State.standing_rdmaDone (o : OpenAccess) (port qp tag win status : Nat) (data : List Byte) :
    (s.rdmaDone o port qp tag win status data).standing = s.standing := by
  have hunparked (u : State) (l : List OpenAccess) : (l.foldl State.unpark u).standing = u.standing :=
    standing_foldl u (fun _ _ => standing_unpark ..) l
  unfold rdmaDone
  dsimp only
  repeat' split
  all_goals simp only [standing_setFld, hunparked, standing_rdmaAnswer]

/-! ## Loads of images and firmware (R68, R469): the fetch alone changes -/

@[simp] theorem State.standing_setLoad (load : Bool) (f : Option Fetch) : (s.setLoad load f).standing = s.standing := by
  unfold setLoad
  split <;> rfl

@[simp] theorem State.standing_loadData (load : Bool) (status : Nat) (b : List Byte) : (s.loadData load status b).standing = s.standing := by
  unfold loadData
  split <;> simp

@[simp] theorem State.standing_loadReads (load : Bool) (n : Nat) : (s.loadReads load n).standing = s.standing := by
  induction n generalizing s with
  | zero => rfl
  | succ n ih =>
    unfold loadReads
    split
    · rfl
    · split
      · rfl
      · split
        · next heq => exact standing_of_pair heq (standing_issueRead ..)
        · next heq => simpa [ih] using standing_of_pair heq (standing_issueRead ..)

/-! ## The answer itself -/

@[simp] theorem State.standing_finishAccess (id status : Nat) (data : List Byte) : (s.finishAccess id status data).standing = s.standing := by
  unfold finishAccess
  split
  · rfl
  · next o _ =>
    dsimp only
    have hkept : ({ s with opens := s.opens.filter (fun x => x.id != id) } : State).standing = s.standing := standing_openList ..
    generalize ({ s with opens := s.opens.filter (fun x => x.id != id) } : State) = u at hkept ⊢
    have hdone : ∀ v : State, v.standing = s.standing →
        (if o.who.kind = .cpu ∧ o.ctx.isNone then v.tryFence o.who.unit else v).standing = s.standing := by
      intro v hv
      split <;> simp [hv]
    apply hdone
    cases o.waiter <;> dsimp only
    case packet => split <;> simp [hkept]
    case zero => split <;> simp [hkept]
    all_goals simp only [hkept, standing_plainDone, standing_cpuLoaded, standing_cpuFetched, standing_copyData, standing_launchData,
      standing_waitValue, standing_feedData, standing_fetchSlots, standing_slotRead, standing_recordPart, standing_ringDrain,
      standing_ringDone, standing_rdmaDone, standing_hostAnswered, standing_hostWritten, standing_returnCredit, standing_loadReads,
      standing_loadData]

/-! ## The host and the ports are lost (R405, R408) -/

@[simp] theorem State.standing_dropHostAccesses : s.dropHostAccesses.standing = s.standing :=
  standing_foldl s (fun _ _ => standing_finishAccess ..) _

@[simp] theorem State.standing_hostLoss (cause : Nat) : (s.hostLoss cause).standing = s.standing := by
  have hfail (u : State) (l : List CmdRef) : (l.foldl (fun s r => s.failCmd r stHostLost) u).standing = u.standing :=
    standing_foldl u (fun _ _ => standing_failCmd ..) l
  unfold hostLoss
  refine (standing_foldl _ (fun u _ => hfail u _) _).trans ?_
  simp only [standing_openList, standing_dropHostAccesses, standing_setFld, standing_raise]

end Answers

end Sys2Proof.Machine

/-! PROOF. RESET_N (R539): what the request of a warm chip reset records stands after all that the reset loses. -/

namespace Sys2Proof.Machine

section Sideband

variable {s : State} {reason : Nat}

/-! ## The request of a chip reset (R456, R457) -/

theorem State.standing_setPortState (p st : Nat) : (s.setPortState p st).standing = s.standing := (rfl)

theorem State.standing_ethLink_down (p : Nat) : (s.ethLink p false).standing = s.standing := by
  unfold ethLink
  split <;> simp

/-- The chip's fence begins, with the reason of the start that will follow it. -/
def State.fenceChip (s : State) (reason : Nat) : State :=
  { s with fences := [⟨.chip, s.ft, stFenced⟩], recovs := [], boot := { s.boot with reason := reason, startBeats := 0 } }

theorem State.standing_bme (b : Bool) : ({ s with bme := b } : State).standing = s.standing := (rfl)

/-- The losses of a chip reset follow its fence. -/
theorem State.standing_chipReset (hidle : s.chipResetting = false) (hon : s.elec.powered = true) (hcycle : s.elec.cycleReq = false) :
    (s.chipReset reason).standing = (s.fenceChip reason).standing := by
  have hevents (u : State) : ((List.range 16).foldl (fun s c => s.unitEvent 0x800F 2 c 3) u).standing = u.standing :=
    standing_foldl u (fun _ _ => standing_unitEvent ..) _
  have hports (u : State) : ((List.range 16).foldl (fun s p => (s.setPortState p psDown).setPort p Port.init) u).standing = u.standing :=
    standing_foldl u (fun _ _ => (standing_setPort ..).trans (standing_setPortState ..)) _
  have hstarts : ¬ (s.chipResetting = true ∨ (!s.elec.powered) = true ∨ s.elec.cycleReq = true) := by simp [hidle, hon, hcycle]
  rw [chipReset, if_neg hstarts]
  simp only [standing_ethLink_down, standing_setFld, standing_bme, standing_hostLoss, hports, hevents]
  rfl

theorem State.chipReset_of_resetting (hreset : s.chipResetting = true) : s.chipReset reason = s := if_pos (.inl hreset)

/-! ## RESET_N -/

/-- RESET_N is low. -/
def State.holdReset (s : State) : State := { s with elec := { s.elec with resetLow := true } }

theorem State.resetAssert_of_trip (htrip : s.elec.trip = true) : s.resetAssert = s := if_pos htrip

theorem State.resetAssert_of_clear (htrip : s.elec.trip = false) : s.resetAssert = s.holdReset.chipReset 3 := if_neg (by simp [htrip])

theorem State.stageRom_of_held {ref : Bool} (hlow : s.elec.resetLow = true) : s.stageRom ref = s := if_pos (.inr hlow)

theorem State.bootBeat_of_held (hlow : s.elec.resetLow = true) : s.bootBeat = s := if_pos hlow

end Sideband

theorem exec_resetNAssert (s : State) : exec .resetNAssert s = .next s.resetAssert.mirror := rfl

/-- Settles O54: the request records its reason and fences the chip, and none of the losses that follow it touches the reason, the fences or
the pins. -/
theorem sidebandReset : Obligations.SidebandReset := by
  unfold Obligations.SidebandReset
  refine ⟨?request, ?running, ?tripped, exec_resetNAssert, ?held⟩
  case request =>
    intro s htrip hon hcycle hidle
    rw [exec_resetNAssert, State.resetAssert_of_clear htrip]
    refine ⟨rfl, _, rfl, ?_⟩
    have hstand := State.standing_chipReset (s := s.holdReset) (reason := 3) hidle hon hcycle
    simp only [State.fencing, State.mirror_frame, State.reason_of_standing hstand, State.elec_of_standing hstand,
      State.fences_of_standing hstand]
    exact ⟨rfl, rfl, rfl⟩
  case running =>
    intro s htrip hreset
    rw [exec_resetNAssert, State.resetAssert_of_clear htrip, State.chipReset_of_resetting (s := s.holdReset) hreset, State.holdReset]
  case tripped =>
    intro s htrip
    rw [exec_resetNAssert, State.resetAssert_of_trip htrip]
  case held =>
    intro s ref hlow
    exact ⟨by rw [exec_stageRom, State.stageRom_of_held hlow], State.bootBeat_of_held hlow⟩

end Sys2Proof.Machine
